-- ==== Sys2Proof/Word.lean ====
section
/-! DEFINITION. The words of the machine and their plainest arithmetic (spec/00_scope.md R4, R5). -/

namespace Sys2Proof

abbrev Byte := BitVec 8
abbrev W16 := BitVec 16
abbrev W32 := BitVec 32
abbrev W64 := BitVec 64

/-- A set of the 32 lanes of a cohort: bit l stands for the lane at LANEID l. -/
abbrev Mask := BitVec 32

/-- Whether lane `l` belongs to the mask. -/
def Mask.has (m : Mask) (l : Nat) : Bool := m.getLsbD l

/-- The mask of one lane. -/
def Mask.one (l : Nat) : Mask := BitVec.ofNat 32 (2 ^ l)

end Sys2Proof
end

