-- ==== Sys2Proof/Syntax.lean ====
section
/-! DEFINITION. Instruction words (spec/08_formats_opcode_map.md R170 to R178) and the ONE inductive of the part's
operations: a constructor for each row of spec/opcode_table.json. A row of a base form carries a base word, a row of an
extended form (and of a cell that has no base form) an extended word; a literal belongs to its word (R170). The rows
without a word are the steps of the engines, the front end, the host, the driver and Grotto, with the operands that say
which agent makes the step and what the outside world brings. -/

namespace Sys2Proof

/-- The base word of R174 with its optional literal (R178). -/
structure BaseWord where
  gn  : Bool
  gp  : BitVec 3
  d   : BitVec 6
  a   : BitVec 6
  b   : BitVec 6
  lit : Option W64
  deriving DecidableEq, Repr, Inhabited

/-- The extended word of R176 with its optional literal (R178). -/
structure ExtWord where
  fmt  : BitVec 4
  sub  : BitVec 10
  gn   : Bool
  gp   : BitVec 7
  moda : BitVec 10
  a    : BitVec 11
  d    : BitVec 11
  modb : BitVec 8
  ru   : BitVec 2
  c    : BitVec 11
  b    : BitVec 11
  lit  : Option W64
  deriving DecidableEq, Repr, Inhabited

/-- The extended word a base word executes as (R175). -/
def BaseWord.toExt (w : BaseWord) : ExtWord :=
  { fmt := 0, sub := 0, gn := w.gn, gp := w.gp.setWidth 7, moda := 0, a := w.a.setWidth 11, d := w.d.setWidth 11,
    modb := 0, ru := 0, c := 0, b := w.b.setWidth 11, lit := w.lit }

/-- The kinds of a memory access that translation tells apart (R347 DETAIL bits 18:17, R352). -/
inductive Access where
  | read | write | rmw | fetch
  deriving DecidableEq, Repr, Inhabited

/-- An access the outside world makes to the part's memory: bytes read, bytes written in ascending address, or one atomic. -/
inductive BusAccess where
  | read (n : Nat)
  | write (bytes : List Byte)
  | atomic (op ty : Nat) (value compare : W64)   -- a peer's atomic: its place in R263's table, its type code
  deriving DecidableEq, Repr, Inhabited

/-- What reads a line next (R388): a lane or a copy of a cohort's block, the host through CXL.mem, a page walker. -/
inductive EccReader where
  | cohort (slot : Nat)
  | host
  | walker
  deriving DecidableEq, Repr, Inhabited

/-- Where an uncorrectable error lies (R388): the store classes 0 to 7, with the place in the store and the reader or holder it
meets. A place that no allocation holds has no holder. -/
inductive EccSite where
  | hbmRead (slot line : Nat)                        -- class 0: a lane or copy read of this cohort's block, of an HBM line
  | hbmHostRead (addr : Nat)                         -- class 0: a host CXL.mem read
  | hbmWalk (line : Nat)                             -- class 0: a walker read of a line
  | l2Clean (die line : Nat)                         -- class 1, a clean line
  | l2Dirty (reader : EccReader) (line : Nat)        -- class 1, a dirty line, met by its next reader
  | general (core off : Nat) (slot : Option Nat)     -- class 2: a byte of the core's file, of this cohort's registers
  | narrow (core off : Nat) (slot : Option Nat)      -- class 3: the same in the narrow file
  | asp (core off : Nat)                             -- class 4: physical byte of the core's ASP
  | wbf (core off : Nat)                             -- class 5: physical byte of the core's WBF
  | acs (core off : Nat) (blk : Option Nat)          -- class 6: a byte of the core's accumulator store, of this block's tiles
  | tlb (core entry : Nat)                           -- class 7: a TLB entry of a core
  | clusterTlb (cluster entry : Nat)                 -- class 7: a TLB entry of a cluster
  | dieTlb (die entry : Nat)                         -- class 7: a TLB entry of a die
  | meetExt (slot off : Nat)                         -- class 7: a byte of a cohort's meet extension in flight
  | ringSlot (die slot : Nat)                        -- class 7: a ring slot
  | tcm (off : Nat)                                  -- class 7: a byte of Grotto's TCM
  deriving DecidableEq, Repr, Inhabited

/-- Why an instruction fetch fails (R172, R353). -/
inductive FetchFault where
  | pastEnd                         -- word 0 at or beyond the code size, or the size runs past it (R172)
  | translation                     -- the fetch fails translation (R353)
  deriving DecidableEq, Repr, Inhabited

inductive Instr where
  /-- ILLEGAL_ENCODING R190: A cohort issues at a word whose cell is reserved or whose LEN the cell does not allow, and raises ILLEGAL. -/
  | illegalEncoding
  /-- FETCH_FAULT R353: An instruction fetch fails translation and parks the cohort, or lies past the code size and raises ILLEGAL. -/
  | fetchFault (why : FetchFault)
  /-- MOV R201: Copies Va to Vd in each active lane; a full issue keeps the source's shape tag. -/
  | mov (w : BaseWord)
  /-- MOV_EXT R201: Extended encoding of MOV. -/
  | movExt (w : ExtWord)
  /-- MOVL R201: Base form with its required literal: writes literal bits 31:0 to Vd as a uniform value. -/
  | movl (w : BaseWord)
  /-- MOVL_EXT R201: Extended form with its required literal: writes literal bits 31:0 to Vd as a uniform value. -/
  | movlExt (w : ExtWord)
  /-- GETS R203: Reads a system register into Vd, sampled at issue, with the shape of R140. -/
  | gets (w : BaseWord)
  /-- GETS_EXT R203: Extended encoding of GETS. -/
  | getsExt (w : ExtWord)
  /-- SETS R204: Writes FPCTL or XPC from a uniform source for the whole cohort. -/
  | sets (w : BaseWord)
  /-- SETS_EXT R204: Extended encoding of SETS, with an optional literal. -/
  | setsExt (w : ExtWord)
  /-- SEL R202: Writes Va where Pc holds and Vb elsewhere; the result is general. -/
  | sel (w : ExtWord)
  /-- LANEOF R221: Writes the LANEID of the lowest active lane where Pa holds, or 32, as a uniform value. -/
  | laneof (w : BaseWord)
  /-- LANEOF_EXT R221: Extended encoding of LANEOF. -/
  | laneofExt (w : ExtWord)
  /-- NOP R205: Does nothing. -/
  | nop (w : BaseWord)
  /-- NOP_EXT R205: Extended encoding of NOP. -/
  | nopExt (w : ExtWord)
  /-- BRA R226: Base form with its required literal: branches the active lanes, possibly splitting the PC-group. -/
  | bra (w : BaseWord)
  /-- BRA_EXT R226: Extended form of BRA with its required literal. -/
  | braExt (w : ExtWord)
  /-- BRX R227: Branches each active lane to its own register target and elects PC-groups under R31. -/
  | brx (w : BaseWord)
  /-- BRX_EXT R227: Extended encoding of BRX. -/
  | brxExt (w : ExtWord)
  /-- CALL R228: Base form with its required literal: writes the return offset to Vd and branches. -/
  | call (w : BaseWord)
  /-- CALL_EXT R228: Extended form of CALL with its required literal. -/
  | callExt (w : ExtWord)
  /-- CALLX R228: Writes the return offset to Vd and branches to per-lane targets, as BRX does. -/
  | callx (w : BaseWord)
  /-- CALLX_EXT R228: Extended encoding of CALLX. -/
  | callxExt (w : ExtWord)
  /-- RET R228: Branches to the per-lane targets in Va, as BRX does. -/
  | ret (w : BaseWord)
  /-- RET_EXT R228: Extended encoding of RET. -/
  | retExt (w : ExtWord)
  /-- MEET R23: Base form with its required literal: pushes MR, sets the meeting point and adds the active lanes to join Jn. -/
  | meet (w : BaseWord)
  /-- MEET_EXT R23: Extended form of MEET with its required literal. -/
  | meetExt (w : ExtWord)
  /-- WAITJ R26: Holds each active member of Jn as held for the join. -/
  | waitj (w : BaseWord)
  /-- WAITJ_EXT R26: Extended encoding of WAITJ. -/
  | waitjExt (w : ExtWord)
  /-- EXIT R230: Marks the active lanes exited, removes them from every join and frees emptied slices. -/
  | exit (w : BaseWord)
  /-- EXIT_EXT R230: Extended encoding of EXIT. -/
  | exitExt (w : ExtWord)
  /-- TRAP R231: Raises TRAPI with XADDR set to n. -/
  | trap (w : BaseWord)
  /-- TRAP_EXT R231: Extended encoding of TRAP. -/
  | trapExt (w : ExtWord)
  /-- BKPT R231: Raises the precise trap BKPT. -/
  | bkpt (w : BaseWord)
  /-- BKPT_EXT R231: Extended encoding of BKPT. -/
  | bkptExt (w : ExtWord)
  /-- XRET R343: Leaves the trap handler: the handler lanes continue at XPC and the held PC-groups resume. -/
  | xret (w : BaseWord)
  /-- XRET_EXT R343: Extended encoding of XRET. -/
  | xretExt (w : ExtWord)
  /-- IADD R206: Integer add, wrapping or saturating. -/
  | iadd (w : BaseWord)
  /-- IADD_EXT R206: Extended encoding of IADD, with an optional literal. -/
  | iaddExt (w : ExtWord)
  /-- ISUB R206: Integer subtract. -/
  | isub (w : BaseWord)
  /-- ISUB_EXT R206: Extended encoding of ISUB. -/
  | isubExt (w : ExtWord)
  /-- IMUL R206: Integer multiply giving the low bits, or a clamp under .sat. -/
  | imul (w : BaseWord)
  /-- IMUL_EXT R206: Extended encoding of IMUL. -/
  | imulExt (w : ExtWord)
  /-- IMULH R206: High 32 bits of the 64-bit product. -/
  | imulh (w : BaseWord)
  /-- IMULH_EXT R206: Extended encoding of IMULH. -/
  | imulhExt (w : ExtWord)
  /-- IMAD R206: Integer multiply-add. -/
  | imad (w : ExtWord)
  /-- IDIV R206: Integer division truncating toward zero, with the fixed cases of R152. -/
  | idiv (w : BaseWord)
  /-- IDIV_EXT R206: Extended encoding of IDIV. -/
  | idivExt (w : ExtWord)
  /-- IREM R206: Integer remainder with the dividend's sign. -/
  | irem (w : BaseWord)
  /-- IREM_EXT R206: Extended encoding of IREM. -/
  | iremExt (w : ExtWord)
  /-- IMIN R206: Integer minimum. -/
  | imin (w : BaseWord)
  /-- IMIN_EXT R206: Extended encoding of IMIN. -/
  | iminExt (w : ExtWord)
  /-- IMAX R206: Integer maximum. -/
  | imax (w : BaseWord)
  /-- IMAX_EXT R206: Extended encoding of IMAX. -/
  | imaxExt (w : ExtWord)
  /-- IABS R206: Integer absolute value, wrapping. -/
  | iabs (w : BaseWord)
  /-- IABS_EXT R206: Extended encoding of IABS. -/
  | iabsExt (w : ExtWord)
  /-- INEG R206: Integer negate, wrapping. -/
  | ineg (w : BaseWord)
  /-- INEG_EXT R206: Extended encoding of INEG. -/
  | inegExt (w : ExtWord)
  /-- IADD64 R207: 64-bit add of register pairs. -/
  | iadd64 (w : BaseWord)
  /-- IADD64_EXT R207: Extended encoding of IADD64. -/
  | iadd64Ext (w : ExtWord)
  /-- IMAD64 R207: 32x32 multiply plus a 64-bit addend into a pair. -/
  | imad64 (w : ExtWord)
  /-- LEA R209: Writes a + b x 2^SH. -/
  | lea (w : BaseWord)
  /-- LEA_EXT R209: Extended encoding of LEA, carrying SH. -/
  | leaExt (w : ExtWord)
  /-- LEA64 R209: 64-bit address from a pair base and an extended 32-bit index. -/
  | lea64 (w : BaseWord)
  /-- LEA64_EXT R209: Extended encoding of LEA64. -/
  | lea64Ext (w : ExtWord)
  /-- AND R210: Bitwise AND. -/
  | and (w : BaseWord)
  /-- AND_EXT R210: Extended encoding of AND. -/
  | andExt (w : ExtWord)
  /-- OR R210: Bitwise OR. -/
  | or (w : BaseWord)
  /-- OR_EXT R210: Extended encoding of OR. -/
  | orExt (w : ExtWord)
  /-- XOR R210: Bitwise XOR. -/
  | xor (w : BaseWord)
  /-- XOR_EXT R210: Extended encoding of XOR. -/
  | xorExt (w : ExtWord)
  /-- NOT R210: Bitwise NOT. -/
  | not (w : BaseWord)
  /-- NOT_EXT R210: Extended encoding of NOT. -/
  | notExt (w : ExtWord)
  /-- ANDN R210: Bitwise a AND NOT b. -/
  | andn (w : BaseWord)
  /-- ANDN_EXT R210: Extended encoding of ANDN. -/
  | andnExt (w : ExtWord)
  /-- SHL R211: Shift left. -/
  | shl (w : BaseWord)
  /-- SHL_EXT R211: Extended encoding of SHL. -/
  | shlExt (w : ExtWord)
  /-- SHR R211: Logical shift right. -/
  | shr (w : BaseWord)
  /-- SHR_EXT R211: Extended encoding of SHR. -/
  | shrExt (w : ExtWord)
  /-- SAR R211: Arithmetic shift right. -/
  | sar (w : BaseWord)
  /-- SAR_EXT R211: Extended encoding of SAR. -/
  | sarExt (w : ExtWord)
  /-- ROT R211: Rotate left. -/
  | rot (w : BaseWord)
  /-- ROT_EXT R211: Extended encoding of ROT. -/
  | rotExt (w : ExtWord)
  /-- POPC R212: Population count. -/
  | popc (w : BaseWord)
  /-- POPC_EXT R212: Extended encoding of POPC. -/
  | popcExt (w : ExtWord)
  /-- CLZ R212: Count leading zeros. -/
  | clz (w : BaseWord)
  /-- CLZ_EXT R212: Extended encoding of CLZ. -/
  | clzExt (w : ExtWord)
  /-- CTZ R212: Count trailing zeros. -/
  | ctz (w : BaseWord)
  /-- CTZ_EXT R212: Extended encoding of CTZ. -/
  | ctzExt (w : ExtWord)
  /-- BREV R212: Bit reverse. -/
  | brev (w : BaseWord)
  /-- BREV_EXT R212: Extended encoding of BREV. -/
  | brevExt (w : ExtWord)
  /-- BFE R213: Bit-field extract. -/
  | bfe (w : ExtWord)
  /-- BFI R214: Bit-field insert. -/
  | bfi (w : ExtWord)
  /-- PERMB R215: Byte permute under selector bytes. -/
  | permb (w : ExtWord)
  /-- ISET R216: Integer compare into a predicate. -/
  | iset (w : BaseWord)
  /-- ISET_EXT R216: Extended encoding of ISET, carrying the condition and type. -/
  | isetExt (w : ExtWord)
  /-- FSET R242: Floating-point compare into a predicate. -/
  | fset (w : BaseWord)
  /-- FSET_EXT R242: Extended encoding of FSET. -/
  | fsetExt (w : ExtWord)
  /-- FCLS R243: Sets a predicate where the value's class is in the mask. -/
  | fcls (w : ExtWord)
  /-- PAND R217: Predicate AND. -/
  | pand (w : BaseWord)
  /-- PAND_EXT R217: Extended encoding of PAND. -/
  | pandExt (w : ExtWord)
  /-- POR R217: Predicate OR. -/
  | por (w : BaseWord)
  /-- POR_EXT R217: Extended encoding of POR. -/
  | porExt (w : ExtWord)
  /-- PXOR R217: Predicate XOR. -/
  | pxor (w : BaseWord)
  /-- PXOR_EXT R217: Extended encoding of PXOR. -/
  | pxorExt (w : ExtWord)
  /-- PNOT R217: Predicate NOT. -/
  | pnot (w : BaseWord)
  /-- PNOT_EXT R217: Extended encoding of PNOT. -/
  | pnotExt (w : ExtWord)
  /-- PTOV R218: Predicate to 0 or 1 in a register. -/
  | ptov (w : BaseWord)
  /-- PTOV_EXT R218: Extended encoding of PTOV. -/
  | ptovExt (w : ExtWord)
  /-- VTOP R218: Register nonzero into a predicate. -/
  | vtop (w : BaseWord)
  /-- VTOP_EXT R218: Extended encoding of VTOP. -/
  | vtopExt (w : ExtWord)
  /-- LXCH_IDX R219: Lane exchange from lane b mod 32. -/
  | lxchIdx (w : BaseWord)
  /-- LXCH_IDX_EXT R219: Extended encoding of LXCH.idx. -/
  | lxchIdxExt (w : ExtWord)
  /-- LXCH_UP R219: Lane exchange from lane l - b. -/
  | lxchUp (w : BaseWord)
  /-- LXCH_UP_EXT R219: Extended encoding of LXCH.up. -/
  | lxchUpExt (w : ExtWord)
  /-- LXCH_DOWN R219: Lane exchange from lane l + b. -/
  | lxchDown (w : BaseWord)
  /-- LXCH_DOWN_EXT R219: Extended encoding of LXCH.down. -/
  | lxchDownExt (w : ExtWord)
  /-- LXCH_XOR R219: Lane exchange from lane l XOR b. -/
  | lxchXor (w : BaseWord)
  /-- LXCH_XOR_EXT R219: Extended encoding of LXCH.xor. -/
  | lxchXorExt (w : ExtWord)
  /-- BCAST R220: Broadcasts one lane's value to every active lane as a uniform value. -/
  | bcast (w : BaseWord)
  /-- BCAST_EXT R220: Extended encoding of BCAST. -/
  | bcastExt (w : ExtWord)
  /-- VOTE_ALL R222: Predicate true when Pa holds in every active lane. -/
  | voteAll (w : BaseWord)
  /-- VOTE_ALL_EXT R222: Extended encoding of VOTE.all. -/
  | voteAllExt (w : ExtWord)
  /-- VOTE_ANY R222: Predicate true when Pa holds in some active lane. -/
  | voteAny (w : BaseWord)
  /-- VOTE_ANY_EXT R222: Extended encoding of VOTE.any. -/
  | voteAnyExt (w : ExtWord)
  /-- VOTE_BAL R222: Writes the ballot mask of active lanes where Pa holds. -/
  | voteBal (w : BaseWord)
  /-- VOTE_BAL_EXT R222: Extended encoding of VOTE.bal. -/
  | voteBalExt (w : ExtWord)
  /-- MATCH R223: Writes the mask of active lanes holding an equal key. -/
  | matchLanes (w : BaseWord)
  /-- MATCH_EXT R223: Extended encoding of MATCH. -/
  | matchLanesExt (w : ExtWord)
  /-- LCOMP R224: Compacts the surviving lanes' values to the lowest positions. -/
  | lcomp (w : BaseWord)
  /-- LCOMP_EXT R224: Extended encoding of LCOMP. -/
  | lcompExt (w : ExtWord)
  /-- REGROUP R32: Cohort arrives at the block-wide regroup collective with its key, after the legality checks. -/
  | regroup (w : BaseWord)
  /-- REGROUP_EXT R32: Extended encoding of REGROUP. -/
  | regroupExt (w : ExtWord)
  /-- REGROUP_RESTORE R34: Cohort arrives at the restore collective, or completes with no effect when no regrouping is in effect. -/
  | regroupRestore (w : BaseWord)
  /-- REGROUP_RESTORE_EXT R34: Extended encoding of REGROUP.RESTORE. -/
  | regroupRestoreExt (w : ExtWord)
  /-- FADD R237: FP32 add, rounded once. -/
  | fadd (w : BaseWord)
  /-- FADD_EXT R237: Extended encoding of FADD. -/
  | faddExt (w : ExtWord)
  /-- FSUB R237: FP32 subtract. -/
  | fsub (w : BaseWord)
  /-- FSUB_EXT R237: Extended encoding of FSUB. -/
  | fsubExt (w : ExtWord)
  /-- FMUL R237: FP32 multiply. -/
  | fmul (w : BaseWord)
  /-- FMUL_EXT R237: Extended encoding of FMUL. -/
  | fmulExt (w : ExtWord)
  /-- FFMA R237: FP32 fused multiply-add with one rounding. -/
  | ffma (w : ExtWord)
  /-- FMIN R238: FP32 minimum. -/
  | fmin (w : BaseWord)
  /-- FMIN_EXT R238: Extended encoding of FMIN. -/
  | fminExt (w : ExtWord)
  /-- FMAX R238: FP32 maximum. -/
  | fmax (w : BaseWord)
  /-- FMAX_EXT R238: Extended encoding of FMAX. -/
  | fmaxExt (w : ExtWord)
  /-- FABS R239: Clears the sign bit. -/
  | fabs (w : BaseWord)
  /-- FABS_EXT R239: Extended encoding of FABS. -/
  | fabsExt (w : ExtWord)
  /-- FNEG R239: Inverts the sign bit. -/
  | fneg (w : BaseWord)
  /-- FNEG_EXT R239: Extended encoding of FNEG. -/
  | fnegExt (w : ExtWord)
  /-- FRND R240: Rounds to an integral FP32 value under the mode. -/
  | frnd (w : BaseWord)
  /-- FRND_EXT R240: Extended encoding of FRND. -/
  | frndExt (w : ExtWord)
  /-- FDIV R237: FP32 divide, correctly rounded. -/
  | fdiv (w : BaseWord)
  /-- FDIV_EXT R237: Extended encoding of FDIV. -/
  | fdivExt (w : ExtWord)
  /-- FSQRT R241: Correctly rounded square root. -/
  | fsqrt (w : BaseWord)
  /-- FSQRT_EXT R241: Extended encoding of FSQRT. -/
  | fsqrtExt (w : ExtWord)
  /-- FRCP R241: Correctly rounded reciprocal. -/
  | frcp (w : BaseWord)
  /-- FRCP_EXT R241: Extended encoding of FRCP. -/
  | frcpExt (w : ExtWord)
  /-- FRSQ R241: Correctly rounded reciprocal square root. -/
  | frsq (w : BaseWord)
  /-- FRSQ_EXT R241: Extended encoding of FRSQ. -/
  | frsqExt (w : ExtWord)
  /-- SETFP R245: Changes masked FPCTL fields once for the cohort and returns the old value. -/
  | setfp (w : BaseWord)
  /-- SETFP_EXT R245: Extended encoding of SETFP. -/
  | setfpExt (w : ExtWord)
  /-- FEX2 R241: Correctly rounded 2^a. -/
  | fex2 (w : BaseWord)
  /-- FEX2_EXT R241: Extended encoding of FEX2. -/
  | fex2Ext (w : ExtWord)
  /-- FLG2 R241: Correctly rounded base-2 logarithm. -/
  | flg2 (w : BaseWord)
  /-- FLG2_EXT R241: Extended encoding of FLG2. -/
  | flg2Ext (w : ExtWord)
  /-- FSIN R241: Correctly rounded sine. -/
  | fsin (w : BaseWord)
  /-- FSIN_EXT R241: Extended encoding of FSIN. -/
  | fsinExt (w : ExtWord)
  /-- FCOS R241: Correctly rounded cosine. -/
  | fcos (w : BaseWord)
  /-- FCOS_EXT R241: Extended encoding of FCOS. -/
  | fcosExt (w : ExtWord)
  /-- FTANH R241: Correctly rounded hyperbolic tangent. -/
  | ftanh (w : BaseWord)
  /-- FTANH_EXT R241: Extended encoding of FTANH. -/
  | ftanhExt (w : ExtWord)
  /-- PHADD R244: Packed FP16 add. -/
  | phadd (w : BaseWord)
  /-- PHADD_EXT R244: Extended encoding of PHADD. -/
  | phaddExt (w : ExtWord)
  /-- PHMUL R244: Packed FP16 multiply. -/
  | phmul (w : BaseWord)
  /-- PHMUL_EXT R244: Extended encoding of PHMUL. -/
  | phmulExt (w : ExtWord)
  /-- PHFMA R244: Packed FP16 fused multiply-add. -/
  | phfma (w : ExtWord)
  /-- PBADD R244: Packed BF16 add. -/
  | pbadd (w : BaseWord)
  /-- PBADD_EXT R244: Extended encoding of PBADD. -/
  | pbaddExt (w : ExtWord)
  /-- PBMUL R244: Packed BF16 multiply. -/
  | pbmul (w : BaseWord)
  /-- PBMUL_EXT R244: Extended encoding of PBMUL. -/
  | pbmulExt (w : ExtWord)
  /-- PBFMA R244: Packed BF16 fused multiply-add. -/
  | pbfma (w : ExtWord)
  /-- CVT R247: Converts between numeric types. -/
  | cvt (w : ExtWord)
  /-- QNT R249: Quantises one element per lane to Q8A or Q4A. -/
  | qnt (w : ExtWord)
  /-- DQNT R250: Dequantises a Q8A or Q4A code per lane. -/
  | dqnt (w : ExtWord)
  /-- PK6 R253: Packs four 6-bit elements contiguously. -/
  | pk6 (w : BaseWord)
  /-- PK6_EXT R253: Extended encoding of PK6. -/
  | pk6Ext (w : ExtWord)
  /-- UPK6 R253: Unpacks four 6-bit elements into bytes. -/
  | upk6 (w : BaseWord)
  /-- UPK6_EXT R253: Extended encoding of UPK6. -/
  | upk6Ext (w : ExtWord)
  /-- PKB R251: Packs bytes or halves of two registers. -/
  | pkb (w : BaseWord)
  /-- PKB_EXT R251: Extended encoding of PKB, carrying the mode. -/
  | pkbExt (w : ExtWord)
  /-- UPKB R252: Extracts one byte, zero- or sign-extended. -/
  | upkb (w : BaseWord)
  /-- UPKB_EXT R252: Extended encoding of UPKB, carrying the selector. -/
  | upkbExt (w : ExtWord)
  /-- LD R258: Device-memory load or gather, one single-copy-atomic read per active lane. -/
  | ld (w : BaseWord)
  /-- LD_EXT R258: Extended encoding of LD. -/
  | ldExt (w : ExtWord)
  /-- ST R259: Device-memory store or scatter; buffered inside a transaction. -/
  | st (w : BaseWord)
  /-- ST_EXT R259: Extended encoding of ST. -/
  | stExt (w : ExtWord)
  /-- LDQ R260: Loads and decodes one element of a format-attributed page. -/
  | ldq (w : ExtWord)
  /-- LDS R261: Scratchpad load. -/
  | lds (w : BaseWord)
  /-- LDS_EXT R261: Extended encoding of LDS. -/
  | ldsExt (w : ExtWord)
  /-- STS R261: Scratchpad store. -/
  | sts (w : BaseWord)
  /-- STS_EXT R261: Extended encoding of STS. -/
  | stsExt (w : ExtWord)
  /-- LDS_PEER R262: Load from a gang sibling's scratchpad through a peer address. -/
  | ldsPeer (w : ExtWord)
  /-- STS_PEER R262: Store to a gang sibling's scratchpad through a peer address. -/
  | stsPeer (w : ExtWord)
  /-- LDW R261: Weight-buffer load. -/
  | ldw (w : BaseWord)
  /-- LDW_EXT R261: Extended encoding of LDW. -/
  | ldwExt (w : ExtWord)
  /-- ATOM_ADD R263: Atomic add to device memory. -/
  | atomAdd (w : BaseWord)
  /-- ATOM_ADD_EXT R263: Extended encoding of ATOM.add. -/
  | atomAddExt (w : ExtWord)
  /-- ATOM_FADD R263: Atomic FP32 add. -/
  | atomFadd (w : BaseWord)
  /-- ATOM_FADD_EXT R263: Extended encoding of ATOM.fadd. -/
  | atomFaddExt (w : ExtWord)
  /-- ATOM_MIN R263: Atomic minimum. -/
  | atomMin (w : BaseWord)
  /-- ATOM_MIN_EXT R263: Extended encoding of ATOM.min. -/
  | atomMinExt (w : ExtWord)
  /-- ATOM_MAX R263: Atomic maximum. -/
  | atomMax (w : BaseWord)
  /-- ATOM_MAX_EXT R263: Extended encoding of ATOM.max. -/
  | atomMaxExt (w : ExtWord)
  /-- ATOM_AND R263: Atomic AND. -/
  | atomAnd (w : BaseWord)
  /-- ATOM_AND_EXT R263: Extended encoding of ATOM.and. -/
  | atomAndExt (w : ExtWord)
  /-- ATOM_OR R263: Atomic OR. -/
  | atomOr (w : BaseWord)
  /-- ATOM_OR_EXT R263: Extended encoding of ATOM.or. -/
  | atomOrExt (w : ExtWord)
  /-- ATOM_XOR R263: Atomic XOR. -/
  | atomXor (w : BaseWord)
  /-- ATOM_XOR_EXT R263: Extended encoding of ATOM.xor. -/
  | atomXorExt (w : ExtWord)
  /-- ATOM_XCHG R263: Atomic exchange. -/
  | atomXchg (w : BaseWord)
  /-- ATOM_XCHG_EXT R263: Extended encoding of ATOM.xchg. -/
  | atomXchgExt (w : ExtWord)
  /-- ATOM_CAS R263: Atomic compare-and-swap. -/
  | atomCas (w : ExtWord)
  /-- RED_ADD R264: Posts a combined add reduction to device memory. -/
  | redAdd (w : BaseWord)
  /-- RED_ADD_EXT R264: Extended encoding of RED.add. -/
  | redAddExt (w : ExtWord)
  /-- RED_FADD R264: Posts an FP32 add reduction. -/
  | redFadd (w : BaseWord)
  /-- RED_FADD_EXT R264: Extended encoding of RED.fadd. -/
  | redFaddExt (w : ExtWord)
  /-- RED_MIN R264: Posts a minimum reduction. -/
  | redMin (w : BaseWord)
  /-- RED_MIN_EXT R264: Extended encoding of RED.min. -/
  | redMinExt (w : ExtWord)
  /-- RED_MAX R264: Posts a maximum reduction. -/
  | redMax (w : BaseWord)
  /-- RED_MAX_EXT R264: Extended encoding of RED.max. -/
  | redMaxExt (w : ExtWord)
  /-- RED_AND R264: Posts an AND reduction. -/
  | redAnd (w : BaseWord)
  /-- RED_AND_EXT R264: Extended encoding of RED.and. -/
  | redAndExt (w : ExtWord)
  /-- RED_OR R264: Posts an OR reduction. -/
  | redOr (w : BaseWord)
  /-- RED_OR_EXT R264: Extended encoding of RED.or. -/
  | redOrExt (w : ExtWord)
  /-- RED_XOR R264: Posts an XOR reduction. -/
  | redXor (w : BaseWord)
  /-- RED_XOR_EXT R264: Extended encoding of RED.xor. -/
  | redXorExt (w : ExtWord)
  /-- FENCE_COH R265: Cohort-scope fence event per active lane. -/
  | fenceCoh (w : BaseWord)
  /-- FENCE_COH_EXT R265: Extended encoding of FENCE.COH. -/
  | fenceCohExt (w : ExtWord)
  /-- FENCE_BLK R265: Block-scope fence. -/
  | fenceBlk (w : BaseWord)
  /-- FENCE_BLK_EXT R265: Extended encoding of FENCE.BLK. -/
  | fenceBlkExt (w : ExtWord)
  /-- FENCE_CORE R265: Core-scope fence. -/
  | fenceCore (w : BaseWord)
  /-- FENCE_CORE_EXT R265: Extended encoding of FENCE.CORE. -/
  | fenceCoreExt (w : ExtWord)
  /-- FENCE_CLU R265: Cluster-scope fence. -/
  | fenceClu (w : BaseWord)
  /-- FENCE_CLU_EXT R265: Extended encoding of FENCE.CLU. -/
  | fenceCluExt (w : ExtWord)
  /-- FENCE_DIE R265: Die-scope fence. -/
  | fenceDie (w : BaseWord)
  /-- FENCE_DIE_EXT R265: Extended encoding of FENCE.DIE. -/
  | fenceDieExt (w : ExtWord)
  /-- FENCE_DEV R265: Device-scope fence. -/
  | fenceDev (w : BaseWord)
  /-- FENCE_DEV_EXT R265: Extended encoding of FENCE.DEV. -/
  | fenceDevExt (w : ExtWord)
  /-- FENCE_SYS R265: System-scope fence, ordered against host accesses. -/
  | fenceSys (w : BaseWord)
  /-- FENCE_SYS_EXT R265: Extended encoding of FENCE.SYS. -/
  | fenceSysExt (w : ExtWord)
  /-- BAR_INIT R267: Initialises a barrier object with n expected arrivals. -/
  | barInit (w : BaseWord)
  /-- BAR_INIT_EXT R267: Extended encoding of BAR.INIT, with .peer or a literal. -/
  | barInitExt (w : ExtWord)
  /-- BAR_ARR R267: Returns GEN and decrements PEND, opening the object when the condition completes. -/
  | barArr (w : BaseWord)
  /-- BAR_ARR_EXT R267: Extended encoding of BAR.ARR, with .peer. -/
  | barArrExt (w : ExtWord)
  /-- BAR_WAIT R267: Completes once the object's GEN differs from the given generation. -/
  | barWait (w : BaseWord)
  /-- BAR_WAIT_EXT R267: Extended encoding of BAR.WAIT. -/
  | barWaitExt (w : ExtWord)
  /-- BAR_XIN R106: Adds n to the object's inbound count. -/
  | barXin (w : BaseWord)
  /-- BAR_XIN_EXT R106: Extended encoding of BAR.XIN. -/
  | barXinExt (w : ExtWord)
  /-- BAR_XOUT R106: Adds n to the object's outbound count. -/
  | barXout (w : BaseWord)
  /-- BAR_XOUT_EXT R106: Extended encoding of BAR.XOUT. -/
  | barXoutExt (w : ExtWord)
  /-- CPY R270: Checks and posts a copy from device memory into own ASP or WBF. -/
  | cpy (w : ExtWord)
  /-- CPYM R270: Posts a multicast copy to all four gang members. -/
  | cpym (w : ExtWord)
  /-- CPYO R270: Posts a copy from own ASP to device memory. -/
  | cpyo (w : ExtWord)
  /-- CPYP R270: Posts a copy from own ASP to a peer's ASP. -/
  | cpyp (w : ExtWord)
  /-- WAITOC R274: Completes once a class's outstanding counter is at most n. -/
  | waitoc (w : BaseWord)
  /-- WAITOC_EXT R274: Extended encoding of WAITOC. -/
  | waitocExt (w : ExtWord)
  /-- RDWP R275: Samples the cohort's write pointer of a channel. -/
  | rdwp (w : BaseWord)
  /-- RDWP_EXT R275: Extended encoding of RDWP. -/
  | rdwpExt (w : ExtWord)
  /-- WAITWP R275: Completes once the channel's write pointer reaches the value. -/
  | waitwp (w : BaseWord)
  /-- WAITWP_EXT R275: Extended encoding of WAITWP. -/
  | waitwpExt (w : ExtWord)
  /-- TXB R276: Base form with its required literal: opens an explicit transaction once the block's buffer is free. -/
  | txb (w : BaseWord)
  /-- TXB_EXT R276: Extended form of TXB with its required literal. -/
  | txbExt (w : ExtWord)
  /-- TXC R276: Commits the open transaction at one point. -/
  | txc (w : BaseWord)
  /-- TXC_EXT R276: Extended encoding of TXC. -/
  | txcExt (w : ExtWord)
  /-- TXA R276: Aborts the open transaction with code 1. -/
  | txa (w : BaseWord)
  /-- TXA_EXT R276: Extended encoding of TXA. -/
  | txaExt (w : ExtWord)
  /-- TXW R276: Adds the lines of the active lanes' addresses to the watch set. -/
  | txw (w : BaseWord)
  /-- TXW_EXT R276: Extended encoding of TXW. -/
  | txwExt (w : ExtWord)
  /-- GCHK R77: Records the largest residual magnitude and sets GSEEN in a surrogate run. -/
  | gchk (w : BaseWord)
  /-- GCHK_EXT R77: Extended encoding of GCHK. -/
  | gchkExt (w : ExtWord)
  /-- DSET R283: Writes a descriptor from a uniform base and extent. -/
  | dset (w : BaseWord)
  /-- DSET_EXT R283: Extended encoding of DSET, carrying space and pitch. -/
  | dsetExt (w : ExtWord)
  /-- DGET R284: Reads a descriptor into four registers. -/
  | dget (w : BaseWord)
  /-- DGET_EXT R284: Extended encoding of DGET. -/
  | dgetExt (w : ExtWord)
  /-- TZERO R286: Sets every element of a tile to +0.0. -/
  | tzero (w : BaseWord)
  /-- TZERO_EXT R286: Extended encoding of TZERO. -/
  | tzeroExt (w : ExtWord)
  /-- TRD R287: Reads 32 tile elements into the lanes. -/
  | trd (w : BaseWord)
  /-- TRD_EXT R287: Extended encoding of TRD. -/
  | trdExt (w : ExtWord)
  /-- TWR R287: Writes 32 tile elements from the lanes. -/
  | twr (w : BaseWord)
  /-- TWR_EXT R287: Extended encoding of TWR. -/
  | twrExt (w : ExtWord)
  /-- TCVT R288: Scales and rounds every element of a tile. -/
  | tcvt (w : ExtWord)
  /-- MMA_E4M3 R290: Posts an E4M3 matrix multiply-accumulate into a tile. -/
  | mmaE4m3 (w : ExtWord)
  /-- MMA_E5M2 R290: Posts an E5M2 matrix multiply-accumulate. -/
  | mmaE5m2 (w : ExtWord)
  /-- MMA_I8 R290: Posts an INT8 matrix multiply-accumulate with INT32 saturation. -/
  | mmaI8 (w : ExtWord)
  /-- MMA_BF16 R290: Posts a BF16 matrix multiply-accumulate. -/
  | mmaBf16 (w : ExtWord)
  /-- MMA_Q4A R290: Posts an INT8 by Q4A-weight matrix multiply-accumulate. -/
  | mmaQ4a (w : ExtWord)
  /-- MMAG R293: Posts a matrix multiply with register-indexed A rows. -/
  | mmag (w : ExtWord)
  /-- MMAS R294: Posts a 4-in-8 sparse matrix multiply after the metadata check. -/
  | mmas (w : ExtWord)
  /-- CMPR R295: Posts a 4-in-8 compression of dense rows with metadata output. -/
  | cmpr (w : ExtWord)
  /-- MVT R301: Per-lane matrix-vector product from the weight buffer. -/
  | mvt (w : ExtWord)
  /-- VGA R298: Posts a value-group gather-accumulate of 32 rows to the Aster engine. -/
  | vga (w : ExtWord)
  /-- NRES R302: Makes the node's hand-off at once. -/
  | nres (w : BaseWord)
  /-- NRES_EXT R302: Extended encoding of NRES. -/
  | nresExt (w : ExtWord)
  /-- ALLOCREG R39: Grows the cohort's general allocation once the pool allows, writing true to Pd. -/
  | allocreg (w : BaseWord)
  /-- ALLOCREG_EXT R39: Extended encoding of ALLOCREG. -/
  | allocregExt (w : ExtWord)
  /-- FREEREG R38: Shrinks the general allocation and returns the surplus. -/
  | freereg (w : BaseWord)
  /-- FREEREG_EXT R38: Extended encoding of FREEREG. -/
  | freeregExt (w : ExtWord)
  /-- WALLET R304: Completes once the wallet holds at least Vb tokens and returns the balance. -/
  | wallet (w : BaseWord)
  /-- WALLET_EXT R304: Extended encoding of WALLET. -/
  | walletExt (w : ExtWord)
  /-- BOOST R305: Sets the block's boost claim and returns BOOSTLV. -/
  | boost (w : BaseWord)
  /-- BOOST_EXT R305: Extended encoding of BOOST. -/
  | boostExt (w : ExtWord)
  /-- PERMITS R306: Samples pool, hold, claim and step in one clock. -/
  | permits (w : BaseWord)
  /-- PERMITS_EXT R306: Extended encoding of PERMITS. -/
  | permitsExt (w : ExtWord)
  /-- CYCLE R307: Writes the core's 64-bit cycle count to a pair. -/
  | cycle (w : BaseWord)
  /-- CYCLE_EXT R307: Extended encoding of CYCLE. -/
  | cycleExt (w : ExtWord)
  /-- HINT R191: Hint cell 0xF9 to 0xFE executes as NOP whatever its fields hold. -/
  | hint (opc : BitVec 8) (w : BaseWord)
  /-- HINT_EXT R191: Extended or literal encoding of a hint cell, executed as NOP. -/
  | hintExt (opc : BitVec 8) (w : ExtWord)
  /-- ISSUE_AGING R21: A ready cohort unissued for 1,024 clocks is chosen first at its quarter's next issue. -/
  | issueAging (slot : Nat)
  /-- JOIN_RELEASE R25: When every non-exited member of a join is held, all are released together and pop their MR. -/
  | joinRelease (slot n : Nat)
  /-- REGROUP_MOVE R33: Once all cohorts have arrived and their counters are zero, lanes are sorted and moved. -/
  | regroupMove (blk : Nat)
  /-- REGROUP_RESTORE_MOVE R34: Once all cohorts have arrived, lanes return to their launch positions and emptied resources are freed. -/
  | regroupRestoreMove (blk : Nat)
  /-- COHORT_SLOT_RELEASE R36: A fully exited cohort releases its slot once its four counters reach zero. -/
  | cohortSlotRelease (slot : Nat)
  /-- ALLOCREG_DEADLOCK R40: When every cohort waits in ALLOCREG and none fits, the youngest block's highest cohort completes with FAIL. -/
  | allocregDeadlock (core : Nat)
  /-- PRICE_LINE_AGING R42: A waiting priced instruction passed over by 16 others becomes first in line. -/
  | priceLineAging (slot : Nat)
  /-- TOKEN_INJECT R377: Each ring clock the controller adds RATE to its fraction register and injects whole tokens into the passing slot. -/
  | tokenInject (die : Nat)
  /-- RING_STATION R43: A slot arriving at a station offers its tokens to the cluster's wallets by class. -/
  | ringStation (die station : Nat)
  /-- TOKEN_WITHDRAW R43: Tokens that complete a revolution untaken are withdrawn and counted in TOKLOST. -/
  | tokenWithdraw (die : Nat)
  /-- WALLET_STARVED R44: A wallet whose first-in-line instruction waited four revolutions becomes starved. -/
  | walletStarved (core : Nat)
  /-- MATRIX_PASS_GRANT R292: Each clock the engine grants the next pass of the highest-ranked eligible reservation entry. -/
  | matrixPassGrant (cluster : Nat)
  /-- MATRIX_REQUEST_AGING R45: A request waiting 4,096 clocks in the table ranks above every younger one. -/
  | matrixRequestAging (cluster op : Nat)
  /-- MATRIX_PASS_WRITE R292: A granted pass writes its tile; the last pass completes the instruction and decrements OC.MAT. -/
  | matrixPassWrite (cluster op : Nat)
  /-- CMPR_COMPLETE R295: The compression path writes the compressed rows and metadata run and completes the operation. -/
  | cmprComplete (cluster op : Nat)
  /-- SWAP_OUT R48: After the swap quantum the scheduler drains and saves the longest-resident block to the swap pool. -/
  | swapOut (blk : Nat)
  /-- SWAP_IN R364: A swapped-out block is admitted to a core that fits it, with its state and meet extensions restored. -/
  | swapIn (vf core : Nat)
  /-- TAKE R61: An agent takes a node in the up phase: pushes its frame or dispatches its block. -/
  | take (cluster launch : Nat)
  /-- DOWN_TAKE R66: A down-phase take decrements JOIN, advances NEXT and dispatches KDN or pushes a SKIP frame. -/
  | downTake (cluster launch : Nat)
  /-- STEAL R62: An agent with an empty stack takes the next child of another cluster's lowest OPEN frame. -/
  | steal (cluster launch : Nat)
  /-- LEAPFROG R63: An agent whose top frame waits steals from a cluster that stole from that frame. -/
  | leapfrog (cluster launch victim : Nat)
  /-- BLOCK_DISPATCH R59: The agent admits a block to the first core of its cluster that fits it, after waiting for room. -/
  | blockDispatch (cluster : Nat)
  /-- INBOX_COPY R54: The node's INBOX copy completes and the block may issue its first instruction. -/
  | inboxCopy (blk : Nat)
  /-- PLACEMENT_SEARCH R77: An exact kernel or relaunch is placed on the first core found, the search repeating each clock. -/
  | placementSearch (launch : Nat)
  /-- PHASE_TURN R68: In BOTH, the down phase starts once every up-phase block has ended. -/
  | phaseTurn (launch : Nat)
  /-- COPY_START R99: A posted copy starts once its channel's previous copy has delivered its last byte. -/
  | copyStart (core ch : Nat)
  /-- COPY_SOURCE_READ_DONE R107: The channel has read a copy's last source byte and decrements the sender object's OUT. -/
  | copySourceReadDone (core ch : Nat)
  /-- COPY_COMPLETE R99: A copy's last byte lands: receiver IN decrements, the write pointer completes, OC.COPY falls. -/
  | copyComplete (core ch : Nat)
  /-- COPY_FAULT R272: A running copy meets a translation fault, stops at that byte and parks its cohort. -/
  | copyFault (core ch : Nat)
  /-- BARRIER_WAVE R109: Every WGAP clocks the next wave of WSIZE waiting cohorts is released. -/
  | barrierWave (cluster : Nat)
  /-- RED_APPLY R111: A reduction request reaches its partition and is applied atomically. -/
  | redApply (req : Nat)
  /-- VGA_COMPLETE R298: The Aster engine finishes a VGA, writes Vd or reports VGLIMIT, and frees its queue. -/
  | vgaComplete (cluster : Nat)
  /-- TX_CONFLICT R277: Another agent's write to a watched line aborts the transaction with CONFLICT. -/
  | txConflict (slot : Nat)
  /-- FAULT_RECORD_POST R348: The device writes a fault record to the VF ring, waiting for room, advances FQHEAD and raises FQVEC. -/
  | faultRecordPost (vf : Nat)
  /-- NOTIFY R325: A host store to a notify word sets QWR and the pending bit, or stops the queue with BADWR. -/
  | notify (vf q : Nat) (value : W32)
  /-- QUEUE_FETCH R326: Each front-end clock the scanner picks a pending queue and parses up to 16 packets. -/
  | queueFetch
  /-- PAD R329: A PAD packet does nothing and completes at once. -/
  | pad (vf q : Nat)
  /-- LAUNCH R329: A LAUNCH packet starts once the previous packet started or, with BAR, completed. -/
  | launch (vf q : Nat)
  /-- LAUNCH_START R335: A starting launch is checked and either runs or completes at once with an error status. -/
  | launchStart (launch : Nat)
  /-- WAITMEM R329: Blocks the queue until the masked word at ADDR meets the condition. -/
  | waitmem (vf q : Nat)
  /-- WAITMEM_POLL R329: The front end rereads a WAITMEM word at least every 4,096 clocks or after a SIGNALMEM. -/
  | waitmemPoll (vf q : Nat)
  /-- SIGNALMEM R329: After earlier packets complete, writes or adds to ADDR as a system-scope release. -/
  | signalmem (vf q : Nat)
  /-- FENCE R329: The FENCE packet waits for earlier packets and is a system-scope release. -/
  | fence (vf q : Nat)
  /-- QCTL_INTR R329: Raises an MSI-X vector once earlier packets complete. -/
  | qctlIntr (vf q : Nat)
  /-- QCTL_STOP R329: Stops the queue once earlier packets complete. -/
  | qctlStop (vf q : Nat)
  /-- QUEUE_RESET R331: Writing RST waits until no packet runs, then clears the queue pointers and error state. -/
  | queueReset (vf q : Nat)
  /-- REGISTER_WRITE R324: A write to a register with no behaviour of its own stores the writable fields. -/
  | registerWrite (pf : Bool) (vf off : Nat) (value : W64)
  /-- HOST_MEM_ACCESS R323: A host CXL.mem access to HBM under the granule owner's key. -/
  | hostMemAccess (addr : Nat) (acc : BusAccess)
  /-- LUMAK_INBOUND R337: An access arriving on a Lumak port is accepted within LIN's window or refused. -/
  | lumakInbound (port addr : Nat) (acc : BusAccess)
  /-- FLIT_REPLAY R339: A CRC error makes the receiver request a replay from the sender. -/
  | flitReplay (port : Nat) (ok : Bool)
  /-- LINK_DROP R339: After 16 failed replays or 1 ms of silence the link drops and waiting accesses fail. -/
  | linkDrop (port : Nat)
  /-- RETRAIN R339: Writing LSTAT.RETRAIN drops the link and trains it again. -/
  | retrain (port : Nat)
  /-- RETRY R349: Unparks a cohort at its PC, or resumes a faulted copy. -/
  | retry (vf slot : Nat)
  /-- SKIP R349: Unparks a cohort after its faulting instruction, or settles a faulted copy. -/
  | skip (vf slot : Nat)
  /-- KILLBLK R350: Kills the block of the named cohort. -/
  | killblk (vf slot : Nat)
  /-- KILLLAUNCH R350: Kills every block of the named cohort's launch. -/
  | killlaunch (vf slot : Nat)
  /-- INVAL R355: Invalidates the VF's translations of an address range. -/
  | inval (vf : Nat)
  /-- INVALL R355: Invalidates all of the VF's translations. -/
  | invall (vf : Nat)
  /-- VRST R359: Resets a VF: discards its image and launches, resets queues and gives a new key. -/
  | vrst (vf : Nat)
  /-- QUANTUM_WRITE R356: A QUANTUM write is admitted unless the save area or firmware limit refuses it. -/
  | quantumWrite (vf : Nat) (value : W32)
  /-- PAGE_WALK R354: A TLB miss walk completes, filling the TLBs or raising PAGE or PERM. -/
  | pageWalk (core : Nat) (va : W64) (acc : Access)
  /-- SLICE_END R356: A slice ends after its quantum or when the VF has no work, and the device stops its cohorts. -/
  | sliceEnd
  /-- SLICE_SWITCH R357: After the drain the outgoing image is saved and the next VF's image restored. -/
  | sliceSwitch
  /-- ECC_UNCORRECTABLE R388: An uncorrectable error is handled per store class. -/
  | eccUncorrectable (site : EccSite)
  /-- ECC_CORRECTABLE R388: A correctable error is corrected in place and counted. -/
  | eccCorrectable (die cls frame : Nat)
  /-- PATROL_SCRUB R390: Every SCRUBGAP clocks the next HBM line is scrubbed. -/
  | patrolScrub (die : Nat)
  /-- CLR R391: Writing CLR clears every counter of the RAS block. -/
  | clr (die : Nat)
  /-- LOG_FLUSH R394: Once a second Grotto copies new log entries to flash. -/
  | logFlush
  /-- COLD_RESET R370: Runs the boot sequence of ROM checks and firmware bring-up. -/
  | coldReset
  /-- WARM_RESET R370: A warm reset through CXL repeats all five boot steps. -/
  | warmReset
  /-- UPDATE R372: Copies, verifies and installs a staged firmware image in flash. -/
  | update
  /-- RECOVER R373: Verifies and installs the image in RWIN, then resets the device. -/
  | recover
  /-- GET_VERSION R375: SPDM request answered by the responder. -/
  | getVersion
  /-- GET_CAPABILITIES R375: SPDM capabilities request. -/
  | getCapabilities
  /-- NEGOTIATE_ALGORITHMS R375: SPDM algorithm negotiation. -/
  | negotiateAlgorithms
  /-- GET_DIGESTS R375: SPDM certificate digests request. -/
  | getDigests
  /-- GET_CERTIFICATE R375: SPDM certificate chain request. -/
  | getCertificate
  /-- CHALLENGE R375: SPDM challenge signed with the identity key. -/
  | challenge (nonce : Nat)
  /-- GET_MEASUREMENTS R375: SPDM request returning the measurement of an index, or all five, signed where it asks for that: the index in
  bits 7:0 of its operand, a signature asked for in bit 8, its nonce above. -/
  | getMeasurements (request : Nat)
  /-- SLHSIG R375: Vendor-defined request returning the SLH-DSA signature over the transcript hash. -/
  | slhsig
  /-- POWER_POST R376: A PF write to an RW* field is posted to Grotto. -/
  | powerPost (ras : Bool) (die off : Nat) (value : W32)
  /-- GROTTO_APPLY R376: Within 100 us Grotto writes the posted fields or refuses them and sets REFUSED. -/
  | grottoApply
  /-- ENERGYLO_READ R387: A read of ENERGYLO returns bits 31:0 and latches bits 63:32. -/
  | energyloRead (die : Nat)
  /-- POOL_BOUNDARY R380: At each pool interval boundary the controller grants boost holds and refills the pool. -/
  | poolBoundary (die : Nat)
  /-- CLUSTER_BOUNDARY R380: At each of its own permit boundaries a cluster charges, changes step or falls. -/
  | clusterBoundary (cluster : Nat)
  /-- BIAS_SETTLE R382: Forward bias settles or reverse bias is removed, letting a step-up or admission proceed. -/
  | biasSettle (cluster : Nat)
  /-- THERMAL_SAMPLE R383: Every 100 us the sensors are sampled and TSTATE moves. -/
  | thermalSample (die tmax : Nat)
  /-- COPY_DELIVER R101: A running copy delivers further destination bytes in ascending order and its write pointer advances. -/
  | copyDeliver (core ch n : Nat)
  /-- LINK_TRAINED R339: Training of a Lumak port completes and TRAINED is set. -/
  | linkTrained (port lanes : Nat)
  /-- POWER_LOSS R372: The supply fails, which can leave a partly written flash image so that the next boot enters RECOVERY. -/
  | powerLoss (flashTorn : Bool)
  deriving DecidableEq, Repr, Inhabited

end Sys2Proof
end

