-- ==== Sys2Proof/Machine/Cells.lean ====
section
/-! DEFINITION. The opcode map (R187, R188) with the operand kinds, types and modifier layouts of every cell (the tables
of R200, R233, R254 and R280; R177 to R185), and the encoding check that R192 makes at its second step: which field values
of a word the cell assigns (R190). -/

namespace Sys2Proof

/-- The operand types of R180. -/
inductive Ty where
  | i8 | i16 | i32 | i64 | n8 | n16 | n32 | n64 | b8 | b16 | b32 | b64 | b128
  | f32 | f16 | bf16 | e4m3 | e5m2 | e3m2 | q8a | q4a
  deriving DecidableEq, Repr, Inhabited

/-- The type of a full type code (R180): class I codes as they are, class F codes as 16 + FMT. -/
def Ty.ofCode : Nat → Option Ty
  | 1 => some .i8 | 2 => some .i16 | 3 => some .i32 | 4 => some .i64
  | 5 => some .n8 | 6 => some .n16 | 7 => some .n32 | 8 => some .n64
  | 9 => some .b8 | 10 => some .b16 | 11 => some .b32 | 12 => some .b64 | 13 => some .b128
  | 17 => some .f32 | 18 => some .f16 | 19 => some .bf16 | 20 => some .e4m3 | 21 => some .e5m2
  | 22 => some .e3m2 | 23 => some .q8a | 24 => some .q4a
  | _ => none

/-- The type of a class E code (R180). -/
def Ty.ofCodeE : Nat → Option Ty
  | 0 => some .e4m3 | 1 => some .e5m2 | 2 => some .i8 | 3 => some .bf16 | 4 => some .q4a
  | _ => none

/-- The width of a type in bits: the memory widths of R255 and the register formats of R149 to R151. -/
def Ty.bits : Ty → Nat
  | .i8 | .n8 | .b8 | .e4m3 | .e5m2 | .q8a => 8
  | .i16 | .n16 | .b16 | .f16 | .bf16 => 16
  | .i32 | .n32 | .b32 | .f32 => 32
  | .i64 | .n64 | .b64 => 64
  | .b128 => 128
  | .e3m2 => 6
  | .q4a => 4

/-- The width of an access in bytes (R255). -/
def Ty.bytes (t : Ty) : Nat := t.bits / 8

/-- Signed integer types (R151). -/
def Ty.signed : Ty → Bool
  | .i8 | .i16 | .i32 | .i64 => true
  | _ => false

/-- Integer and natural types (R151). -/
def Ty.isInt : Ty → Bool
  | .i8 | .i16 | .i32 | .i64 | .n8 | .n16 | .n32 | .n64 => true
  | _ => false

/-- The floating-point types of R149. -/
def Ty.isFloat : Ty → Bool
  | .f32 | .f16 | .bf16 | .e4m3 | .e5m2 | .e3m2 => true
  | _ => false

/-- The kinds of operand field (R177, R200, R254, R280). -/
inductive Kind where
  | none      -- not used: must hold 0
  | v         -- a V register
  | v2        -- an even register naming a pair
  | v4        -- a multiple of 4 naming four registers
  | v64       -- V, or V2 at a 64-bit type
  | vw        -- V, V2 or V4 as the width of the type gives
  | vDst      -- V, or V2 when the destination type of a conversion has 64 bits
  | vSrc      -- V, or V2 when the source type of a conversion has 64 bits
  | vObj      -- V, or V2 when a copy names an object (R269)
  | vPitch    -- V, or V2 under .pitch (R283)
  | runK      -- a metadata run of 4 registers for each 32 dense positions (R294, R295)
  | runM      -- a run of m registers (MVT)
  | runN      -- a run of n registers (MVT)
  | p | j | t | dsc | ch | cls | sreg | count
  deriving DecidableEq, Repr, Inhabited

/-- Whether a cell takes a literal (R188). -/
inductive LitUse where
  | never | optional | required
  deriving DecidableEq, Repr, Inhabited

/-- What a literal replaces (R178, R179). -/
inductive LitField where
  | none | a | b | c | code
  deriving DecidableEq, Repr, Inhabited

/-- The classes of type code (R180); conv is the layout of CVT, QNT and DQNT (R184). -/
inductive TyClass where
  | none | i | f | e | conv
  deriving DecidableEq, Repr, Inhabited

/-- The layouts of SUB (R181 to R184, R208, R243, R251, R252, R254, R268, R283, R288). -/
inductive SubLayout where
  | zero
  | arith (rm sat : Bool)          -- whether RM and SAT are accepted (R181, R233)
  | cmp (float : Bool)             -- R182
  | mem (acq rel : Bool)           -- which orderings the cell accepts (R115, R183)
  | conv                           -- R184
  | shift                          -- R208
  | fcls                           -- R243
  | pkb                            -- R251
  | upkb                           -- R252
  | bar                            -- PEER at bit 0 (R254)
  | copy (dst dec rcv snd : Bool)  -- which bits the mnemonic allows (R268)
  | dset                           -- R283
  | tcvt                           -- R288
  deriving DecidableEq, Repr, Inhabited

/-- The assignments of MODA (R185, R280). -/
inductive ModaLayout where
  | zero | passes | passesGrp | mvt
  deriving DecidableEq, Repr, Inhabited

/-- The assignments of MODB (R280). -/
inductive ModbLayout where
  | zero | rows
  deriving DecidableEq, Repr, Inhabited

/-- One cell of the opcode map with its row of the operand tables. -/
structure Cell where
  opc  : Nat
  base : Bool
  ext  : Bool
  lit  : LitUse
  d    : Kind
  a    : Kind
  b    : Kind
  c    : Kind
  litF : LitField
  cls  : TyClass
  tys  : List Ty
  sub  : SubLayout
  moda : ModaLayout
  modb : ModbLayout
  deriving DecidableEq, Repr, Inhabited

namespace Cells

/-- MOV bx. -/
def mov : Cell :=
  ⟨0x01, true, true, .never, .v, .v, .none, .none, .none, .none, [], .zero, .zero, .zero⟩
/-- MOVL bxL. -/
def movl : Cell :=
  ⟨0x02, true, true, .required, .v, .none, .none, .none, .a, .none, [], .zero, .zero, .zero⟩
/-- GETS bx. -/
def gets : Cell :=
  ⟨0x03, true, true, .never, .v, .sreg, .none, .none, .none, .none, [], .zero, .zero, .zero⟩
/-- SETS bxl. -/
def sets : Cell :=
  ⟨0x04, true, true, .optional, .sreg, .v, .none, .none, .a, .none, [], .zero, .zero, .zero⟩
/-- SEL x. -/
def sel : Cell :=
  ⟨0x05, false, true, .never, .v, .v, .v, .p, .none, .none, [], .zero, .zero, .zero⟩
/-- LANEOF bx. -/
def laneof : Cell :=
  ⟨0x06, true, true, .never, .v, .p, .none, .none, .none, .none, [], .zero, .zero, .zero⟩
/-- NOP bx. -/
def nop : Cell :=
  ⟨0x07, true, true, .never, .none, .none, .none, .none, .none, .none, [], .zero, .zero, .zero⟩
/-- BRA bxL. -/
def bra : Cell :=
  ⟨0x10, true, true, .required, .none, .none, .none, .none, .code, .none, [], .zero, .zero, .zero⟩
/-- BRX bx. -/
def brx : Cell :=
  ⟨0x11, true, true, .never, .none, .v, .none, .none, .none, .none, [], .zero, .zero, .zero⟩
/-- CALL bxL. -/
def call : Cell :=
  ⟨0x12, true, true, .required, .v, .none, .none, .none, .code, .none, [], .zero, .zero, .zero⟩
/-- CALLX bx. -/
def callx : Cell :=
  ⟨0x13, true, true, .never, .v, .v, .none, .none, .none, .none, [], .zero, .zero, .zero⟩
/-- RET bx. -/
def ret : Cell :=
  ⟨0x14, true, true, .never, .none, .v, .none, .none, .none, .none, [], .zero, .zero, .zero⟩
/-- MEET bxL. -/
def meet : Cell :=
  ⟨0x15, true, true, .required, .j, .none, .none, .none, .code, .none, [], .zero, .zero, .zero⟩
/-- WAITJ bx. -/
def waitj : Cell :=
  ⟨0x16, true, true, .never, .j, .none, .none, .none, .none, .none, [], .zero, .zero, .zero⟩
/-- EXIT bx. -/
def exit : Cell :=
  ⟨0x17, true, true, .never, .none, .none, .none, .none, .none, .none, [], .zero, .zero, .zero⟩
/-- TRAP bx. -/
def trap : Cell :=
  ⟨0x18, true, true, .never, .none, .count, .none, .none, .none, .none, [], .zero, .zero, .zero⟩
/-- BKPT bx. -/
def bkpt : Cell :=
  ⟨0x19, true, true, .never, .none, .none, .none, .none, .none, .none, [], .zero, .zero, .zero⟩
/-- XRET bx. -/
def xret : Cell :=
  ⟨0x1A, true, true, .never, .none, .none, .none, .none, .none, .none, [], .zero, .zero, .zero⟩
/-- IADD bxl. -/
def iadd : Cell :=
  ⟨0x20, true, true, .optional, .v, .v, .v, .none, .b, .i, [.i32, .i8, .i16, .n8, .n16, .n32], (.arith false true), .zero, .zero⟩
/-- ISUB bxl. -/
def isub : Cell :=
  ⟨0x21, true, true, .optional, .v, .v, .v, .none, .b, .i, [.i32, .i8, .i16, .n8, .n16, .n32], (.arith false true), .zero, .zero⟩
/-- IMUL bxl. -/
def imul : Cell :=
  ⟨0x22, true, true, .optional, .v, .v, .v, .none, .b, .i, [.i32, .i8, .i16, .n8, .n16, .n32], (.arith false true), .zero, .zero⟩
/-- IMULH bxl. -/
def imulh : Cell :=
  ⟨0x23, true, true, .optional, .v, .v, .v, .none, .b, .i, [.i32, .n32], .zero, .zero, .zero⟩
/-- IMAD xl. -/
def imad : Cell :=
  ⟨0x24, false, true, .optional, .v, .v, .v, .v, .c, .i, [.i32, .i8, .i16, .n8, .n16, .n32], (.arith false true), .zero, .zero⟩
/-- IDIV bxl. -/
def idiv : Cell :=
  ⟨0x25, true, true, .optional, .v, .v, .v, .none, .b, .i, [.i32, .i8, .i16, .n8, .n16, .n32], .zero, .zero, .zero⟩
/-- IREM bxl. -/
def irem : Cell :=
  ⟨0x26, true, true, .optional, .v, .v, .v, .none, .b, .i, [.i32, .i8, .i16, .n8, .n16, .n32], .zero, .zero, .zero⟩
/-- IMIN bxl. -/
def imin : Cell :=
  ⟨0x27, true, true, .optional, .v, .v, .v, .none, .b, .i, [.i32, .i8, .i16, .n8, .n16, .n32], .zero, .zero, .zero⟩
/-- IMAX bxl. -/
def imax : Cell :=
  ⟨0x28, true, true, .optional, .v, .v, .v, .none, .b, .i, [.i32, .i8, .i16, .n8, .n16, .n32], .zero, .zero, .zero⟩
/-- IABS bx. -/
def iabs : Cell :=
  ⟨0x29, true, true, .never, .v, .v, .none, .none, .none, .i, [.i32, .i8, .i16], .zero, .zero, .zero⟩
/-- INEG bx. -/
def ineg : Cell :=
  ⟨0x2A, true, true, .never, .v, .v, .none, .none, .none, .i, [.i32, .i8, .i16], .zero, .zero, .zero⟩
/-- IADD64 bxl. -/
def iadd64 : Cell :=
  ⟨0x2B, true, true, .optional, .v2, .v2, .v2, .none, .b, .i, [.i64, .n64], .zero, .zero, .zero⟩
/-- IMAD64 xl. -/
def imad64 : Cell :=
  ⟨0x2C, false, true, .optional, .v2, .v, .v, .v2, .c, .i, [.i32, .n32], .zero, .zero, .zero⟩
/-- LEA bxl. -/
def lea : Cell :=
  ⟨0x2D, true, true, .optional, .v, .v, .v, .none, .b, .i, [.i32], .shift, .zero, .zero⟩
/-- LEA64 bxl. -/
def lea64 : Cell :=
  ⟨0x2E, true, true, .optional, .v2, .v2, .v, .none, .b, .i, [.i32, .n32], .shift, .zero, .zero⟩
/-- AND bxl. -/
def and : Cell :=
  ⟨0x30, true, true, .optional, .v, .v, .v, .none, .b, .i, [.b32], .zero, .zero, .zero⟩
/-- OR bxl. -/
def or : Cell :=
  ⟨0x31, true, true, .optional, .v, .v, .v, .none, .b, .i, [.b32], .zero, .zero, .zero⟩
/-- XOR bxl. -/
def xor : Cell :=
  ⟨0x32, true, true, .optional, .v, .v, .v, .none, .b, .i, [.b32], .zero, .zero, .zero⟩
/-- NOT bx. -/
def not : Cell :=
  ⟨0x33, true, true, .never, .v, .v, .none, .none, .none, .i, [.b32], .zero, .zero, .zero⟩
/-- ANDN bxl. -/
def andn : Cell :=
  ⟨0x34, true, true, .optional, .v, .v, .v, .none, .b, .i, [.b32], .zero, .zero, .zero⟩
/-- SHL bxl. -/
def shl : Cell :=
  ⟨0x35, true, true, .optional, .v, .v, .v, .none, .b, .i, [.b32], .zero, .zero, .zero⟩
/-- SHR bxl. -/
def shr : Cell :=
  ⟨0x36, true, true, .optional, .v, .v, .v, .none, .b, .i, [.b32], .zero, .zero, .zero⟩
/-- SAR bxl. -/
def sar : Cell :=
  ⟨0x37, true, true, .optional, .v, .v, .v, .none, .b, .i, [.b32], .zero, .zero, .zero⟩
/-- ROT bxl. -/
def rot : Cell :=
  ⟨0x38, true, true, .optional, .v, .v, .v, .none, .b, .i, [.b32], .zero, .zero, .zero⟩
/-- POPC bx. -/
def popc : Cell :=
  ⟨0x39, true, true, .never, .v, .v, .none, .none, .none, .i, [.b32], .zero, .zero, .zero⟩
/-- CLZ bx. -/
def clz : Cell :=
  ⟨0x3A, true, true, .never, .v, .v, .none, .none, .none, .i, [.b32], .zero, .zero, .zero⟩
/-- CTZ bx. -/
def ctz : Cell :=
  ⟨0x3B, true, true, .never, .v, .v, .none, .none, .none, .i, [.b32], .zero, .zero, .zero⟩
/-- BREV bx. -/
def brev : Cell :=
  ⟨0x3C, true, true, .never, .v, .v, .none, .none, .none, .i, [.b32], .zero, .zero, .zero⟩
/-- BFE xl. -/
def bfe : Cell :=
  ⟨0x3D, false, true, .optional, .v, .v, .v, .v, .c, .i, [.n32, .i32], .zero, .zero, .zero⟩
/-- BFI xl. -/
def bfi : Cell :=
  ⟨0x3E, false, true, .optional, .v, .v, .v, .v, .c, .i, [.b32], .zero, .zero, .zero⟩
/-- PERMB xl. -/
def permb : Cell :=
  ⟨0x3F, false, true, .optional, .v, .v, .v, .v, .c, .i, [.b32], .zero, .zero, .zero⟩
/-- ISET bxl. -/
def iset : Cell :=
  ⟨0x40, true, true, .optional, .p, .v64, .v64, .none, .b, .i, [.i32, .i8, .i16, .n8, .n16, .n32, .i64, .n64], (.cmp false), .zero, .zero⟩
/-- FSET bxl. -/
def fset : Cell :=
  ⟨0x41, true, true, .optional, .p, .v, .v, .none, .b, .f, [.f32, .f16, .bf16], (.cmp true), .zero, .zero⟩
/-- FCLS x. -/
def fcls : Cell :=
  ⟨0x42, false, true, .never, .p, .v, .none, .none, .none, .f, [.f32, .f16, .bf16, .e4m3, .e5m2, .e3m2], .fcls, .zero, .zero⟩
/-- PAND bx. -/
def pand : Cell :=
  ⟨0x43, true, true, .never, .p, .p, .p, .none, .none, .none, [], .zero, .zero, .zero⟩
/-- POR bx. -/
def por : Cell :=
  ⟨0x44, true, true, .never, .p, .p, .p, .none, .none, .none, [], .zero, .zero, .zero⟩
/-- PXOR bx. -/
def pxor : Cell :=
  ⟨0x45, true, true, .never, .p, .p, .p, .none, .none, .none, [], .zero, .zero, .zero⟩
/-- PNOT bx. -/
def pnot : Cell :=
  ⟨0x46, true, true, .never, .p, .p, .none, .none, .none, .none, [], .zero, .zero, .zero⟩
/-- PTOV bx. -/
def ptov : Cell :=
  ⟨0x47, true, true, .never, .v, .p, .none, .none, .none, .none, [], .zero, .zero, .zero⟩
/-- VTOP bx. -/
def vtop : Cell :=
  ⟨0x48, true, true, .never, .p, .v, .none, .none, .none, .none, [], .zero, .zero, .zero⟩
/-- LXCH.idx bxl. -/
def lxchIdx : Cell :=
  ⟨0x50, true, true, .optional, .v, .v, .v, .none, .b, .i, [.b32], .zero, .zero, .zero⟩
/-- LXCH.up bxl. -/
def lxchUp : Cell :=
  ⟨0x51, true, true, .optional, .v, .v, .v, .none, .b, .i, [.b32], .zero, .zero, .zero⟩
/-- LXCH.down bxl. -/
def lxchDown : Cell :=
  ⟨0x52, true, true, .optional, .v, .v, .v, .none, .b, .i, [.b32], .zero, .zero, .zero⟩
/-- LXCH.xor bxl. -/
def lxchXor : Cell :=
  ⟨0x53, true, true, .optional, .v, .v, .v, .none, .b, .i, [.b32], .zero, .zero, .zero⟩
/-- BCAST bxl. -/
def bcast : Cell :=
  ⟨0x54, true, true, .optional, .v, .v, .v, .none, .b, .i, [.b32], .zero, .zero, .zero⟩
/-- VOTE.all bx. -/
def voteAll : Cell :=
  ⟨0x55, true, true, .never, .p, .p, .none, .none, .none, .none, [], .zero, .zero, .zero⟩
/-- VOTE.any bx. -/
def voteAny : Cell :=
  ⟨0x56, true, true, .never, .p, .p, .none, .none, .none, .none, [], .zero, .zero, .zero⟩
/-- VOTE.bal bx. -/
def voteBal : Cell :=
  ⟨0x57, true, true, .never, .v, .p, .none, .none, .none, .none, [], .zero, .zero, .zero⟩
/-- MATCH bx. -/
def matchLanes : Cell :=
  ⟨0x58, true, true, .never, .v, .v, .none, .none, .none, .i, [.b32], .zero, .zero, .zero⟩
/-- LCOMP bx. -/
def lcomp : Cell :=
  ⟨0x59, true, true, .never, .v, .v, .p, .none, .none, .none, [], .zero, .zero, .zero⟩
/-- REGROUP bx. -/
def regroup : Cell :=
  ⟨0x5A, true, true, .never, .none, .v, .none, .none, .none, .none, [], .zero, .zero, .zero⟩
/-- REGROUP.RESTORE bx. -/
def regroupRestore : Cell :=
  ⟨0x5B, true, true, .never, .none, .none, .none, .none, .none, .none, [], .zero, .zero, .zero⟩
/-- FADD bxl. -/
def fadd : Cell :=
  ⟨0x60, true, true, .optional, .v, .v, .v, .none, .b, .f, [.f32], (.arith true true), .zero, .zero⟩
/-- FSUB bxl. -/
def fsub : Cell :=
  ⟨0x61, true, true, .optional, .v, .v, .v, .none, .b, .f, [.f32], (.arith true true), .zero, .zero⟩
/-- FMUL bxl. -/
def fmul : Cell :=
  ⟨0x62, true, true, .optional, .v, .v, .v, .none, .b, .f, [.f32], (.arith true true), .zero, .zero⟩
/-- FFMA xl. -/
def ffma : Cell :=
  ⟨0x63, false, true, .optional, .v, .v, .v, .v, .c, .f, [.f32], (.arith true true), .zero, .zero⟩
/-- FMIN bxl. -/
def fmin : Cell :=
  ⟨0x64, true, true, .optional, .v, .v, .v, .none, .b, .f, [.f32], .zero, .zero, .zero⟩
/-- FMAX bxl. -/
def fmax : Cell :=
  ⟨0x65, true, true, .optional, .v, .v, .v, .none, .b, .f, [.f32], .zero, .zero, .zero⟩
/-- FABS bx. -/
def fabs : Cell :=
  ⟨0x66, true, true, .never, .v, .v, .none, .none, .none, .f, [.f32], .zero, .zero, .zero⟩
/-- FNEG bx. -/
def fneg : Cell :=
  ⟨0x67, true, true, .never, .v, .v, .none, .none, .none, .f, [.f32], .zero, .zero, .zero⟩
/-- FRND bx. -/
def frnd : Cell :=
  ⟨0x68, true, true, .never, .v, .v, .none, .none, .none, .f, [.f32], (.arith true false), .zero, .zero⟩
/-- FDIV bxl. -/
def fdiv : Cell :=
  ⟨0x69, true, true, .optional, .v, .v, .v, .none, .b, .f, [.f32], (.arith true true), .zero, .zero⟩
/-- FSQRT bx. -/
def fsqrt : Cell :=
  ⟨0x6A, true, true, .never, .v, .v, .none, .none, .none, .f, [.f32], (.arith true false), .zero, .zero⟩
/-- FRCP bx. -/
def frcp : Cell :=
  ⟨0x6B, true, true, .never, .v, .v, .none, .none, .none, .f, [.f32], (.arith false true), .zero, .zero⟩
/-- FRSQ bx. -/
def frsq : Cell :=
  ⟨0x6C, true, true, .never, .v, .v, .none, .none, .none, .f, [.f32], .zero, .zero, .zero⟩
/-- SETFP bxl. -/
def setfp : Cell :=
  ⟨0x6D, true, true, .optional, .v, .v, .v, .none, .b, .none, [], .zero, .zero, .zero⟩
/-- FEX2 bx. -/
def fex2 : Cell :=
  ⟨0x70, true, true, .never, .v, .v, .none, .none, .none, .f, [.f32], (.arith false true), .zero, .zero⟩
/-- FLG2 bx. -/
def flg2 : Cell :=
  ⟨0x71, true, true, .never, .v, .v, .none, .none, .none, .f, [.f32], .zero, .zero, .zero⟩
/-- FSIN bx. -/
def fsin : Cell :=
  ⟨0x72, true, true, .never, .v, .v, .none, .none, .none, .f, [.f32], .zero, .zero, .zero⟩
/-- FCOS bx. -/
def fcos : Cell :=
  ⟨0x73, true, true, .never, .v, .v, .none, .none, .none, .f, [.f32], .zero, .zero, .zero⟩
/-- FTANH bx. -/
def ftanh : Cell :=
  ⟨0x74, true, true, .never, .v, .v, .none, .none, .none, .f, [.f32], .zero, .zero, .zero⟩
/-- PHADD bxl. -/
def phadd : Cell :=
  ⟨0x75, true, true, .optional, .v, .v, .v, .none, .b, .none, [], (.arith true true), .zero, .zero⟩
/-- PHMUL bxl. -/
def phmul : Cell :=
  ⟨0x76, true, true, .optional, .v, .v, .v, .none, .b, .none, [], (.arith true true), .zero, .zero⟩
/-- PHFMA xl. -/
def phfma : Cell :=
  ⟨0x77, false, true, .optional, .v, .v, .v, .v, .c, .none, [], (.arith true true), .zero, .zero⟩
/-- PBADD bxl. -/
def pbadd : Cell :=
  ⟨0x78, true, true, .optional, .v, .v, .v, .none, .b, .none, [], (.arith true true), .zero, .zero⟩
/-- PBMUL bxl. -/
def pbmul : Cell :=
  ⟨0x79, true, true, .optional, .v, .v, .v, .none, .b, .none, [], (.arith true true), .zero, .zero⟩
/-- PBFMA xl. -/
def pbfma : Cell :=
  ⟨0x7A, false, true, .optional, .v, .v, .v, .v, .c, .none, [], (.arith true true), .zero, .zero⟩
/-- CVT x. -/
def cvt : Cell :=
  ⟨0x80, false, true, .never, .vDst, .vSrc, .none, .none, .none, .conv, [], .conv, .zero, .zero⟩
/-- QNT x. -/
def qnt : Cell :=
  ⟨0x81, false, true, .never, .v, .v, .v, .none, .none, .conv, [], .conv, .zero, .zero⟩
/-- DQNT x. -/
def dqnt : Cell :=
  ⟨0x82, false, true, .never, .v, .v, .v, .none, .none, .conv, [], .conv, .zero, .zero⟩
/-- PK6 bx. -/
def pk6 : Cell :=
  ⟨0x83, true, true, .never, .v, .v, .none, .none, .none, .none, [], .zero, .zero, .zero⟩
/-- UPK6 bx. -/
def upk6 : Cell :=
  ⟨0x84, true, true, .never, .v, .v, .none, .none, .none, .none, [], .zero, .zero, .zero⟩
/-- PKB bx. -/
def pkb : Cell :=
  ⟨0x85, true, true, .never, .v, .v, .v, .none, .none, .none, [], .pkb, .zero, .zero⟩
/-- UPKB bx. -/
def upkb : Cell :=
  ⟨0x86, true, true, .never, .v, .v, .none, .none, .none, .none, [], .upkb, .zero, .zero⟩
/-- LD bx. -/
def ld : Cell :=
  ⟨0x90, true, true, .never, .vw, .v2, .none, .none, .none, .i, [.b32, .b8, .b16, .b64, .b128, .i8, .i16, .n8, .n16], (.mem true false), .zero, .zero⟩
/-- ST bx. -/
def st : Cell :=
  ⟨0x91, true, true, .never, .none, .v2, .vw, .none, .none, .i, [.b32, .b8, .b16, .b64, .b128], (.mem false true), .zero, .zero⟩
/-- LDQ x. -/
def ldq : Cell :=
  ⟨0x92, false, true, .never, .v, .v2, .v, .none, .none, .f, [.f32], (.mem true false), .zero, .zero⟩
/-- LDS bxl. -/
def lds : Cell :=
  ⟨0x93, true, true, .optional, .vw, .v, .none, .none, .a, .i, [.b32, .b8, .b16, .b64, .b128, .i8, .i16, .n8, .n16], (.mem true false), .zero, .zero⟩
/-- STS bx. -/
def sts : Cell :=
  ⟨0x94, true, true, .never, .none, .v, .vw, .none, .none, .i, [.b32, .b8, .b16, .b64, .b128], (.mem false true), .zero, .zero⟩
/-- LDS.PEER x. -/
def ldsPeer : Cell :=
  ⟨0x95, false, true, .never, .vw, .v, .none, .none, .none, .i, [.b32, .b8, .b16, .b64, .b128, .i8, .i16, .n8, .n16], (.mem true false), .zero, .zero⟩
/-- STS.PEER x. -/
def stsPeer : Cell :=
  ⟨0x96, false, true, .never, .none, .v, .vw, .none, .none, .i, [.b32, .b8, .b16, .b64, .b128], (.mem false true), .zero, .zero⟩
/-- LDW bxl. -/
def ldw : Cell :=
  ⟨0x97, true, true, .optional, .vw, .v, .none, .none, .a, .i, [.b32, .b8, .b16, .b64, .b128, .i8, .i16, .n8, .n16], (.mem true false), .zero, .zero⟩
/-- ATOM.add bx. -/
def atomAdd : Cell :=
  ⟨0xA0, true, true, .never, .vw, .v2, .vw, .none, .none, .i, [.i32, .n32, .i64, .n64], (.mem true true), .zero, .zero⟩
/-- ATOM.fadd bx. -/
def atomFadd : Cell :=
  ⟨0xA1, true, true, .never, .v, .v2, .v, .none, .none, .none, [], (.mem true true), .zero, .zero⟩
/-- ATOM.min bx. -/
def atomMin : Cell :=
  ⟨0xA2, true, true, .never, .vw, .v2, .vw, .none, .none, .i, [.i32, .n32, .i64, .n64], (.mem true true), .zero, .zero⟩
/-- ATOM.max bx. -/
def atomMax : Cell :=
  ⟨0xA3, true, true, .never, .vw, .v2, .vw, .none, .none, .i, [.i32, .n32, .i64, .n64], (.mem true true), .zero, .zero⟩
/-- ATOM.and bx. -/
def atomAnd : Cell :=
  ⟨0xA4, true, true, .never, .vw, .v2, .vw, .none, .none, .i, [.b32, .b64], (.mem true true), .zero, .zero⟩
/-- ATOM.or bx. -/
def atomOr : Cell :=
  ⟨0xA5, true, true, .never, .vw, .v2, .vw, .none, .none, .i, [.b32, .b64], (.mem true true), .zero, .zero⟩
/-- ATOM.xor bx. -/
def atomXor : Cell :=
  ⟨0xA6, true, true, .never, .vw, .v2, .vw, .none, .none, .i, [.b32, .b64], (.mem true true), .zero, .zero⟩
/-- ATOM.xchg bx. -/
def atomXchg : Cell :=
  ⟨0xA7, true, true, .never, .vw, .v2, .vw, .none, .none, .i, [.b32, .b64], (.mem true true), .zero, .zero⟩
/-- ATOM.cas x. -/
def atomCas : Cell :=
  ⟨0xA8, false, true, .never, .vw, .v2, .vw, .vw, .none, .i, [.b32, .b64], (.mem true true), .zero, .zero⟩
/-- RED.add bx. -/
def redAdd : Cell :=
  ⟨0xB0, true, true, .never, .none, .v2, .vw, .none, .none, .i, [.i32, .n32, .i64, .n64], .zero, .zero, .zero⟩
/-- RED.fadd bx. -/
def redFadd : Cell :=
  ⟨0xB1, true, true, .never, .none, .v2, .v, .none, .none, .none, [], .zero, .zero, .zero⟩
/-- RED.min bx. -/
def redMin : Cell :=
  ⟨0xB2, true, true, .never, .none, .v2, .vw, .none, .none, .i, [.i32, .n32, .i64, .n64], .zero, .zero, .zero⟩
/-- RED.max bx. -/
def redMax : Cell :=
  ⟨0xB3, true, true, .never, .none, .v2, .vw, .none, .none, .i, [.i32, .n32, .i64, .n64], .zero, .zero, .zero⟩
/-- RED.and bx. -/
def redAnd : Cell :=
  ⟨0xB4, true, true, .never, .none, .v2, .vw, .none, .none, .i, [.b32, .b64], .zero, .zero, .zero⟩
/-- RED.or bx. -/
def redOr : Cell :=
  ⟨0xB5, true, true, .never, .none, .v2, .vw, .none, .none, .i, [.b32, .b64], .zero, .zero, .zero⟩
/-- RED.xor bx. -/
def redXor : Cell :=
  ⟨0xB6, true, true, .never, .none, .v2, .vw, .none, .none, .i, [.b32, .b64], .zero, .zero, .zero⟩
/-- FENCE.COH bx. -/
def fenceCoh : Cell :=
  ⟨0xC0, true, true, .never, .none, .none, .none, .none, .none, .none, [], .zero, .zero, .zero⟩
/-- FENCE.BLK bx. -/
def fenceBlk : Cell :=
  ⟨0xC1, true, true, .never, .none, .none, .none, .none, .none, .none, [], .zero, .zero, .zero⟩
/-- FENCE.CORE bx. -/
def fenceCore : Cell :=
  ⟨0xC2, true, true, .never, .none, .none, .none, .none, .none, .none, [], .zero, .zero, .zero⟩
/-- FENCE.CLU bx. -/
def fenceClu : Cell :=
  ⟨0xC3, true, true, .never, .none, .none, .none, .none, .none, .none, [], .zero, .zero, .zero⟩
/-- FENCE.DIE bx. -/
def fenceDie : Cell :=
  ⟨0xC4, true, true, .never, .none, .none, .none, .none, .none, .none, [], .zero, .zero, .zero⟩
/-- FENCE.DEV bx. -/
def fenceDev : Cell :=
  ⟨0xC5, true, true, .never, .none, .none, .none, .none, .none, .none, [], .zero, .zero, .zero⟩
/-- FENCE.SYS bx. -/
def fenceSys : Cell :=
  ⟨0xC6, true, true, .never, .none, .none, .none, .none, .none, .none, [], .zero, .zero, .zero⟩
/-- BAR.INIT bxl. -/
def barInit : Cell :=
  ⟨0xC8, true, true, .optional, .none, .v, .v, .none, .b, .none, [], .bar, .zero, .zero⟩
/-- BAR.ARR bx. -/
def barArr : Cell :=
  ⟨0xC9, true, true, .never, .v, .v, .none, .none, .none, .none, [], .bar, .zero, .zero⟩
/-- BAR.WAIT bx. -/
def barWait : Cell :=
  ⟨0xCA, true, true, .never, .none, .v, .v, .none, .none, .none, [], .bar, .zero, .zero⟩
/-- BAR.XIN bxl. -/
def barXin : Cell :=
  ⟨0xCB, true, true, .optional, .none, .v, .v, .none, .b, .none, [], .bar, .zero, .zero⟩
/-- BAR.XOUT bxl. -/
def barXout : Cell :=
  ⟨0xCC, true, true, .optional, .none, .v, .v, .none, .b, .none, [], .bar, .zero, .zero⟩
/-- CPY x. -/
def cpy : Cell :=
  ⟨0xD0, false, true, .never, .ch, .v, .v2, .vObj, .none, .none, [], (.copy true true true false), .zero, .zero⟩
/-- CPYM x. -/
def cpym : Cell :=
  ⟨0xD1, false, true, .never, .ch, .v, .v2, .vObj, .none, .none, [], (.copy true true true false), .zero, .zero⟩
/-- CPYO x. -/
def cpyo : Cell :=
  ⟨0xD2, false, true, .never, .ch, .v2, .v, .vObj, .none, .none, [], (.copy false false false true), .zero, .zero⟩
/-- CPYP x. -/
def cpyp : Cell :=
  ⟨0xD3, false, true, .never, .ch, .v, .v, .vObj, .none, .none, [], (.copy false false true true), .zero, .zero⟩
/-- WAITOC bx. -/
def waitoc : Cell :=
  ⟨0xD4, true, true, .never, .none, .cls, .count, .none, .none, .none, [], .zero, .zero, .zero⟩
/-- RDWP bx. -/
def rdwp : Cell :=
  ⟨0xD5, true, true, .never, .v, .ch, .none, .none, .none, .none, [], .zero, .zero, .zero⟩
/-- WAITWP bxl. -/
def waitwp : Cell :=
  ⟨0xD6, true, true, .optional, .none, .ch, .v, .none, .b, .none, [], .zero, .zero, .zero⟩
/-- TXB bxL. -/
def txb : Cell :=
  ⟨0xD8, true, true, .required, .v, .none, .none, .none, .code, .none, [], .zero, .zero, .zero⟩
/-- TXC bx. -/
def txc : Cell :=
  ⟨0xD9, true, true, .never, .none, .none, .none, .none, .none, .none, [], .zero, .zero, .zero⟩
/-- TXA bx. -/
def txa : Cell :=
  ⟨0xDA, true, true, .never, .none, .none, .none, .none, .none, .none, [], .zero, .zero, .zero⟩
/-- TXW bx. -/
def txw : Cell :=
  ⟨0xDB, true, true, .never, .none, .v2, .none, .none, .none, .none, [], .zero, .zero, .zero⟩
/-- GCHK bx. -/
def gchk : Cell :=
  ⟨0xDC, true, true, .never, .none, .v, .none, .none, .none, .none, [], .zero, .zero, .zero⟩
/-- DSET bx. -/
def dset : Cell :=
  ⟨0xE0, true, true, .never, .dsc, .v, .vPitch, .none, .none, .none, [], .dset, .zero, .zero⟩
/-- DGET bx. -/
def dget : Cell :=
  ⟨0xE1, true, true, .never, .v4, .dsc, .none, .none, .none, .none, [], .zero, .zero, .zero⟩
/-- TZERO bx. -/
def tzero : Cell :=
  ⟨0xE2, true, true, .never, .t, .none, .none, .none, .none, .none, [], .zero, .zero, .zero⟩
/-- TRD bxl. -/
def trd : Cell :=
  ⟨0xE3, true, true, .optional, .v, .t, .v, .none, .b, .i, [.b32], .zero, .zero, .zero⟩
/-- TWR bxl. -/
def twr : Cell :=
  ⟨0xE4, true, true, .optional, .t, .v, .v, .none, .b, .i, [.b32], .zero, .zero, .zero⟩
/-- TCVT x. -/
def tcvt : Cell :=
  ⟨0xE5, false, true, .never, .t, .t, .v, .none, .none, .f, [.f32, .f16, .bf16, .e4m3, .e5m2], .tcvt, .zero, .zero⟩
/-- MMA.e4m3 x. -/
def mmaE4m3 : Cell :=
  ⟨0xE8, false, true, .never, .t, .dsc, .dsc, .none, .none, .none, [], .zero, .passes, .zero⟩
/-- MMA.e5m2 x. -/
def mmaE5m2 : Cell :=
  ⟨0xE9, false, true, .never, .t, .dsc, .dsc, .none, .none, .none, [], .zero, .passes, .zero⟩
/-- MMA.i8 x. -/
def mmaI8 : Cell :=
  ⟨0xEA, false, true, .never, .t, .dsc, .dsc, .none, .none, .none, [], .zero, .passes, .zero⟩
/-- MMA.bf16 x. -/
def mmaBf16 : Cell :=
  ⟨0xEB, false, true, .never, .t, .dsc, .dsc, .none, .none, .none, [], .zero, .passes, .zero⟩
/-- MMA.q4a x. -/
def mmaQ4a : Cell :=
  ⟨0xEC, false, true, .never, .t, .dsc, .dsc, .none, .none, .none, [], .zero, .passesGrp, .zero⟩
/-- MMAG x. -/
def mmag : Cell :=
  ⟨0xED, false, true, .never, .t, .dsc, .dsc, .v4, .none, .e, [.e4m3, .e5m2, .i8, .bf16, .q4a], .zero, .passesGrp, .zero⟩
/-- MMAS x. -/
def mmas : Cell :=
  ⟨0xEE, false, true, .never, .t, .dsc, .dsc, .runK, .none, .e, [.e4m3, .e5m2, .i8, .bf16], .zero, .passes, .zero⟩
/-- CMPR x. -/
def cmpr : Cell :=
  ⟨0xEF, false, true, .never, .runK, .dsc, .dsc, .none, .none, .e, [.e4m3, .e5m2, .i8, .bf16], .zero, .passes, .rows⟩
/-- MVT x. -/
def mvt : Cell :=
  ⟨0xF0, false, true, .never, .runM, .runN, .v, .none, .none, .none, [], .zero, .mvt, .zero⟩
/-- VGA x. -/
def vga : Cell :=
  ⟨0xF1, false, true, .never, .v, .dsc, .dsc, .none, .none, .none, [], .zero, .zero, .zero⟩
/-- NRES bx. -/
def nres : Cell :=
  ⟨0xF2, true, true, .never, .none, .none, .none, .none, .none, .none, [], .zero, .zero, .zero⟩
/-- ALLOCREG bx. -/
def allocreg : Cell :=
  ⟨0xF3, true, true, .never, .p, .count, .none, .none, .none, .none, [], .zero, .zero, .zero⟩
/-- FREEREG bx. -/
def freereg : Cell :=
  ⟨0xF4, true, true, .never, .none, .count, .none, .none, .none, .none, [], .zero, .zero, .zero⟩
/-- WALLET bx. -/
def wallet : Cell :=
  ⟨0xF5, true, true, .never, .v, .none, .v, .none, .none, .none, [], .zero, .zero, .zero⟩
/-- BOOST bx. -/
def boost : Cell :=
  ⟨0xF6, true, true, .never, .v, .none, .v, .none, .none, .none, [], .zero, .zero, .zero⟩
/-- PERMITS bx. -/
def permits : Cell :=
  ⟨0xF7, true, true, .never, .v, .none, .none, .none, .none, .none, [], .zero, .zero, .zero⟩
/-- CYCLE bx. -/
def cycle : Cell :=
  ⟨0xF8, true, true, .never, .v2, .none, .none, .none, .none, .none, [], .zero, .zero, .zero⟩

end Cells

/-- The cell of a major opcode (R187); none for a reserved cell and for a hint cell. -/
def cellOf : Nat → Option Cell
  | 0x01 => some Cells.mov
  | 0x02 => some Cells.movl
  | 0x03 => some Cells.gets
  | 0x04 => some Cells.sets
  | 0x05 => some Cells.sel
  | 0x06 => some Cells.laneof
  | 0x07 => some Cells.nop
  | 0x10 => some Cells.bra
  | 0x11 => some Cells.brx
  | 0x12 => some Cells.call
  | 0x13 => some Cells.callx
  | 0x14 => some Cells.ret
  | 0x15 => some Cells.meet
  | 0x16 => some Cells.waitj
  | 0x17 => some Cells.exit
  | 0x18 => some Cells.trap
  | 0x19 => some Cells.bkpt
  | 0x1A => some Cells.xret
  | 0x20 => some Cells.iadd
  | 0x21 => some Cells.isub
  | 0x22 => some Cells.imul
  | 0x23 => some Cells.imulh
  | 0x24 => some Cells.imad
  | 0x25 => some Cells.idiv
  | 0x26 => some Cells.irem
  | 0x27 => some Cells.imin
  | 0x28 => some Cells.imax
  | 0x29 => some Cells.iabs
  | 0x2A => some Cells.ineg
  | 0x2B => some Cells.iadd64
  | 0x2C => some Cells.imad64
  | 0x2D => some Cells.lea
  | 0x2E => some Cells.lea64
  | 0x30 => some Cells.and
  | 0x31 => some Cells.or
  | 0x32 => some Cells.xor
  | 0x33 => some Cells.not
  | 0x34 => some Cells.andn
  | 0x35 => some Cells.shl
  | 0x36 => some Cells.shr
  | 0x37 => some Cells.sar
  | 0x38 => some Cells.rot
  | 0x39 => some Cells.popc
  | 0x3A => some Cells.clz
  | 0x3B => some Cells.ctz
  | 0x3C => some Cells.brev
  | 0x3D => some Cells.bfe
  | 0x3E => some Cells.bfi
  | 0x3F => some Cells.permb
  | 0x40 => some Cells.iset
  | 0x41 => some Cells.fset
  | 0x42 => some Cells.fcls
  | 0x43 => some Cells.pand
  | 0x44 => some Cells.por
  | 0x45 => some Cells.pxor
  | 0x46 => some Cells.pnot
  | 0x47 => some Cells.ptov
  | 0x48 => some Cells.vtop
  | 0x50 => some Cells.lxchIdx
  | 0x51 => some Cells.lxchUp
  | 0x52 => some Cells.lxchDown
  | 0x53 => some Cells.lxchXor
  | 0x54 => some Cells.bcast
  | 0x55 => some Cells.voteAll
  | 0x56 => some Cells.voteAny
  | 0x57 => some Cells.voteBal
  | 0x58 => some Cells.matchLanes
  | 0x59 => some Cells.lcomp
  | 0x5A => some Cells.regroup
  | 0x5B => some Cells.regroupRestore
  | 0x60 => some Cells.fadd
  | 0x61 => some Cells.fsub
  | 0x62 => some Cells.fmul
  | 0x63 => some Cells.ffma
  | 0x64 => some Cells.fmin
  | 0x65 => some Cells.fmax
  | 0x66 => some Cells.fabs
  | 0x67 => some Cells.fneg
  | 0x68 => some Cells.frnd
  | 0x69 => some Cells.fdiv
  | 0x6A => some Cells.fsqrt
  | 0x6B => some Cells.frcp
  | 0x6C => some Cells.frsq
  | 0x6D => some Cells.setfp
  | 0x70 => some Cells.fex2
  | 0x71 => some Cells.flg2
  | 0x72 => some Cells.fsin
  | 0x73 => some Cells.fcos
  | 0x74 => some Cells.ftanh
  | 0x75 => some Cells.phadd
  | 0x76 => some Cells.phmul
  | 0x77 => some Cells.phfma
  | 0x78 => some Cells.pbadd
  | 0x79 => some Cells.pbmul
  | 0x7A => some Cells.pbfma
  | 0x80 => some Cells.cvt
  | 0x81 => some Cells.qnt
  | 0x82 => some Cells.dqnt
  | 0x83 => some Cells.pk6
  | 0x84 => some Cells.upk6
  | 0x85 => some Cells.pkb
  | 0x86 => some Cells.upkb
  | 0x90 => some Cells.ld
  | 0x91 => some Cells.st
  | 0x92 => some Cells.ldq
  | 0x93 => some Cells.lds
  | 0x94 => some Cells.sts
  | 0x95 => some Cells.ldsPeer
  | 0x96 => some Cells.stsPeer
  | 0x97 => some Cells.ldw
  | 0xA0 => some Cells.atomAdd
  | 0xA1 => some Cells.atomFadd
  | 0xA2 => some Cells.atomMin
  | 0xA3 => some Cells.atomMax
  | 0xA4 => some Cells.atomAnd
  | 0xA5 => some Cells.atomOr
  | 0xA6 => some Cells.atomXor
  | 0xA7 => some Cells.atomXchg
  | 0xA8 => some Cells.atomCas
  | 0xB0 => some Cells.redAdd
  | 0xB1 => some Cells.redFadd
  | 0xB2 => some Cells.redMin
  | 0xB3 => some Cells.redMax
  | 0xB4 => some Cells.redAnd
  | 0xB5 => some Cells.redOr
  | 0xB6 => some Cells.redXor
  | 0xC0 => some Cells.fenceCoh
  | 0xC1 => some Cells.fenceBlk
  | 0xC2 => some Cells.fenceCore
  | 0xC3 => some Cells.fenceClu
  | 0xC4 => some Cells.fenceDie
  | 0xC5 => some Cells.fenceDev
  | 0xC6 => some Cells.fenceSys
  | 0xC8 => some Cells.barInit
  | 0xC9 => some Cells.barArr
  | 0xCA => some Cells.barWait
  | 0xCB => some Cells.barXin
  | 0xCC => some Cells.barXout
  | 0xD0 => some Cells.cpy
  | 0xD1 => some Cells.cpym
  | 0xD2 => some Cells.cpyo
  | 0xD3 => some Cells.cpyp
  | 0xD4 => some Cells.waitoc
  | 0xD5 => some Cells.rdwp
  | 0xD6 => some Cells.waitwp
  | 0xD8 => some Cells.txb
  | 0xD9 => some Cells.txc
  | 0xDA => some Cells.txa
  | 0xDB => some Cells.txw
  | 0xDC => some Cells.gchk
  | 0xE0 => some Cells.dset
  | 0xE1 => some Cells.dget
  | 0xE2 => some Cells.tzero
  | 0xE3 => some Cells.trd
  | 0xE4 => some Cells.twr
  | 0xE5 => some Cells.tcvt
  | 0xE8 => some Cells.mmaE4m3
  | 0xE9 => some Cells.mmaE5m2
  | 0xEA => some Cells.mmaI8
  | 0xEB => some Cells.mmaBf16
  | 0xEC => some Cells.mmaQ4a
  | 0xED => some Cells.mmag
  | 0xEE => some Cells.mmas
  | 0xEF => some Cells.cmpr
  | 0xF0 => some Cells.mvt
  | 0xF1 => some Cells.vga
  | 0xF2 => some Cells.nres
  | 0xF3 => some Cells.allocreg
  | 0xF4 => some Cells.freereg
  | 0xF5 => some Cells.wallet
  | 0xF6 => some Cells.boost
  | 0xF7 => some Cells.permits
  | 0xF8 => some Cells.cycle
  | _ => none

/-- The hint cells of R191. -/
def isHint (opc : Nat) : Bool := 0xF9 ≤ opc && opc ≤ 0xFE

/-- The LEN values a cell allows (R188): whether the word is extended, and whether it has a literal. -/
def Cell.lenOk (c : Cell) (isExt hasLit : Bool) : Bool :=
  (if isExt then c.ext else c.base) &&
  (match c.lit with
   | .never => !hasLit
   | .optional => true
   | .required => hasLit)

/-- The type a word selects in its cell (R180); none for a code the cell does not list. LEA lists its default only, so
FMT must be 0 there (R200). That FMT 0 selects the first type of the list of a TCVT too, .f32, is DEDUCED (R180, R280; log 126). -/
def Cell.ty (c : Cell) (w : ExtWord) : Option Ty :=
  match c.cls with
  | .none => if w.fmt = 0 then some .b32 else none
  | .conv => (Ty.ofCode (16 * (w.sub.getLsbD 9).toNat + w.fmt.toNat))
  | .e => (Ty.ofCodeE w.fmt.toNat).filter (c.tys.contains ·)
  | .i =>
    if w.fmt = 0 then c.tys.head?
    else if c.opc = 0x2D then none
    else (Ty.ofCode w.fmt.toNat).filter (c.tys.contains ·)
  | .f =>
    if w.fmt = 0 then c.tys.head?
    else (Ty.ofCode (16 + w.fmt.toNat)).filter (c.tys.contains ·)

/-- The source type of a conversion, STY (R184). -/
def ExtWord.sty (w : ExtWord) : Option Ty := Ty.ofCode (w.sub.toNat / 16 % 32)

/-- The destination type of a conversion: DCL × 16 + FMT (R184). -/
def ExtWord.dty (w : ExtWord) : Option Ty := Ty.ofCode (16 * (w.sub.getLsbD 9).toNat + w.fmt.toNat)

/-- The rounding-mode field RM (R181, R184, R288). -/
def ExtWord.rmField (w : ExtWord) : Nat := w.sub.toNat % 4
/-- SAT, bit 2 of the arithmetic, conversion and TCVT layouts. -/
def ExtWord.satField (w : ExtWord) : Bool := w.sub.getLsbD 2
/-- NS, bit 3 of the same layouts. -/
def ExtWord.nsField (w : ExtWord) : Bool := w.sub.getLsbD 3
/-- PASSES + 1 (R185). -/
def ExtWord.passes (w : ExtWord) : Nat := w.moda.toNat % 16 + 1
/-- GRP (R280). -/
def ExtWord.grp (w : ExtWord) : Nat := w.moda.toNat / 16 % 4
/-- m of MVT: MDIM + 1 (R185). -/
def ExtWord.mdim (w : ExtWord) : Nat := w.moda.toNat / 16 % 16 + 1
/-- n of MVT: NDIM + 1 (R185). -/
def ExtWord.ndim (w : ExtWord) : Nat := w.moda.toNat % 16 + 1
/-- ORD (R183). -/
def ExtWord.ord (w : ExtWord) : Nat := w.sub.toNat / 4 % 4
/-- SCOPE (R183). -/
def ExtWord.scope (w : ExtWord) : Nat := w.sub.toNat / 16 % 8
/-- PEER of the barrier layout (R254). -/
def ExtWord.peer (w : ExtWord) : Bool := w.sub.getLsbD 0

/-- The pairs of types CVT lists (R246). -/
def cvtPair (d s : Ty) : Bool :=
  (d.isInt || d.isFloat) && (s.isInt || s.isFloat) && d != s

/-- The pairs of types QNT lists (R233). -/
def qntPair (d s : Ty) : Bool :=
  (d == .q8a || d == .q4a) && (s == .f32 || s == .f16 || s == .bf16)

/-- Whether FMT names a type the cell accepts; a conversion also checks STY and the pair (R184, R246, R233). -/
def Cell.tyOk (c : Cell) (w : ExtWord) : Bool :=
  match c.cls with
  | .conv =>
    match w.dty, w.sty with
    | some d, some s =>
      if c.opc = 0x80 then cvtPair d s else if c.opc = 0x81 then qntPair d s else qntPair s d
    | _, _ => false
  | _ => (c.ty w).isSome

/-- Whether SUB holds an assigned value of the cell's layout (R181 to R184 and the instructions' own layouts). -/
def Cell.subOk (c : Cell) (w : ExtWord) : Bool :=
  let n := w.sub.toNat
  match c.sub with
  | .zero => n == 0
  | .arith rm sat => n / 16 == 0 && !w.nsField && (rm || w.rmField == 0) && (sat || !w.satField)
  | .cmp float => n / 16 == 0 && (if float then n < 14 else n < 6)
  | .mem acq rel =>
    n / 128 == 0 && n % 4 == 0 && (w.ord != 0 || w.scope == 0) &&
    (match w.ord with
     | 0 => true
     | 1 => acq
     | 2 => rel
     | _ => acq && rel)
  | .conv =>
    if c.opc = 0x80 then !w.nsField || w.dty == some .e4m3
    else if c.opc = 0x81 then !w.nsField && !w.satField
    else !w.nsField
  | .shift => n / 8 == 0
  | .fcls => n / 512 == 0
  | .pkb => n / 2 == 0
  | .upkb => n / 8 == 0
  | .bar => n / 2 == 0
  | .copy dst dec rcv snd =>
    n / 16 == 0 && (dst || !w.sub.getLsbD 0) && (dec || !w.sub.getLsbD 1) && (rcv || !w.sub.getLsbD 2) &&
    (snd || !w.sub.getLsbD 3)
  | .dset => n / 4 == 0
  | .tcvt => n / 16 % 32 == 0 && (!w.nsField || (w.fmt == 4))

/-- Whether MODA and MODB hold assigned values (R185, R280). -/
def Cell.modOk (c : Cell) (w : ExtWord) : Bool :=
  (match c.moda with
   | .zero => w.moda.toNat == 0
   | .passes => w.moda.toNat / 16 == 0
   | .passesGrp => w.moda.toNat / 64 == 0 && w.grp != 3 && (c.ty w == some .q4a || c.opc == 0xEC || w.grp == 0)
   | .mvt => w.moda.toNat / 512 == 0) &&
  (match c.modb with
   | .zero => w.modb.toNat == 0
   | .rows => w.modb.toNat / 128 == 0)

/-- Whether an operand field's value lies in the range of its kind (R177). -/
def Kind.fieldOk (k : Kind) (f : BitVec 11) : Bool :=
  let n := f.toNat
  match k with
  | .none => n == 0
  | .v | .v2 | .v4 | .v64 | .vw | .vDst | .vSrc | .vObj | .vPitch | .runK | .runM | .runN => n < 1536 || n == 2047
  | .p => n < 96 || n == 2047
  | .j => n < 8
  | .t => n < 24
  | .dsc => n < 16
  | .ch => n < 8
  | .cls => n < 4
  | .sreg => n < 28
  | .count => n < 64

/-- Whether the literal takes all 64 bits in its cell (R178): the 64-bit operands of IADD64, IMAD64 and ISET. -/
def Cell.lit64 (c : Cell) (w : ExtWord) : Bool :=
  c.opc == 0x2B || c.opc == 0x2C || (c.opc == 0x40 && (c.ty w).any (·.bits == 64))

/-- Whether the literal keeps the rules of R178 and R179. -/
def Cell.litOk (c : Cell) (w : ExtWord) : Bool :=
  match w.lit with
  | none => true
  | some v =>
    if c.litF = .code then v.toNat < 2 ^ 32 && v.toNat % 4 == 0
    else c.lit64 w || v.toNat < 2 ^ 32

/-- Whether a field that a literal replaces, or any other field, holds a legal value (R177, R178). A SETS names a register that
R186 lets it write, FPCTL or XPC; that this is found with the other operand values, at step 2 of R192, is DEDUCED (log 124). -/
def Cell.fieldsOk (c : Cell) (w : ExtWord) : Bool :=
  let k (litHere : LitField) (k : Kind) : Kind := if w.lit.isSome && c.litF == litHere then .none else k
  (c.opc != 0x04 || w.d == 20 || w.d == 21) &&
  c.d.fieldOk w.d && (k .a c.a).fieldOk w.a && (k .b c.b).fieldOk w.b && (k .c c.c).fieldOk w.c

/-- The encoding check of R192 step 2, for a word whose cell and LEN R188 allows: guard number, operand values, type,
SUB, MODA, MODB and literal (R190). -/
def Cell.encOk (c : Cell) (w : ExtWord) : Bool :=
  decide (w.gp.toNat < 96) && c.tyOk w && c.subOk w && c.modOk w && c.litOk w && c.fieldsOk w

end Sys2Proof
end

