-- ==== Sys2Proof/Machine/Forms.lean ====
section
/-! DEFINITION. Which cell of the opcode map, and which word form, each instruction constructor stands for; and the
constructor that a cell's base or extended word makes. The engines' and the host's rows have no word. -/

namespace Sys2Proof

/-- The word an instruction is written as: its cell with a base or an extended word, or a hint cell (R191). -/
inductive InstrWord where
  | base (c : Cell) (w : BaseWord)
  | ext (c : Cell) (w : ExtWord)
  | hint (opc : BitVec 8) (w : BaseWord)
  | hintExt (opc : BitVec 8) (w : ExtWord)
  deriving DecidableEq, Repr, Inhabited

/-- The word of an instruction; none for a row that is a step of an engine, the front end, the host or Grotto. -/
def Instr.word : Instr → Option InstrWord
  | .mov w => some (.base Cells.mov w)
  | .movExt w => some (.ext Cells.mov w)
  | .movl w => some (.base Cells.movl w)
  | .movlExt w => some (.ext Cells.movl w)
  | .gets w => some (.base Cells.gets w)
  | .getsExt w => some (.ext Cells.gets w)
  | .sets w => some (.base Cells.sets w)
  | .setsExt w => some (.ext Cells.sets w)
  | .sel w => some (.ext Cells.sel w)
  | .laneof w => some (.base Cells.laneof w)
  | .laneofExt w => some (.ext Cells.laneof w)
  | .nop w => some (.base Cells.nop w)
  | .nopExt w => some (.ext Cells.nop w)
  | .bra w => some (.base Cells.bra w)
  | .braExt w => some (.ext Cells.bra w)
  | .brx w => some (.base Cells.brx w)
  | .brxExt w => some (.ext Cells.brx w)
  | .call w => some (.base Cells.call w)
  | .callExt w => some (.ext Cells.call w)
  | .callx w => some (.base Cells.callx w)
  | .callxExt w => some (.ext Cells.callx w)
  | .ret w => some (.base Cells.ret w)
  | .retExt w => some (.ext Cells.ret w)
  | .meet w => some (.base Cells.meet w)
  | .meetExt w => some (.ext Cells.meet w)
  | .waitj w => some (.base Cells.waitj w)
  | .waitjExt w => some (.ext Cells.waitj w)
  | .exit w => some (.base Cells.exit w)
  | .exitExt w => some (.ext Cells.exit w)
  | .trap w => some (.base Cells.trap w)
  | .trapExt w => some (.ext Cells.trap w)
  | .bkpt w => some (.base Cells.bkpt w)
  | .bkptExt w => some (.ext Cells.bkpt w)
  | .xret w => some (.base Cells.xret w)
  | .xretExt w => some (.ext Cells.xret w)
  | .iadd w => some (.base Cells.iadd w)
  | .iaddExt w => some (.ext Cells.iadd w)
  | .isub w => some (.base Cells.isub w)
  | .isubExt w => some (.ext Cells.isub w)
  | .imul w => some (.base Cells.imul w)
  | .imulExt w => some (.ext Cells.imul w)
  | .imulh w => some (.base Cells.imulh w)
  | .imulhExt w => some (.ext Cells.imulh w)
  | .imad w => some (.ext Cells.imad w)
  | .idiv w => some (.base Cells.idiv w)
  | .idivExt w => some (.ext Cells.idiv w)
  | .irem w => some (.base Cells.irem w)
  | .iremExt w => some (.ext Cells.irem w)
  | .imin w => some (.base Cells.imin w)
  | .iminExt w => some (.ext Cells.imin w)
  | .imax w => some (.base Cells.imax w)
  | .imaxExt w => some (.ext Cells.imax w)
  | .iabs w => some (.base Cells.iabs w)
  | .iabsExt w => some (.ext Cells.iabs w)
  | .ineg w => some (.base Cells.ineg w)
  | .inegExt w => some (.ext Cells.ineg w)
  | .iadd64 w => some (.base Cells.iadd64 w)
  | .iadd64Ext w => some (.ext Cells.iadd64 w)
  | .imad64 w => some (.ext Cells.imad64 w)
  | .lea w => some (.base Cells.lea w)
  | .leaExt w => some (.ext Cells.lea w)
  | .lea64 w => some (.base Cells.lea64 w)
  | .lea64Ext w => some (.ext Cells.lea64 w)
  | .and w => some (.base Cells.and w)
  | .andExt w => some (.ext Cells.and w)
  | .or w => some (.base Cells.or w)
  | .orExt w => some (.ext Cells.or w)
  | .xor w => some (.base Cells.xor w)
  | .xorExt w => some (.ext Cells.xor w)
  | .not w => some (.base Cells.not w)
  | .notExt w => some (.ext Cells.not w)
  | .andn w => some (.base Cells.andn w)
  | .andnExt w => some (.ext Cells.andn w)
  | .shl w => some (.base Cells.shl w)
  | .shlExt w => some (.ext Cells.shl w)
  | .shr w => some (.base Cells.shr w)
  | .shrExt w => some (.ext Cells.shr w)
  | .sar w => some (.base Cells.sar w)
  | .sarExt w => some (.ext Cells.sar w)
  | .rot w => some (.base Cells.rot w)
  | .rotExt w => some (.ext Cells.rot w)
  | .popc w => some (.base Cells.popc w)
  | .popcExt w => some (.ext Cells.popc w)
  | .clz w => some (.base Cells.clz w)
  | .clzExt w => some (.ext Cells.clz w)
  | .ctz w => some (.base Cells.ctz w)
  | .ctzExt w => some (.ext Cells.ctz w)
  | .brev w => some (.base Cells.brev w)
  | .brevExt w => some (.ext Cells.brev w)
  | .bfe w => some (.ext Cells.bfe w)
  | .bfi w => some (.ext Cells.bfi w)
  | .permb w => some (.ext Cells.permb w)
  | .iset w => some (.base Cells.iset w)
  | .isetExt w => some (.ext Cells.iset w)
  | .fset w => some (.base Cells.fset w)
  | .fsetExt w => some (.ext Cells.fset w)
  | .fcls w => some (.ext Cells.fcls w)
  | .pand w => some (.base Cells.pand w)
  | .pandExt w => some (.ext Cells.pand w)
  | .por w => some (.base Cells.por w)
  | .porExt w => some (.ext Cells.por w)
  | .pxor w => some (.base Cells.pxor w)
  | .pxorExt w => some (.ext Cells.pxor w)
  | .pnot w => some (.base Cells.pnot w)
  | .pnotExt w => some (.ext Cells.pnot w)
  | .ptov w => some (.base Cells.ptov w)
  | .ptovExt w => some (.ext Cells.ptov w)
  | .vtop w => some (.base Cells.vtop w)
  | .vtopExt w => some (.ext Cells.vtop w)
  | .lxchIdx w => some (.base Cells.lxchIdx w)
  | .lxchIdxExt w => some (.ext Cells.lxchIdx w)
  | .lxchUp w => some (.base Cells.lxchUp w)
  | .lxchUpExt w => some (.ext Cells.lxchUp w)
  | .lxchDown w => some (.base Cells.lxchDown w)
  | .lxchDownExt w => some (.ext Cells.lxchDown w)
  | .lxchXor w => some (.base Cells.lxchXor w)
  | .lxchXorExt w => some (.ext Cells.lxchXor w)
  | .bcast w => some (.base Cells.bcast w)
  | .bcastExt w => some (.ext Cells.bcast w)
  | .voteAll w => some (.base Cells.voteAll w)
  | .voteAllExt w => some (.ext Cells.voteAll w)
  | .voteAny w => some (.base Cells.voteAny w)
  | .voteAnyExt w => some (.ext Cells.voteAny w)
  | .voteBal w => some (.base Cells.voteBal w)
  | .voteBalExt w => some (.ext Cells.voteBal w)
  | .matchLanes w => some (.base Cells.matchLanes w)
  | .matchLanesExt w => some (.ext Cells.matchLanes w)
  | .lcomp w => some (.base Cells.lcomp w)
  | .lcompExt w => some (.ext Cells.lcomp w)
  | .regroup w => some (.base Cells.regroup w)
  | .regroupExt w => some (.ext Cells.regroup w)
  | .regroupRestore w => some (.base Cells.regroupRestore w)
  | .regroupRestoreExt w => some (.ext Cells.regroupRestore w)
  | .fadd w => some (.base Cells.fadd w)
  | .faddExt w => some (.ext Cells.fadd w)
  | .fsub w => some (.base Cells.fsub w)
  | .fsubExt w => some (.ext Cells.fsub w)
  | .fmul w => some (.base Cells.fmul w)
  | .fmulExt w => some (.ext Cells.fmul w)
  | .ffma w => some (.ext Cells.ffma w)
  | .fmin w => some (.base Cells.fmin w)
  | .fminExt w => some (.ext Cells.fmin w)
  | .fmax w => some (.base Cells.fmax w)
  | .fmaxExt w => some (.ext Cells.fmax w)
  | .fabs w => some (.base Cells.fabs w)
  | .fabsExt w => some (.ext Cells.fabs w)
  | .fneg w => some (.base Cells.fneg w)
  | .fnegExt w => some (.ext Cells.fneg w)
  | .frnd w => some (.base Cells.frnd w)
  | .frndExt w => some (.ext Cells.frnd w)
  | .fdiv w => some (.base Cells.fdiv w)
  | .fdivExt w => some (.ext Cells.fdiv w)
  | .fsqrt w => some (.base Cells.fsqrt w)
  | .fsqrtExt w => some (.ext Cells.fsqrt w)
  | .frcp w => some (.base Cells.frcp w)
  | .frcpExt w => some (.ext Cells.frcp w)
  | .frsq w => some (.base Cells.frsq w)
  | .frsqExt w => some (.ext Cells.frsq w)
  | .setfp w => some (.base Cells.setfp w)
  | .setfpExt w => some (.ext Cells.setfp w)
  | .fex2 w => some (.base Cells.fex2 w)
  | .fex2Ext w => some (.ext Cells.fex2 w)
  | .flg2 w => some (.base Cells.flg2 w)
  | .flg2Ext w => some (.ext Cells.flg2 w)
  | .fsin w => some (.base Cells.fsin w)
  | .fsinExt w => some (.ext Cells.fsin w)
  | .fcos w => some (.base Cells.fcos w)
  | .fcosExt w => some (.ext Cells.fcos w)
  | .ftanh w => some (.base Cells.ftanh w)
  | .ftanhExt w => some (.ext Cells.ftanh w)
  | .phadd w => some (.base Cells.phadd w)
  | .phaddExt w => some (.ext Cells.phadd w)
  | .phmul w => some (.base Cells.phmul w)
  | .phmulExt w => some (.ext Cells.phmul w)
  | .phfma w => some (.ext Cells.phfma w)
  | .pbadd w => some (.base Cells.pbadd w)
  | .pbaddExt w => some (.ext Cells.pbadd w)
  | .pbmul w => some (.base Cells.pbmul w)
  | .pbmulExt w => some (.ext Cells.pbmul w)
  | .pbfma w => some (.ext Cells.pbfma w)
  | .cvt w => some (.ext Cells.cvt w)
  | .qnt w => some (.ext Cells.qnt w)
  | .dqnt w => some (.ext Cells.dqnt w)
  | .pk6 w => some (.base Cells.pk6 w)
  | .pk6Ext w => some (.ext Cells.pk6 w)
  | .upk6 w => some (.base Cells.upk6 w)
  | .upk6Ext w => some (.ext Cells.upk6 w)
  | .pkb w => some (.base Cells.pkb w)
  | .pkbExt w => some (.ext Cells.pkb w)
  | .upkb w => some (.base Cells.upkb w)
  | .upkbExt w => some (.ext Cells.upkb w)
  | .ld w => some (.base Cells.ld w)
  | .ldExt w => some (.ext Cells.ld w)
  | .st w => some (.base Cells.st w)
  | .stExt w => some (.ext Cells.st w)
  | .ldq w => some (.ext Cells.ldq w)
  | .lds w => some (.base Cells.lds w)
  | .ldsExt w => some (.ext Cells.lds w)
  | .sts w => some (.base Cells.sts w)
  | .stsExt w => some (.ext Cells.sts w)
  | .ldsPeer w => some (.ext Cells.ldsPeer w)
  | .stsPeer w => some (.ext Cells.stsPeer w)
  | .ldw w => some (.base Cells.ldw w)
  | .ldwExt w => some (.ext Cells.ldw w)
  | .atomAdd w => some (.base Cells.atomAdd w)
  | .atomAddExt w => some (.ext Cells.atomAdd w)
  | .atomFadd w => some (.base Cells.atomFadd w)
  | .atomFaddExt w => some (.ext Cells.atomFadd w)
  | .atomMin w => some (.base Cells.atomMin w)
  | .atomMinExt w => some (.ext Cells.atomMin w)
  | .atomMax w => some (.base Cells.atomMax w)
  | .atomMaxExt w => some (.ext Cells.atomMax w)
  | .atomAnd w => some (.base Cells.atomAnd w)
  | .atomAndExt w => some (.ext Cells.atomAnd w)
  | .atomOr w => some (.base Cells.atomOr w)
  | .atomOrExt w => some (.ext Cells.atomOr w)
  | .atomXor w => some (.base Cells.atomXor w)
  | .atomXorExt w => some (.ext Cells.atomXor w)
  | .atomXchg w => some (.base Cells.atomXchg w)
  | .atomXchgExt w => some (.ext Cells.atomXchg w)
  | .atomCas w => some (.ext Cells.atomCas w)
  | .redAdd w => some (.base Cells.redAdd w)
  | .redAddExt w => some (.ext Cells.redAdd w)
  | .redFadd w => some (.base Cells.redFadd w)
  | .redFaddExt w => some (.ext Cells.redFadd w)
  | .redMin w => some (.base Cells.redMin w)
  | .redMinExt w => some (.ext Cells.redMin w)
  | .redMax w => some (.base Cells.redMax w)
  | .redMaxExt w => some (.ext Cells.redMax w)
  | .redAnd w => some (.base Cells.redAnd w)
  | .redAndExt w => some (.ext Cells.redAnd w)
  | .redOr w => some (.base Cells.redOr w)
  | .redOrExt w => some (.ext Cells.redOr w)
  | .redXor w => some (.base Cells.redXor w)
  | .redXorExt w => some (.ext Cells.redXor w)
  | .fenceCoh w => some (.base Cells.fenceCoh w)
  | .fenceCohExt w => some (.ext Cells.fenceCoh w)
  | .fenceBlk w => some (.base Cells.fenceBlk w)
  | .fenceBlkExt w => some (.ext Cells.fenceBlk w)
  | .fenceCore w => some (.base Cells.fenceCore w)
  | .fenceCoreExt w => some (.ext Cells.fenceCore w)
  | .fenceClu w => some (.base Cells.fenceClu w)
  | .fenceCluExt w => some (.ext Cells.fenceClu w)
  | .fenceDie w => some (.base Cells.fenceDie w)
  | .fenceDieExt w => some (.ext Cells.fenceDie w)
  | .fenceDev w => some (.base Cells.fenceDev w)
  | .fenceDevExt w => some (.ext Cells.fenceDev w)
  | .fenceSys w => some (.base Cells.fenceSys w)
  | .fenceSysExt w => some (.ext Cells.fenceSys w)
  | .barInit w => some (.base Cells.barInit w)
  | .barInitExt w => some (.ext Cells.barInit w)
  | .barArr w => some (.base Cells.barArr w)
  | .barArrExt w => some (.ext Cells.barArr w)
  | .barWait w => some (.base Cells.barWait w)
  | .barWaitExt w => some (.ext Cells.barWait w)
  | .barXin w => some (.base Cells.barXin w)
  | .barXinExt w => some (.ext Cells.barXin w)
  | .barXout w => some (.base Cells.barXout w)
  | .barXoutExt w => some (.ext Cells.barXout w)
  | .cpy w => some (.ext Cells.cpy w)
  | .cpym w => some (.ext Cells.cpym w)
  | .cpyo w => some (.ext Cells.cpyo w)
  | .cpyp w => some (.ext Cells.cpyp w)
  | .waitoc w => some (.base Cells.waitoc w)
  | .waitocExt w => some (.ext Cells.waitoc w)
  | .rdwp w => some (.base Cells.rdwp w)
  | .rdwpExt w => some (.ext Cells.rdwp w)
  | .waitwp w => some (.base Cells.waitwp w)
  | .waitwpExt w => some (.ext Cells.waitwp w)
  | .txb w => some (.base Cells.txb w)
  | .txbExt w => some (.ext Cells.txb w)
  | .txc w => some (.base Cells.txc w)
  | .txcExt w => some (.ext Cells.txc w)
  | .txa w => some (.base Cells.txa w)
  | .txaExt w => some (.ext Cells.txa w)
  | .txw w => some (.base Cells.txw w)
  | .txwExt w => some (.ext Cells.txw w)
  | .gchk w => some (.base Cells.gchk w)
  | .gchkExt w => some (.ext Cells.gchk w)
  | .dset w => some (.base Cells.dset w)
  | .dsetExt w => some (.ext Cells.dset w)
  | .dget w => some (.base Cells.dget w)
  | .dgetExt w => some (.ext Cells.dget w)
  | .tzero w => some (.base Cells.tzero w)
  | .tzeroExt w => some (.ext Cells.tzero w)
  | .trd w => some (.base Cells.trd w)
  | .trdExt w => some (.ext Cells.trd w)
  | .twr w => some (.base Cells.twr w)
  | .twrExt w => some (.ext Cells.twr w)
  | .tcvt w => some (.ext Cells.tcvt w)
  | .mmaE4m3 w => some (.ext Cells.mmaE4m3 w)
  | .mmaE5m2 w => some (.ext Cells.mmaE5m2 w)
  | .mmaI8 w => some (.ext Cells.mmaI8 w)
  | .mmaBf16 w => some (.ext Cells.mmaBf16 w)
  | .mmaQ4a w => some (.ext Cells.mmaQ4a w)
  | .mmag w => some (.ext Cells.mmag w)
  | .mmas w => some (.ext Cells.mmas w)
  | .cmpr w => some (.ext Cells.cmpr w)
  | .mvt w => some (.ext Cells.mvt w)
  | .vga w => some (.ext Cells.vga w)
  | .nres w => some (.base Cells.nres w)
  | .nresExt w => some (.ext Cells.nres w)
  | .allocreg w => some (.base Cells.allocreg w)
  | .allocregExt w => some (.ext Cells.allocreg w)
  | .freereg w => some (.base Cells.freereg w)
  | .freeregExt w => some (.ext Cells.freereg w)
  | .wallet w => some (.base Cells.wallet w)
  | .walletExt w => some (.ext Cells.wallet w)
  | .boost w => some (.base Cells.boost w)
  | .boostExt w => some (.ext Cells.boost w)
  | .permits w => some (.base Cells.permits w)
  | .permitsExt w => some (.ext Cells.permits w)
  | .cycle w => some (.base Cells.cycle w)
  | .cycleExt w => some (.ext Cells.cycle w)
  | .hint opc w => some (.hint opc w)
  | .hintExt opc w => some (.hintExt opc w)
  | .issueAging _ => none
  | .joinRelease _ _ => none
  | .regroupMove _ => none
  | .regroupRestoreMove _ => none
  | .cohortSlotRelease _ => none
  | .allocregDeadlock _ => none
  | .priceLineAging _ => none
  | .tokenInject _ => none
  | .ringStation _ _ => none
  | .tokenWithdraw _ => none
  | .walletStarved _ => none
  | .matrixPassGrant _ => none
  | .matrixRequestAging _ _ => none
  | .matrixPassWrite _ _ => none
  | .cmprComplete _ _ => none
  | .swapOut _ => none
  | .swapIn _ _ => none
  | .take _ _ => none
  | .downTake _ _ => none
  | .steal _ _ => none
  | .leapfrog _ _ _ => none
  | .blockDispatch _ => none
  | .inboxCopy _ => none
  | .placementSearch _ => none
  | .phaseTurn _ => none
  | .copyStart _ _ => none
  | .copySourceReadDone _ _ => none
  | .copyComplete _ _ => none
  | .copyFault _ _ => none
  | .barrierWave _ => none
  | .redApply _ => none
  | .vgaComplete _ => none
  | .txConflict _ => none
  | .faultRecordPost _ => none
  | .notify _ _ _ => none
  | .queueFetch => none
  | .pad _ _ => none
  | .launch _ _ => none
  | .launchStart _ => none
  | .waitmem _ _ => none
  | .waitmemPoll _ _ => none
  | .signalmem _ _ => none
  | .fence _ _ => none
  | .qctlIntr _ _ => none
  | .qctlStop _ _ => none
  | .queueReset _ _ => none
  | .registerWrite _ _ _ _ => none
  | .hostMemAccess _ _ => none
  | .lumakInbound _ _ _ => none
  | .flitReplay _ _ => none
  | .linkDrop _ => none
  | .retrain _ => none
  | .retry _ _ => none
  | .skip _ _ => none
  | .killblk _ _ => none
  | .killlaunch _ _ => none
  | .inval _ => none
  | .invall _ => none
  | .vrst _ => none
  | .quantumWrite _ _ => none
  | .pageWalk _ _ _ => none
  | .sliceEnd => none
  | .sliceSwitch => none
  | .eccUncorrectable _ => none
  | .eccCorrectable _ _ _ => none
  | .patrolScrub _ => none
  | .clr _ => none
  | .logFlush => none
  | .coldReset => none
  | .warmReset => none
  | .update => none
  | .recover => none
  | .getVersion => none
  | .getCapabilities => none
  | .negotiateAlgorithms => none
  | .getDigests => none
  | .getCertificate => none
  | .challenge _ => none
  | .getMeasurements _ => none
  | .slhsig => none
  | .powerPost _ _ _ _ => none
  | .grottoApply => none
  | .energyloRead _ => none
  | .poolBoundary _ => none
  | .clusterBoundary _ => none
  | .biasSettle _ => none
  | .thermalSample _ _ => none
  | .copyDeliver _ _ _ => none
  | .illegalEncoding => none
  | .fetchFault _ => none
  | .linkTrained _ _ => none
  | .powerLoss _ => none

/-- The base rows of the cells 00 to 0F (R187), by opcode. -/
noncomputable def Instr.baseRows0 : List (Nat × (BaseWord → Instr)) :=
  [(0x01, .mov),
   (0x02, .movl),
   (0x03, .gets),
   (0x04, .sets),
   (0x06, .laneof),
   (0x07, .nop)]

/-- The base rows of the cells 10 to 1F (R187), by opcode. -/
noncomputable def Instr.baseRows1 : List (Nat × (BaseWord → Instr)) :=
  [(0x10, .bra),
   (0x11, .brx),
   (0x12, .call),
   (0x13, .callx),
   (0x14, .ret),
   (0x15, .meet),
   (0x16, .waitj),
   (0x17, .exit),
   (0x18, .trap),
   (0x19, .bkpt),
   (0x1A, .xret)]

/-- The base rows of the cells 20 to 2F (R187), by opcode. -/
noncomputable def Instr.baseRows2 : List (Nat × (BaseWord → Instr)) :=
  [(0x20, .iadd),
   (0x21, .isub),
   (0x22, .imul),
   (0x23, .imulh),
   (0x25, .idiv),
   (0x26, .irem),
   (0x27, .imin),
   (0x28, .imax),
   (0x29, .iabs),
   (0x2A, .ineg),
   (0x2B, .iadd64),
   (0x2D, .lea),
   (0x2E, .lea64)]

/-- The base rows of the cells 30 to 3F (R187), by opcode. -/
noncomputable def Instr.baseRows3 : List (Nat × (BaseWord → Instr)) :=
  [(0x30, .and),
   (0x31, .or),
   (0x32, .xor),
   (0x33, .not),
   (0x34, .andn),
   (0x35, .shl),
   (0x36, .shr),
   (0x37, .sar),
   (0x38, .rot),
   (0x39, .popc),
   (0x3A, .clz),
   (0x3B, .ctz),
   (0x3C, .brev)]

/-- The base rows of the cells 40 to 4F (R187), by opcode. -/
noncomputable def Instr.baseRows4 : List (Nat × (BaseWord → Instr)) :=
  [(0x40, .iset),
   (0x41, .fset),
   (0x43, .pand),
   (0x44, .por),
   (0x45, .pxor),
   (0x46, .pnot),
   (0x47, .ptov),
   (0x48, .vtop)]

/-- The base rows of the cells 50 to 5F (R187), by opcode. -/
noncomputable def Instr.baseRows5 : List (Nat × (BaseWord → Instr)) :=
  [(0x50, .lxchIdx),
   (0x51, .lxchUp),
   (0x52, .lxchDown),
   (0x53, .lxchXor),
   (0x54, .bcast),
   (0x55, .voteAll),
   (0x56, .voteAny),
   (0x57, .voteBal),
   (0x58, .matchLanes),
   (0x59, .lcomp),
   (0x5A, .regroup),
   (0x5B, .regroupRestore)]

/-- The base rows of the cells 60 to 6F (R187), by opcode. -/
noncomputable def Instr.baseRows6 : List (Nat × (BaseWord → Instr)) :=
  [(0x60, .fadd),
   (0x61, .fsub),
   (0x62, .fmul),
   (0x64, .fmin),
   (0x65, .fmax),
   (0x66, .fabs),
   (0x67, .fneg),
   (0x68, .frnd),
   (0x69, .fdiv),
   (0x6A, .fsqrt),
   (0x6B, .frcp),
   (0x6C, .frsq),
   (0x6D, .setfp)]

/-- The base rows of the cells 70 to 7F (R187), by opcode. -/
noncomputable def Instr.baseRows7 : List (Nat × (BaseWord → Instr)) :=
  [(0x70, .fex2),
   (0x71, .flg2),
   (0x72, .fsin),
   (0x73, .fcos),
   (0x74, .ftanh),
   (0x75, .phadd),
   (0x76, .phmul),
   (0x78, .pbadd),
   (0x79, .pbmul)]

/-- The base rows of the cells 80 to 8F (R187), by opcode. -/
noncomputable def Instr.baseRows8 : List (Nat × (BaseWord → Instr)) :=
  [(0x83, .pk6),
   (0x84, .upk6),
   (0x85, .pkb),
   (0x86, .upkb)]

/-- The base rows of the cells 90 to 9F (R187), by opcode. -/
noncomputable def Instr.baseRows9 : List (Nat × (BaseWord → Instr)) :=
  [(0x90, .ld),
   (0x91, .st),
   (0x93, .lds),
   (0x94, .sts),
   (0x97, .ldw)]

/-- The base rows of the cells A0 to AF (R187), by opcode. -/
noncomputable def Instr.baseRowsA : List (Nat × (BaseWord → Instr)) :=
  [(0xA0, .atomAdd),
   (0xA1, .atomFadd),
   (0xA2, .atomMin),
   (0xA3, .atomMax),
   (0xA4, .atomAnd),
   (0xA5, .atomOr),
   (0xA6, .atomXor),
   (0xA7, .atomXchg)]

/-- The base rows of the cells B0 to BF (R187), by opcode. -/
noncomputable def Instr.baseRowsB : List (Nat × (BaseWord → Instr)) :=
  [(0xB0, .redAdd),
   (0xB1, .redFadd),
   (0xB2, .redMin),
   (0xB3, .redMax),
   (0xB4, .redAnd),
   (0xB5, .redOr),
   (0xB6, .redXor)]

/-- The base rows of the cells C0 to CF (R187), by opcode. -/
noncomputable def Instr.baseRowsC : List (Nat × (BaseWord → Instr)) :=
  [(0xC0, .fenceCoh),
   (0xC1, .fenceBlk),
   (0xC2, .fenceCore),
   (0xC3, .fenceClu),
   (0xC4, .fenceDie),
   (0xC5, .fenceDev),
   (0xC6, .fenceSys),
   (0xC8, .barInit),
   (0xC9, .barArr),
   (0xCA, .barWait),
   (0xCB, .barXin),
   (0xCC, .barXout)]

/-- The base rows of the cells D0 to DF (R187), by opcode. -/
noncomputable def Instr.baseRowsD : List (Nat × (BaseWord → Instr)) :=
  [(0xD4, .waitoc),
   (0xD5, .rdwp),
   (0xD6, .waitwp),
   (0xD8, .txb),
   (0xD9, .txc),
   (0xDA, .txa),
   (0xDB, .txw),
   (0xDC, .gchk)]

/-- The base rows of the cells E0 to EF (R187), by opcode. -/
noncomputable def Instr.baseRowsE : List (Nat × (BaseWord → Instr)) :=
  [(0xE0, .dset),
   (0xE1, .dget),
   (0xE2, .tzero),
   (0xE3, .trd),
   (0xE4, .twr)]

/-- The base rows of the cells F0 to FF (R187), by opcode. -/
noncomputable def Instr.baseRowsF : List (Nat × (BaseWord → Instr)) :=
  [(0xF2, .nres),
   (0xF3, .allocreg),
   (0xF4, .freereg),
   (0xF5, .wallet),
   (0xF6, .boost),
   (0xF7, .permits),
   (0xF8, .cycle)]

/-- The base rows of a row of the opcode map. -/
noncomputable def Instr.baseRows : Nat → List (Nat × (BaseWord → Instr))
  | 0 => Instr.baseRows0
  | 1 => Instr.baseRows1
  | 2 => Instr.baseRows2
  | 3 => Instr.baseRows3
  | 4 => Instr.baseRows4
  | 5 => Instr.baseRows5
  | 6 => Instr.baseRows6
  | 7 => Instr.baseRows7
  | 8 => Instr.baseRows8
  | 9 => Instr.baseRows9
  | 10 => Instr.baseRowsA
  | 11 => Instr.baseRowsB
  | 12 => Instr.baseRowsC
  | 13 => Instr.baseRowsD
  | 14 => Instr.baseRowsE
  | 15 => Instr.baseRowsF
  | _ => []

/-- The ext rows of the cells 00 to 0F (R187), by opcode. -/
noncomputable def Instr.extRows0 : List (Nat × (ExtWord → Instr)) :=
  [(0x01, .movExt),
   (0x02, .movlExt),
   (0x03, .getsExt),
   (0x04, .setsExt),
   (0x05, .sel),
   (0x06, .laneofExt),
   (0x07, .nopExt)]

/-- The ext rows of the cells 10 to 1F (R187), by opcode. -/
noncomputable def Instr.extRows1 : List (Nat × (ExtWord → Instr)) :=
  [(0x10, .braExt),
   (0x11, .brxExt),
   (0x12, .callExt),
   (0x13, .callxExt),
   (0x14, .retExt),
   (0x15, .meetExt),
   (0x16, .waitjExt),
   (0x17, .exitExt),
   (0x18, .trapExt),
   (0x19, .bkptExt),
   (0x1A, .xretExt)]

/-- The ext rows of the cells 20 to 2F (R187), by opcode. -/
noncomputable def Instr.extRows2 : List (Nat × (ExtWord → Instr)) :=
  [(0x20, .iaddExt),
   (0x21, .isubExt),
   (0x22, .imulExt),
   (0x23, .imulhExt),
   (0x24, .imad),
   (0x25, .idivExt),
   (0x26, .iremExt),
   (0x27, .iminExt),
   (0x28, .imaxExt),
   (0x29, .iabsExt),
   (0x2A, .inegExt),
   (0x2B, .iadd64Ext),
   (0x2C, .imad64),
   (0x2D, .leaExt),
   (0x2E, .lea64Ext)]

/-- The ext rows of the cells 30 to 3F (R187), by opcode. -/
noncomputable def Instr.extRows3 : List (Nat × (ExtWord → Instr)) :=
  [(0x30, .andExt),
   (0x31, .orExt),
   (0x32, .xorExt),
   (0x33, .notExt),
   (0x34, .andnExt),
   (0x35, .shlExt),
   (0x36, .shrExt),
   (0x37, .sarExt),
   (0x38, .rotExt),
   (0x39, .popcExt),
   (0x3A, .clzExt),
   (0x3B, .ctzExt),
   (0x3C, .brevExt),
   (0x3D, .bfe),
   (0x3E, .bfi),
   (0x3F, .permb)]

/-- The ext rows of the cells 40 to 4F (R187), by opcode. -/
noncomputable def Instr.extRows4 : List (Nat × (ExtWord → Instr)) :=
  [(0x40, .isetExt),
   (0x41, .fsetExt),
   (0x42, .fcls),
   (0x43, .pandExt),
   (0x44, .porExt),
   (0x45, .pxorExt),
   (0x46, .pnotExt),
   (0x47, .ptovExt),
   (0x48, .vtopExt)]

/-- The ext rows of the cells 50 to 5F (R187), by opcode. -/
noncomputable def Instr.extRows5 : List (Nat × (ExtWord → Instr)) :=
  [(0x50, .lxchIdxExt),
   (0x51, .lxchUpExt),
   (0x52, .lxchDownExt),
   (0x53, .lxchXorExt),
   (0x54, .bcastExt),
   (0x55, .voteAllExt),
   (0x56, .voteAnyExt),
   (0x57, .voteBalExt),
   (0x58, .matchLanesExt),
   (0x59, .lcompExt),
   (0x5A, .regroupExt),
   (0x5B, .regroupRestoreExt)]

/-- The ext rows of the cells 60 to 6F (R187), by opcode. -/
noncomputable def Instr.extRows6 : List (Nat × (ExtWord → Instr)) :=
  [(0x60, .faddExt),
   (0x61, .fsubExt),
   (0x62, .fmulExt),
   (0x63, .ffma),
   (0x64, .fminExt),
   (0x65, .fmaxExt),
   (0x66, .fabsExt),
   (0x67, .fnegExt),
   (0x68, .frndExt),
   (0x69, .fdivExt),
   (0x6A, .fsqrtExt),
   (0x6B, .frcpExt),
   (0x6C, .frsqExt),
   (0x6D, .setfpExt)]

/-- The ext rows of the cells 70 to 7F (R187), by opcode. -/
noncomputable def Instr.extRows7 : List (Nat × (ExtWord → Instr)) :=
  [(0x70, .fex2Ext),
   (0x71, .flg2Ext),
   (0x72, .fsinExt),
   (0x73, .fcosExt),
   (0x74, .ftanhExt),
   (0x75, .phaddExt),
   (0x76, .phmulExt),
   (0x77, .phfma),
   (0x78, .pbaddExt),
   (0x79, .pbmulExt),
   (0x7A, .pbfma)]

/-- The ext rows of the cells 80 to 8F (R187), by opcode. -/
noncomputable def Instr.extRows8 : List (Nat × (ExtWord → Instr)) :=
  [(0x80, .cvt),
   (0x81, .qnt),
   (0x82, .dqnt),
   (0x83, .pk6Ext),
   (0x84, .upk6Ext),
   (0x85, .pkbExt),
   (0x86, .upkbExt)]

/-- The ext rows of the cells 90 to 9F (R187), by opcode. -/
noncomputable def Instr.extRows9 : List (Nat × (ExtWord → Instr)) :=
  [(0x90, .ldExt),
   (0x91, .stExt),
   (0x92, .ldq),
   (0x93, .ldsExt),
   (0x94, .stsExt),
   (0x95, .ldsPeer),
   (0x96, .stsPeer),
   (0x97, .ldwExt)]

/-- The ext rows of the cells A0 to AF (R187), by opcode. -/
noncomputable def Instr.extRowsA : List (Nat × (ExtWord → Instr)) :=
  [(0xA0, .atomAddExt),
   (0xA1, .atomFaddExt),
   (0xA2, .atomMinExt),
   (0xA3, .atomMaxExt),
   (0xA4, .atomAndExt),
   (0xA5, .atomOrExt),
   (0xA6, .atomXorExt),
   (0xA7, .atomXchgExt),
   (0xA8, .atomCas)]

/-- The ext rows of the cells B0 to BF (R187), by opcode. -/
noncomputable def Instr.extRowsB : List (Nat × (ExtWord → Instr)) :=
  [(0xB0, .redAddExt),
   (0xB1, .redFaddExt),
   (0xB2, .redMinExt),
   (0xB3, .redMaxExt),
   (0xB4, .redAndExt),
   (0xB5, .redOrExt),
   (0xB6, .redXorExt)]

/-- The ext rows of the cells C0 to CF (R187), by opcode. -/
noncomputable def Instr.extRowsC : List (Nat × (ExtWord → Instr)) :=
  [(0xC0, .fenceCohExt),
   (0xC1, .fenceBlkExt),
   (0xC2, .fenceCoreExt),
   (0xC3, .fenceCluExt),
   (0xC4, .fenceDieExt),
   (0xC5, .fenceDevExt),
   (0xC6, .fenceSysExt),
   (0xC8, .barInitExt),
   (0xC9, .barArrExt),
   (0xCA, .barWaitExt),
   (0xCB, .barXinExt),
   (0xCC, .barXoutExt)]

/-- The ext rows of the cells D0 to DF (R187), by opcode. -/
noncomputable def Instr.extRowsD : List (Nat × (ExtWord → Instr)) :=
  [(0xD0, .cpy),
   (0xD1, .cpym),
   (0xD2, .cpyo),
   (0xD3, .cpyp),
   (0xD4, .waitocExt),
   (0xD5, .rdwpExt),
   (0xD6, .waitwpExt),
   (0xD8, .txbExt),
   (0xD9, .txcExt),
   (0xDA, .txaExt),
   (0xDB, .txwExt),
   (0xDC, .gchkExt)]

/-- The ext rows of the cells E0 to EF (R187), by opcode. -/
noncomputable def Instr.extRowsE : List (Nat × (ExtWord → Instr)) :=
  [(0xE0, .dsetExt),
   (0xE1, .dgetExt),
   (0xE2, .tzeroExt),
   (0xE3, .trdExt),
   (0xE4, .twrExt),
   (0xE5, .tcvt),
   (0xE8, .mmaE4m3),
   (0xE9, .mmaE5m2),
   (0xEA, .mmaI8),
   (0xEB, .mmaBf16),
   (0xEC, .mmaQ4a),
   (0xED, .mmag),
   (0xEE, .mmas),
   (0xEF, .cmpr)]

/-- The ext rows of the cells F0 to FF (R187), by opcode. -/
noncomputable def Instr.extRowsF : List (Nat × (ExtWord → Instr)) :=
  [(0xF0, .mvt),
   (0xF1, .vga),
   (0xF2, .nresExt),
   (0xF3, .allocregExt),
   (0xF4, .freeregExt),
   (0xF5, .walletExt),
   (0xF6, .boostExt),
   (0xF7, .permitsExt),
   (0xF8, .cycleExt)]

/-- The ext rows of a row of the opcode map. -/
noncomputable def Instr.extRows : Nat → List (Nat × (ExtWord → Instr))
  | 0 => Instr.extRows0
  | 1 => Instr.extRows1
  | 2 => Instr.extRows2
  | 3 => Instr.extRows3
  | 4 => Instr.extRows4
  | 5 => Instr.extRows5
  | 6 => Instr.extRows6
  | 7 => Instr.extRows7
  | 8 => Instr.extRows8
  | 9 => Instr.extRows9
  | 10 => Instr.extRowsA
  | 11 => Instr.extRowsB
  | 12 => Instr.extRowsC
  | 13 => Instr.extRowsD
  | 14 => Instr.extRowsE
  | 15 => Instr.extRowsF
  | _ => []

/-- The entry of a key in a short list. -/
def lookup {α : Type} (k : Nat) : List (Nat × α) → Option α
  | [] => none
  | p :: l => if p.1 = k then some p.2 else lookup k l

/-- The instruction a base word of a cell makes; none where the cell has no base form. -/
noncomputable def Instr.ofBase (opc : Nat) (w : BaseWord) : Option Instr :=
  (lookup opc (Instr.baseRows (opc / 16))).map (fun f => f w)

/-- The instruction an extended word of a cell makes; none where the cell has no extended form. -/
noncomputable def Instr.ofExt (opc : Nat) (w : ExtWord) : Option Instr :=
  (lookup opc (Instr.extRows (opc / 16))).map (fun f => f w)

/-- Whether the row is a step of an engine, the front end, the host, the driver or Grotto, and no instruction word. -/
def Instr.isEvent (i : Instr) : Bool := i.word.isNone

end Sys2Proof
end

