-- ==== Sys2Proof/WellFormed.lean ====
section
/-! DEFINITION. Well-formed instructions: for a row with a word, the LEN its cell allows (R188) and the encoding check of
R190 to R178; for a row without one, the range of each index it names (64 cores, 16 clusters, 2 dies, 4,096 cohort slots,
64 VFs with 64 queues each, 8 copy channels, 12 Lumak ports: R1, R99, R324, R334, R337). -/

namespace Sys2Proof

/-- Whether a reader names a cohort slot of the part. -/
def EccReader.ok : EccReader → Bool
  | .cohort slot => decide (slot < 4096)
  | .host | .walker => true

/-- Whether an error lies in a store of the part (R1, R354, R366): 384 GiB of HBM in lines of 64 bytes; by core 1 MiB and 256 KiB
of register files, 4 MiB of ASP, 2 MiB of WBF, 1,536 KiB of accumulators; TLBs of 256, 4,096 and 16,384 entries; the eight slots
of a ring and the injection point; 256 KiB of TCM. -/
def EccSite.ok : EccSite → Bool
  | .hbmRead slot line => decide (slot < 4096) && decide (line < 6 * 2 ^ 30)
  | .hbmHostRead addr => decide (addr < 384 * 2 ^ 30)
  | .hbmWalk line => decide (line < 6 * 2 ^ 30)
  | .l2Clean die line => decide (die < 2) && decide (line < 6 * 2 ^ 30)
  | .l2Dirty reader line => reader.ok && decide (line < 6 * 2 ^ 30)
  | .general core off slot => decide (core < 64) && decide (off < 2 ^ 20) && slot.all (fun x => decide (x / 64 = core))
  | .narrow core off slot => decide (core < 64) && decide (off < 2 ^ 18) && slot.all (fun x => decide (x / 64 = core))
  | .asp core off => decide (core < 64) && decide (off < 2 ^ 22)
  | .wbf core off => decide (core < 64) && decide (off < 2 ^ 21)
  | .acs core off _ => decide (core < 64) && decide (off < 1536 * 1024)
  | .tlb core entry => decide (core < 64) && decide (entry < 256)
  | .clusterTlb cluster entry => decide (cluster < 16) && decide (entry < 4096)
  | .dieTlb die entry => decide (die < 2) && decide (entry < 16384)
  | .meetExt slot off => decide (slot < 4096) && decide (off < 7168)
  | .ringSlot die slot => decide (die < 2) && decide (slot < 9)
  | .tcm off => decide (off < 256 * 1024)

/-- Whether the indices of an engine's or the host's row lie in range. -/
def Instr.eventOk : Instr → Bool
  | .issueAging slot => decide (slot < 4096)
  | .joinRelease slot _ => decide (slot < 4096)
  | .regroupMove _ => true
  | .regroupRestoreMove _ => true
  | .cohortSlotRelease slot => decide (slot < 4096)
  | .allocregDeadlock core => decide (core < 64)
  | .priceLineAging slot => decide (slot < 4096)
  | .tokenInject die => decide (die < 2)
  | .ringStation die station => decide (die < 2) && decide (station < 8)
  | .tokenWithdraw die => decide (die < 2)
  | .walletStarved core => decide (core < 64)
  | .matrixPassGrant cluster => decide (cluster < 16)
  | .matrixRequestAging cluster _ => decide (cluster < 16)
  | .matrixPassWrite cluster _ => decide (cluster < 16)
  | .cmprComplete cluster _ => decide (cluster < 16)
  | .swapOut _ => true
  | .swapIn vf core => decide (vf < 64) && decide (core < 64)
  | .take cluster _ => decide (cluster < 16)
  | .downTake cluster _ => decide (cluster < 16)
  | .steal cluster _ => decide (cluster < 16)
  | .leapfrog cluster _ _ => decide (cluster < 16)
  | .blockDispatch cluster => decide (cluster < 16)
  | .inboxCopy _ => true
  | .placementSearch _ => true
  | .phaseTurn _ => true
  | .copyStart core ch => decide (core < 64) && decide (ch < 8)
  | .copySourceReadDone core ch => decide (core < 64) && decide (ch < 8)
  | .copyComplete core ch => decide (core < 64) && decide (ch < 8)
  | .copyFault core ch => decide (core < 64) && decide (ch < 8)
  | .barrierWave cluster => decide (cluster < 16)
  | .redApply _ => true
  | .vgaComplete cluster => decide (cluster < 16)
  | .txConflict slot => decide (slot < 4096)
  | .faultRecordPost vf => decide (vf < 64)
  | .notify vf q _ => decide (vf < 64) && decide (q < 64)
  | .queueFetch => true
  | .pad vf q => decide (vf < 64) && decide (q < 64)
  | .launch vf q => decide (vf < 64) && decide (q < 64)
  | .launchStart _ => true
  | .waitmem vf q => decide (vf < 64) && decide (q < 64)
  | .waitmemPoll vf q => decide (vf < 64) && decide (q < 64)
  | .signalmem vf q => decide (vf < 64) && decide (q < 64)
  | .fence vf q => decide (vf < 64) && decide (q < 64)
  | .qctlIntr vf q => decide (vf < 64) && decide (q < 64)
  | .qctlStop vf q => decide (vf < 64) && decide (q < 64)
  | .queueReset vf q => decide (vf < 64) && decide (q < 64)
  | .registerWrite pf vf _ _ => (pf || decide (vf < 64))
  | .hostMemAccess _ _ => true
  | .lumakInbound port _ _ => decide (port < 12)
  | .flitReplay port _ => decide (port < 12)
  | .linkDrop port => decide (port < 12)
  | .retrain port => decide (port < 12)
  | .retry vf slot => decide (vf < 64) && decide (slot < 4096)
  | .skip vf slot => decide (vf < 64) && decide (slot < 4096)
  | .killblk vf slot => decide (vf < 64) && decide (slot < 4096)
  | .killlaunch vf slot => decide (vf < 64) && decide (slot < 4096)
  | .inval vf => decide (vf < 64)
  | .invall vf => decide (vf < 64)
  | .vrst vf => decide (vf < 64)
  | .quantumWrite vf _ => decide (vf < 64)
  | .pageWalk core _ _ => decide (core < 64)
  | .sliceEnd => true
  | .sliceSwitch => true
  | .eccUncorrectable site => site.ok
  | .eccCorrectable die cls frame => decide (die < 2) && decide (cls < 8) && (decide (cls ≠ 0) || decide (frame < 96 * 2 ^ 20))
  | .patrolScrub die => decide (die < 2)
  | .clr die => decide (die < 2)
  | .logFlush => true
  | .coldReset => true
  | .warmReset => true
  | .update => true
  | .recover => true
  | .getVersion => true
  | .getCapabilities => true
  | .negotiateAlgorithms => true
  | .getDigests => true
  | .getCertificate => true
  | .challenge _ => true
  | .getMeasurements _ => true
  | .slhsig => true
  | .powerPost _ die _ _ => decide (die < 2)
  | .grottoApply => true
  | .energyloRead die => decide (die < 2)
  | .poolBoundary die => decide (die < 2)
  | .clusterBoundary cluster => decide (cluster < 16)
  | .biasSettle cluster => decide (cluster < 16)
  | .thermalSample die _ => decide (die < 2)
  | .copyDeliver core ch _ => decide (core < 64) && decide (ch < 8)
  | .illegalEncoding => true
  | .fetchFault _ => true
  | .linkTrained port _ => decide (port < 12)
  | .powerLoss _ => true
  | _ => true

/-- Well-formedness, the check of R192 step 2 where the instruction has a word. -/
def Instr.wellFormed (i : Instr) : Bool :=
  match i.word with
  | some (.base c w) => c.lenOk false w.lit.isSome && c.encOk w.toExt
  | some (.ext c w) => c.lenOk true w.lit.isSome && c.encOk w
  | some (.hint opc _) => isHint opc.toNat
  | some (.hintExt opc _) => isHint opc.toNat
  | none => i.eventOk

abbrev Instr.WellFormed (i : Instr) : Prop := i.wellFormed = true

end Sys2Proof
end

