-- ==== Sys2Proof/Config.lean ====
section
/-! DEFINITION. What an implementation fixes, and the free values: constants with no body, of which nothing can be proved.
A free value is applied to the step counter or to what it depends on. -/

namespace Sys2Proof

/-- What the machine does next: one clock of a quarter (with the choice of R22 to go on or to switch), one step of an
engine, the host, the driver or Grotto, `n` words of an Aster stream, one tick of a clock that software can read, a read of
registers, a store of the host or of a peer part to its own memory, a store fence of the host, a step of Grotto's firmware, or an
instruction of Grotto's core. -/
inductive Action where
  | quarter (core q : Nat) (switch : Bool)
  | event (i : Instr)
  | aster (cluster n : Nat)
  | coreClock (core : Nat)
  | frontClock
  | grottoClock
  | registerRead (pf : Bool) (vf off width : Nat)
  | hostStore (addr : Nat) (bytes : List Byte)
  | hostFence
  | peerStore (port off : Nat) (bytes : List Byte)
  | grottoStep
  | grottoCore
  | grottoEnergy (die : Nat) (high : Bool)
  deriving DecidableEq, Repr, Inhabited

namespace Config

/-- Which action comes next where nothing in the state says so: the order of the agents is free (R22, R47). Applied to the
step counter. -/
opaque freeAction : Nat → Action

/-- A byte that the spec leaves unspecified: a read of an HBM line that no holder of the current key has written (R323), or
of host or peer memory that nothing here has written. Applied to the step counter and the address. -/
opaque freeByte : Nat → Nat → Byte

/-- A choice among `n` that the spec leaves free (which TLB entry is replaced, which free input-copy slot is taken: R354,
R70). Applied to the step counter; used modulo the number of choices. -/
opaque freeChoice : Nat → Nat

/-- A word of the outside world that the spec leaves open. Applied to the step counter. -/
opaque freeWord : Nat → W64

/-- Whether the peer part behind a Lumak port accepts an access (R337): port, aperture offset, step counter. -/
opaque peerAccepts : Nat → Nat → Nat → Bool

/-- The granule owner entry at an offset of the PF's BAR0 (R323): the spec gives the table no offset. -/
opaque granuleAt : Nat → Option Nat

/-- The owner VF that a value written to a granule owner entry names, none for unowned (R323). -/
opaque granuleOwner : W64 → Option Nat

/-- What a granule owner entry reads as, by its owner (R323). -/
opaque granuleEntry : Option Nat → W64

/-- Fuse words RKH and SKH (R369); none while the fuses have not been written. -/
opaque fuseKeys : Option (List Byte × List Byte)

/-- The boot ROM's bytes (R370). -/
opaque romImage : List Byte

/-- The debug state the fuses give (R375). -/
opaque debugState : List Byte

/-- What flash holds after an image has been written to it (R372), by the image and the step counter: a write may fail. -/
opaque flashWritten : List Byte → Nat → List Byte

/-- What flash holds when the supply fails in the course of a write (R372), by the step counter. -/
opaque flashTorn : Nat → List Byte

/-- Words of Grotto that the spec leaves open, by the step counter and a number: the registers with which its firmware begins,
where a trap goes, its program counter and registers as the ROM runs, and what it loads from outside TCM (R366); the lanes on which
a Lumak port trains (R339). -/
opaque grottoWord : Nat → Nat → W32

/-- The fuse configuration (R375). -/
opaque fuseConfig : List Byte

/-- The identity keys that the fused device secret and a measurement 2 give (R374): the modulus and the private exponent of
RSA-3072; the secret seed, the randomiser's secret and the public seed of SLH-DSA. -/
opaque rsaIdentity : List Byte → Nat × Nat
opaque slhIdentity : List Byte → List Byte × List Byte × List Byte

/-- The certificate chain (R374): by measurement 2, the RSA modulus and the SLH-DSA public key. -/
opaque certChain : List Byte → Nat → List Byte → List Byte

/-- The bytes of an SPDM request (R375): its number and its operands. -/
opaque spdmRequest : Nat → List Nat → List Byte

/-- The bytes of an SPDM response but for a signature (R375): request number, operands, step counter, and what the response carries,
each part as a list of byte strings: algorithms, chain, digest, measurements. -/
opaque spdmBody : Nat → List Nat → Nat → List (List (List Byte)) → List Byte

/-- A byte of Grotto's random number generator (R366), by the step counter and a number. -/
opaque randomByte : Nat → Nat → Byte

end Config

end Sys2Proof
end

