-- ==== Sys2Proof/Machine/State.lean ====
section
/-! DEFINITION. The state of the part, the faults and refusals of the model, and the state after reset. Everything is plain
data. A table with few live entries is a list of key and value pairs in rising key order (`SMap`); an absent key reads as
the default the accessor names. INVENTORY.md lists every field with its rule and reset value. -/

namespace Sys2Proof.Machine

/-- A sparse table: keys in rising order. -/
abbrev SMap (α : Type) := List (Nat × α)

/-! ### Values of registers -/

/-- A V register with its shape tag (R134): uniform, affine (base, stride) or general (lane 0 first). -/
inductive VVal where
  | u (b : W32)
  | a (b s : W32)
  | g (vs : List W32)
  deriving DecidableEq, Repr, Inhabited

/-- One lane (R13, R14, R26). Lists of meet entries hold the newest first. -/
structure Lane where
  pc    : W32 := 0
  mr    : W32 := 0xFFFFFFFF#32
  meets : List W32 := []
  tid   : Nat := 0
  waitj : Option (Nat × W32) := none  -- the join register of the WAITJ that holds the lane, and the PC after it (R26)
  deriving DecidableEq, Repr, Inhabited

/-- What an instruction that has not issued waits for (R20, R39, R42, R45, R300, R194). -/
inductive WaitKind where
  | scoreboard | counter | pointer | barrier | tokens | entry | queue | buffer | registers | collective | wallet
  deriving DecidableEq, Repr, Inhabited

/-- A wait of the PC-group that stands at `pc`: when it began, how many priced instructions have passed it (R42), the
ring clocks it has waited as first in line (R44). -/
structure WaitRec where
  pc       : W32
  kind     : WaitKind
  need     : Nat        -- tokens for a priced instruction, slice-registers for ALLOCREG, the object for BAR.WAIT
  cls      : Nat := 0   -- 1: the instruction also needs a reservation-table entry (R45), 2: an Aster queue (R300)
  since    : Nat        -- serial number of the moment the wait began
  passed   : Nat := 0
  revs     : Nat := 0             -- ring clocks in a row as first in line
  promoted : Option Nat := none
  placed   : Option Nat := none   -- since when it has waited for an engine place with its price at hand (R45, R300)
  deriving DecidableEq, Repr, Inhabited

/-- A wait of a priced instruction, which stands in its wallet's line (R42). -/
def WaitRec.priced (r : WaitRec) : Bool := 0 < r.need && r.kind != .registers && r.kind != .barrier

/-- The fields of a fault record that its raiser fixes (R347). -/
structure FaultInfo where
  code   : Nat
  cls    : Nat
  detail : Nat := 0
  txab   : Bool := false
  copy   : Bool := false
  nest   : Bool := false
  slot   : W32 := 0xFFFFFFFF#32
  pc     : W32 := 0
  mask   : W32 := 0
  addr   : W64 := 0
  node   : Nat := 0
  ch     : Nat := 0xFF
  ipa    : W64 := 0
  queue  : Nat := 0
  tag    : Nat := 0
  boundary : Bool := false        -- a park at an instruction boundary: each lane resumes at its own PC (R346)
  deriving DecidableEq, Repr, Inhabited

/-- The open explicit transaction of a cohort (R80, R81, R276, R277). Lines and bytes are device physical. -/
structure Tx where
  abort     : W32
  vd        : Nat
  watch     : List Nat := []      -- watched lines
  reads     : List Nat := []      -- bytes a read of the transaction took from memory
  clobbered : List Nat := []      -- bytes read before that another agent has written since
  conflict  : Bool := false       -- another agent wrote a watched byte after its recorded write
  deriving DecidableEq, Repr, Inhabited

/-- The write pointer of a channel (R101): the cohort's newest copy, its start, its length and the bytes delivered. -/
structure WPtr where
  copy : Nat
  s    : W32
  n    : Nat
  prog : Nat := 0
  deriving DecidableEq, Repr, Inhabited

/-- An operation counted on an outstanding counter (R125): a finished one stays until every older one has finished. -/
structure OcOp where
  id   : Nat
  done : Bool := false
  deriving DecidableEq, Repr, Inhabited

/-- Registers an asynchronous operation has still to write (R145, R281). -/
structure Pending where
  op    : Nat
  first : Nat
  count : Nat
  deriving DecidableEq, Repr, Inhabited

/-- One resident cohort. -/
structure Cohort where
  blk      : Nat
  cohid    : Nat
  lanes    : List Lane
  exited   : Mask := 0            -- includes positions that REGROUP left empty (R33)
  absent   : Mask := 0
  vacant   : Bool := false        -- left without lanes by REGROUP (R33)
  slices   : BitVec 4             -- slices that still hold their general registers (R15, R37)
  g        : Nat                  -- general registers per lane (R38)
  vregs    : SMap VVal := []      -- an absent name is uniform 0 (R133)
  preds    : SMap Mask := []      -- an absent predicate is false in every lane; P0 is never listed (R141)
  joins    : SMap (Mask × W32) := []
  descs    : SMap (BitVec 128) := []
  ocCopy   : List OcOp := []      -- oldest first; the counter is the length (R125)
  ocMat    : List OcOp := []
  ocVga    : List OcOp := []
  ocRed    : List OcOp := []
  pending  : List Pending := []
  vglimit  : List Nat := []       -- VGLIMIT values the Aster engine has reported and no issue has raised yet (R299)
  fpctl    : W32 := 0
  xpc      : W32 := 0
  xcause   : W32 := 0
  xmask    : W32 := 0
  xaddr    : W32 := 0
  hmode    : Bool := false
  hlanes   : Mask := 0
  park     : Option FaultInfo := none
  later    : List FaultInfo := [] -- faults that fall while the cohort is parked (R346)
  tx       : Option Tx := none
  stale    : List (Nat × Nat) := []  -- operations with a register each that an abort has written since (R81, R145)
  wptrs    : SMap WPtr := []
  curMask  : Mask := 0xFFFFFFFF#32 -- lanes of the PC-group the quarter chose (R22, R29)
  curCount : Nat := 0             -- instructions issued since it chose it
  elected  : List (Nat × Mask) := []  -- branches to per-lane targets whose first group has not issued yet (R31): the first
                                      -- elected lane of each, and the lanes that branched
  serially : Bool := false        -- that choice was made in serial mode (R29)
  idle     : Nat := 0             -- clocks ready without issuing (R21)
  aged     : Option Nat := none   -- the order in which the cohort reached 1,024 such clocks (R21)
  waits    : List WaitRec := []
  deriving DecidableEq, Repr, Inhabited

/-! ### Blocks -/

/-- A node record (R52). -/
structure NodeRec where
  parent  : W32 := 0xFFFFFFFF#32
  first   : W32 := 0
  nchild  : Nat := 0
  lanes   : Nat := 1
  kind    : Nat := 0
  rb      : Nat := 0
  cslot   : Nat := 0
  payload : W64 := 0
  kup     : Nat := 0
  kdn     : Nat := 0
  kex     : Nat := 0
  user0   : W64 := 0
  user1   : W64 := 0
  deriving DecidableEq, Repr, Inhabited

/-- A REGROUP or REGROUP.RESTORE that a cohort of the block has arrived at (R32, R34). -/
structure Collective where
  restore : Bool
  offset  : W32
  next    : W32                   -- offset of the instruction after it
  key     : Nat                   -- the key register Va
  g       : Nat                   -- general allocation of the first cohort to arrive
  arrived : List Nat              -- COHIDs
  deriving DecidableEq, Repr, Inhabited

/-- Which store put a byte into a transaction buffer: the store, by the step at which it issued, and its lane, by TID and cohort. The
memory model needs it: each lane of a store makes its own event when the buffer commits (R113, R129; log 23). -/
structure BufBy where
  store  : Nat
  tid    : Nat
  cohort : Nat
  deriving DecidableEq, Repr, Inhabited

/-- The phase a block or a node runs in. -/
inductive Phase where
  | up | down
  deriving DecidableEq, Repr, Inhabited

/-- One admitted node block (R14 to R19, R76, R362). -/
structure Block where
  vf        : Nat
  launch    : Nat
  node      : Nat
  phase     : Phase
  kernel    : Nat
  prio      : Nat
  age       : Nat
  core      : Nat
  member    : Option Nat := none  -- gang member number (R18)
  gang      : Option Nat := none  -- gang id
  alone     : Bool := false       -- a relaunched gang member, whose siblings count as ended (R75)
  nlanes    : Nat
  slots     : List (Option Nat)   -- cohort slot by COHID; none once released (R36)
  n         : Nat                 -- narrow names
  k         : Nat                 -- tiles
  aspBase   : Nat
  aspSize   : Nat                 -- rounded to 1 KiB, transaction buffer included (R16)
  aspBound  : Nat
  wbfBase   : Nat
  wbfSize   : Nat
  wbfBound  : Nat
  tiles     : SMap W32 := []      -- key tile * 16384 + element; an absent element is +0.0 (R133)
  bufLines  : Nat                 -- TXBUF div 128 (R76)
  buf       : SMap Byte := []     -- buffered bytes by virtual device address
  bufBy     : SMap BufBy := []    -- which store put them there (log 23)
  holder    : Option Nat := none  -- cohort slot that holds the buffer for an explicit transaction (R80)
  surrogate : Bool := false
  resid     : W32 := 0
  gseen     : Bool := false
  overflow  : Bool := false
  table     : Option (List Nat) := none  -- regrouping table: cohort * 32 + LANEID by TID (R33)
  coll      : Option Collective := none
  objs      : List Nat := []      -- ASP offsets of the barrier objects that an instruction or a counted copy has named (R48)
  handed    : Bool := false       -- its node's hand-off has been made (R61, R67)
  inboxDone : Bool := false       -- the INBOX copy has ended (R59, R61)
  killed    : Bool := false
  killCode  : Nat := 0            -- cause code of the kill (R340)
  ending    : Bool := false       -- issues nothing more: transaction overflow (R76)
  ecc       : Option (Nat × Nat) := none  -- a read by a cohort slot has met a poisoned line, and kills the block (R388)
  leaving   : Bool := false       -- chosen to be swapped out: its cohorts are stopped while its operations drain (R48, R364)
  boost     : Nat := 0            -- boost claim (R305)
  since     : Nat := 0            -- front-end clock at which it became resident (R48)
  taker     : Nat := 0            -- cluster whose agent took the node (R61)
  dispatcher : Nat := 0           -- cluster whose agent dispatched the block, and makes its INBOX copy (R59)
  exact     : Bool := false       -- an exact kernel (R77)
  inboxAddr : Option Nat := none  -- device address the INBOX copy reads; none for the root's own up result (R66)
  inboxLen  : Nat := 0
  rcd       : NodeRec := {}
  childix   : Nat := 0
  depth     : Nat := 0
  inbox     : Nat := 0            -- scratchpad addresses of R54
  outbox    : Nat := 0
  resbuf    : Nat := 0
  deriving DecidableEq, Repr, Inhabited

/-! ### Cores, clusters, dies -/

/-- The four copy mnemonics (R268). -/
inductive CopyKind where
  | cpy | cpym | cpyo | cpyp
  deriving DecidableEq, Repr, Inhabited

/-- One copy posted to a channel (R99 to R103, R107, R268 to R273). -/
structure Copy where
  id      : Nat
  slot    : Nat                   -- posting cohort slot
  blk     : Nat
  ch      : Nat := 0
  kind    : CopyKind
  toWbf   : Bool := false
  dec     : Bool := false
  rcv     : Bool := false
  snd     : Bool := false
  dst     : W64
  src     : W64
  len     : Nat
  robj    : Nat := 0              -- byte offsets of the objects
  sobj    : Nat := 0
  dstBlks : List Nat := []        -- destination blocks, in member order (own block for CPY, none for CPYO)
  started : Bool := false
  prog    : Nat := 0              -- destination bytes delivered
  half    : Nat := 0              -- decode mode: nibbles or elements already taken at the current data byte
  data    : W64 := 0              -- decode mode: address of the next data byte
  srcDone : Bool := false         -- the last source byte has been read (R107)
  last    : List Byte := []       -- the destination bytes it gives, until they land
  stopped : Bool := false         -- stopped on a translation fault (R272)
  lost    : Option (W64 × Nat × Bool) := none   -- its link dropped under it: the address, its stage-one output, a write (R339)
  deriving DecidableEq, Repr, Inhabited

/-- A cached translation (R354): the VF, the virtual page with its size, the intermediate and the device physical page, the
permissions of the two stages' leaves (bit 0 R, bit 1 W, bit 2 X), and the attribute with the size of its stage-one page. -/
structure TlbEntry where
  vf    : Nat
  page  : Nat
  size  : Nat
  ipa   : Nat
  phys  : Nat
  p1    : Nat
  p2    : Nat
  fattr : Nat
  s1    : Nat
  deriving DecidableEq, Repr, Inhabited

/-- Per-core state. -/
structure Core where
  asp     : List Host.Cell := []  -- an absent byte is 0 (R133, R370)
  wbf     : List Host.Cell := []
  wallet  : Nat := 0
  starved : Option Nat := none    -- the wait whose instruction is starved (R44), by the moment it began
  cycle   : W64 := 0
  chans   : SMap (List Copy) := []   -- posting order
  tlb     : List TlbEntry := []
  deriving DecidableEq, Repr, Inhabited

/-- A posted matrix operation (R45, R289 to R295). -/
structure MatOp where
  id      : Nat
  slot    : Nat
  blk     : Nat
  opc     : Nat                   -- the cell's opcode: 0xE8 to 0xEE, or 0xEF for CMPR
  fmt     : Ty
  tile    : Nat
  da      : BitVec 128
  db      : BitVec 128
  passes  : Nat
  grp     : Nat := 0
  idx     : List W32 := []        -- MMAG: 128 row indices
  mdata   : List W32 := []        -- MMAS: the metadata run, register by register, lane 0 first
  latch   : List Byte := []       -- MMAG: the gathered rows (R293)
  rows    : Nat := 0              -- CMPR
  run     : Nat := 0              -- CMPR: first register of the metadata run
  granted : Nat := 0
  written : Nat := 0
  waited  : Nat := 0              -- clocks in the table (R45)
  aged    : Option Nat := none    -- ranks above the others after 4,096 clocks, oldest first
  prio    : Nat := 0
  age     : Nat := 0
  deriving DecidableEq, Repr, Inhabited

/-- A posted VGA with its Aster queue record (R298 to R300, R362). -/
structure VgaOp where
  id     : Nat
  slot   : Nat
  blk    : Nat
  vd     : Nat
  mask   : Mask
  da     : BitVec 128
  db     : BitVec 128
  cursor : Nat := 0               -- words of the stream read
  values : Nat := 0               -- value words of the current row
  fresh  : Bool := false          -- the current value word has no position yet
  word   : W32 := 0               -- the current value word
  t      : W32 := 0
  acc    : W32 := 0
  rows   : List W32 := []         -- finished rows, in stream order
  window : W64 := 0               -- the comparator window (R300, R362): the spec does not say what it holds (log 63)
  deriving DecidableEq, Repr, Inhabited

/-- A barrier opening that still has waiters to release (R109): waiters in release order, with their values kept from the
opening's start. -/
structure Wave where
  slots : List Nat
  size  : Nat
  deriving DecidableEq, Repr, Inhabited

/-- A dispatch of a node's block, or of the four of a gang, that waits for admission (R59, R61, R66, R75, R77). -/
structure Dispatch where
  launch  : Nat
  nodes   : List Nat              -- one node, or the four of a gang
  phase   : Phase
  exact   : Bool := false         -- the exact kernel KEX (R77)
  handed  : Bool := false         -- a relaunch of a node whose hand-off NRES has made (R75)
  alone   : Option Nat := none    -- a relaunched gang member: its member number (R75)
  taker   : Nat                   -- cluster whose agent took the node
  inboxes : List (Option Nat × Nat)       -- per node: where the INBOX copy reads (none: the root's up result) and its length
  pop     : Option (Nat × Nat) := none    -- the frame (cluster, height) popped when the INBOX copies end
  order   : Nat := 0              -- when it began to wait (R48)
  deriving DecidableEq, Repr, Inhabited

/-- Body bias of a cluster (R382). -/
inductive Bias where
  | none | forward | reverse
  deriving DecidableEq, Repr, Inhabited

/-- Per-cluster state. -/
structure Cluster where
  rot       : Nat := 0            -- core the next dispatch tries first (R59)
  waiting   : List Dispatch := []        -- the agent's waiting dispatches, oldest first (R59)
  downWait  : Option (Nat × Nat) := none -- launch and node whose end the agent waits for (R66)
  mat       : List MatOp := []    -- posted and unfinished, in posting order
  vga       : List VgaOp := []
  step      : Nat := 0
  holding   : Bool := false       -- granted a hold; the step follows at the own boundary (R380)
  falling   : Bool := false
  bias      : Bias := .none
  settled   : Bool := true        -- the bias change under way has settled (R382)
  rising    : Nat := 0            -- a step up that waits for forward bias to settle: the step it goes to (R382); 0 for none
  emptyInt  : Bool := false       -- no cohort has been resident since the current interval began (R382)
  used      : Bool := false       -- a cohort has been resident since the die left reset (R382)
  wgap      : Nat := 4
  wsize     : Nat := 16
  waves     : List Wave := []
  tlb       : List TlbEntry := []
  ringRot   : Nat := 0            -- core the ring station serves first (R43)
  deriving DecidableEq, Repr, Inhabited

/-- Thermal states (R376, R383). -/
inductive TState where
  | normal | warm | throttle | emergency
  deriving DecidableEq, Repr, Inhabited

/-- A value posted to Grotto (R376): a word of a power or RAS block. -/
structure Posted where
  ras   : Bool
  die   : Nat
  off   : Nat
  value : W32
  deriving DecidableEq, Repr, Inhabited

/-- Per-die state: the power block, the ring, the permit pool and the RAS block (R376, R377, R380, R391). -/
structure Die where
  rate      : Nat := 0x1000
  temg      : Nat := 105
  tthr      : Nat := 95
  tboost    : Nat := 85
  tmax      : Nat := 0
  tstate    : TState := .normal
  samples   : Nat := 0            -- thermal samples since TSTATE last changed (R383)
  refused   : Bool := false
  energy    : W64 := 0
  latch     : W32 := 0
  latchHeld : Bool := false       -- Grotto holds the latch against PF reads (R387)
  tokPaid   : W64 := 0
  tokLost   : W64 := 0
  emgCnt    : W32 := 0
  fraction  : Nat := 0
  slots     : SMap Nat := []      -- tokens standing before station 0 to 7; absent slots are empty
  pool      : Nat := 64
  lastGrant : Nat := 7            -- the rotation starts at the cluster after it (R380)
  poolBoost : Bool := false       -- some cluster held a step above 0 in this pool interval
  ce        : SMap W32 := []
  ue        : SMap W32 := []
  kills     : W64 := 0
  relaunch  : W64 := 0
  scrubEn   : Bool := true
  scrubGap  : Nat := 256
  cethr     : Nat := 16
  frames    : SMap Nat := []      -- correctable errors by 4 KiB HBM frame
  scrubPos  : Nat := 0            -- next HBM line of the patrol
  scrubClk  : Nat := 0            -- front-end clocks since the line before it (R390)
  poisoned  : List Nat := []      -- lines marked poisoned (R388, R390)
  tlb       : List TlbEntry := []
  deriving DecidableEq, Repr, Inhabited

/-! ### Launches -/

/-- A kernel-table entry (R333). -/
structure KernelEntry where
  code    : W64
  csize   : Nat
  gregs   : Nat
  narrow  : Nat
  tiles   : Nat
  aspb    : Nat
  wbfb    : Nat
  handler : W32
  deriving DecidableEq, Repr, Inhabited

/-- The states of a node (R72). -/
inductive NodeState where
  | taken | gathering | dispatched | running | guarding | done
  deriving DecidableEq, Repr, Inhabited

/-- What the engine keeps of a node that has been taken; a node that is not listed is UNSTARTED (R72). -/
structure Node where
  state     : NodeState
  rcd       : NodeRec
  taker     : Nat
  childix   : Nat
  depth     : Nat
  parent    : Nat
  pframe    : Option (Nat × Nat) := none  -- cluster and height of the parent's frame
  frame     : Option (Nat × Nat) := none  -- cluster and height of its own frame
  relaunch  : Nat := 0
  copySlot  : Option Nat := none          -- input-copy slot (R70)
  copyLen   : Nat := 0
  deriving DecidableEq, Repr, Inhabited

/-- A launch that has started (R49, R332, R335). -/
structure Launch where
  vf       : Nat
  queue    : Nat
  tag      : Nat
  prio     : Nat
  swapq    : Nat
  crec     : W64
  lrec     : W64
  off      : Nat                  -- ring offset of its packet
  packet   : Nat := 0             -- its packet, by the name in the queue's flight
  started  : Bool := false        -- the checks of R335 have been made
  sweep    : Nat := 0
  tree     : W64 := 0
  nnodes   : Nat := 0
  implicit : Bool := false
  idemp    : Bool := false
  swap     : Bool := false
  nleaf    : Nat := 0
  llanes   : Nat := 0
  lrb      : Nat := 0
  stack    : W64 := 0
  d        : Nat := 0
  f        : Nat := 0
  result   : W64 := 0
  input    : W64 := 0
  tol      : W32 := 0
  txbuf    : Nat := 0
  ctx      : W64 := 0
  kernels  : SMap KernelEntry := []
  phase    : Phase := .up
  stop     : Option (Nat × Nat × Nat) := none  -- STATUS, DETAIL, NODE of the stop (R74)
  rootDone : Bool := false        -- the root's hand-off of this phase has been made (R68)
  rootTaken : Bool := false
  gpass    : Nat := 0
  gfail    : Nat := 0
  relaunch : Nat := 0
  nodes    : SMap Node := []
  heights  : SMap (List Nat) := []        -- occupied heights of each cluster's stack (R57)
  search   : List Dispatch := []          -- placement searches (R77)
  pops     : List (Nat × Nat × Nat) := [] -- node whose INBOX copy pops the frame (cluster, height) when it ends
  upRoot   : List Byte := []              -- the root's up result, the root's input in BOTH (R66)
  deriving DecidableEq, Repr, Inhabited

/-- A packet in progress (R329, R357). -/
structure Packet where
  id     : Nat                    -- ring offsets come round again, so a packet has a name of its own
  off    : Nat
  kind   : Nat
  tag    : Nat
  launch : Option Nat := none
  deriving DecidableEq, Repr, Inhabited

/-- A queue of a VF (R324, R325, R329). -/
structure Queue where
  qbase   : W64 := 0
  en      : Bool := false
  log2sz  : Nat := 12
  qrd     : Nat := 0
  qwr     : Nat := 0
  stop    : Bool := false
  code    : Nat := 0
  eoff    : W32 := 0
  pending : Bool := false
  rst     : Bool := false         -- a reset waits for the running packets (R331)
  flight  : List Packet := []     -- started and not complete, ring order
  blocked : Bool := false         -- the packet at QRD cannot start yet (R329)
  deriving DecidableEq, Repr, Inhabited

/-- Slice states of a VF (R348). -/
inductive VfState where
  | idle | running | saved | failed
  deriving DecidableEq, Repr, Inhabited

/-- The header of a save image (R360). -/
structure ImageHeader where
  magic   : W32 := 0
  version : W32 := 0
  ncore   : Nat := 0
  nslot   : Nat := 0
  gfile   : Nat := 0
  nfile   : Nat := 0
  aspb    : Nat := 0
  wbfb    : Nat := 0
  ntile   : Nat := 0
  nqueue  : Nat := 0
  deriving DecidableEq, Repr, Inhabited

/-- What a save image holds of a VF (R357, R362): its blocks and cohorts, the copies that stopped on a fault, the Aster
queue records and the agents' waiting dispatches; launches stay in State under their VF. -/
structure SavedImage where
  header   : ImageHeader := {}
  blocks   : SMap Block := []
  cohorts  : SMap Cohort := []
  asp      : SMap (List Host.Cell) := []     -- by block: its allocation, keyed from 0
  wbf      : SMap (List Host.Cell) := []
  copies   : List (Nat × Nat × Copy) := []   -- core, channel, stopped copy
  vgas     : List (Nat × VgaOp) := []        -- cluster, queue record
  waiting  : List (Nat × Dispatch) := []     -- cluster, waiting dispatch
  downWait : List (Nat × Nat × Nat) := []    -- cluster, launch, node
  badTag   : Bool := false                   -- a shape tag of 0b11 (R361)
  deriving DecidableEq, Repr, Inhabited

/-- A block record of the swap pool (R364). -/
structure SwapRec where
  blk     : Nat
  block   : Block
  cohorts : List (Nat × Cohort)   -- by COHID
  asp     : List Host.Cell
  wbf     : List Host.Cell
  copies  : List (Nat × Copy)     -- channel, stopped copy
  vgas    : List VgaOp
  bytes   : Nat
  order   : Nat                   -- when it began to wait
  deriving DecidableEq, Repr, Inhabited

/-- Per-VF state: queues, the PF's block of R348, the usage block of R392. -/
structure Vf where
  queues    : SMap Queue := []
  start     : Nat := 0            -- the scanner's start position (R326)
  s1root    : W64 := 0
  s2root    : W64 := 0
  fqbase    : W64 := 0
  fqen      : Bool := false
  ovf       : Bool := false
  fqlog2    : Nat := 12
  fqvec     : Nat := 0
  fqhead    : W32 := 0
  fqtail    : W32 := 0
  busy      : Bool := false
  cmdslot   : Nat := 0
  op        : Nat := 0
  cmdst     : Nat := 0
  invaddr   : W64 := 0
  invsize   : W64 := 0
  savebase  : W64 := 0
  savesz    : W64 := 0
  quantum   : W32 := 0
  state     : VfState := .idle
  records   : List FaultInfo := []  -- records not yet posted (R348)
  seq       : W32 := 1
  key       : Nat := 0
  sliceClk  : W64 := 0
  tokPaid   : W64 := 0
  gpass     : W64 := 0
  gfail     : W64 := 0
  launches  : W32 := 0
  parks     : W32 := 0
  kills     : W32 := 0
  image     : Option SavedImage := none
  swapped   : List SwapRec := []
  deriving DecidableEq, Repr, Inhabited

/-! ### The rest of the part -/

/-- A reduction request on its way to its partition (R110, R111). -/
structure RedReq where
  id    : Nat                     -- the burst's operation
  slot  : Nat
  vf    : Nat
  opc   : Nat
  ty    : Ty
  va    : W64
  pa    : Nat
  ipa   : Nat := 0                -- the stage-one output, for a record of a dropped link (R339, R353)
  value : W64
  lanes : Mask := 0               -- the lanes whose values it combines (R110), for the same record (R347)
  lost  : Bool := false           -- its link dropped under it (R339)
  deriving DecidableEq, Repr, Inhabited

/-- A Lumak port (R337, R339). -/
structure Port where
  loutEn  : Bool := false
  linEn   : Bool := false
  linVf   : Nat := 0
  linBase : Nat := 0
  linLim  : Nat := 0
  trained : Bool := false
  lanes   : Nat := 0
  replays : W32 := 0
  failed  : Nat := 0              -- failed replays in a row
  training : Bool := false        -- Grotto trains it again (R339)
  deriving DecidableEq, Repr, Inhabited

/-- Grotto's states (R371). -/
inductive MbState where
  | boot | ready | recovery | updating
  deriving DecidableEq, Repr, Inhabited

/-- An entry of the event log (R394). -/
structure LogEntry where
  seq    : W32
  time   : W32
  kind   : Nat
  die    : Nat
  cls    : Nat
  vf     : Nat
  slot   : W32
  detail : W32
  addr   : W64
  deriving DecidableEq, Repr, Inhabited

/-- The SPDM requests the responder supports (R375). -/
inductive SpdmRequest where
  | getVersion | getCapabilities | negotiateAlgorithms | getDigests | getCertificate | challenge | getMeasurements | slhsig
  deriving DecidableEq, Repr, Inhabited

/-- The algorithms of the responder (R375). -/
inductive SpdmAlgorithm where
  | rsapss3072 | sha384
  deriving DecidableEq, Repr, Inhabited

/-- A response of the responder (R375): what was asked, the bytes answered (their layout is SPDM's, not the spec's), and what
stands in them: the algorithms chosen, the certificate chain, its digest, the measurements or how many there are, the RSA signature,
the SLH-DSA signature; or that it is an error. -/
structure SpdmResponse where
  req          : SpdmRequest
  body         : List Byte
  algorithms   : List SpdmAlgorithm := []
  chain        : Option (List Byte) := none
  digest       : Option (List Byte) := none
  measurements : List (List Byte) := []
  total        : Option Nat := none
  error        : Bool := false
  rsa          : Option (List Byte) := none
  slh          : Option (List Byte) := none
  deriving DecidableEq, Repr, Inhabited

/-- Where an UPDATE or a RECOVER stands (R372, R373): the copy is to be checked, or flash is being written. -/
inductive UpdateStep where
  | check | write
  deriving DecidableEq, Repr, Inhabited

/-- Grotto (R366 to R376, R394). -/
structure Grotto where
  pc        : W32 := 0               -- the RV32IMC core: where it executes in TCM (R366, R370)
  regs      : List W32 := List.replicate 31 0   -- its registers x1 to x31
  buffer    : List Byte := []        -- the verification buffer of a boot, and the copy of an update (R370, R372)
  update    : Option (UpdateStep × Bool) := none  -- a running UPDATE, or (true) RECOVER
  mbstate   : MbState := .boot
  result    : Nat := 0
  cmd       : Nat := 0
  arg0      : W64 := 0
  arg1      : W32 := 0
  rwin      : List Host.Cell := []   -- an absent byte is 0
  posted    : List Posted := []
  flash     : List Byte := []
  tcm       : List Host.Cell := []   -- the 256 KiB of TCM by offset; an absent byte is 0 (R366, R370)
  ropSvn    : Nat := 0
  svnf      : BitVec 64 := 0         -- fuse row
  meas      : SMap (List Byte) := [] -- measurements 1 to 5
  sram      : List LogEntry := []    -- newest first, at most 1,024
  flashLog  : List LogEntry := []    -- newest first, at most 8,192
  logseq    : W32 := 0
  time      : W32 := 0
  vca       : List Byte := []        -- SPDM's transcripts (R375): the version, capabilities and algorithms messages
  certs     : List Byte := []        -- the digests and certificate messages that no challenge has covered
  measured  : List Byte := []        -- the measurements messages since the last signature or other request
  signedHash : Option (List Byte) := none  -- the transcript hash the last RSA signature covers (R375)
  responses : List SpdmResponse := []  -- newest first
  deriving DecidableEq, Repr, Inhabited

/-- The issue cursor: the cohort slot whose PC-group is issuing, and the group's lanes. -/
structure Cursor where
  slot   : Nat := 0
  group  : Mask := 0
  waited : Bool := false           -- the last try recorded a wait and did not issue
  deriving DecidableEq, Repr, Inhabited

/-- The state of the part. -/
structure State where
  mem       : List Host.Cell := []   -- device physical memory (R322)
  lineKeys  : SMap Nat := []         -- key of each HBM line's last writer (R323, R359)
  granules  : SMap Nat := []         -- owner VF of each 1 GiB granule; absent is unowned (R323)
  cohorts   : SMap Cohort := []      -- by slot: core * 64 + index (R334)
  blocks    : SMap Block := []
  launches  : SMap Launch := []
  cores     : SMap Core := []
  clusters  : SMap Cluster := []
  dies      : SMap Die := []
  vfs       : SMap Vf := []
  ports     : SMap Port := []
  reds      : List RedReq := []
  msix      : List (Option Nat × Nat) := []  -- vectors raised, newest first: VF (none: the PF) and vector
  released  : Bool := false          -- the dies, the CXL link and the VFs have left reset (R370)
  curVf     : Option Nat := none     -- the VF whose slice is current (R356)
  lastVf    : Nat := 63              -- the VF whose slice was the last one: the search for the next begins after it (R356)
  sliceCnt  : Nat := 0               -- front-end clocks counted in the slice
  stopping  : Bool := false          -- the slice has ended and its cohorts are stopped (R357)
  frontClk  : Nat := 0
  nextAge   : Nat := 0
  nextId    : Nat := 0               -- names for blocks, launches, copies, operations, waits
  nextKey   : Nat := 64
  grotto    : Grotto := {}
  agenda    : List Action := []
  tick      : Nat := 0
  cur       : Cursor := {}
  answer    : Option (List Byte) := some []  -- what the last access from outside was answered with; none: poison, or refused
  deriving DecidableEq, Repr, Inhabited

/-- The part right after reset (R376, R371, R324, R348, R391 and the reset columns they hold; R43, R133, R370). -/
def State.reset : State := {}

/-! ### How a step can stop -/

/-- Faults of the model. -/
inductive Fault where
  /-- Raised by the meaning of an instruction row when the issue cursor names no resident cohort with a lane: there is no
  cohort that could issue it. Safe: nothing of the spec is skipped. -/
  | noIssuer
  deriving DecidableEq, Repr, Inhabited

/-- Refusals of the model. -/
inductive Refusal where
  /-- Raised by an arm of exec that has no meaning yet. Safe: nothing is claimed of it. -/
  | notModelled (mnemonic : String)
  deriving DecidableEq, Repr, Inhabited

end Sys2Proof.Machine
end

