-- ==== Sys2Proof/Machine/Maps.lean ====
section
/-! DEFINITION. Sparse tables and byte stores: look up, put, remove. Every function is structurally recursive. -/

namespace Sys2Proof.Machine

/-! ### Sparse tables -/

/-- The entry of a key. -/
def SMap.look {α : Type} : SMap α → Nat → Option α
  | [], _ => none
  | (k, v) :: m, i => if k = i then some v else SMap.look m i

/-- The entry of a key, or a default. -/
def SMap.get {α : Type} (m : SMap α) (i : Nat) (d : α) : α := (m.look i).getD d

/-- The table with an entry set. -/
def SMap.put {α : Type} : SMap α → Nat → α → SMap α
  | [], i, x => [(i, x)]
  | (k, v) :: m, i, x =>
    if k = i then (i, x) :: m else if i < k then (i, x) :: (k, v) :: m else (k, v) :: SMap.put m i x

/-- The table without a key. -/
def SMap.del {α : Type} : SMap α → Nat → SMap α
  | [], _ => []
  | (k, v) :: m, i => if k = i then SMap.del m i else (k, v) :: SMap.del m i

/-- The table with an entry changed where it exists. -/
def SMap.upd {α : Type} (m : SMap α) (i : Nat) (f : α → α) : SMap α :=
  match m.look i with
  | some v => m.put i (f v)
  | none => m

/-- The table with every entry changed. -/
def SMap.mapVals {α β : Type} (m : SMap α) (f : Nat → α → β) : SMap β := m.map (fun p => (p.1, f p.1 p.2))

/-- A list of entries as a table: of two with one key the later stands. -/
def SMap.tidy {α : Type} (l : List (Nat × α)) : SMap α := l.foldl (fun m p => SMap.put m p.1 p.2) []

/-- The keys. -/
def SMap.keys {α : Type} (m : SMap α) : List Nat := m.map Prod.fst

/-- Keys in rising order, none twice. -/
def SMap.wf {α : Type} : SMap α → Bool
  | [] => true
  | [_] => true
  | (k, _) :: (k', v') :: m => decide (k < k') && SMap.wf ((k', v') :: m)

/-! ### Byte stores -/

/-- The byte listed at an address. -/
def cellAt : List Host.Cell → Nat → Option Byte
  | [], _ => none
  | (k, v) :: m, a => if k = a then some v else cellAt m a

/-- The store with a byte listed at an address. -/
def cellPut : List Host.Cell → Nat → Byte → List Host.Cell
  | [], a, b => [(a, b)]
  | (k, v) :: m, a, b =>
    if k = a then (a, b) :: m else if a < k then (a, b) :: (k, v) :: m else (k, v) :: cellPut m a b

/-- The store with no byte listed at an address. -/
def cellDel : List Host.Cell → Nat → List Host.Cell
  | [], _ => []
  | (k, v) :: m, a => if k = a then cellDel m a else (k, v) :: cellDel m a

/-- Addresses in rising order, none twice. -/
def cellsSorted : List Host.Cell → Bool
  | [] => true
  | [_] => true
  | (k, _) :: (k', v') :: m => decide (k < k') && cellsSorted ((k', v') :: m)

/-- The canonical form of device memory: addresses in rising order, none twice. An unlisted byte reads as a free value, so no
listed byte is known to equal it. -/
def Memory.wf (m : List Host.Cell) : Bool := cellsSorted m

/-- A read of a store whose unlisted bytes are 0: the scratchpads and weight buffers (R133, R370). -/
def bufAt (m : List Host.Cell) (a : Nat) : Byte := (cellAt m a).getD 0

/-- A write to such a store; writing 0 removes the entry. -/
def bufPut (m : List Host.Cell) (a : Nat) (b : Byte) : List Host.Cell :=
  if b = 0 then cellDel m a else cellPut m a b

/-- The canonical form of such a store. -/
def bufWf (m : List Host.Cell) : Bool := cellsSorted m && m.all (fun c => c.2 != 0)

/-- `n` bytes from an address. -/
def bufRead (m : List Host.Cell) (a n : Nat) : List Byte := (List.range n).map (fun i => bufAt m (a + i))

/-- Bytes written in ascending address. -/
def bufWrite : List Host.Cell → Nat → List Byte → List Host.Cell
  | m, _, [] => m
  | m, a, b :: bs => bufWrite (bufPut m a b) (a + 1) bs

/-- `n` bytes set to zero. -/
def bufZero (m : List Host.Cell) (a n : Nat) : List Host.Cell := m.filter (fun c => c.1 < a || a + n ≤ c.1)

/-! ### Numbers and bytes -/

/-- The number whose bytes, lowest first, are given (R5). -/
def leNat : List Byte → Nat
  | [] => 0
  | b :: bs => b.toNat + 256 * leNat bs

/-- The word of a list of bytes. -/
def leW (w : Nat) (bs : List Byte) : BitVec w := BitVec.ofNat w (leNat bs)

/-- Signed reading of a number of `n` bits. -/
def sext (x n : Nat) : Int := if x % 2 ^ n < 2 ^ (n - 1) then (x % 2 ^ n : Nat) else ((x % 2 ^ n : Nat) : Int) - 2 ^ n

/-- Wrap (R151): an integer reduced to `n` bits. -/
def wrapN (x : Int) (n : Nat) : Nat := (x % (2 ^ n : Int)).toNat

/-- Round up to a multiple. -/
def roundUp (x m : Nat) : Nat := (x + m - 1) / m * m

/-- Division rounding up. -/
def cdiv (x m : Nat) : Nat := (x + m - 1) / m

/-- A counter that saturates at all ones, one event later. -/
def satInc {w : Nat} (x : BitVec w) : BitVec w := if x = BitVec.allOnes w then x else x + 1

/-- The number with one bit of a truth value. -/
def bit (b : Bool) : Nat := if b then 1 else 0

/-! ### Masks of lanes -/

/-- The lanes of a cohort. -/
def lanes32 : List Nat := List.range 32

/-- The mask of the lanes that satisfy a test. -/
def maskOf (p : Nat → Bool) : Mask := BitVec.ofNat 32 (lanes32.foldl (fun acc l => if p l then acc + 2 ^ l else acc) 0)

/-- The lanes of a mask, lowest first. -/
def maskLanes (m : Mask) : List Nat := lanes32.filter (fun l => m.has l)

/-- The lowest lane of a mask; 32 when it is empty. -/
def lowest (m : Mask) : Nat := (maskLanes m).headD 32

/-- The number of lanes of a mask. -/
def popc (m : Mask) : Nat := (maskLanes m).length

/-! ### Order -/

/-- Insert into a list kept in rising order of a key. -/
def insertBy {α : Type} (key : α → Nat) (x : α) : List α → List α
  | [] => [x]
  | y :: l => if key x < key y then x :: y :: l else y :: insertBy key x l

/-- A list in rising order of a key; equal keys keep their order. -/
def sortBy {α : Type} (key : α → Nat) (l : List α) : List α := l.foldl (fun acc x => insertBy key x acc) []

/-- The lexicographic order on keys. -/
def lexLt : List Nat → List Nat → Bool
  | a :: l, b :: m => a < b || (a == b && lexLt l m)
  | [], _ :: _ => true
  | _, [] => false

/-- Insert into a list kept in rising order of a lexicographic key. -/
def insertLex {α : Type} (key : α → List Nat) (x : α) : List α → List α
  | [] => [x]
  | y :: l => if lexLt (key x) (key y) then x :: y :: l else y :: insertLex key x l

/-- A list in rising order of a lexicographic key; equal keys keep their order. -/
def sortLex {α : Type} (key : α → List Nat) (l : List α) : List α := l.foldl (fun acc x => insertLex key x acc) []

/-- Set the element at an index. -/
def setAt {α : Type} : List α → Nat → α → List α
  | [], _, _ => []
  | _ :: l, 0, x => x :: l
  | y :: l, n + 1, x => y :: setAt l n x

end Sys2Proof.Machine
end

