-- ==== Sys2Proof/Machine/Flags.lean ====
section
/-! DEFINITION. Numbers, rounding and the sticky flags of FPCTL (spec/07_number_formats.md R149 to R163). An exact value is
a sign, a natural significand and a power of two, with a mark for a value that lies strictly between two of them; every
result is formed exactly and rounded once. -/

namespace Sys2Proof.Machine

/-! ### FPCTL (R161) -/

def flNX : W32 := 1
def flUF : W32 := 2
def flOF : W32 := 4
def flDZ : W32 := 8
def flNV : W32 := 16
def flSAT : W32 := 32
/-- TNF, bit 31. -/
def tnf (fpctl : W32) : Bool := fpctl.getLsbD 31
/-- The bits of FPCTL that may be written as 1. -/
def fpctlMask : W32 := 0x8000003F#32

/-! ### Formats (R149) -/

/-- How a format spends its highest exponent: IEEE infinities and NaNs, E4M3's one NaN code, or E3M2's none. -/
inductive Specials where
  | ieee | nanOnly | none
  deriving DecidableEq, Repr, Inhabited

/-- Exponent bits, mantissa bits, bias, specials. -/
structure Fmt where
  eb   : Nat
  mb   : Nat
  bias : Nat
  spec : Specials
  deriving DecidableEq, Repr, Inhabited

def fmt32 : Fmt := ⟨8, 23, 127, .ieee⟩
def fmt16 : Fmt := ⟨5, 10, 15, .ieee⟩
def fmtBf : Fmt := ⟨8, 7, 127, .ieee⟩
def fmtE4 : Fmt := ⟨4, 3, 7, .nanOnly⟩
def fmtE5 : Fmt := ⟨5, 2, 15, .ieee⟩
def fmtE3 : Fmt := ⟨3, 2, 3, .none⟩

/-- The format of a floating-point type; the other types have none and read as FP32. -/
def fmtOf : Ty → Fmt
  | .f16 => fmt16
  | .bf16 => fmtBf
  | .e4m3 => fmtE4
  | .e5m2 => fmtE5
  | .e3m2 => fmtE3
  | _ => fmt32

/-- The width of a format in bits. -/
def Fmt.width (f : Fmt) : Nat := 1 + f.eb + f.mb
/-- The exponent of the smallest normal. -/
def Fmt.emin (f : Fmt) : Int := 1 - f.bias
/-- The sign bit. -/
def Fmt.signBit (f : Fmt) (neg : Bool) : Nat := if neg then 2 ^ (f.eb + f.mb) else 0
/-- The magnitude bits of the largest finite value. -/
def Fmt.maxBits (f : Fmt) : Nat :=
  match f.spec with
  | .ieee => (2 ^ f.eb - 1) * 2 ^ f.mb - 1
  | .nanOnly => 2 ^ (f.eb + f.mb) - 2
  | .none => 2 ^ (f.eb + f.mb) - 1
/-- The infinity's magnitude bits (IEEE formats). -/
def Fmt.infBits (f : Fmt) : Nat := (2 ^ f.eb - 1) * 2 ^ f.mb
/-- The canonical NaN (R149); E3M2 has none. -/
def Fmt.nanBits (f : Fmt) : Nat :=
  match f.spec with
  | .ieee => f.infBits + 2 ^ (f.mb - 1)
  | .nanOnly => 2 ^ (f.eb + f.mb) - 1
  | .none => 0

/-! ### Exact values -/

/-- NaN, an infinity, or (−1)^neg × m × 2^e, strictly above that magnitude and below the next when `st`. -/
inductive XVal where
  | nan
  | inf (neg : Bool)
  | fin (neg : Bool) (m : Nat) (e : Int) (st : Bool)
  deriving DecidableEq, Repr, Inhabited

/-- Value (R149): what an encoding stands for. -/
def Fmt.value (f : Fmt) (x : Nat) : XVal :=
  let neg := decide (x / 2 ^ (f.eb + f.mb) % 2 = 1)
  let ef := x / 2 ^ f.mb % 2 ^ f.eb
  let m := x % 2 ^ f.mb
  let ones := decide (ef = 2 ^ f.eb - 1)
  if f.spec = .ieee && ones then (if m = 0 then .inf neg else .nan)
  else if f.spec = .nanOnly && ones && m = 2 ^ f.mb - 1 then .nan
  else if ef = 0 then .fin neg m (f.emin - f.mb) false
  else .fin neg (2 ^ f.mb + m) ((ef : Int) - f.bias - f.mb) false

/-- The value of an integer. -/
def XVal.ofInt (x : Int) : XVal := .fin (decide (x < 0)) x.natAbs 0 false

def XVal.isNan : XVal → Bool
  | .nan => true
  | _ => false

/-- Rounding modes (R154, R181). -/
inductive RMode where
  | rne | rtz | rup | rdn
  deriving DecidableEq, Repr, Inhabited

def RMode.ofField : Nat → RMode
  | 0 => .rne
  | 1 => .rtz
  | 2 => .rup
  | _ => .rdn

/-- A result with the flags it sets. -/
structure FRes where
  bits : Nat
  fl   : W32 := 0
  deriving DecidableEq, Repr, Inhabited

/-- The number of bits of a natural. -/
def bitLen (m : Nat) : Nat := if m = 0 then 0 else m.log2 + 1

/-- Whether a discarded fraction rounds the magnitude up (R154): its parts below the last place are `rem` of 2^sh and the
mark `st`. -/
def roundsUp (rm : RMode) (neg odd : Bool) (rem sh : Nat) (st : Bool) : Bool :=
  match rm with
  | .rne => if sh = 0 then false else
      decide (2 ^ (sh - 1) < rem) || (rem == 2 ^ (sh - 1) && (st || odd))
  | .rtz => false
  | .rup => !neg && (rem != 0 || st)
  | .rdn => neg && (rem != 0 || st)

/-- A magnitude m × 2^e rounded to a multiple of 2^q: the multiple, and whether it differs. -/
def roundTo (rm : RMode) (neg : Bool) (m : Nat) (e : Int) (st : Bool) (q : Int) : Nat × Bool :=
  if q ≤ e then (m * 2 ^ (e - q).toNat, st)
  else
    let sh := (q - e).toNat
    let t := m / 2 ^ sh
    let rem := m % 2 ^ sh
    (if roundsUp rm neg (t % 2 == 1) rem sh st then t + 1 else t, rem != 0 || st)

/-- What an overflow gives before .sat (R155): whether it is the infinity. -/
def overflowInf (rm : RMode) (neg : Bool) : Bool :=
  match rm with
  | .rne => true
  | .rtz => false
  | .rup => !neg
  | .rdn => neg

/-- Round (R154 to R156): the encoding of an exact value in a format under a mode, with `sat` and `ns`. UF is set for a result
that is tiny after rounding with an unbounded exponent and inexact (R161; log 7). -/
def roundFmt (f : Fmt) (rm : RMode) (sat ns : Bool) (x : XVal) : FRes :=
  match x with
  | .nan => { bits := f.nanBits, fl := if f.spec = .none then flNV else 0 }
  | .inf neg =>
    match f.spec with
    | .ieee => { bits := f.signBit neg + f.infBits }
    | .nanOnly => { bits := if ns then f.nanBits else f.signBit neg + f.maxBits, fl := flNV }
    | .none => { bits := f.signBit neg + f.maxBits, fl := flNV }
  | .fin neg m e st =>
    if m = 0 && !st then { bits := f.signBit neg }
    else
      let p : Int := f.mb + 1
      let len : Int := bitLen m
      let qu := e + len - p
      let q := max qu (f.emin - f.mb)
      let (t, inexact) := roundTo rm neg m e st q
      let (tu, _) := roundTo rm neg m e st qu
      let tiny := decide (qu + (bitLen tu : Int) - 1 < f.emin)
      -- a carry out of the significand moves the exponent by one
      let (t, q) := if bitLen t = f.mb + 2 then (t / 2, q + 1) else (t, q)
      let mag := if bitLen t ≤ f.mb then t else (q + f.mb + f.bias).toNat * 2 ^ f.mb + (t - 2 ^ f.mb)
      if f.maxBits < mag then
        let inf := overflowInf rm neg
        let bits :=
          match f.spec with
          | .ieee => if inf && !sat then f.infBits else f.maxBits
          | .nanOnly => if inf && ns then f.nanBits else f.maxBits
          | .none => f.maxBits
        { bits := (if f.spec = .nanOnly && inf && ns then 0 else f.signBit neg) + bits, fl := flOF ||| flNX }
      else
        { bits := f.signBit neg + mag, fl := (if inexact then flNX else 0) ||| (if inexact && tiny then flUF else 0) }

/-! ### Exact operations (R158, R159) -/

/-- An exact result with the flags of the operation itself. -/
abbrev XRes := XVal × W32

/-- The sign of an exact zero sum of opposite signs (R154). -/
def zeroSum (rm : RMode) : Bool := rm == .rdn

def XVal.neg : XVal → XVal
  | .nan => .nan
  | .inf n => .inf !n
  | .fin n m e st => .fin (!n) m e st

/-- The signed significand at exponent `e`. -/
def scaled (neg : Bool) (m : Nat) (me e : Int) : Int :=
  let v : Int := (m * 2 ^ (me - e).toNat : Nat)
  if neg then -v else v

/-- The exact sum of finite values without marks. -/
def addFin (rm : RMode) (n1 : Bool) (m1 : Nat) (e1 : Int) (n2 : Bool) (m2 : Nat) (e2 : Int) : XVal :=
  let e := min e1 e2
  let s := scaled n1 m1 e1 e + scaled n2 m2 e2 e
  if s = 0 then .fin (if n1 = n2 then n1 else zeroSum rm) 0 0 false
  else .fin (decide (s < 0)) s.natAbs e false

/-- The exact sum (R159). -/
def xadd (rm : RMode) : XVal → XVal → XRes
  | .nan, _ | _, .nan => (.nan, 0)
  | .inf a, .inf b => if a = b then (.inf a, 0) else (.nan, flNV)
  | .inf a, _ => (.inf a, 0)
  | _, .inf b => (.inf b, 0)
  | .fin n1 m1 e1 _, .fin n2 m2 e2 _ => (addFin rm n1 m1 e1 n2 m2 e2, 0)

/-- The exact product (R159). -/
def xmul : XVal → XVal → XRes
  | .nan, _ | _, .nan => (.nan, 0)
  | .inf a, .inf b => (.inf (a != b), 0)
  | .inf a, .fin n m _ _ => if m = 0 then (.nan, flNV) else (.inf (a != n), 0)
  | .fin n m _ _, .inf a => if m = 0 then (.nan, flNV) else (.inf (a != n), 0)
  | .fin n1 m1 e1 _, .fin n2 m2 e2 _ => (.fin (n1 != n2) (m1 * m2) (e1 + e2) false, 0)

/-- The exact fused result: an invalid product sets NV whatever the addend (R158, R159). -/
def xfma (rm : RMode) (a b c : XVal) : XRes :=
  let (p, fl) := xmul a b
  let (r, fl') := xadd rm p c
  (r, fl ||| fl')

/-- The quotient to `k` further bits than its operands have, with its mark. -/
def divFin (n : Bool) (m1 : Nat) (e1 : Int) (m2 : Nat) (e2 : Int) : XVal :=
  let k := 64 + bitLen m2
  let q := m1 * 2 ^ k / m2
  .fin n q (e1 - e2 - k) (m1 * 2 ^ k % m2 != 0)

/-- The quotient (R159, R160). -/
def xdiv : XVal → XVal → XRes
  | .nan, _ | _, .nan => (.nan, 0)
  | .inf _, .inf _ => (.nan, flNV)
  | .inf a, .fin n _ _ _ => (.inf (a != n), 0)
  | .fin n _ _ _, .inf a => (.fin (n != a) 0 0 false, 0)
  | .fin n1 m1 e1 _, .fin n2 m2 e2 _ =>
    if m2 = 0 then (if m1 = 0 then (.nan, flNV) else (.inf (n1 != n2), flDZ))
    else if m1 = 0 then (.fin (n1 != n2) 0 0 false, 0)
    else (divFin (n1 != n2) m1 e1 m2 e2, 0)

/-- The integer square root, one bit of the root a step. -/
def isqrtGo (n : Nat) : Nat → Nat → Nat
  | 0, r => r
  | k + 1, r =>
    let r' := r + 2 ^ k
    isqrtGo n k (if r' * r' ≤ n then r' else r)

def isqrt (n : Nat) : Nat := isqrtGo n (bitLen n / 2 + 1) 0

/-- The square root of a positive finite value, with its mark. -/
def sqrtFin (m : Nat) (e : Int) : XVal :=
  let k : Nat := 128 + (if (e - 128) % 2 = 0 then 0 else 1)
  let n := m * 2 ^ k
  let r := isqrt n
  .fin false r ((e - k) / 2) (r * r != n)

/-- The square root (R159, R160). -/
def xsqrt : XVal → XRes
  | .nan => (.nan, 0)
  | .inf n => if n then (.nan, flNV) else (.inf false, 0)
  | .fin n m e _ => if m = 0 then (.fin n 0 0 false, 0) else if n then (.nan, flNV) else (sqrtFin m e, 0)

/-- The reciprocal (R160). -/
def xrcp (x : XVal) : XRes := xdiv (.fin false 1 0 false) x

/-- The reciprocal square root (R159, R160): 1 / sqrt(m × 2^e) from the square root of a 2^k / m kept wide enough. -/
def xrsq : XVal → XRes
  | .nan => (.nan, 0)
  | .inf n => if n then (.nan, flNV) else (.fin false 0 0 false, 0)
  | .fin n m e _ =>
    if m = 0 then (.inf n, flDZ)
    else if n then (.nan, flNV)
    else
      let k : Nat := 256 + (if e % 2 = 0 then 0 else 1)
      let q := 2 ^ k / m
      let r := isqrt q
      (.fin false r ((-(e + k)) / 2) (r * r * m != 2 ^ k), 0)

/-- Whether two finite values, or infinities, stand in the order a < b. -/
def xlt : XVal → XVal → Bool
  | .nan, _ | _, .nan => false
  | .inf a, .inf b => a && !b
  | .inf a, .fin .. => a
  | .fin .., .inf b => !b
  | .fin n1 m1 e1 _, .fin n2 m2 e2 _ =>
    let e := min e1 e2
    decide (scaled n1 m1 e1 e < scaled n2 m2 e2 e)

/-- Whether two values are equal as numbers; ±0 are. -/
def xeq : XVal → XVal → Bool
  | .nan, _ | _, .nan => false
  | .inf a, .inf b => a == b
  | .inf _, _ | _, .inf _ => false
  | .fin n1 m1 e1 _, .fin n2 m2 e2 _ =>
    let e := min e1 e2
    scaled n1 m1 e1 e == scaled n2 m2 e2 e

/-- Rounded operation: the operation's flags with the rounding's. -/
def rounded (f : Fmt) (rm : RMode) (sat ns : Bool) (r : XRes) : FRes :=
  let q := roundFmt f rm sat ns r.1
  { bits := q.bits, fl := r.2 ||| q.fl }

/-- RoundF32 of an exact value (R164 to R167). -/
def roundF32 (x : XVal) : W32 := BitVec.ofNat 32 (roundFmt fmt32 .rne false false x).bits

def v32 (x : W32) : XVal := fmt32.value x.toNat

/-- The FP32 sum, product and fused result under RNE, without flags (R164 to R167, R263). -/
def addF32 (a b : W32) : W32 := roundF32 (xadd .rne (v32 a) (v32 b)).1
def mulF32 (a b : W32) : W32 := roundF32 (xmul (v32 a) (v32 b)).1
def fmaF32 (a b c : W32) : W32 := roundF32 (xfma .rne (v32 a) (v32 b) (v32 c)).1

/-- A value rounded to an integer under a mode (R157), with whether it differs. -/
def roundInt (rm : RMode) (neg : Bool) (m : Nat) (e : Int) (st : Bool) : Int × Bool :=
  let (t, inexact) := roundTo rm neg m e st 0
  (if neg then -(t : Int) else t, inexact)

/-- Clamp to a range, with whether it changed the value. -/
def clampInt (x lo hi : Int) : Int × Bool :=
  if x < lo then (lo, true) else if hi < x then (hi, true) else (x, false)

/-- The range of an integer or natural type (R151). -/
def tyRange (t : Ty) : Int × Int :=
  if t.signed then (-(2 ^ (t.bits - 1) : Int), 2 ^ (t.bits - 1) - 1) else (0, 2 ^ t.bits - 1)

/-- An integer operand of a type read from the low bits of a word (R151, R196). -/
def readInt (t : Ty) (x : Nat) : Int := if t.signed then sext x t.bits else (x % 2 ^ t.bits : Nat)

/-- An integer result of a type: wrapped, or clamped under `sat`, then extended to 32 bits (R151, R196). -/
def intResult (t : Ty) (sat : Bool) (x : Int) : FRes :=
  let (y, c) := if sat then clampInt x (tyRange t).1 (tyRange t).2 else (x, false)
  let v : Int := readInt t (wrapN y t.bits)
  { bits := wrapN v (max 32 t.bits), fl := if c then flSAT else 0 }

end Sys2Proof.Machine
end

