-- ==== Sys2Proof/Decode.lean ====
section
/-! DEFINITION. The decoder, total on any bytes (spec/08_formats_opcode_map.md R170, R171, R174, R176, R188, R191), and
after it the encoder from the same rulers. The decoder refuses, by name, what is no instruction of any row: a reserved
cell, a LEN the cell does not allow, and too few bytes. A word whose cell and LEN are allowed decodes, whatever its other
fields hold: R192 makes the encoding check when the instruction reaches issue. -/

namespace Sys2Proof

/-- Why bytes are no instruction. -/
inductive DecodeRefusal where
  | truncated      -- fewer bytes than the size LEN gives (R170, R172)
  | reservedCell   -- a cell marked "—" (R190)
  | badLen         -- a LEN that R188 does not allow (R190)
  deriving DecidableEq, Repr, Inhabited

/-- The decoder's answer: an instruction with its size in bytes, or the refusal. -/
inductive Decoded where
  | ok (i : Instr) (size : Nat)
  | refused (r : DecodeRefusal)
  deriving DecidableEq, Repr, Inhabited

/-- A word read whole, its opcode (R187) apart from its fields. -/
inductive RawWord where
  | base (opc : BitVec 8) (w : BaseWord)
  | ext (opc : BitVec 8) (w : ExtWord)
  deriving DecidableEq, Repr, Inhabited

/-- A word from its bytes, lowest address first (R5, R171). -/
def leWord32 (b0 b1 b2 b3 : Byte) : W32 := b3 ++ b2 ++ b1 ++ b0

/-- A literal from its bytes (R171). -/
def leWord64 (b0 b1 b2 b3 b4 b5 b6 b7 : Byte) : W64 := b7 ++ b6 ++ b5 ++ b4 ++ b3 ++ b2 ++ b1 ++ b0

/-- The bytes of a word, lowest address first. -/
def bytesOf32 (w : W32) : List Byte :=
  [w.extractLsb' 0 8, w.extractLsb' 8 8, w.extractLsb' 16 8, w.extractLsb' 24 8]

/-- The bytes of a literal, lowest address first. -/
def bytesOf64 (w : W64) : List Byte :=
  [w.extractLsb' 0 8, w.extractLsb' 8 8, w.extractLsb' 16 8, w.extractLsb' 24 8,
   w.extractLsb' 32 8, w.extractLsb' 40 8, w.extractLsb' 48 8, w.extractLsb' 56 8]

/-- LEN, bits 1:0 of word 0 (R170). -/
def lenField (w0 : W32) : BitVec 2 := w0.extractLsb' 0 2

/-- OPC, bits 9:2 of word 0 (R174, R176). -/
def opcField (w0 : W32) : BitVec 8 := w0.extractLsb' 2 8

/-- The size LEN gives (R170). -/
def sizeOfLen (len : BitVec 2) : Nat :=
  if len = 0 then 4 else if len = 3 then 20 else 12

/-- The fields of a base word (R174). -/
def baseFields (w0 : W32) (lit : Option W64) : BaseWord :=
  { gn := w0.getLsbD 13, gp := w0.extractLsb' 10 3, d := w0.extractLsb' 14 6, a := w0.extractLsb' 20 6,
    b := w0.extractLsb' 26 6, lit := lit }

/-- The fields of an extended word (R176). -/
def extFields (w0 w1 w2 : W32) (lit : Option W64) : ExtWord :=
  { fmt := w0.extractLsb' 28 4, sub := w0.extractLsb' 18 10, gn := w0.getLsbD 17, gp := w0.extractLsb' 10 7,
    moda := w1.extractLsb' 22 10, a := w1.extractLsb' 11 11, d := w1.extractLsb' 0 11,
    modb := w2.extractLsb' 24 8, ru := w2.extractLsb' 22 2, c := w2.extractLsb' 11 11, b := w2.extractLsb' 0 11,
    lit := lit }

/-- The word at the head of a list of bytes: LEN says which words follow word 0 (R170, R171). -/
def rawWord : List Byte → Option RawWord
  | b0 :: b1 :: b2 :: b3 :: rest =>
    let w0 := leWord32 b0 b1 b2 b3
    match (lenField w0).toNat, rest with
    | 0, _ => some (.base (opcField w0) (baseFields w0 none))
    | 2, l0 :: l1 :: l2 :: l3 :: l4 :: l5 :: l6 :: l7 :: _ =>
      some (.base (opcField w0) (baseFields w0 (some (leWord64 l0 l1 l2 l3 l4 l5 l6 l7))))
    | 1, c0 :: c1 :: c2 :: c3 :: d0 :: d1 :: d2 :: d3 :: _ =>
      some (.ext (opcField w0) (extFields w0 (leWord32 c0 c1 c2 c3) (leWord32 d0 d1 d2 d3) none))
    | 3, c0 :: c1 :: c2 :: c3 :: d0 :: d1 :: d2 :: d3 :: l0 :: l1 :: l2 :: l3 :: l4 :: l5 :: l6 :: l7 :: _ =>
      some (.ext (opcField w0) (extFields w0 (leWord32 c0 c1 c2 c3) (leWord32 d0 d1 d2 d3)
        (some (leWord64 l0 l1 l2 l3 l4 l5 l6 l7))))
    | _, _ => none
  | _ => none

/-- The size of a word in bytes (R170). -/
def RawWord.size : RawWord → Nat
  | .base _ w => if w.lit.isSome then 12 else 4
  | .ext _ w => if w.lit.isSome then 20 else 12

/-- Why a word is no instruction of any row, none when it is one (R188, R190, R191). -/
def RawWord.refusal (r : RawWord) : Option DecodeRefusal :=
  let check (opc : BitVec 8) (isExt hasLit : Bool) : Option DecodeRefusal :=
    if isHint opc.toNat then none
    else
      match cellOf opc.toNat with
      | none => some .reservedCell
      | some c => if c.lenOk isExt hasLit then none else some .badLen
  match r with
  | .base opc w => check opc false w.lit.isSome
  | .ext opc w => check opc true w.lit.isSome

/-- The instruction a word is: the row of its cell's form (R187), or the hint row of its form (R191). -/
noncomputable def RawWord.instr : RawWord → Option Instr
  | .base opc w => if isHint opc.toNat then some (.hint opc w) else Instr.ofBase opc.toNat w
  | .ext opc w => if isHint opc.toNat then some (.hintExt opc w) else Instr.ofExt opc.toNat w

/-- The instruction at the head of a list of bytes. -/
noncomputable def decode (bs : List Byte) : Decoded :=
  match rawWord bs with
  | none => .refused .truncated
  | some r =>
    match r.refusal with
    | some e => .refused e
    | none =>
      match r.instr with
      | some i => .ok i r.size
      | none => .refused .badLen

/-- The low `n` bytes of a number, lowest first. -/
def bytesLE : Nat → Nat → List Byte
  | 0, _ => []
  | n + 1, w => BitVec.ofNat 8 (w % 256) :: bytesLE n (w / 256)

/-- The instruction of a table word: word 0 is the low 32 bits of `w` and later words count on from it, so the bytes of
`w` from the lowest are the bytes in memory (R5, R171); every bit above `nbits` is 0 up to the longest instruction. -/
noncomputable def decodeTableWord (nbits w : Nat) : Option Instr :=
  match decode (bytesLE 20 (w % 2 ^ nbits)) with
  | .ok i _ => some i
  | .refused _ => none

/-! ### The encoder -/

/-- Word 0 of a base word (R174). -/
def baseWord0 (opc : BitVec 8) (w : BaseWord) : W32 :=
  w.b ++ w.a ++ w.d ++ BitVec.ofBool w.gn ++ w.gp ++ opc ++ (if w.lit.isSome then 2#2 else 0#2)

/-- Word 0 of an extended word (R176). -/
def extWord0 (opc : BitVec 8) (w : ExtWord) : W32 :=
  w.fmt ++ w.sub ++ BitVec.ofBool w.gn ++ w.gp ++ opc ++ (if w.lit.isSome then 3#2 else 1#2)

/-- Word 1 of an extended word (R176). -/
def extWord1 (w : ExtWord) : W32 := w.moda ++ w.a ++ w.d

/-- Word 2 of an extended word (R176). -/
def extWord2 (w : ExtWord) : W32 := w.modb ++ w.ru ++ w.c ++ w.b

/-- The literal's bytes, none when there is no literal (R171). -/
def litBytes : Option W64 → List Byte
  | none => []
  | some v => bytesOf64 v

/-- The bytes of a base word with its literal. -/
def encodeBase (opc : BitVec 8) (w : BaseWord) : List Byte := bytesOf32 (baseWord0 opc w) ++ litBytes w.lit

/-- The bytes of an extended word with its literal. -/
def encodeExt (opc : BitVec 8) (w : ExtWord) : List Byte :=
  bytesOf32 (extWord0 opc w) ++ bytesOf32 (extWord1 w) ++ bytesOf32 (extWord2 w) ++ litBytes w.lit

/-- The bytes of an instruction, lowest address first; a row that has no word has no bytes. -/
def encode (i : Instr) : List Byte :=
  match i.word with
  | some (.base c w) => encodeBase (BitVec.ofNat 8 c.opc) w
  | some (.ext c w) => encodeExt (BitVec.ofNat 8 c.opc) w
  | some (.hint opc w) => encodeBase opc w
  | some (.hintExt opc w) => encodeExt opc w
  | none => []

/-- The size of an instruction in bytes (R170); 0 for a row that has no word. -/
def Instr.size (i : Instr) : Nat :=
  match i.word with
  | some (.base _ w) | some (.hint _ w) => if w.lit.isSome then 12 else 4
  | some (.ext _ w) | some (.hintExt _ w) => if w.lit.isSome then 20 else 12
  | none => 0

end Sys2Proof
end

