-- ==== Sys2Proof/Machine/Hashes.lean ====
section
/-! DEFINITION. The hashes of the secure hash standard: SHA-256, SHA-384 and SHA-512. The spec names SHA-384 (spec/16_firmware_boot.md
R366, R368 to R370, R375) and SLH-DSA-SHA2-192s (R368), whose hashes are SHA-256 and SHA-512; their definitions are those of FIPS 180-4
(PRESUMED, log 131). -/

namespace Sys2Proof.Machine

/-! ### Byte strings -/

/-- The number that bytes give, the first one the most significant. -/
def beNat (bs : List Byte) : Nat := leNat bs.reverse

/-- The `n` bytes of a number, the most significant first. -/
def bytesBE (n x : Nat) : List Byte := (bytesLE n x).reverse

/-- The first `k` chunks of `m` items of a list. -/
def chunks (m : Nat) {α : Type} : Nat → List α → List (List α)
  | 0, _ => []
  | k + 1, xs => xs.take m :: chunks m k (xs.drop m)

/-! ### The two widths of SHA-2 -/

/-- What tells the hashes apart: the round constants, one a round, and the three amounts of each of the four mixing functions. -/
structure Sha2 (n : Nat) where
  k    : List (BitVec n)
  sum0 : Nat × Nat × Nat
  sum1 : Nat × Nat × Nat
  sig0 : Nat × Nat × Nat
  sig1 : Nat × Nat × Nat

/-- The eight working words. -/
structure Sha2Words (n : Nat) where
  a : BitVec n
  b : BitVec n
  c : BitVec n
  d : BitVec n
  e : BitVec n
  f : BitVec n
  g : BitVec n
  h : BitVec n

/-- Three rotations mixed; and two rotations and a shift. -/
def mixRot {n : Nat} (r : Nat × Nat × Nat) (x : BitVec n) : BitVec n :=
  x.rotateRight r.1 ^^^ x.rotateRight r.2.1 ^^^ x.rotateRight r.2.2
def mixShift {n : Nat} (r : Nat × Nat × Nat) (x : BitVec n) : BitVec n :=
  x.rotateRight r.1 ^^^ x.rotateRight r.2.1 ^^^ (x >>> r.2.2)

/-- One round, with its constant and its word of the schedule. -/
def Sha2.round {n : Nat} (p : Sha2 n) (v : Sha2Words n) (k w : BitVec n) : Sha2Words n :=
  let t1 := v.h + mixRot p.sum1 v.e + ((v.e &&& v.f) ^^^ (~~~v.e &&& v.g)) + k + w
  let t2 := mixRot p.sum0 v.a + ((v.a &&& v.b) ^^^ (v.a &&& v.c) ^^^ (v.b &&& v.c))
  ⟨t1 + t2, v.a, v.b, v.c, v.d + t1, v.e, v.f, v.g⟩

/-- The rounds, with the next sixteen words of the schedule. -/
def Sha2.rounds {n : Nat} (p : Sha2 n) : List (BitVec n) → List (BitVec n) → Sha2Words n → Sha2Words n
  | [], _, v => v
  | k :: ks, ws, v =>
    let w := ws.getD 0 0
    let next := mixShift p.sig1 (ws.getD 14 0) + ws.getD 9 0 + mixShift p.sig0 (ws.getD 1 0) + w
    Sha2.rounds p ks (ws.tail ++ [next]) (p.round v k w)

/-- One block of sixteen words. -/
def Sha2.block {n : Nat} (p : Sha2 n) (v : Sha2Words n) (ws : List (BitVec n)) : Sha2Words n :=
  let r := p.rounds p.k ws v
  ⟨v.a + r.a, v.b + r.b, v.c + r.c, v.d + r.d, v.e + r.e, v.f + r.f, v.g + r.g, v.h + r.h⟩

/-- A message padded to whole blocks: a one bit, zeros, and its length in bits. -/
def sha2Pad (n : Nat) (m : List Byte) : List Byte :=
  let block := 2 * n
  let zeros := (block - (m.length + 1 + n / 4) % block) % block
  m ++ 0x80#8 :: List.replicate zeros 0 ++ bytesBE (n / 4) (8 * m.length)

/-- The digest's words as bytes. -/
def Sha2Words.bytes {n : Nat} (v : Sha2Words n) : List Byte :=
  [v.a, v.b, v.c, v.d, v.e, v.f, v.g, v.h].flatMap (fun x => bytesBE (n / 8) x.toNat)

/-- The digest of a message from the words it begins with. -/
def Sha2.digest {n : Nat} (p : Sha2 n) (v : Sha2Words n) (m : List Byte) : List Byte :=
  let padded := sha2Pad n m
  let words (b : List Byte) : List (BitVec n) := (chunks (n / 8) 16 b).map (fun w => BitVec.ofNat n (beNat w))
  ((chunks (2 * n) (padded.length / (2 * n)) padded).foldl (fun v b => p.block v (words b)) v).bytes

/-! ### Constants -/

/-- The first 64 bits of the fractions of the cube roots of the first 80 primes. -/
def sha2K0 : List Nat :=
  [0x428A2F98D728AE22, 0x7137449123EF65CD, 0xB5C0FBCFEC4D3B2F, 0xE9B5DBA58189DBBC,
   0x3956C25BF348B538, 0x59F111F1B605D019, 0x923F82A4AF194F9B, 0xAB1C5ED5DA6D8118,
   0xD807AA98A3030242, 0x12835B0145706FBE, 0x243185BE4EE4B28C, 0x550C7DC3D5FFB4E2,
   0x72BE5D74F27B896F, 0x80DEB1FE3B1696B1, 0x9BDC06A725C71235, 0xC19BF174CF692694]
def sha2K1 : List Nat :=
  [0xE49B69C19EF14AD2, 0xEFBE4786384F25E3, 0x0FC19DC68B8CD5B5, 0x240CA1CC77AC9C65,
   0x2DE92C6F592B0275, 0x4A7484AA6EA6E483, 0x5CB0A9DCBD41FBD4, 0x76F988DA831153B5,
   0x983E5152EE66DFAB, 0xA831C66D2DB43210, 0xB00327C898FB213F, 0xBF597FC7BEEF0EE4,
   0xC6E00BF33DA88FC2, 0xD5A79147930AA725, 0x06CA6351E003826F, 0x142929670A0E6E70]
def sha2K2 : List Nat :=
  [0x27B70A8546D22FFC, 0x2E1B21385C26C926, 0x4D2C6DFC5AC42AED, 0x53380D139D95B3DF,
   0x650A73548BAF63DE, 0x766A0ABB3C77B2A8, 0x81C2C92E47EDAEE6, 0x92722C851482353B,
   0xA2BFE8A14CF10364, 0xA81A664BBC423001, 0xC24B8B70D0F89791, 0xC76C51A30654BE30,
   0xD192E819D6EF5218, 0xD69906245565A910, 0xF40E35855771202A, 0x106AA07032BBD1B8]
def sha2K3 : List Nat :=
  [0x19A4C116B8D2D0C8, 0x1E376C085141AB53, 0x2748774CDF8EEB99, 0x34B0BCB5E19B48A8,
   0x391C0CB3C5C95A63, 0x4ED8AA4AE3418ACB, 0x5B9CCA4F7763E373, 0x682E6FF3D6B2B8A3,
   0x748F82EE5DEFB2FC, 0x78A5636F43172F60, 0x84C87814A1F0AB72, 0x8CC702081A6439EC,
   0x90BEFFFA23631E28, 0xA4506CEBDE82BDE9, 0xBEF9A3F7B2C67915, 0xC67178F2E372532B]
def sha2K4 : List Nat :=
  [0xCA273ECEEA26619C, 0xD186B8C721C0C207, 0xEADA7DD6CDE0EB1E, 0xF57D4F7FEE6ED178,
   0x06F067AA72176FBA, 0x0A637DC5A2C898A6, 0x113F9804BEF90DAE, 0x1B710B35131C471B,
   0x28DB77F523047D84, 0x32CAAB7B40C72493, 0x3C9EBE0A15C9BEBC, 0x431D67C49C100D4C,
   0x4CC5D4BECB3E42B6, 0x597F299CFC657E2A, 0x5FCB6FAB3AD6FAEC, 0x6C44198C4A475817]
def sha2K : List Nat := sha2K0 ++ sha2K1 ++ sha2K2 ++ sha2K3 ++ sha2K4

/-- The first 64 bits of the fractions of the square roots of the first eight primes, and of the next eight. -/
def sha2Roots : List Nat :=
  [0x6A09E667F3BCC908, 0xBB67AE8584CAA73B, 0x3C6EF372FE94F82B, 0xA54FF53A5F1D36F1,
   0x510E527FADE682D1, 0x9B05688C2B3E6C1F, 0x1F83D9ABFB41BD6B, 0x5BE0CD19137E2179]
def sha2Roots' : List Nat :=
  [0xCBBB9D5DC1059ED8, 0x629A292A367CD507, 0x9159015A3070DD17, 0x152FECD8F70E5939,
   0x67332667FFC00B31, 0x8EB44A8768581511, 0xDB0C2E0D64F98FA7, 0x47B5481DBEFA4FA4]

/-- The words a hash begins with. -/
def Sha2Words.of {n : Nat} (f : Nat → BitVec n) (xs : List Nat) : Sha2Words n :=
  let x (i : Nat) : BitVec n := f (xs.getD i 0)
  ⟨x 0, x 1, x 2, x 3, x 4, x 5, x 6, x 7⟩

/-- The high half of a constant of 64 bits, which is the constant of the narrower hash. -/
def highHalf (x : Nat) : BitVec 32 := BitVec.ofNat 32 (x / 2 ^ 32)

def sha2Narrow : Sha2 32 := ⟨(sha2K.take 64).map highHalf, (2, 13, 22), (6, 11, 25), (7, 18, 3), (17, 19, 10)⟩
def sha2Wide : Sha2 64 := ⟨sha2K.map (BitVec.ofNat 64), (28, 34, 39), (14, 18, 41), (1, 8, 7), (19, 61, 6)⟩

/-! ### The hashes -/

/-- SHA-256. -/
def sha256 (m : List Byte) : List Byte := sha2Narrow.digest (.of highHalf sha2Roots) m
/-- SHA-512. -/
def sha512 (m : List Byte) : List Byte := sha2Wide.digest (.of (BitVec.ofNat 64) sha2Roots) m
/-- SHA-384. -/
def sha384 (m : List Byte) : List Byte := (sha2Wide.digest (.of (BitVec.ofNat 64) sha2Roots') m).take 48

/-- The mask generation function MGF1 over a hash of `h` bytes: the first `len` bytes of the hashes of the seed with a counter. -/
def mgf1 (hash : List Byte → List Byte) (h : Nat) (seed : List Byte) (len : Nat) : List Byte :=
  ((List.range (cdiv len h)).flatMap (fun i => hash (seed ++ bytesBE 4 i))).take len

end Sys2Proof.Machine
end

