-- ==== Sys2Proof/Machine/Signatures.lean ====
section
/-! DEFINITION. The two signature schemes of firmware images and of attestation (spec/16_firmware_boot.md R368, R369, R374, R375):
RSASSA-PSS with RSA-3072, SHA-384, MGF1 with SHA-384 and a salt of 48 bytes, whose steps are those of RFC 8017; and SLH-DSA-SHA2-192s,
whose steps and parameters are those of FIPS 205 (PRESUMED, log 131). -/

namespace Sys2Proof.Machine

/-- Two byte strings, added bit by bit. -/
def xorBytes (x y : List Byte) : List Byte := List.zipWith (· ^^^ ·) x y

/-! ### RSASSA-PSS -/

/-- The public exponent (R368). -/
def rsaExponent : Nat := 65537

/-- A power modulo n: the bits of the exponent from the highest one down. -/
def powMod (n b e : Nat) : Nat :=
  ((List.range (bitLen e)).reverse).foldl (fun r i => if e.testBit i then r * r % n * b % n else r * r % n) (1 % n)

/-- The encoding of a message under a salt of 48 bytes, of `bits` bits. -/
def pssEncode (bits : Nat) (m salt : List Byte) : List Byte :=
  let len := cdiv bits 8
  let h := sha384 (List.replicate 8 0 ++ sha384 m ++ salt)
  let masked := xorBytes (List.replicate (len - 98) 0 ++ 1#8 :: salt) (mgf1 sha384 48 h (len - 49))
  (masked.modify 0 (fun b => b &&& BitVec.ofNat 8 (2 ^ (8 - (8 * len - bits)) - 1))) ++ h ++ [0xBC#8]

/-- The salt that an encoding holds. -/
def pssSalt (em : List Byte) : List Byte :=
  let db := em.take (em.length - 49)
  let h := (em.drop (em.length - 49)).take 48
  (xorBytes db (mgf1 sha384 48 h db.length)).drop (db.length - 48)

/-- A signature `s` verifies for a message under the modulus n: a modulus of 384 bytes, and s^e mod n is the encoding of the message
under the salt that it holds, which is what the checks of RFC 8017, 9.1.2, come to. -/
def rsaVerify (n : Nat) (m : List Byte) (s : Nat) : Bool :=
  let bits := bitLen n - 1
  let v := powMod n s rsaExponent
  let em := bytesBE (cdiv bits 8) v
  cdiv (bitLen n) 8 == 384 && decide (s < n) && decide (v < 256 ^ cdiv bits 8) && em == pssEncode bits m (pssSalt em)

/-- The signature of a message with a private exponent, under a salt. -/
def rsaSign (n d : Nat) (m salt : List Byte) : Nat := powMod n (beNat (pssEncode (bitLen n - 1) m salt)) d

/-! ### SLH-DSA-SHA2-192s -/

/-- The parameters: bytes of a node, layers, height of a tree, height and number of the FORS trees, digits of a chain's message. -/
def slhN : Nat := 24
def slhD : Nat := 7
def slhHeight : Nat := 9
def slhA : Nat := 14
def slhK : Nat := 17
def slhLen : Nat := 51

/-- The kinds of address. -/
inductive SlhKind where
  | wotsHash | wotsPk | tree | forsTree | forsRoots | wotsPrf | forsPrf
  deriving DecidableEq, Repr, Inhabited

/-- The number of a kind. -/
def SlhKind.number : SlhKind → Nat
  | .wotsHash => 0
  | .wotsPk => 1
  | .tree => 2
  | .forsTree => 3
  | .forsRoots => 4
  | .wotsPrf => 5
  | .forsPrf => 6

/-- An address: `height` is also a chain's number, and `index` a step of a chain. -/
structure SlhAdrs where
  layer  : Nat := 0
  tree   : Nat := 0
  kind   : SlhKind := .wotsHash
  pair   : Nat := 0
  height : Nat := 0
  index  : Nat := 0
  deriving DecidableEq, Repr, Inhabited

/-- The 22 bytes in which SHA-2 takes an address. -/
def SlhAdrs.bytes (a : SlhAdrs) : List Byte :=
  bytesBE 1 a.layer ++ bytesBE 8 a.tree ++ bytesBE 1 a.kind.number ++ bytesBE 4 a.pair ++ bytesBE 4 a.height ++ bytesBE 4 a.index

/-- An address turned into one of a kind, its other words cleared but for the key pair. -/
def SlhAdrs.as (a : SlhAdrs) (k : SlhKind) (pair : Nat) : SlhAdrs := { layer := a.layer, tree := a.tree, kind := k, pair := pair }

/-- F and PRF; and H and T. -/
def slhF (seed : List Byte) (a : SlhAdrs) (m : List Byte) : List Byte :=
  (sha256 (seed ++ List.replicate (64 - slhN) 0 ++ a.bytes ++ m)).take slhN
def slhH (seed : List Byte) (a : SlhAdrs) (m : List Byte) : List Byte :=
  (sha512 (seed ++ List.replicate (128 - slhN) 0 ++ a.bytes ++ m)).take slhN

/-- The digest of a message: 30 bytes for the FORS trees, 7 for the tree and 2 for its leaf. -/
def slhDigest (r seed root m : List Byte) : List Byte := mgf1 sha512 64 (r ++ seed ++ sha512 (r ++ seed ++ root ++ m)) 39

/-- The first `k` digits of `b` bits of a byte string. -/
def slhDigits (b k : Nat) (x : List Byte) : List Nat := (List.range k).map (fun i => beNat x / 2 ^ (8 * x.length - b * (i + 1)) % 2 ^ b)

/-- What a digest names: the leaves of the FORS trees, the tree of the lowest layer, and its leaf. -/
def slhLeaves (digest : List Byte) : List Nat := slhDigits slhA slhK (digest.take 30)
def slhTree (digest : List Byte) : Nat := beNat ((digest.drop 30).take 7) % 2 ^ (slhHeight * (slhD - 1))
def slhLeaf (digest : List Byte) : Nat := beNat (digest.drop 37) % 2 ^ slhHeight

/-- A chain: `n` steps from step `i` on. -/
def slhChain (seed : List Byte) (a : SlhAdrs) (x : List Byte) (i n : Nat) : List Byte :=
  (List.range n).foldl (fun x j => slhF seed { a with index := i + j } x) x

/-- The root that a node and its path give: at each height the sibling stands on the side that the index says. -/
def slhClimb (seed : List Byte) (a : SlhAdrs) (idx : Nat) (path : List (List Byte)) (node : List Byte) : List Byte :=
  (path.foldl (fun (x : Nat × List Byte) sib =>
    let up : SlhAdrs := { a with height := x.1 + 1, index := idx / 2 ^ (x.1 + 1) }
    (x.1 + 1, slhH seed up (if idx / 2 ^ x.1 % 2 = 0 then x.2 ++ sib else sib ++ x.2))) (0, node)).2

/-- The digits that the chains of a one-time signature reach: 48 of the message and three of their checksum. -/
def wotsDigits (m : List Byte) : List Nat :=
  let d := slhDigits 4 48 m
  d ++ slhDigits 4 3 (bytesBE 2 (16 * (d.foldl (fun s x => s + (15 - x)) 0)))

/-- The public key that a one-time signature gives. -/
def wotsKey (seed : List Byte) (a : SlhAdrs) (sig : List (List Byte)) (m : List Byte) : List Byte :=
  let ends := (List.zip sig (wotsDigits m)).mapIdx (fun i p => slhChain seed { a with height := i } p.1 p.2 (15 - p.2))
  slhH seed (a.as .wotsPk a.pair) ends.flatten

/-- The root of a tree that a signature of 60 nodes gives for leaf `idx`: its one-time signature and its path. -/
def xmssRoot (seed : List Byte) (a : SlhAdrs) (idx : Nat) (sig : List (List Byte)) (m : List Byte) : List Byte :=
  slhClimb seed (a.as .tree 0) idx (sig.drop slhLen) (wotsKey seed (a.as .wotsHash idx) (sig.take slhLen) m)

/-- The key of the FORS trees that a signature gives: for each tree a secret and the path of its leaf. -/
def forsKey (seed : List Byte) (a : SlhAdrs) (sigs : List (List (List Byte))) (leaves : List Nat) : List Byte :=
  let roots := (List.zip sigs leaves).mapIdx (fun i p =>
    let idx := i * 2 ^ slhA + p.2
    slhClimb seed a idx p.1.tail (slhF seed { a with index := idx } (p.1.headD [])))
  slhH seed (a.as .forsRoots a.pair) roots.flatten

/-- The layers of the tree of trees from `layer` on: each signs the root of the one below. -/
def htRoot (seed : List Byte) : List (List (List Byte)) → Nat → Nat → Nat → List Byte → List Byte
  | [], _, _, _, m => m
  | sig :: sigs, layer, tree, leaf, m =>
    htRoot seed sigs (layer + 1) (tree / 2 ^ slhHeight) (tree % 2 ^ slhHeight)
      (xmssRoot seed { layer := layer, tree := tree } leaf sig m)

/-- A message in pure mode with an empty context (R368). -/
def slhPure (m : List Byte) : List Byte := 0#8 :: 0#8 :: m

/-- A signature verifies for a message under a public key, which is a seed and a root. -/
def slhVerify (key m sig : List Byte) : Bool :=
  let seed := key.take slhN
  let root := (key.drop slhN).take slhN
  let nodes := chunks slhN (sig.length / slhN) sig
  let digest := slhDigest (nodes.headD []) seed root (slhPure m)
  let fors := chunks (slhA + 1) slhK (nodes.drop 1)
  let layers := chunks (slhLen + slhHeight) slhD (nodes.drop (1 + (slhA + 1) * slhK))
  let a : SlhAdrs := { tree := slhTree digest, kind := .forsTree, pair := slhLeaf digest }
  sig.length == 16224 && htRoot seed layers 0 (slhTree digest) (slhLeaf digest) (forsKey seed a fors (slhLeaves digest)) == root

/-! ### Signing with SLH-DSA -/

/-- A private key: the secret seed, the secret of the randomiser, and the public seed. -/
structure SlhSecret where
  sk   : List Byte
  prf  : List Byte
  seed : List Byte
  deriving DecidableEq, Repr, Inhabited

/-- The start of chain `i` of a key pair, and its end after `n` steps. -/
def SlhSecret.chain (k : SlhSecret) (a : SlhAdrs) (i n : Nat) : List Byte :=
  slhChain k.seed { a with height := i } (slhF k.seed { a.as .wotsPrf a.pair with height := i } k.sk) 0 n

/-- The one-time signature of a message by a key pair; and its public key. -/
def SlhSecret.wotsSign (k : SlhSecret) (a : SlhAdrs) (m : List Byte) : List (List Byte) := (wotsDigits m).mapIdx (fun i d => k.chain a i d)
def SlhSecret.wotsKey (k : SlhSecret) (a : SlhAdrs) : List Byte :=
  slhH k.seed (a.as .wotsPk a.pair) ((List.range slhLen).flatMap (fun i => k.chain a i 15))

/-- The node of a tree at a height and an index, from what its leaves are. -/
def slhNode (seed : List Byte) (a : SlhAdrs) (leaf : Nat → List Byte) : Nat → Nat → List Byte
  | 0, i => leaf i
  | z + 1, i => slhH seed { a with height := z + 1, index := i } (slhNode seed a leaf z (2 * i) ++ slhNode seed a leaf z (2 * i + 1))

/-- The sibling of an index at a height. -/
def slhSibling (idx j : Nat) : Nat := Nat.xor (idx / 2 ^ j) 1

/-- A node of a tree of one-time keys. -/
def SlhSecret.xmssNode (k : SlhSecret) (a : SlhAdrs) (z i : Nat) : List Byte :=
  slhNode k.seed (a.as .tree 0) (fun l => k.wotsKey (a.as .wotsHash l)) z i

/-- The signature of a message by leaf `idx` of a tree. -/
def SlhSecret.xmssSign (k : SlhSecret) (a : SlhAdrs) (idx : Nat) (m : List Byte) : List (List Byte) :=
  k.wotsSign (a.as .wotsHash idx) m ++ (List.range slhHeight).map (fun j => k.xmssNode a j (slhSibling idx j))

/-- The secret of a FORS leaf. -/
def SlhSecret.fors (k : SlhSecret) (a : SlhAdrs) (idx : Nat) : List Byte := slhF k.seed { a.as .forsPrf a.pair with index := idx } k.sk

/-- The signature by the leaf of FORS tree `i`: its secret and its path. -/
def SlhSecret.forsSign (k : SlhSecret) (a : SlhAdrs) (i leaf : Nat) : List (List Byte) :=
  let idx := i * 2 ^ slhA + leaf
  k.fors a idx :: (List.range slhA).map (fun j =>
    slhNode k.seed a (fun l => slhF k.seed { a with index := l } (k.fors a l)) j (slhSibling idx j))

/-- The signatures of the layers, each over the root of the one below. -/
def SlhSecret.htSign (k : SlhSecret) : Nat → Nat → Nat → Nat → List Byte → List (List Byte)
  | 0, _, _, _, _ => []
  | n + 1, layer, tree, leaf, m =>
    let a : SlhAdrs := { layer := layer, tree := tree }
    let sig := k.xmssSign a leaf m
    sig ++ htSign k n (layer + 1) (tree / 2 ^ slhHeight) (tree % 2 ^ slhHeight) (xmssRoot k.seed a leaf sig m)

/-- The public key of a private one. -/
def SlhSecret.publicKey (k : SlhSecret) : List Byte := k.seed ++ k.xmssNode { layer := slhD - 1 } slhHeight 0

/-- HMAC with SHA-512, for a key no longer than a block. -/
def hmac512 (key m : List Byte) : List Byte :=
  let pad (b : Byte) : List Byte := (key ++ List.replicate (128 - key.length) 0).map (· ^^^ b)
  sha512 (pad 0x5C ++ sha512 (pad 0x36 ++ m))

/-- The signature of a message, with the random bytes that the signer adds. -/
def SlhSecret.sign (k : SlhSecret) (m random : List Byte) : List Byte :=
  let m := slhPure m
  let r := (hmac512 k.prf (random ++ m)).take slhN
  let digest := slhDigest r k.seed (k.publicKey.drop slhN) m
  let a : SlhAdrs := { tree := slhTree digest, kind := .forsTree, pair := slhLeaf digest }
  let fors := (slhLeaves digest).mapIdx (fun i l => k.forsSign a i l)
  r ++ fors.flatten.flatten ++
    (k.htSign slhD 0 (slhTree digest) (slhLeaf digest) (forsKey k.seed a fors (slhLeaves digest))).flatten

end Sys2Proof.Machine
end

