-- ==== Sys2Proof/Machine/Access.lean ====
section
/-! DEFINITION. Reading and writing the parts of State: one accessor and one setter for each table, and the numbering of
cores, clusters, dies and cohort slots (R1, R50, R334). -/

namespace Sys2Proof.Machine

/-! ### Numbering -/

/-- Core of a cohort slot (R334). -/
def coreOf (slot : Nat) : Nat := slot / 64
/-- Quarter of a cohort slot: sixteen slots each (R17; log 5). -/
def quarterOf (slot : Nat) : Nat := slot % 64 / 16
/-- Cluster of a core, 0 to 15 with die 0 first (R50, R334). -/
def clusterOf (core : Nat) : Nat := core / 4
/-- Die of a core (R334). -/
def dieOf (core : Nat) : Nat := core / 32
/-- Die of a cluster. -/
def clusterDie (cl : Nat) : Nat := cl / 8

/-! ### Tables -/

def State.core (s : State) (c : Nat) : Core := s.cores.get c {}
def State.setCore (s : State) (c : Nat) (x : Core) : State := { s with cores := s.cores.put c x }
def State.updCore (s : State) (c : Nat) (f : Core → Core) : State := s.setCore c (f (s.core c))
def State.cluster (s : State) (c : Nat) : Cluster := s.clusters.get c {}
def State.setCluster (s : State) (c : Nat) (x : Cluster) : State := { s with clusters := s.clusters.put c x }
def State.updCluster (s : State) (c : Nat) (f : Cluster → Cluster) : State := s.setCluster c (f (s.cluster c))
def State.die (s : State) (d : Nat) : Die := s.dies.get d {}
def State.setDie (s : State) (d : Nat) (x : Die) : State := { s with dies := s.dies.put d x }
def State.updDie (s : State) (d : Nat) (f : Die → Die) : State := s.setDie d (f (s.die d))
/-- A VF; before the first VRST its key is the one drawn for it at boot (R370, R374). -/
def State.vf (s : State) (v : Nat) : Vf := s.vfs.get v { key := v }
def State.setVf (s : State) (v : Nat) (x : Vf) : State := { s with vfs := s.vfs.put v x }
def State.updVf (s : State) (v : Nat) (f : Vf → Vf) : State := s.setVf v (f (s.vf v))
def State.port (s : State) (p : Nat) : Port := s.ports.get p {}
def State.setPort (s : State) (p : Nat) (x : Port) : State := { s with ports := s.ports.put p x }
def State.updPort (s : State) (p : Nat) (f : Port → Port) : State := s.setPort p (f (s.port p))
def State.cohort (s : State) (slot : Nat) : Option Cohort := s.cohorts.look slot
def State.setCohort (s : State) (slot : Nat) (x : Cohort) : State := { s with cohorts := s.cohorts.put slot x }
def State.updCohort (s : State) (slot : Nat) (f : Cohort → Cohort) : State :=
  { s with cohorts := s.cohorts.upd slot f }
def State.block (s : State) (b : Nat) : Option Block := s.blocks.look b
def State.setBlock (s : State) (b : Nat) (x : Block) : State := { s with blocks := s.blocks.put b x }
def State.updBlock (s : State) (b : Nat) (f : Block → Block) : State := { s with blocks := s.blocks.upd b f }
def State.launch (s : State) (l : Nat) : Option Launch := s.launches.look l
def State.setLaunch (s : State) (l : Nat) (x : Launch) : State := { s with launches := s.launches.put l x }
def State.updLaunch (s : State) (l : Nat) (f : Launch → Launch) : State := { s with launches := s.launches.upd l f }
def Vf.queue (v : Vf) (q : Nat) : Queue := v.queues.get q {}
def State.updQueue (s : State) (v q : Nat) (f : Queue → Queue) : State :=
  s.updVf v (fun x => { x with queues := x.queues.put q (f (x.queue q)) })
def Core.chan (c : Core) (ch : Nat) : List Copy := c.chans.get ch []
def State.setChan (s : State) (core ch : Nat) (l : List Copy) : State :=
  s.updCore core (fun c => { c with chans := c.chans.put ch l })

/-- A fresh name for a block, a launch, an operation or the moment a wait begins. -/
def State.fresh (s : State) : Nat × State := (s.nextId, { s with nextId := s.nextId + 1 })

/-- The cohort slots of a core with their cohorts. -/
def State.coreCohorts (s : State) (core : Nat) : List (Nat × Cohort) := s.cohorts.filter (fun p => coreOf p.1 == core)

/-- The blocks resident on a core. -/
def State.coreBlocks (s : State) (core : Nat) : List (Nat × Block) := s.blocks.filter (fun p => p.2.core == core)

/-- The resident cohorts of a block. -/
def State.blockCohorts (s : State) (b : Nat) : List (Nat × Cohort) := s.cohorts.filter (fun p => p.2.blk == b)

/-- The clocks of a die run: the dies have been released and the die is not gated by EMERGENCY (R370, R385). -/
def State.clocked (s : State) (die : Nat) : Bool := s.released && (s.die die).tstate != .emergency

/-! ### Lanes of a cohort -/

/-- The lane at a LANEID. -/
def Cohort.lane (co : Cohort) (l : Nat) : Lane := co.lanes.getD l {}

/-- Positions without a running lane: exited, absent or left empty by REGROUP (R14, R33, R135). -/
def Cohort.gone (co : Cohort) : Mask := co.exited ||| co.absent

/-- The cohort's non-exited lanes (R135). -/
def Cohort.live (co : Cohort) : Mask := ~~~ co.gone

/-- The cohort with the lanes of a mask changed. -/
def Cohort.mapLanes (co : Cohort) (m : Mask) (f : Nat → Lane → Lane) : Cohort :=
  { co with lanes := lanes32.map (fun l => if m.has l then f l (co.lane l) else co.lane l) }

/-- The meet depth of a lane (R30). -/
def Lane.depth (l : Lane) : Nat := l.meets.length

/-- Serial mode: some lane is deeper than 8, an exited one too (R29; log 64). -/
def Cohort.serial (co : Cohort) : Bool := co.lanes.any (fun l => decide (8 < l.depth))

/-- Pop a lane's meeting register (R24, R25, R13). -/
def Lane.pop (l : Lane) : Lane :=
  match l.meets with
  | [] => { l with mr := 0xFFFFFFFF#32 }
  | m :: ms => { l with mr := m, meets := ms }

/-! ### Registers -/

/-- What a value holds in a lane (R134). -/
def VVal.at : VVal → Nat → W32
  | .u b, _ => b
  | .a b s, l => b + BitVec.ofNat 32 l * s
  | .g vs, l => vs.getD l 0

/-- The lanes' values, lane 0 first. -/
def VVal.lanes (v : VVal) : List W32 := lanes32.map v.at

/-- A general value from its lanes. -/
def VVal.ofFn (f : Nat → W32) : VVal := .g (lanes32.map f)

def VVal.isU : VVal → Bool
  | .u _ => true
  | _ => false

def VVal.isG : VVal → Bool
  | .g _ => true
  | _ => false

/-- ZV, the field value that names no register (R132). -/
def zv : Nat := 2047

/-- A V register as a field names it; ZV reads 0, uniform (R132). -/
def Cohort.v (co : Cohort) (n : Nat) : VVal := if n = zv then .u 0 else co.vregs.get n (.u 0)

/-- A V register written; a write to ZV is discarded (R132). The entry of a uniform 0 is not kept. -/
def Cohort.setV (co : Cohort) (n : Nat) (x : VVal) : Cohort :=
  if n = zv then co else { co with vregs := if x = .u 0 then co.vregs.del n else co.vregs.put n x }

/-- A predicate: P0 reads true in every lane, a field of 2047 reads false (R141, R177). -/
def Cohort.p (co : Cohort) (n : Nat) : Mask :=
  if n = 0 then BitVec.allOnes 32 else if n = zv then 0 else co.preds.get n 0

/-- The active lanes of a predicate written; a write to P0 or to field 2047 is discarded (R141, R177). -/
def Cohort.setP (co : Cohort) (n : Nat) (act : Mask) (x : Mask) : Cohort :=
  if n = 0 || n = zv then co
  else { co with preds := co.preds.put n ((co.p n &&& ~~~ act) ||| (x &&& act)) }

/-- A join register with its address (R131). -/
def Cohort.j (co : Cohort) (n : Nat) : Mask × W32 := co.joins.get n (0, 0)

def Cohort.setJ (co : Cohort) (n : Nat) (m : Mask) (a : W32) : Cohort := { co with joins := co.joins.put n (m, a) }

/-- A descriptor (R131, R133). -/
def Cohort.d (co : Cohort) (n : Nat) : BitVec 128 := co.descs.get n 0

/-- A tile element of a block (R131, R133). -/
def Block.tile (b : Block) (t e : Nat) : W32 := b.tiles.get (t * 16384 + e) 0

/-- A tile element written; +0.0 is not listed. -/
def Block.setTile (b : Block) (t e : Nat) (x : W32) : Block :=
  { b with tiles := if x = 0 then b.tiles.del (t * 16384 + e) else b.tiles.put (t * 16384 + e) x }

/-- The 64-bit value of a register pair in a lane (R132). -/
def Cohort.v64 (co : Cohort) (n l : Nat) : W64 :=
  if n = zv then 0 else (co.v (n + 1)).at l ++ (co.v n).at l

/-! ### Outstanding counters (R125) -/

/-- The four classes, in the order of R274. -/
def Cohort.oc (co : Cohort) : Nat → List OcOp
  | 0 => co.ocCopy
  | 1 => co.ocMat
  | 2 => co.ocVga
  | _ => co.ocRed

def Cohort.setOc (co : Cohort) (cls : Nat) (l : List OcOp) : Cohort :=
  match cls with
  | 0 => { co with ocCopy := l }
  | 1 => { co with ocMat := l }
  | 2 => { co with ocVga := l }
  | _ => { co with ocRed := l }

/-- The value of a counter. -/
def Cohort.ocCount (co : Cohort) (cls : Nat) : Nat := (co.oc cls).length

/-- The counter after an operation has been posted. -/
def Cohort.ocPost (co : Cohort) (cls id : Nat) : Cohort := co.setOc cls (co.oc cls ++ [{ id := id }])

/-- The oldest operations that have finished leave the counter (R125). -/
def ocDrain : List OcOp → List OcOp
  | [] => []
  | o :: l => if o.done then ocDrain l else o :: l

/-- The counter after an operation has completed. -/
def Cohort.ocDone (co : Cohort) (cls id : Nat) : Cohort :=
  co.setOc cls (ocDrain ((co.oc cls).map (fun o => if o.id = id then { o with done := true } else o)))

/-- The four counters are zero (R33, R36). -/
def Cohort.idleEngines (co : Cohort) : Bool :=
  co.ocCopy.isEmpty && co.ocMat.isEmpty && co.ocVga.isEmpty && co.ocRed.isEmpty

end Sys2Proof.Machine
end

