-- ==== Sys2Proof/Machine/Mem.lean ====
section
/-! DEFINITION. Device memory: the device physical address map and the keys of HBM lines (R322, R323, R359), the two-stage
translation with its TLBs (R351 to R354), accesses by virtual address, and what a write does to open transactions (R277). -/

namespace Sys2Proof.Machine

/-! ### Device physical memory -/

/-- The size of HBM in bytes (R322). -/
def hbmSize : Nat := 384 * 2 ^ 30

/-- The target of a device physical address: bits 51:48 (R322). -/
def aperture (pa : Nat) : Nat := pa / 2 ^ 48 % 16

/-- Whether the byte lies in HBM. -/
def inHbm (pa : Nat) : Bool := aperture pa == 0

/-- A byte of device physical memory read under a key: HBM bytes whose line that key wrote last, and host and peer bytes
written through the part, read as written; every other byte is unspecified (R323). -/
def State.physByte (s : State) (key pa : Nat) : Byte :=
  if inHbm pa && s.lineKeys.look (pa / 64) != some key then Config.freeByte s.tick pa
  else (cellAt s.mem pa).getD (Config.freeByte s.tick pa)

def State.physRead (s : State) (key pa n : Nat) : List Byte := (List.range n).map (fun i => s.physByte key (pa + i))

/-- The bytes of an HBM line forgotten: a write under another key replaced it (R323, R359). -/
def dropLine (m : List Host.Cell) (line : Nat) : List Host.Cell := m.filter (fun c => c.1 / 64 != line)

/-- One byte stored under a key. -/
def State.physStore (s : State) (key pa : Nat) (b : Byte) : State :=
  if inHbm pa && s.lineKeys.look (pa / 64) != some key then
    { s with mem := cellPut (dropLine s.mem (pa / 64)) pa b, lineKeys := s.lineKeys.put (pa / 64) key }
  else { s with mem := cellPut s.mem pa b }

/-- What another agent's write to a byte does to an open transaction: a watched byte makes a conflict, a byte the
transaction has read is marked for a later TXW of its line (R277). -/
def Tx.note (t : Tx) (pa : Nat) : Tx :=
  if t.watch.contains (pa / 64) then { t with conflict := true }
  else if t.reads.contains pa then { t with clobbered := pa :: t.clobbered }
  else t

/-- The open transactions after a write of `n` bytes by an agent other than the cohort in slot `writer`. -/
def State.noteWrite (s : State) (writer : Option Nat) (pa n : Nat) : State :=
  { s with cohorts := s.cohorts.mapVals (fun slot co =>
      if some slot = writer then co
      else { co with tx := co.tx.map (fun t => (List.range n).foldl (fun t i => t.note (pa + i)) t) }) }

def State.physBytes (s : State) (key : Nat) : Nat → List Byte → State
  | _, [] => s
  | pa, b :: bs => (s.physStore key pa b).physBytes key (pa + 1) bs

/-- Bytes written in ascending address under a key by an agent; `writer` is the cohort slot when a cohort's own
transaction commits, none for every other write. -/
def State.physWrite (s : State) (key : Nat) (writer : Option Nat) (pa : Nat) (bs : List Byte) : State :=
  (s.noteWrite writer pa bs.length).physBytes key pa bs

/-- Whether an HBM line is marked poisoned (R388, R390). -/
def State.poisoned (s : State) (pa : Nat) : Bool := inHbm pa && s.dies.any (fun d => d.2.poisoned.contains (pa / 64))

/-! ### Translation -/

/-- Why an access by virtual address fails (R353, R90): the cause code (R340), DETAIL bits 16 and 19, and IPA. -/
structure XlatErr where
  code      : Nat
  stage2    : Bool := false
  malformed : Bool := false
  ipa       : Nat := 0
  deriving DecidableEq, Repr, Inhabited

def codePage : Nat := 16
def codePerm : Nat := 17
def codeFormat : Nat := 18
def codePeerGone : Nat := 19

/-- The levels of both stages (R351): shift, index bits, table bytes of the next level. -/
def levels : List (Nat × Nat × Nat) :=
  [(40, 12, 32768), (28, 12, 1024), (21, 7, 256), (16, 5, 128), (12, 4, 0)]

/-- A leaf found by a walk: page address, page size, permissions (bit 0 R, bit 1 W, bit 2 X), FATTR. -/
structure Leaf where
  page  : Nat
  size  : Nat
  perm  : Nat
  fattr : Nat
  deriving DecidableEq, Repr, Inhabited

/-- The permission an access needs (R352), as a mask of R, W, X bits. -/
def accNeed : Access → Nat
  | .read => 1
  | .write => 2
  | .rmw => 3
  | .fetch => 4

/-- Whether permissions allow what an access needs. -/
def permOk (perm need : Nat) : Bool := perm &&& need == need

/-- Whether R322 has a target for a device physical address; none when it has, else the fault. A Lumak access also needs
the port's window and link and the peer's acceptance (R337, R339). -/
def State.physFault (s : State) (pa : Nat) : Option Nat :=
  let ap := aperture pa
  if ap = 0 then (if pa < hbmSize then none else some codePage)
  else if ap = 1 then none
  else if ap < 14 then
    let p := s.port (ap - 2)
    if p.loutEn && p.trained && Config.peerAccepts (ap - 2) (pa % 2 ^ 48) s.tick then none else some codePerm
  else some codePage

/-- One walk over the levels that are left: `fetch` reads a 64-bit entry of this stage's tables. `one` says whether the
stage is stage one, whose leaves carry FATTR (R352). -/
def walk (one : Bool) (fetch : Nat → Except XlatErr Nat) (addr : Nat) :
    List (Nat × Nat × Nat) → Nat → Except XlatErr Leaf
  | [], _ => .error { code := codePage, stage2 := !one, malformed := true }
  | (sh, bits, next) :: rest, table => do
    let e ← fetch (table + 8 * (addr / 2 ^ sh % 2 ^ bits))
    let bad : XlatErr := { code := codePage, stage2 := !one, malformed := true }
    if e % 2 = 0 then throw { code := codePage, stage2 := !one }
    let leaf := e / 2 % 2 = 1
    let a := e / 128 % 2 ^ 45 * 128
    if e / 32 % 4 ≠ 0 then throw bad
    if e / 2 ^ 52 ≠ 0 && !(one && leaf) then throw bad
    if leaf then
      if sh = 40 || a % 2 ^ sh ≠ 0 then throw bad
      return { page := a, size := 2 ^ sh, perm := e / 4 % 8, fattr := e / 2 ^ 52 }
    else
      if next = 0 || a % (max next 1) ≠ 0 then throw bad
      walk one fetch addr rest a

/-- Stage two: an intermediate address to a device physical one, with its leaf (R351, R353). -/
def State.stage2 (s : State) (vf ipa need : Nat) : Except XlatErr (Nat × Leaf) :=
  let v := s.vf vf
  let fetch (pa : Nat) : Except XlatErr Nat :=
    match s.physFault pa with
    | some c => .error { code := c, stage2 := true, ipa := ipa }
    | none => if s.poisoned pa then .error { code := codePage, stage2 := true, ipa := ipa } else .ok (leNat (s.physRead v.key pa 8))
  match walk false fetch ipa levels v.s2root.toNat with
  | .error e => .error { e with ipa := ipa }
  | .ok l =>
    if permOk l.perm need then .ok (l.page + ipa % l.size, l)
    else .error { code := codePerm, stage2 := true, ipa := ipa }

/-- A whole walk of a virtual address (R351, R353, R354): the TLB entry it gives. Stage one's table reads pass stage two as
reads. -/
def State.walkBoth (s : State) (vf va need : Nat) : Except XlatErr TlbEntry :=
  let v := s.vf vf
  let fetch (ipa : Nat) : Except XlatErr Nat := do
    let (pa, _) ← s.stage2 vf ipa 1
    match s.physFault pa with
    | some c => throw { code := c, stage2 := true, ipa := ipa }
    | none => if s.poisoned pa then throw { code := codePage } else return leNat (s.physRead v.key pa 8)
  do
    let l1 ← walk true fetch va levels v.s1root.toNat
    if !permOk l1.perm need then throw { code := codePerm }
    let ipa := l1.page + va % l1.size
    let (pa, l2) ← s.stage2 vf ipa need
    let size := min l1.size l2.size
    return { vf := vf, page := va / size * size, size := size, ipa := ipa / size * size, phys := pa / size * size,
             p1 := l1.perm, p2 := l2.perm, fattr := l1.fattr, s1 := l1.size }

/-- A translated address: its device physical address, the attribute of its stage-one page, and that page's base and
size. -/
structure Xlat where
  pa    : Nat
  ipa   : Nat := 0                -- the stage-one output
  fattr : Nat
  page  : Nat
  size  : Nat
  deriving DecidableEq, Repr, Inhabited

/-- Translate one address through the TLBs an agent has, and by a walk when none of them holds it (R85, R351 to R354). -/
def State.translate (s : State) (tlbs : List TlbEntry) (vf : Nat) (va : W64) (acc : Access) : Except XlatErr Xlat :=
  if 2 ^ 52 ≤ va.toNat then .error { code := codePage }
  else do
    let need := accNeed acc
    let e ←
      match tlbs.find? (fun e => e.vf == vf && e.page ≤ va.toNat && va.toNat < e.page + e.size) with
      | some e =>
        if !permOk e.p1 need then throw { code := codePerm }
        else if !permOk e.p2 need then
          throw { code := codePerm, stage2 := true, ipa := e.ipa + va.toNat % e.size }
        else pure e
      | none => s.walkBoth vf va.toNat need
    let pa := e.phys + va.toNat % e.size
    match s.physFault pa with
    | some c => throw { code := c, stage2 := true, ipa := e.ipa + va.toNat % e.size }
    | none => return { pa := pa, ipa := e.ipa + va.toNat % e.size, fattr := e.fattr, page := va.toNat / e.s1 * e.s1, size := e.s1 }

/-- The TLBs that a core's accesses look in (R354). -/
def State.coreTlbs (s : State) (core : Nat) : List TlbEntry :=
  (s.core core).tlb ++ (s.cluster (clusterOf core)).tlb ++ (s.die (dieOf core)).tlb

/-- The TLBs that a cluster's agent looks in. -/
def State.clusterTlbs (s : State) (cl : Nat) : List TlbEntry := (s.cluster cl).tlb ++ (s.die (clusterDie cl)).tlb

/-- The pieces of a range that lie within one 4 KiB page each: offset from the start, and length. -/
def pieces (va : Nat) : Nat → Nat → Nat → List (Nat × Nat)
  | 0, _, _ => []
  | fuel + 1, off, n =>
    if n = 0 then []
    else
      let k := min n (4096 - (va + off) % 4096)
      (off, k) :: pieces va fuel (off + k) (n - k)

/-- The pieces of the `n` bytes at `va`. -/
def piecesOf (va n : Nat) : List (Nat × Nat) := pieces va (n / 4096 + 2) 0 n

/-- The pieces of a range translated: device physical address, offset and length of each; or the address that fails. -/
def State.xlatRange (s : State) (tlbs : List TlbEntry) (vf : Nat) (va : W64) (acc : Access) :
    List (Nat × Nat) → Except (W64 × XlatErr) (List (Nat × Nat × Nat))
  | [] => .ok []
  | (off, n) :: rest =>
    match s.translate tlbs vf (va + BitVec.ofNat 64 off) acc with
    | .error e => .error (va + BitVec.ofNat 64 off, e)
    | .ok x =>
      match s.xlatRange tlbs vf va acc rest with
      | .error e => .error e
      | .ok l => .ok ((x.pa, off, n) :: l)

/-- Bytes read by virtual address, every page translated before any is read. -/
def State.vmRead (s : State) (tlbs : List TlbEntry) (vf : Nat) (va : W64) (n : Nat) :
    Except (W64 × XlatErr) (List Byte) :=
  match s.xlatRange tlbs vf va .read (piecesOf va.toNat n) with
  | .error e => .error e
  | .ok l => .ok (l.flatMap (fun p => s.physRead (s.vf vf).key p.1 p.2.2))

/-- Bytes written by virtual address, every page translated before any is written. -/
def State.vmWrite (s : State) (tlbs : List TlbEntry) (vf : Nat) (va : W64) (bs : List Byte) :
    Except (W64 × XlatErr) State :=
  match s.xlatRange tlbs vf va .write (piecesOf va.toNat bs.length) with
  | .error e => .error e
  | .ok l => .ok (l.foldl (fun s p => s.physWrite (s.vf vf).key none p.1 ((bs.drop p.2.1).take p.2.2)) s)

end Sys2Proof.Machine
end

