-- ==== Sys2Proof/Machine/Ops.lean ====
section
/-! DEFINITION. The operations that instructions and engines share: aborting a transaction (R81), parking (R346), TAKING A
PRECISE TRAP (R342) and returning from it (R343), waiting and paying (R41, R42), the ends of lanes and slices (R36, R37), and the
event log with what an uncorrectable error adds to it (R388, R391, R394). -/

namespace Sys2Proof.Machine

/-- The kernel-table entry a block runs (R333). -/
def State.kernelOf (s : State) (b : Block) : Option KernelEntry :=
  (s.launch b.launch).bind (fun l => l.kernels.look b.kernel)

/-- The handler offset of a block's kernel; none for 0xFFFF_FFFF (R333, R342). -/
def State.handlerOf (s : State) (b : Block) : Option W32 :=
  (s.kernelOf b).bind (fun k => if k.handler = 0xFFFFFFFF#32 then none else some k.handler)

/-! ### The event log (R394) -/

def State.updGrotto (s : State) (f : Grotto → Grotto) : State := { s with grotto := f s.grotto }

/-- KIND of a log entry. -/
def logUE : Nat := 1
def logRetire : Nat := 2
def logKill : Nat := 3
def logRestoreCap : Nat := 4
def logTState : Nat := 5
def logUpdate : Nat := 6
def logBoot : Nat := 7

/-- Cause code 32, ECC (R340). -/
def codeEcc : Nat := 32

/-- An entry appended: SRAM keeps the newest 1,024. SEQ and TIME are filled in here. -/
def State.logEvent (s : State) (e : LogEntry) : State :=
  s.updGrotto (fun g =>
    let seq := g.logseq + 1
    { g with logseq := seq, sram := ({ e with seq := seq, time := g.time } :: g.sram).take 1024 })

/-- An entry of the package with no store, VF or cohort. -/
def plainEntry (kind die detail : Nat) : LogEntry :=
  { seq := 0, time := 0, kind := kind, die := die, cls := 0xFF, vf := 0xFF, slot := 0xFFFFFFFF#32,
    detail := BitVec.ofNat 32 detail, addr := 0 }

/-- An uncorrectable error counted and logged (R391, R394). -/
def State.noteUe (s : State) (die cls vf : Nat) (slot : W32) (addr : W64) : State :=
  (s.updDie die (fun d => { d with ue := d.ue.put cls (satInc (d.ue.get cls 0)) })).logEvent
    { plainEntry logUE die codeEcc with cls := cls, vf := vf, slot := slot, addr := addr }

/-- The home die of an HBM line (R87). -/
def lineDie (line : Nat) : Nat := line / 4 % 2

/-- A read of a block, by a cohort slot of it, meets a poisoned line (R388): the error counts with the read (R391, R394), and the
block's kill falls due before anything else of its core. -/
def State.meetPoison (s : State) (bi slot line : Nat) : State :=
  match s.block bi with
  | none => s
  | some b =>
    (s.noteUe (lineDie line) 0 b.vf (BitVec.ofNat 32 slot) (BitVec.ofNat 64 (64 * line))).setBlock bi { b with ecc := some (slot, line) }

/-! ### Transactions -/

/-- A cohort leaves the REGROUP it has arrived at: with no arrival left, no offset is fixed (R32). -/
def Block.leaveColl (b : Block) (cohid : Nat) : Block :=
  match b.coll with
  | none => b
  | some c =>
    let a := c.arrived.filter (fun k => k != cohid)
    { b with coll := if a.isEmpty then none else some { c with arrived := a } }

/-- The operations under way that have still to write a register: that write is out of program order once something later has
written the register, and is not made (R145; log 91). -/
def Cohort.overtaken (co : Cohort) (n : Nat) : Cohort :=
  { co with stale := (co.pending.filter (fun p => decide (p.first ≤ n ∧ n < p.first + p.count))).map (fun p => (p.op, n)) ++ co.stale }

/-- An explicit transaction aborts: the buffer and the watch set go, every non-exited lane stands at the abort address, and
Vd holds the code as a uniform value (R81). -/
def State.abortTx (s : State) (slot code : Nat) : State :=
  match s.cohort slot with
  | none => s
  | some co =>
    match co.tx with
    | none => s
    | some t =>
      let co := (co.mapLanes co.live (fun _ l => { l with pc := t.abort, waitj := none })).setV t.vd
        (.u (BitVec.ofNat 32 code))
      (s.setCohort slot { co.overtaken t.vd with tx := none, waits := [] }).updBlock co.blk (fun b =>
        { b.leaveColl co.cohid with buf := [], bufBy := [], holder := none })

/-- The abort codes of R81. -/
def txTxa : Nat := 1
def txConflict : Nat := 2
def txOverflow : Nat := 3
def txTrap : Nat := 4
def txSlice : Nat := 5

/-! ### Parking and fault records -/

/-- A record handed to the VF's fault-record writer (R347, R348). -/
def State.postRecord (s : State) (vf : Nat) (r : FaultInfo) : State :=
  s.updVf vf (fun v => { v with records := v.records ++ [r] })

/-- What a record says of the cohort that raised it: its slot, its launch's queue and TAG, and its node (R347). -/
def State.recordFor (s : State) (slot : Nat) (r : FaultInfo) : FaultInfo :=
  match s.cohort slot with
  | none => r
  | some co =>
    match s.block co.blk with
    | none => r
    | some b =>
      let (q, t) := match s.launch b.launch with
        | some l => (l.queue, l.tag)
        | none => (0, 0)
      { r with slot := BitVec.ofNat 32 slot, node := b.node, queue := q, tag := t }

/-- The VF of a cohort's block. -/
def State.vfOf (s : State) (slot : Nat) : Nat :=
  match (s.cohort slot).bind (fun co => s.block co.blk) with
  | some b => b.vf
  | none => 0

/-- A cohort parks (R346): it issues nothing until the driver settles it, and exactly one record is posted. A fault that
falls while it is parked waits for the first park's end. -/
def State.park (s : State) (slot : Nat) (r : FaultInfo) : State :=
  match s.cohort slot with
  | none => s
  | some co =>
    let r := s.recordFor slot r
    if co.park.isSome then s.setCohort slot { co with later := co.later ++ [r] }
    else (s.setCohort slot { co with park := some r, waits := [] }).postRecord (s.vfOf slot) r

/-! ### Precise traps -/

/-- What raises a trap fixes: the cause code, the offending lanes, XADDR, and the full address for a fault record. -/
structure TrapInfo where
  code  : Nat
  mask  : Mask
  xaddr : W32 := 0
  addr  : W64 := 0
  deriving DecidableEq, Repr, Inhabited

def cIllegal : Nat := 1
def cShape : Nat := 2
def cDesc : Nat := 3
def cAlign : Nat := 4
def cMetadata : Nat := 6
def cVglimit : Nat := 7
def cTxnest : Nat := 8
def cNonfinite : Nat := 9
def cBkpt : Nat := 10
def cTrapi : Nat := 11

/-- XCAUSE (R341). -/
def xcauseOf (txab : Bool) (code : Nat) : W32 := BitVec.ofNat 32 (256 * bit txab + code)

/-- TAKING A PRECISE TRAP (R342, R344, R345). The instruction at `pc` of the PC-group `group` raised it and has written
nothing. An open explicit transaction aborts first. Without a handler, or inside the handler, the cohort parks; otherwise
XCAUSE, XMASK, XADDR and XPC are set, the group's lanes go to the handler, and every other group is held. -/
def State.takeTrap (s : State) (slot : Nat) (group : Mask) (pc : W32) (t : TrapInfo) : State :=
  match s.cohort slot with
  | none => s
  | some co0 =>
    let txab := co0.tx.isSome
    let xpc := match co0.tx with
      | some x => x.abort
      | none => pc
    let s := s.abortTx slot txTrap
    match s.cohort slot with
    | none => s
    | some co =>
      let handler := (s.block co.blk).bind s.handlerOf
      match handler, co.hmode with
      | some h, false =>
        let hl := group &&& co.live
        let co := { co with xcause := xcauseOf txab t.code, xmask := t.mask, xaddr := t.xaddr, xpc := xpc, hmode := true,
                            hlanes := hl, waits := [] }
        s.setCohort slot (co.mapLanes hl (fun _ l => { l with pc := h, waitj := none }))
      | _, _ =>
        s.park slot { code := t.code, cls := 1, txab := txab, nest := co.hmode, pc := pc, mask := t.mask, addr := t.addr }

/-- A fault that parks its cohort at the instruction at `pc` (R346, class P): an open explicit transaction aborts with cause
TRAP (R81), and XADDR holds bits 31:0 of the address (R97, R340; log 69). -/
def State.takePark (s : State) (slot : Nat) (pc : W32) (r : FaultInfo) : State :=
  let txab := ((s.cohort slot).map (fun co => co.tx.isSome)).getD false
  let nest := ((s.cohort slot).map (fun co => co.hmode)).getD false
  let s := s.updCohort slot (fun co => { co with xaddr := r.addr.setWidth 32 })
  (s.abortTx slot txTrap).park slot { r with cls := 2, txab := txab, nest := r.nest && nest, pc := pc }

/-- The return from the handler (R343): every lane of HLANES that has not exited continues at XPC, and the held groups may
issue again. -/
def Cohort.leaveHandler (co : Cohort) : Cohort :=
  let co := co.mapLanes (co.hlanes &&& co.live) (fun _ l => { l with pc := co.xpc, waitj := none })
  { co with hmode := false, hlanes := 0 }

/-! ### Lanes and slices that end -/

/-- The slices that hold a lane of a mask (R15). -/
def slicesOf (m : Mask) : BitVec 4 :=
  BitVec.ofNat 4 ((List.range 4).foldl (fun acc i => if m.extractLsb' (8 * i) 8 = 0 then acc else acc + 2 ^ i) 0)

/-- A slice whose lanes have all exited returns its registers, unless a regrouping is in effect (R35, R37). -/
def Cohort.freeSlices (co : Cohort) (regrouped : Bool) : Cohort :=
  if regrouped then co else { co with slices := co.slices &&& slicesOf co.live }

/-- Lanes exit (R27, R36, R37, R343): they leave every join register, and a handler all of whose lanes have exited ends. -/
def Cohort.exitLanes (co : Cohort) (act : Mask) (regrouped : Bool) : Cohort :=
  let co := { co with exited := co.exited ||| act,
                      joins := co.joins.mapVals (fun _ j => (j.1 &&& ~~~ act, j.2)) }
  let co := if co.hmode && co.hlanes &&& co.live = 0 then { co with hmode := false, hlanes := 0 } else co
  co.freeSlices regrouped

/-! ### Waiting -/

/-- The wait of a cohort at an instruction offset (R194: nothing of it outlasts a stop). -/
def Cohort.waitAt (co : Cohort) (pc : W32) : Option WaitRec := co.waits.find? (fun r => r.pc == pc)

/-- A wait recorded: a wait that has begun keeps its beginning and its place. -/
def Cohort.recordWait (co : Cohort) (r : WaitRec) : Cohort :=
  match co.waitAt r.pc with
  | some old => { co with waits := co.waits.map (fun x =>
      if x.pc == r.pc then
        { old with kind := r.kind, need := r.need, cls := r.cls, placed := if old.placed.isSome then old.placed else r.placed }
      else x) }
  | none => { co with waits := co.waits ++ [r] }

/-- A wait ended. -/
def Cohort.endWait (co : Cohort) (pc : W32) : Cohort := { co with waits := co.waits.filter (fun r => r.pc != pc) }

/-- The waits of a cohort whose instruction some lane still stands at. -/
def Cohort.liveWaits (co : Cohort) : List WaitRec :=
  co.waits.filter (fun r => (maskLanes co.live).any (fun l => (co.lane l).pc == r.pc))

/-- Every wait of the part: the cohort slot, its block's rank and COHID, and the wait. -/
def State.allWaits (s : State) : List (Nat × Cohort × WaitRec) :=
  s.cohorts.flatMap (fun p => p.2.liveWaits.map (fun r => (p.1, p.2, r)))

/-- The rank of a cohort's block: higher priority first, then the older block, then the lower COHID (R20, R42). -/
def State.rank (s : State) (co : Cohort) : List Nat :=
  match s.block co.blk with
  | some b => [3 - b.prio, b.age, co.cohid]
  | none => [4, 0, co.cohid]

/-- The place in its wallet's line of a priced instruction of a cohort, by its wait where it has begun one (R42). Of two
PC-groups of one cohort the one that has waited longer stands first (log 61). -/
def State.linePlace (s : State) (co : Cohort) (r : Option WaitRec) : List Nat :=
  match r.bind (·.promoted) with
  | some p => [0, p]
  | none => 1 :: s.rank co ++ [(r.map (·.since)).getD s.nextId]

/-- The line of a core's wallet: the waiting priced instructions, first in line first (R42). -/
def State.line (s : State) (core : Nat) : List (Nat × Cohort × WaitRec) :=
  sortLex (fun x => s.linePlace x.2.1 (some x.2.2))
    (s.allWaits.filter (fun x => coreOf x.1 == core && x.2.2.priced))

/-- Sixteen have passed a waiting instruction and it has not been set first yet (R42): that comes before any payment. -/
def WaitRec.dueFirst (r : WaitRec) : Bool := 16 ≤ r.passed && r.promoted.isNone && r.priced

/-- Whether the instruction at `pc` of the cohort may take tokens: no other waiting instruction of the core stands before it
in line (R42). -/
def State.firstInLine (s : State) (slot : Nat) (co : Cohort) (pc : W32) : Bool :=
  let mine := s.linePlace co (co.waitAt pc)
  (s.line (coreOf slot)).all (fun x =>
    (x.1 == slot && x.2.2.pc == pc) || (lexLt mine (s.linePlace x.2.1 (some x.2.2)) && !x.2.2.dueFirst))

/-- Whether the instruction at `pc` of the cohort holds its price: it is first in line, and the wallet has the tokens (R42,
R45). -/
def State.holdsPrice (s : State) (slot : Nat) (co : Cohort) (pc : W32) (price : Nat) : Bool :=
  s.firstInLine slot co pc && price ≤ (s.core (coreOf slot)).wallet

/-- The instructions of a cluster, other than the one at `pc` of a slot, that hold their price, wait for an engine place of a
class, and began to wait for it before a moment (R45, R300). -/
def State.placedBefore (s : State) (slot : Nat) (pc : W32) (cls mine : Nat) : List (Nat × Cohort × WaitRec) :=
  s.allWaits.filter (fun x => clusterOf (coreOf x.1) == clusterOf (coreOf slot) && x.2.2.cls == cls &&
    (x.2.2.placed.map (fun t => decide (t < mine))).getD false && !(x.1 == slot && x.2.2.pc == pc) &&
    s.holdsPrice x.1 x.2.1 x.2.2.pc x.2.2.need)

/-- Whether a wallet is starved: the instruction that was starved still waits (R44). -/
def State.starvedNow (s : State) (core : Nat) : Bool :=
  match (s.core core).starved with
  | none => false
  | some t => s.allWaits.any (fun x => coreOf x.1 == core && x.2.2.since == t)

/-- A payment (R41, R42, R44, R378, R392): the wallet falls by the price, every other waiting priced instruction of the core
has been passed once more, and a wallet that was starved for this instruction is starved no longer. -/
def State.pay (s : State) (slot : Nat) (pc : W32) (price : Nat) : State :=
  let core := coreOf slot
  let mine := ((s.cohort slot).bind (fun co => co.waitAt pc)).map (·.since)
  let s := s.updCore core (fun c =>
    { c with wallet := c.wallet - price, starved := if c.starved == mine then none else c.starved })
  let s := s.updDie (dieOf core) (fun d => { d with tokPaid := d.tokPaid + BitVec.ofNat 64 price })
  let s := match s.curVf with
    | some v => s.updVf v (fun v => { v with tokPaid := v.tokPaid + BitVec.ofNat 64 price })
    | none => s
  { s with cohorts := s.cohorts.mapVals (fun k co =>
      if coreOf k = core then
        { co with waits := co.waits.map (fun r =>
            if r.priced && !(k == slot && r.pc == pc) then { r with passed := r.passed + 1 } else r) }
      else co) }

/-! ### PC-groups -/

/-- The lanes that may issue: neither exited nor held at a meeting point, at a WAITJ or for a handler (R22, R24, R26,
R342). -/
def Cohort.runnable (co : Cohort) : Mask :=
  (if co.hmode then co.hlanes &&& co.live else co.live) &&&
    maskOf (fun l => (co.lane l).waitj.isNone && (co.lane l).pc != (co.lane l).mr)

/-- A lane joined to the group of its PC. -/
def addLane (pc : W32) (l : Nat) : List (W32 × Mask) → List (W32 × Mask)
  | [] => [(pc, Mask.one l)]
  | g :: gs => if g.1 = pc then (g.1, g.2 ||| Mask.one l) :: gs else g :: addLane pc l gs

/-- The PC-groups of a cohort, by lowest lane (R22). -/
def Cohort.groups (co : Cohort) : List Mask :=
  ((maskLanes co.runnable).foldl (fun gs l => addLane (co.lane l).pc l gs) []).map (·.2)

/-- How far after lane `key` the next lane of a group stands, in ascending order and wrapping (R29). -/
def laneDistance (key : Nat) (g : Mask) : Nat := ((maskLanes g).map (fun l => (l + 31 - key) % 32)).foldl min 32

/-- The lowest lane of the PC-group that the quarter chose, as far as that still goes on: the lanes of it that have not exited and
are not held (R22). Where none does, the place from which the rotation goes on. -/
def Cohort.curLane (co : Cohort) : Nat :=
  let m := co.curMask &&& co.runnable
  lowest (if m = 0 then co.curMask else m)

/-- Of the groups that each branch to per-lane targets has formed, that of its first elected lane comes before the others
(R31). -/
def Cohort.electFirst (co : Cohort) (gs : List Mask) : List Mask :=
  let behind (g : Mask) : Bool := co.elected.any (fun e => !g.has e.1 && g &&& e.2 != 0)
  gs.filter (fun g => !behind g) ++ gs.filter behind

/-- The groups in the order in which the quarter tries them (R22, R29, R31): the current one first while it may go on, then the
others in rotation after it: by their lowest lanes, or, in serial mode, by their next lane. A cohort that has just entered
serial mode begins with the group of its lowest lane. -/
def Cohort.groupOrder (co : Cohort) (switch : Bool) : List Mask :=
  let gs := co.groups
  if co.serial && !co.serially then gs
  else
    let key := co.curLane
    let others := gs.filter (fun g => !g.has key)
    let here := gs.filter (fun g => g.has key)
    let low := (here.head?.map lowest).getD key
    let rot :=
      if co.serial then sortBy (laneDistance low) others
      else others.filter (fun g => low < lowest g) ++ others.filter (fun g => lowest g ≤ low)
    co.electFirst (if (co.serial || !switch) && co.curCount < 64 then here ++ rot else rot ++ here)

/-- The PC-group chosen next, if the quarter goes on with its current group while it may (R22), with the offset of the
instruction it would issue; none when no lane is left to issue (R346; log 70). -/
def Cohort.nextGroup (co : Cohort) : Option (W32 × Mask) :=
  ((co.groupOrder false).head?).map (fun g => ((co.lane (lowest g)).pc, g))

/-- A park at an instruction boundary: every lane stays at its PC (R346). One of class P writes XADDR (R340; log 69). MASK is that of the
group that would issue next, or the one the record brings: 0 for a copy's. Where it aborts an open transaction, PC and MASK are
those of the group that would have issued next before the abort (DESIGN CHOICE, log 128). -/
def State.parkBoundary (s : State) (slot : Nat) (r : FaultInfo) (withMask : Bool) : State :=
  match s.cohort slot with
  | none => s
  | some co =>
    let (pc, m) := co.nextGroup.getD (0xFFFFFFFF#32, 0)
    let txab := co.tx.isSome
    let s := if r.cls = 2 && co.park.isNone then s.setCohort slot { co with xaddr := r.addr.setWidth 32 } else s
    (s.abortTx slot txTrap).park slot { r with pc := pc, mask := if withMask then m else r.mask, txab := txab, boundary := true }

/-! ### Completion of asynchronous operations -/

/-- An operation of a class completes for its cohort (R125), and the registers it had to write are free (R145). -/
def State.opDone (s : State) (slot cls id : Nat) : State :=
  s.updCohort slot (fun co => { co.ocDone cls id with
    pending := (co.ocDone cls id).pending.filter (fun p => p.op != id), stale := co.stale.filter (fun x => x.1 != id) })

end Sys2Proof.Machine
end

