-- ==== Sys2Proof/Machine/Operands.lean ====
section
/-! DEFINITION. Operands (R131, R132, R136, R138, R177, R178, R255): the registers an instruction's fields name and the
limits on them, the values of its sources in each lane, its literal, and the write of a register result with its shape. -/

namespace Sys2Proof.Machine

/-- What an instruction's description sees at issue: the state, its cohort and block, its words, its type, the PC-group with
its active lanes, its offset and the offset of the instruction after it. -/
structure Env where
  s     : State
  slot  : Nat
  co    : Cohort
  blk   : Block
  cell  : Cell
  w     : ExtWord
  ty    : Ty
  group : Mask
  act   : Mask
  pc    : W32
  next  : W32

/-- The core of the issuing cohort. -/
def Env.core (e : Env) : Nat := coreOf e.slot

/-- The issue is full (R135): the active lanes are exactly the cohort's non-exited lanes. -/
def Env.full (e : Env) : Bool := e.act == e.co.live

/-- The lanes that are active, lowest first. -/
def Env.lanes (e : Env) : List Nat := maskLanes e.act

/-! ### The registers that fields name -/

/-- Whether a field's operand is replaced by the literal (R178). -/
def Env.litIn (e : Env) (f : LitField) : Bool := e.w.lit.isSome && e.cell.litF == f

/-- K of MMAS and CMPR in dense positions (R289, R294, R295). -/
def kTotal (ty : Ty) (passes : Nat) : Nat := passes * (match ty with
  | .bf16 => 16
  | .q4a => 64
  | _ => 32)

/-- How many V registers a field of a kind names, and whether they form a run that must lie within V0 to V(G − 1) (R132,
R255, R269, R283, R294, R295, R301). None for a field that names no V register. -/
def Env.runOf (e : Env) (k : Kind) : Option (Nat × Bool) :=
  let wide (t : Option Ty) : Nat := match t with
    | some t => if t.bits = 64 then 2 else if t.bits = 128 then 4 else 1
    | none => 1
  match k with
  | .v => some (1, false)
  | .v2 => some (2, false)
  | .v4 => some (4, false)
  | .v64 => some (if e.ty.bits = 64 then 2 else 1, false)
  | .vw => some (wide (some e.ty), false)
  | .vDst => some (wide e.w.dty, false)
  | .vSrc => some (wide e.w.sty, false)
  | .vObj => some (if e.w.sub.getLsbD 2 || e.w.sub.getLsbD 3 then 2 else 1, false)
  | .vPitch => some (if e.w.sub.getLsbD 1 then 2 else 1, false)
  | .runK => some (4 * cdiv (kTotal e.ty e.w.passes) 32, true)
  | .runM => some (e.w.mdim, true)
  | .runN => some (e.w.ndim, true)
  | _ => none

/-- The alignment of a register number (R132): pairs are even, runs of four begin at a multiple of 4. -/
def Env.alignOf (e : Env) (k : Kind) : Nat :=
  match k, e.runOf k with
  | .runK, _ => 4
  | .runM, _ | .runN, _ => 1
  | _, some (n, _) => n
  | _, none => 1

/-- The operand fields with their kinds; a field the literal replaces names nothing. -/
def Env.fields (e : Env) : List (Kind × Nat) :=
  let k (f : LitField) (k : Kind) : Kind := if e.litIn f then .none else k
  [(e.cell.d, e.w.d.toNat), (k .a e.cell.a, e.w.a.toNat), (k .b e.cell.b, e.w.b.toNat), (k .c e.cell.c, e.w.c.toNat)]

/-- R132: a name within the block's allocations. -/
def Env.nameOk (e : Env) (m : Nat) : Bool := if m < 256 then m < e.co.g else m < 256 + e.blk.n

/-- R132 for one field: names, alignment, runs and tiles. A field of ZV names no register. -/
def Env.fieldNamesOk (e : Env) (f : Kind × Nat) : Bool :=
  match e.runOf f.1 with
  | some (n, run) =>
    f.2 == zv || (f.2 % e.alignOf f.1 == 0 && (List.range n).all (fun i => e.nameOk (f.2 + i)) &&
      (!run || f.2 + n ≤ e.co.g))
  | none => f.1 != .t || f.2 < e.blk.k

/-- R192 step 3. -/
def Env.namesOk (e : Env) : Bool := e.fields.all e.fieldNamesOk

/-- The V registers an instruction writes without naming them in a field: those ALLOCREG adds and zeroes (R39), and the
register of the open transaction that TXC, TXA and TXW may give a code (R81). -/
def Env.impliedNames (e : Env) : List (Nat × Nat) :=
  if e.cell.opc = 0xF3 then
    let n := 8 * (e.w.a.toNat + 1)
    if e.co.g < n then [(e.co.g, n - e.co.g)] else []
  else if 0xD9 ≤ e.cell.opc && e.cell.opc ≤ 0xDB then
    match e.co.tx with
    | some t => if t.vd = zv then [] else [(t.vd, 1)]
    | none => []
  else []

/-- The V registers the instruction reads or writes, for the scoreboard (R145). -/
def Env.vNames (e : Env) : List (Nat × Nat) :=
  e.fields.filterMap (fun f => match e.runOf f.1 with
    | some (n, _) => if f.2 = zv then none else some (f.2, n)
    | none => none) ++ e.impliedNames

/-- Two ranges of names overlap. -/
def overlaps (a n b m : Nat) : Bool := a < b + m && b < a + n

/-- The scoreboard holds the instruction (R145, R127, R281): a register it names has still to be written by an asynchronous
operation of the cohort, or it is one of TZERO, TRD, TWR and TCVT and a tile it names has a matrix operation of the cohort
under way. -/
def Env.held (e : Env) : Bool :=
  e.co.pending.any (fun p => e.vNames.any (fun f => overlaps p.first p.count f.1 f.2)) ||
  (0xE2 ≤ e.cell.opc && e.cell.opc ≤ 0xE5 &&
    (e.s.cluster (clusterOf e.core)).mat.any (fun m => m.slot == e.slot && m.blk == e.co.blk && m.opc != 0xEF &&
      e.fields.any (fun f => f.1 == .t && f.2 == m.tile)))

/-! ### Source values -/

/-- The literal as a 32-bit value (R178). -/
def Env.lit32 (e : Env) : W32 := (e.w.lit.getD 0).setWidth 32

/-- Source A, B or C as a register value with its tag; a literal is uniform (R178). -/
def Env.va (e : Env) : VVal := if e.litIn .a then .u e.lit32 else e.co.v e.w.a.toNat
def Env.vb (e : Env) : VVal := if e.litIn .b then .u e.lit32 else e.co.v e.w.b.toNat
def Env.vc (e : Env) : VVal := if e.litIn .c then .u e.lit32 else e.co.v e.w.c.toNat

/-- Source A, B or C as a 64-bit value in a lane: a register pair, or the literal with all its bits (R132, R178). -/
def Env.a64 (e : Env) (l : Nat) : W64 := e.co.v64 e.w.a.toNat l
def Env.b64 (e : Env) (l : Nat) : W64 := if e.litIn .b then e.w.lit.getD 0 else e.co.v64 e.w.b.toNat l
def Env.c64 (e : Env) (l : Nat) : W64 := if e.litIn .c then e.w.lit.getD 0 else e.co.v64 e.w.c.toNat l

/-- Whether the register pair a field names is uniform in both registers. -/
def Cohort.pairU (co : Cohort) (n : Nat) : Bool := n == zv || ((co.v n).isU && (co.v (n + 1)).isU)

/-- The device address in a lane of the pair in field A (R255). -/
def Env.devAddr (e : Env) (l : Nat) : W64 := e.a64 l

/-! ### Register results -/

/-- The value a destination holds after an issue (R135, R199): a full issue gives the shape it is offered, general values
keeping the lanes that are not active; any other issue writes its active lanes only and gives a general value. -/
def Env.merge (e : Env) (old new : VVal) : VVal :=
  if e.full && !new.isG then new
  else VVal.ofFn (fun l => if e.act.has l then new.at l else old.at l)

/-- Whether the result of shape `new` would be general, and the register it goes to is a narrow name (R137): SHAPE. -/
def Env.shapeTrap (e : Env) (d : Nat) (new : VVal) : Bool := d != zv && 256 ≤ d && (new.isG || !e.full)

/-- The cohort with a register result written. -/
def Env.setV (e : Env) (co : Cohort) (d : Nat) (new : VVal) : Cohort := co.setV d (e.merge (co.v d) new)

/-- The state with the issuing cohort replaced. -/
def Env.put (e : Env) (co : Cohort) : State := e.s.setCohort e.slot co

end Sys2Proof.Machine
end

