-- ==== Sys2Proof/Machine/Issue.lean ====
section
/-! DEFINITION. One issue of an instruction row (R192): the checks in their order, and what becomes of the cohort when the
instruction completes, branches, waits, traps or parks. -/

namespace Sys2Proof.Machine

/-- What an instruction's own description comes to once it has passed the checks that every instruction makes. -/
inductive Eff where
  /-- It completes; every lane of the group goes on with the next instruction. -/
  | ok (s : State)
  /-- It completes; the lanes of each mask go to the offset beside it, every other lane of the group goes on. -/
  | branch (s : State) (dst : List (Mask × W32))
  /-- It completes and has set the PCs itself. -/
  | set (s : State)
  /-- It waits at step 5 or 7 and has not issued (R194); `need` is its price, `cls` the engine place it also waits for. -/
  | wait (kind : WaitKind) (need cls : Nat)
  /-- It waits, and its arrival has changed the state (REGROUP). -/
  | hold (s : State) (kind : WaitKind)
  /-- It raises a precise trap and has written nothing. -/
  | trap (t : TrapInfo)
  /-- The same with the price already paid in the state (R163). -/
  | trapPaid (s : State) (t : TrapInfo)
  /-- It parks its cohort; the state has the price already paid (R256). -/
  | park (s : State) (r : FaultInfo)

/-- The lane's offset after a completed instruction. -/
def branchTo (dst : List (Mask × W32)) (l : Nat) (next : W32) : W32 :=
  match dst with
  | [] => next
  | (m, a) :: rest => if m.has l then a else branchTo rest l next

/-- The lanes of a group moved on. -/
def State.advance (s : State) (slot : Nat) (group : Mask) (pc next : W32) (dst : List (Mask × W32)) : State :=
  s.updCohort slot (fun co =>
    (co.mapLanes (group &&& co.live) (fun l x => { x with pc := branchTo dst l next })).endWait pc)

/-- The cursor marked with whether the try only recorded a wait. -/
def State.mark (s : State) (waited : Bool) : State := { s with cur := { s.cur with waited := waited } }

/-- A wait recorded for the instruction at issue (R194). -/
def Env.waiting (e : Env) (s : State) (kind : WaitKind) (need cls : Nat) : State :=
  let r : WaitRec := { pc := e.pc, kind := kind, need := need, since := s.nextId, cls := cls,
                       placed := if kind == .entry || kind == .queue then some s.nextId else none }
  ({ s with nextId := s.nextId + 1 }.updCohort e.slot (fun co => co.recordWait r)).mark true

/-- What becomes of the cohort (R192, R194, R342, R346). -/
def finish (e : Env) : Eff → State
  | .ok s => (s.advance e.slot e.group e.pc e.next []).mark false
  | .branch s dst => (s.advance e.slot e.group e.pc e.next dst).mark false
  | .set s => (s.updCohort e.slot (fun co => co.endWait e.pc)).mark false
  | .wait kind need cls => e.waiting e.s kind need cls
  | .hold s kind => e.waiting s kind 0 0
  | .trap t => (e.s.takeTrap e.slot e.group e.pc t).mark false
  | .trapPaid s t => (s.takeTrap e.slot e.group e.pc t).mark false
  | .park s r => (s.takePark e.slot e.pc r).mark false

/-- The guard (R174, R176): the lanes of the group in which the named predicate holds, or does not hold. -/
def guardMask (co : Cohort) (w : ExtWord) (group : Mask) : Mask :=
  group &&& (if w.gn then ~~~ (co.p w.gp.toNat) else co.p w.gp.toNat)

/-- ILLEGAL with the group's lanes: the checks of steps 1 to 3 precede the active mask (R192; log 6). -/
def illegal (mask : Mask) : Eff := .trap { code := cIllegal, mask := mask }

/-- The environment of an issue. -/
def envOf (s : State) (slot : Nat) (co : Cohort) (blk : Block) (c : Cell) (w : ExtWord) (ty : Ty) (group : Mask)
    (size : Nat) : Env :=
  let pc := (co.lane (lowest group)).pc
  { s := s, slot := slot, co := co, blk := blk, cell := c, w := w, ty := ty, group := group,
    act := guardMask co w group, pc := pc, next := pc + BitVec.ofNat 32 size }

/-- Steps 2 to 7 of R192 for an instruction whose word has been fetched: encoding, names, the active mask, the scoreboard,
and the instruction's own description. -/
def issueEff (e : Env) (lenOk : Bool) (body : Env → Eff) : Eff :=
  if !(lenOk && e.cell.encOk e.w) then illegal e.group
  else if !e.namesOk then illegal e.group
  else if e.act = 0 then .ok e.s
  else if e.held then .wait .scoreboard 0 0
  else body e

/-- One issue by the PC-group at the cursor. -/
def issue (c : Cell) (lenOk : Bool) (w : ExtWord) (size : Nat) (body : Env → Eff) (s : State) :
    Host.Outcome State Fault Refusal :=
  match s.cohort s.cur.slot with
  | none => .fault .noIssuer
  | some co =>
    match s.block co.blk with
    | none => .fault .noIssuer
    | some b =>
      let group := s.cur.group &&& co.live
      if group = 0 then .fault .noIssuer
      else
        let e := envOf s s.cur.slot co b c w ((c.ty w).getD .b32) group size
        .next (finish e (issueEff e lenOk body))

/-- An issue of a base word (R174, R175). -/
def issueBase (c : Cell) (w : BaseWord) (body : Env → Eff) (s : State) : Host.Outcome State Fault Refusal :=
  issue c (c.lenOk false w.lit.isSome) w.toExt (if w.lit.isSome then 12 else 4) body s

/-- An issue of an extended word (R176). -/
def issueExt (c : Cell) (w : ExtWord) (body : Env → Eff) (s : State) : Host.Outcome State Fault Refusal :=
  issue c (c.lenOk true w.lit.isSome) w (if w.lit.isSome then 20 else 12) body s

/-! ### Pieces that descriptions share -/

/-- A precise trap whose XADDR is no address. -/
def Env.trap (e : Env) (code : Nat) : Eff := .trap { code := code, mask := e.act }

/-- A precise trap over some lanes with an address (R256): XADDR holds its bits 31:0. -/
def trapAt (code : Nat) (mask : Mask) (addr : W64) : Eff :=
  .trap { code := code, mask := mask, xaddr := addr.setWidth 32, addr := addr }

/-- The same where XADDR holds a value that is no address: a record's ADDR is 0 (R347; log 19). -/
def trapVal (code : Nat) (mask : Mask) (x : W64) : Eff := .trap { code := code, mask := mask, xaddr := x.setWidth 32 }

/-- A register result: SHAPE for a general result bound for a narrow name (R137), else the write. -/
def Env.result (e : Env) (new : VVal) : Eff :=
  if e.shapeTrap e.w.d.toNat new then e.trap cShape else .ok (e.put (e.setV e.co e.w.d.toNat new))

/-- A predicate result (R141). -/
def Env.presult (e : Env) (m : Mask) : Eff := .ok (e.put (e.co.setP e.w.d.toNat e.act m))

/-- A 64-bit result in a register pair: uniform when the sources are, else general (R136); SHAPE before either register is
written (R207). -/
def Env.result64 (e : Env) (uniform : Bool) (f : Nat → W64) : Eff :=
  let d := e.w.d.toNat
  let half (i : Nat) : VVal :=
    if uniform then .u ((f 0).extractLsb' (32 * i) 32) else VVal.ofFn (fun l => (f l).extractLsb' (32 * i) 32)
  if d = zv then .ok e.s
  else if e.shapeTrap d (half 0) then e.trap cShape
  else .ok (e.put (e.setV (e.setV e.co d (half 0)) (d + 1) (half 1)))

/-- What a priced instruction needs of an engine besides its price: the kind of wait, the class of its places, and how many
of them are free (R45, R300). -/
structure EnginePlace where
  kind : WaitKind
  cls  : Nat
  free : Nat
  deriving DecidableEq, Repr, Inhabited

/-- A place of a class is free for this instruction: as many are left as instructions that hold their price began to wait
for one before it (R45, R300). -/
def Env.placeFree (e : Env) (cls free : Nat) : Bool :=
  (e.s.placedBefore e.slot e.pc cls (((e.co.waitAt e.pc).bind (·.placed)).getD e.s.nextId)).length < free

/-- Waits of step 7 and payment (R41, R42, R45): the other things the instruction needs first, then its place in the wallet's
line and its price, then its engine place; when all are held it pays and goes on. -/
def Env.afterPaying (e : Env) (price : Nat) (needs : List (WaitKind × Bool)) (place : Option EnginePlace)
    (k : State → Eff) : Eff :=
  let cls := (place.map (·.cls)).getD 0
  match needs.find? (fun n => !n.2) with
  | some n => .wait n.1 price cls
  | none =>
    if price = 0 then k e.s
    else if !e.s.holdsPrice e.slot e.co e.pc price then .wait .tokens price cls
    else
      match place with
      | none => k (e.s.pay e.slot e.pc price)
      | some p => if e.placeFree p.cls p.free then k (e.s.pay e.slot e.pc price) else .wait p.kind price cls

end Sys2Proof.Machine
end

