-- ==== Sys2Proof/Machine/Area.lean ====
section
/-! DEFINITION. The tree area of a block's scratchpad allocation (R54, R83), the members of a gang with the bounds of their
allocations (R18, R95), and reads and writes of a core's scratchpad and weight buffer. -/

namespace Sys2Proof.Machine

/-- The offsets of the parts of the tree area, and the allocation bound (R54, R83). -/
structure Area where
  record : Nat
  inbox  : Nat
  outbox : Nat
  resbuf : Nat
  bound  : Nat
  deriving DecidableEq, Repr, Inhabited

/-- The tree area of a node's block whose kernel declares `aspb` bytes (R54). -/
def areaOf (aspb : Nat) (phase : Phase) (r : NodeRec) : Area :=
  let slots := r.nchild * r.cslot
  let (ib, ob, rb) := match phase with
    | .up => (slots, 0, r.rb)
    | .down => (r.rb, slots, 0)
  let record := roundUp aspb 64
  let inbox := record + 64
  let outbox := roundUp (inbox + ib) 16
  let resbuf := roundUp (outbox + ob) 16
  { record := record, inbox := inbox, outbox := outbox, resbuf := resbuf, bound := resbuf + rb }

/-- The kernel a node runs in a phase (R52, R71). -/
def kernelIx (phase : Phase) (r : NodeRec) : Nat :=
  match phase with
  | .up => r.kup
  | .down => r.kdn

/-! ### Gang members (R18, R95, R97) -/

/-- A block all of whose cohorts have released their slots has ended (R36). -/
def Block.ended (b : Block) : Bool := b.slots.all (·.isNone)

/-- The resident block of member `m` of a block's gang; none when it has ended. The siblings of a relaunched member count as
ended (R75). -/
def State.memberBlock (s : State) (bi : Nat) (b : Block) (m : Nat) : Option (Nat × Block) :=
  if b.member = some m then some (bi, b)
  else if b.alone || b.gang.isNone then none
  else s.blocks.find? (fun p => p.2.gang == b.gang && p.2.member == some m && !p.2.ended)

/-- The allocation bounds, ASP and WBF, of member `m`: the resident block's, or the ones its node's kernel and record give
(R83). Both are taken before the core rounds a size up; for WBF that is a DESIGN CHOICE (log 97). -/
def State.memberBounds (s : State) (bi : Nat) (b : Block) (m : Nat) : Nat × Nat :=
  match s.memberBlock bi b m with
  | some (_, t) => (t.aspBound, t.wbfBound)
  | none =>
    let node := b.node - b.member.getD 0 + m
    match s.launch b.launch with
    | none => (0, 0)
    | some l =>
      match l.nodes.look node with
      | none => (0, 0)
      | some n =>
        match l.kernels.look (kernelIx b.phase n.rcd) with
        | none => (0, 0)
        | some k => ((areaOf k.aspb b.phase n.rcd).bound, k.wbfb)

/-! ### Scratchpad and weight buffer by block-relative offset (R83) -/

def State.aspRead (s : State) (b : Block) (off n : Nat) : List Byte := bufRead (s.core b.core).asp (b.aspBase + off) n
def State.wbfRead (s : State) (b : Block) (off n : Nat) : List Byte := bufRead (s.core b.core).wbf (b.wbfBase + off) n
def State.aspWrite (s : State) (b : Block) (off : Nat) (bs : List Byte) : State :=
  s.updCore b.core (fun c => { c with asp := bufWrite c.asp (b.aspBase + off) bs })
def State.wbfWrite (s : State) (b : Block) (off : Nat) (bs : List Byte) : State :=
  s.updCore b.core (fun c => { c with wbf := bufWrite c.wbf (b.wbfBase + off) bs })

end Sys2Proof.Machine
end

