-- ==== Sys2Proof/Machine/Fetch.lean ====
section
/-! DEFINITION. Fetching an instruction (R172, R353) and the two rows that stand for words that are no instruction: the
reserved encodings of R190 and the failed fetch. -/

namespace Sys2Proof.Machine

/-- The cohort at the cursor with its block, its group's running lanes and the group's offset. -/
structure Issuer where
  slot  : Nat
  co    : Cohort
  blk   : Block
  group : Mask
  pc    : W32

/-- What the cursor names, when it names a cohort with a running lane. -/
def State.issuer (s : State) : Option Issuer := do
  let co ← s.cohort s.cur.slot
  let b ← s.block co.blk
  let group := s.cur.group &&& co.live
  if group = 0 then none else some { slot := s.cur.slot, co := co, blk := b, group := group, pc := (co.lane (lowest group)).pc }

/-- What a fetch comes to. -/
inductive FetchRes where
  | ok (bs : List Byte)
  | pastEnd
  | fault (va : W64) (e : XlatErr)

/-- Code bytes by virtual address, one translation for each piece of a page. Of the values that R173 allows a line of code that
software writes during the launch, the model takes the current one (log 75). -/
def State.codeBytes (s : State) (tlbs : List TlbEntry) (vf : Nat) (va : W64) :
    List (Nat × Nat) → Except (W64 × XlatErr) (List Byte)
  | [] => .ok []
  | (off, n) :: rest =>
    let a := va + BitVec.ofNat 64 off
    match s.translate tlbs vf a .fetch with
    | .error e => .error (a, e)
    | .ok x =>
      match s.codeBytes tlbs vf va rest with
      | .error e => .error e
      | .ok bs => .ok (s.physRead (s.vf vf).key x.pa n ++ bs)

/-- The bytes of the instruction at an offset of a kernel's code (R170, R172): word 0 below the code size, and the size that
LEN gives within it. -/
def State.fetchAt (s : State) (core vf : Nat) (code : W64) (csize : Nat) (pc : W32) : FetchRes :=
  if csize < pc.toNat + 4 then .pastEnd
  else
    let va := code + pc.setWidth 64
    let tl := s.coreTlbs core
    match s.codeBytes tl vf va (piecesOf va.toNat 4) with
    | .error (a, e) => .fault a e
    | .ok w0 =>
      let size := sizeOfLen (lenField (leW 32 w0))
      if size = 4 then .ok w0
      else if csize < pc.toNat + size then .pastEnd
      else
        match s.codeBytes tl vf va (piecesOf va.toNat size) with
        | .error (a, e) => .fault a e
        | .ok bs => .ok bs

/-- The fetch of the group at the cursor. -/
def State.fetch (s : State) (i : Issuer) : FetchRes :=
  match s.kernelOf i.blk with
  | none => .pastEnd
  | some k => s.fetchAt (coreOf i.slot) i.blk.vf k.code k.csize i.pc

/-- DETAIL of a PAGE or PERM record (R347): stage, access, malformed entry. -/
def xlatDetail (e : XlatErr) (acc : Access) : Nat :=
  if e.code = codeFormat then 0
  else bit e.stage2 + 2 * (match acc with
    | .read => 0
    | .write => 1
    | .rmw => 2
    | .fetch => 3) + 8 * bit e.malformed

/-- The record of a translation fault of an instruction (R347). -/
def xlatRecord (e : XlatErr) (acc : Access) (va : W64) (mask : Mask) : FaultInfo :=
  { code := e.code, cls := 2, detail := xlatDetail e acc, mask := mask, addr := va,
    ipa := if e.stage2 then BitVec.ofNat 64 e.ipa else 0, nest := true }

/-- ILLEGAL_ENCODING (R190): the group traps, whatever its guard (R192). -/
def execIllegalEncoding (s : State) : Host.Outcome State Fault Refusal :=
  match s.issuer with
  | none => .fault .noIssuer
  | some i => .next ((s.takeTrap i.slot i.group i.pc { code := cIllegal, mask := i.group }).mark false)

/-- FETCH_FAULT (R172, R353): a word past the code size raises ILLEGAL; a fetch that fails translation parks the cohort with PC
at the instruction fetched. A fetch that does not fail so leaves the state as it is. -/
def execFetchFault (why : FetchFault) (s : State) : Host.Outcome State Fault Refusal :=
  match s.issuer with
  | none => .fault .noIssuer
  | some i =>
    match why, s.fetch i with
    | .pastEnd, .pastEnd => .next ((s.takeTrap i.slot i.group i.pc { code := cIllegal, mask := i.group }).mark false)
    | .translation, .fault va e => .next ((s.takePark i.slot i.pc (xlatRecord e .fetch va i.group)).mark false)
    | _, _ => .next s

/-- A hint executes as NOP whatever its other fields hold (R191): the group goes on after a word of the size. -/
def State.passHint (s : State) (size : Nat) : Host.Outcome State Fault Refusal :=
  match s.issuer with
  | none => .fault .noIssuer
  | some i => .next ((s.advance i.slot i.group i.pc (i.pc + BitVec.ofNat 32 size) []).mark false)

/-- HINT (R191). -/
def execHint (_opc : BitVec 8) (w : BaseWord) (s : State) : Host.Outcome State Fault Refusal :=
  s.passHint (if w.lit.isSome then 12 else 4)

/-- HINT_EXT (R191). -/
def execHintExt (_opc : BitVec 8) (w : ExtWord) (s : State) : Host.Outcome State Fault Refusal :=
  s.passHint (if w.lit.isSome then 20 else 12)

end Sys2Proof.Machine
end

