-- ==== Sys2Proof/Machine/Lanewise.lean ====
section
/-! DEFINITION. Lane-wise instructions (R135, R136, R162, R163, R195 to R197): one result per active lane, formed from
the lane's own sources, with the shape of the propagation table and the sticky flags of the active lanes. -/

namespace Sys2Proof.Machine

/-- A lane-wise register result. `aff` is the shape and value the propagation table gives beyond "all U → U, else G"; `uni`
says that every source is uniform; `bad` says which results raise NONFINITE under TNF. -/
def Env.laneWise (e : Env) (aff : Option VVal) (uni : Bool) (bad : Nat → Bool) (f : Nat → FRes) : Eff :=
  let new : VVal :=
    match aff with
    | some v => v
    | none =>
      if uni then .u (BitVec.ofNat 32 (f (lowest e.act)).bits)
      else VVal.ofFn (fun l => if e.act.has l then BitVec.ofNat 32 (f l).bits else 0)
  if e.shapeTrap e.w.d.toNat new then e.trap cShape
  else
    let nf := e.act &&& maskOf (fun l => e.act.has l && bad (f l).bits)
    if tnf e.co.fpctl && nf != 0 then .trap { code := cNonfinite, mask := nf }
    else
      let fl := e.lanes.foldl (fun acc l => acc ||| (f l).fl) 0
      .ok (e.put (e.setV { e.co with fpctl := e.co.fpctl ||| fl } e.w.d.toNat new))

/-- Never non-finite. -/
def noBad : Nat → Bool := fun _ => false

/-- A lane-wise result of a plain word, without flags. -/
def Env.word1 (e : Env) (f : W32 → W32) : Eff :=
  e.laneWise none e.va.isU noBad (fun l => { bits := (f (e.va.at l)).toNat })
def Env.word2 (e : Env) (f : W32 → W32 → W32) : Eff :=
  e.laneWise none (e.va.isU && e.vb.isU) noBad (fun l => { bits := (f (e.va.at l) (e.vb.at l)).toNat })
def Env.word3 (e : Env) (f : W32 → W32 → W32 → W32) : Eff :=
  e.laneWise none (e.va.isU && e.vb.isU && e.vc.isU) noBad
    (fun l => { bits := (f (e.va.at l) (e.vb.at l) (e.vc.at l)).toNat })

/-! ### The propagation table's affine rows (R136, R197) -/

/-- Base and stride of a value that is not general. -/
def VVal.line : VVal → Option (W32 × W32)
  | .u b => some (b, 0)
  | .a b s => some (b, s)
  | .g _ => none

/-- The Add row: bases and strides combined by the operation; none when it gives U or G. -/
def addShape (op : W32 → W32 → W32) (x y : VVal) : Option VVal :=
  match x.line, y.line with
  | some (b, s), some (b', s') => if x.isU && y.isU then none else some (.a (op b b') (op s s'))
  | _, _ => none

/-- The Scale row for a product. -/
def mulShape (x y : VVal) : Option VVal :=
  match x, y with
  | .a b s, .u k | .u k, .a b s => some (.a (b * k) (s * k))
  | _, _ => none

/-- A left shift by a natural count (R211). -/
def shlW (a c : W32) : W32 := if c.toNat < 32 then a <<< c.toNat else 0

/-- The Scale row for SHL: only an affine value with a uniform count. -/
def shlShape (x y : VVal) : Option VVal :=
  match x, y with
  | .a b s, .u c => some (.a (shlW b c) (shlW s c))
  | _, _ => none

/-- The affine rows apply to 32-bit types without .sat (R197). -/
def Env.affOk (e : Env) : Bool := e.ty.bits == 32 && !e.w.satField

/-- The value of an addition or product with its shape as a register value, for the Fused row. -/
def mulVal (x y : VVal) : VVal :=
  match mulShape x y with
  | some v => v
  | none => if x.isU && y.isU then .u (x.at 0 * y.at 0) else VVal.ofFn (fun l => x.at l * y.at l)

/-- The Fused row (R136): Scale, then Add with the third source. -/
def madShape (x y z : VVal) : Option VVal :=
  let p := mulVal x y
  if p.isG then none else addShape (· + ·) p z

/-- A lane-wise integer result of the instruction's type (R196). -/
def Env.int2 (e : Env) (aff : Option VVal) (f : Int → Int → Int) : Eff :=
  e.laneWise (if e.affOk then aff else none) (e.va.isU && e.vb.isU) noBad
    (fun l => intResult e.ty e.w.satField (f (readInt e.ty (e.va.at l).toNat) (readInt e.ty (e.vb.at l).toNat)))

/-- The same of one source. -/
def Env.int1 (e : Env) (aff : Option VVal) (f : Int → Int) : Eff :=
  e.laneWise (if e.affOk then aff else none) e.va.isU noBad
    (fun l => intResult e.ty false (f (readInt e.ty (e.va.at l).toNat)))

end Sys2Proof.Machine
end

