-- ==== Sys2Proof/Machine/Integer.lean ====
section
/-! DEFINITION. Integer arithmetic, logic, shifts, bit fields, compares and predicates (spec/09_isa_integer_control.md R206 to
R218). Each body is an instruction's own description; the rows that issue it as a base or an extended word follow. -/

namespace Sys2Proof.Machine

def iaddBody (e : Env) : Eff := e.int2 (addShape (· + ·) e.va e.vb) (· + ·)
def isubBody (e : Env) : Eff := e.int2 (addShape (· - ·) e.va e.vb) (· - ·)
def imulBody (e : Env) : Eff := e.int2 (mulShape e.va e.vb) (· * ·)

/-- IMULH: bits 63:32 of the exact product (R206). -/
def imulhBody (e : Env) : Eff := e.int2 none (fun a b => (a * b) / 2 ^ 32)

/-- IMAD: one clamp of the exact sum under .sat (R206). -/
def imadBody (e : Env) : Eff :=
  e.laneWise (if e.affOk then madShape e.va e.vb e.vc else none) (e.va.isU && e.vb.isU && e.vc.isU) noBad
    (fun l => intResult e.ty e.w.satField
      (readInt e.ty (e.va.at l).toNat * readInt e.ty (e.vb.at l).toNat + readInt e.ty (e.vc.at l).toNat))

/-- The quotient and the remainder of R152. -/
def quot (t : Ty) (a b : Int) : Int := if b = 0 then (if t.signed then -1 else 2 ^ t.bits - 1) else a.tdiv b
def remd (_t : Ty) (a b : Int) : Int := if b = 0 then a else a.tmod b

def idivBody (e : Env) : Eff := e.int2 none (quot e.ty)
def iremBody (e : Env) : Eff := e.int2 none (remd e.ty)
def iminBody (e : Env) : Eff := e.int2 none min
def imaxBody (e : Env) : Eff := e.int2 none max
def iabsBody (e : Env) : Eff := e.int1 none (fun a => a.natAbs)

/-- INEG: the Negate row keeps an affine source affine (R136). -/
def inegBody (e : Env) : Eff :=
  e.int1 (match e.va with
    | .a b s => some (.a (-b) (-s))
    | _ => none) (fun a => -a)

/-- IADD64 (R207). -/
def iadd64Body (e : Env) : Eff :=
  e.result64 (e.co.pairU e.w.a.toNat && (e.litIn .b || e.co.pairU e.w.b.toNat)) (fun l => e.a64 l + e.b64 l)

/-- A 32-bit operand extended to 64 bits by its type (R207, R209). -/
def ext64 (t : Ty) (x : W32) : W64 := if t.signed then x.signExtend 64 else x.setWidth 64

/-- IMAD64 (R207). -/
def imad64Body (e : Env) : Eff :=
  e.result64 (e.va.isU && e.vb.isU && (e.litIn .c || e.co.pairU e.w.c.toNat))
    (fun l => ext64 e.ty (e.va.at l) * ext64 e.ty (e.vb.at l) + e.c64 l)

/-- SH of the shift layout (R208). -/
def shField (w : ExtWord) : Nat := w.sub.toNat % 8

/-- LEA (R209): the index scaled by a constant of the encoding, then the Add row. -/
def leaBody (e : Env) : Eff :=
  let k : W32 := BitVec.ofNat 32 (2 ^ shField e.w)
  let idx : VVal := match e.vb with
    | .u b => .u (b * k)
    | .a b s => .a (b * k) (s * k)
    | .g vs => .g (vs.map (· * k))
  e.laneWise (addShape (· + ·) e.va idx) (e.va.isU && idx.isU) noBad
    (fun l => { bits := (e.va.at l + idx.at l).toNat })

/-- LEA64 (R209). -/
def lea64Body (e : Env) : Eff :=
  e.result64 (e.co.pairU e.w.a.toNat && e.vb.isU)
    (fun l => e.a64 l + ext64 e.ty (e.vb.at l) * BitVec.ofNat 64 (2 ^ shField e.w))

/-! ### Logic and shifts (R210, R211) -/

def andBody (e : Env) : Eff := e.word2 (· &&& ·)
def orBody (e : Env) : Eff := e.word2 (· ||| ·)
def xorBody (e : Env) : Eff := e.word2 (· ^^^ ·)
def andnBody (e : Env) : Eff := e.word2 (fun a b => a &&& ~~~ b)
def notBody (e : Env) : Eff := e.word1 (fun a => ~~~ a)

def shlBody (e : Env) : Eff :=
  e.laneWise (shlShape e.va e.vb) (e.va.isU && e.vb.isU) noBad (fun l => { bits := (shlW (e.va.at l) (e.vb.at l)).toNat })
def shrBody (e : Env) : Eff := e.word2 (fun a c => if c.toNat < 32 then a >>> c.toNat else 0)
def sarBody (e : Env) : Eff := e.word2 (fun a c => a.sshiftRight (min c.toNat 31))
def rotBody (e : Env) : Eff := e.word2 (fun a c => a.rotateLeft (c.toNat % 32))

/-! ### Bit counts and fields (R212 to R215) -/

/-- The number of set bits. -/
def popW (a : W32) : Nat := ((List.range 32).filter (fun i => a.getLsbD i)).length
/-- Zero bits above the highest set bit, 32 for 0. -/
def clzW (a : W32) : Nat := 32 - bitLen a.toNat
/-- Zero bits below the lowest set bit, 32 for 0. -/
def ctzW (a : W32) : Nat := ((List.range 32).find? (fun i => a.getLsbD i)).getD 32

/-- The bits of the low `n` positions in reverse order. -/
def revBits (n x : Nat) : Nat := (List.range n).foldl (fun acc i => acc + (x / 2 ^ i % 2) * 2 ^ (n - 1 - i)) 0

def popcBody (e : Env) : Eff := e.word1 (fun a => BitVec.ofNat 32 (popW a))
def clzBody (e : Env) : Eff := e.word1 (fun a => BitVec.ofNat 32 (clzW a))
def ctzBody (e : Env) : Eff := e.word1 (fun a => BitVec.ofNat 32 (ctzW a))
def brevBody (e : Env) : Eff := e.word1 (fun a => BitVec.ofNat 32 (revBits 32 a.toNat))

/-- BFE (R213). -/
def bfeW (t : Ty) (a b c : W32) : W32 :=
  let p := min (b.toNat % 256) 32
  let w := min (c.toNat % 256) (32 - p)
  let f := a.toNat / 2 ^ p % 2 ^ w
  if t.signed && 0 < w then BitVec.ofInt 32 (sext f w) else BitVec.ofNat 32 f

/-- BFI (R214). -/
def bfiW (a b c : W32) : W32 :=
  let p := min (c.toNat % 256) 32
  let w := min (c.toNat / 256 % 256) (32 - p)
  let m : W32 := BitVec.ofNat 32 ((2 ^ w - 1) * 2 ^ p)
  (b &&& ~~~ m) ||| (BitVec.ofNat 32 (a.toNat * 2 ^ p) &&& m)

/-- One byte of PERMB (R215): selector `s` over the eight source bytes. -/
def permByte (a b : W32) (s : Nat) : Nat :=
  let y := (a.toNat + 2 ^ 32 * b.toNat) / 256 ^ (s % 8) % 256
  match s / 8 % 4 with
  | 0 => y
  | 1 => 0
  | 2 => if 128 ≤ y then 255 else 0
  | _ => revBits 8 y

/-- PERMB (R215). -/
def permW (a b c : W32) : W32 :=
  BitVec.ofNat 32 ((List.range 4).foldl (fun acc i => acc + permByte a b (c.toNat / 256 ^ i % 256) * 256 ^ i) 0)

def bfeBody (e : Env) : Eff := e.word3 (bfeW e.ty)
def bfiBody (e : Env) : Eff := e.word3 bfiW
def permbBody (e : Env) : Eff := e.word3 permW

/-! ### Compares and predicates (R216 to R218) -/

/-- The conditions of the compare layout that ISET takes (R182). -/
def condInt (c : Nat) (a b : Int) : Bool :=
  match c with
  | 0 => a == b
  | 1 => a != b
  | 2 => decide (a < b)
  | 3 => decide (a ≤ b)
  | 4 => decide (b < a)
  | _ => decide (b ≤ a)

/-- ISET (R216). -/
def isetBody (e : Env) : Eff :=
  let rd (x : Nat) : Int := readInt e.ty x
  e.presult (maskOf (fun l =>
    if e.ty.bits = 64 then condInt (e.w.sub.toNat % 16) (rd (e.a64 l).toNat) (rd (e.b64 l).toNat)
    else condInt (e.w.sub.toNat % 16) (rd (e.va.at l).toNat) (rd (e.vb.at l).toNat)))

/-- A predicate source by its field (R217). -/
def Env.pa (e : Env) : Mask := e.co.p e.w.a.toNat
def Env.pb (e : Env) : Mask := e.co.p e.w.b.toNat
def Env.pc' (e : Env) : Mask := e.co.p e.w.c.toNat

def pandBody (e : Env) : Eff := e.presult (e.pa &&& e.pb)
def porBody (e : Env) : Eff := e.presult (e.pa ||| e.pb)
def pxorBody (e : Env) : Eff := e.presult (e.pa ^^^ e.pb)
def pnotBody (e : Env) : Eff := e.presult (~~~ e.pa)
/-- PTOV gives a general value (R218). -/
def ptovBody (e : Env) : Eff := e.result (VVal.ofFn (fun l => if e.pa.has l then 1 else 0))
def vtopBody (e : Env) : Eff := e.presult (maskOf (fun l => e.va.at l != 0))

/-! ### The meanings of the rows, one for each constructor -/

/-- IADD. -/
def execIadd (w : BaseWord) (s : State) : Host.Outcome State Fault Refusal :=
  issueBase Cells.iadd w iaddBody s

/-- IADD_EXT. -/
def execIaddExt (w : ExtWord) (s : State) : Host.Outcome State Fault Refusal :=
  issueExt Cells.iadd w iaddBody s

/-- ISUB. -/
def execIsub (w : BaseWord) (s : State) : Host.Outcome State Fault Refusal :=
  issueBase Cells.isub w isubBody s

/-- ISUB_EXT. -/
def execIsubExt (w : ExtWord) (s : State) : Host.Outcome State Fault Refusal :=
  issueExt Cells.isub w isubBody s

/-- IMUL. -/
def execImul (w : BaseWord) (s : State) : Host.Outcome State Fault Refusal :=
  issueBase Cells.imul w imulBody s

/-- IMUL_EXT. -/
def execImulExt (w : ExtWord) (s : State) : Host.Outcome State Fault Refusal :=
  issueExt Cells.imul w imulBody s

/-- IMULH. -/
def execImulh (w : BaseWord) (s : State) : Host.Outcome State Fault Refusal :=
  issueBase Cells.imulh w imulhBody s

/-- IMULH_EXT. -/
def execImulhExt (w : ExtWord) (s : State) : Host.Outcome State Fault Refusal :=
  issueExt Cells.imulh w imulhBody s

/-- IMAD. -/
def execImad (w : ExtWord) (s : State) : Host.Outcome State Fault Refusal :=
  issueExt Cells.imad w imadBody s

/-- IDIV. -/
def execIdiv (w : BaseWord) (s : State) : Host.Outcome State Fault Refusal :=
  issueBase Cells.idiv w idivBody s

/-- IDIV_EXT. -/
def execIdivExt (w : ExtWord) (s : State) : Host.Outcome State Fault Refusal :=
  issueExt Cells.idiv w idivBody s

/-- IREM. -/
def execIrem (w : BaseWord) (s : State) : Host.Outcome State Fault Refusal :=
  issueBase Cells.irem w iremBody s

/-- IREM_EXT. -/
def execIremExt (w : ExtWord) (s : State) : Host.Outcome State Fault Refusal :=
  issueExt Cells.irem w iremBody s

/-- IMIN. -/
def execImin (w : BaseWord) (s : State) : Host.Outcome State Fault Refusal :=
  issueBase Cells.imin w iminBody s

/-- IMIN_EXT. -/
def execIminExt (w : ExtWord) (s : State) : Host.Outcome State Fault Refusal :=
  issueExt Cells.imin w iminBody s

/-- IMAX. -/
def execImax (w : BaseWord) (s : State) : Host.Outcome State Fault Refusal :=
  issueBase Cells.imax w imaxBody s

/-- IMAX_EXT. -/
def execImaxExt (w : ExtWord) (s : State) : Host.Outcome State Fault Refusal :=
  issueExt Cells.imax w imaxBody s

/-- IABS. -/
def execIabs (w : BaseWord) (s : State) : Host.Outcome State Fault Refusal :=
  issueBase Cells.iabs w iabsBody s

/-- IABS_EXT. -/
def execIabsExt (w : ExtWord) (s : State) : Host.Outcome State Fault Refusal :=
  issueExt Cells.iabs w iabsBody s

/-- INEG. -/
def execIneg (w : BaseWord) (s : State) : Host.Outcome State Fault Refusal :=
  issueBase Cells.ineg w inegBody s

/-- INEG_EXT. -/
def execInegExt (w : ExtWord) (s : State) : Host.Outcome State Fault Refusal :=
  issueExt Cells.ineg w inegBody s

/-- IADD64. -/
def execIadd64 (w : BaseWord) (s : State) : Host.Outcome State Fault Refusal :=
  issueBase Cells.iadd64 w iadd64Body s

/-- IADD64_EXT. -/
def execIadd64Ext (w : ExtWord) (s : State) : Host.Outcome State Fault Refusal :=
  issueExt Cells.iadd64 w iadd64Body s

/-- IMAD64. -/
def execImad64 (w : ExtWord) (s : State) : Host.Outcome State Fault Refusal :=
  issueExt Cells.imad64 w imad64Body s

/-- LEA. -/
def execLea (w : BaseWord) (s : State) : Host.Outcome State Fault Refusal :=
  issueBase Cells.lea w leaBody s

/-- LEA_EXT. -/
def execLeaExt (w : ExtWord) (s : State) : Host.Outcome State Fault Refusal :=
  issueExt Cells.lea w leaBody s

/-- LEA64. -/
def execLea64 (w : BaseWord) (s : State) : Host.Outcome State Fault Refusal :=
  issueBase Cells.lea64 w lea64Body s

/-- LEA64_EXT. -/
def execLea64Ext (w : ExtWord) (s : State) : Host.Outcome State Fault Refusal :=
  issueExt Cells.lea64 w lea64Body s

/-- AND. -/
def execAnd (w : BaseWord) (s : State) : Host.Outcome State Fault Refusal :=
  issueBase Cells.and w andBody s

/-- AND_EXT. -/
def execAndExt (w : ExtWord) (s : State) : Host.Outcome State Fault Refusal :=
  issueExt Cells.and w andBody s

/-- OR. -/
def execOr (w : BaseWord) (s : State) : Host.Outcome State Fault Refusal :=
  issueBase Cells.or w orBody s

/-- OR_EXT. -/
def execOrExt (w : ExtWord) (s : State) : Host.Outcome State Fault Refusal :=
  issueExt Cells.or w orBody s

/-- XOR. -/
def execXor (w : BaseWord) (s : State) : Host.Outcome State Fault Refusal :=
  issueBase Cells.xor w xorBody s

/-- XOR_EXT. -/
def execXorExt (w : ExtWord) (s : State) : Host.Outcome State Fault Refusal :=
  issueExt Cells.xor w xorBody s

/-- NOT. -/
def execNot (w : BaseWord) (s : State) : Host.Outcome State Fault Refusal :=
  issueBase Cells.not w notBody s

/-- NOT_EXT. -/
def execNotExt (w : ExtWord) (s : State) : Host.Outcome State Fault Refusal :=
  issueExt Cells.not w notBody s

/-- ANDN. -/
def execAndn (w : BaseWord) (s : State) : Host.Outcome State Fault Refusal :=
  issueBase Cells.andn w andnBody s

/-- ANDN_EXT. -/
def execAndnExt (w : ExtWord) (s : State) : Host.Outcome State Fault Refusal :=
  issueExt Cells.andn w andnBody s

/-- SHL. -/
def execShl (w : BaseWord) (s : State) : Host.Outcome State Fault Refusal :=
  issueBase Cells.shl w shlBody s

/-- SHL_EXT. -/
def execShlExt (w : ExtWord) (s : State) : Host.Outcome State Fault Refusal :=
  issueExt Cells.shl w shlBody s

/-- SHR. -/
def execShr (w : BaseWord) (s : State) : Host.Outcome State Fault Refusal :=
  issueBase Cells.shr w shrBody s

/-- SHR_EXT. -/
def execShrExt (w : ExtWord) (s : State) : Host.Outcome State Fault Refusal :=
  issueExt Cells.shr w shrBody s

/-- SAR. -/
def execSar (w : BaseWord) (s : State) : Host.Outcome State Fault Refusal :=
  issueBase Cells.sar w sarBody s

/-- SAR_EXT. -/
def execSarExt (w : ExtWord) (s : State) : Host.Outcome State Fault Refusal :=
  issueExt Cells.sar w sarBody s

/-- ROT. -/
def execRot (w : BaseWord) (s : State) : Host.Outcome State Fault Refusal :=
  issueBase Cells.rot w rotBody s

/-- ROT_EXT. -/
def execRotExt (w : ExtWord) (s : State) : Host.Outcome State Fault Refusal :=
  issueExt Cells.rot w rotBody s

/-- POPC. -/
def execPopc (w : BaseWord) (s : State) : Host.Outcome State Fault Refusal :=
  issueBase Cells.popc w popcBody s

/-- POPC_EXT. -/
def execPopcExt (w : ExtWord) (s : State) : Host.Outcome State Fault Refusal :=
  issueExt Cells.popc w popcBody s

/-- CLZ. -/
def execClz (w : BaseWord) (s : State) : Host.Outcome State Fault Refusal :=
  issueBase Cells.clz w clzBody s

/-- CLZ_EXT. -/
def execClzExt (w : ExtWord) (s : State) : Host.Outcome State Fault Refusal :=
  issueExt Cells.clz w clzBody s

/-- CTZ. -/
def execCtz (w : BaseWord) (s : State) : Host.Outcome State Fault Refusal :=
  issueBase Cells.ctz w ctzBody s

/-- CTZ_EXT. -/
def execCtzExt (w : ExtWord) (s : State) : Host.Outcome State Fault Refusal :=
  issueExt Cells.ctz w ctzBody s

/-- BREV. -/
def execBrev (w : BaseWord) (s : State) : Host.Outcome State Fault Refusal :=
  issueBase Cells.brev w brevBody s

/-- BREV_EXT. -/
def execBrevExt (w : ExtWord) (s : State) : Host.Outcome State Fault Refusal :=
  issueExt Cells.brev w brevBody s

/-- BFE. -/
def execBfe (w : ExtWord) (s : State) : Host.Outcome State Fault Refusal :=
  issueExt Cells.bfe w bfeBody s

/-- BFI. -/
def execBfi (w : ExtWord) (s : State) : Host.Outcome State Fault Refusal :=
  issueExt Cells.bfi w bfiBody s

/-- PERMB. -/
def execPermb (w : ExtWord) (s : State) : Host.Outcome State Fault Refusal :=
  issueExt Cells.permb w permbBody s

/-- ISET. -/
def execIset (w : BaseWord) (s : State) : Host.Outcome State Fault Refusal :=
  issueBase Cells.iset w isetBody s

/-- ISET_EXT. -/
def execIsetExt (w : ExtWord) (s : State) : Host.Outcome State Fault Refusal :=
  issueExt Cells.iset w isetBody s

/-- PAND. -/
def execPand (w : BaseWord) (s : State) : Host.Outcome State Fault Refusal :=
  issueBase Cells.pand w pandBody s

/-- PAND_EXT. -/
def execPandExt (w : ExtWord) (s : State) : Host.Outcome State Fault Refusal :=
  issueExt Cells.pand w pandBody s

/-- POR. -/
def execPor (w : BaseWord) (s : State) : Host.Outcome State Fault Refusal :=
  issueBase Cells.por w porBody s

/-- POR_EXT. -/
def execPorExt (w : ExtWord) (s : State) : Host.Outcome State Fault Refusal :=
  issueExt Cells.por w porBody s

/-- PXOR. -/
def execPxor (w : BaseWord) (s : State) : Host.Outcome State Fault Refusal :=
  issueBase Cells.pxor w pxorBody s

/-- PXOR_EXT. -/
def execPxorExt (w : ExtWord) (s : State) : Host.Outcome State Fault Refusal :=
  issueExt Cells.pxor w pxorBody s

/-- PNOT. -/
def execPnot (w : BaseWord) (s : State) : Host.Outcome State Fault Refusal :=
  issueBase Cells.pnot w pnotBody s

/-- PNOT_EXT. -/
def execPnotExt (w : ExtWord) (s : State) : Host.Outcome State Fault Refusal :=
  issueExt Cells.pnot w pnotBody s

/-- PTOV. -/
def execPtov (w : BaseWord) (s : State) : Host.Outcome State Fault Refusal :=
  issueBase Cells.ptov w ptovBody s

/-- PTOV_EXT. -/
def execPtovExt (w : ExtWord) (s : State) : Host.Outcome State Fault Refusal :=
  issueExt Cells.ptov w ptovBody s

/-- VTOP. -/
def execVtop (w : BaseWord) (s : State) : Host.Outcome State Fault Refusal :=
  issueBase Cells.vtop w vtopBody s

/-- VTOP_EXT. -/
def execVtopExt (w : ExtWord) (s : State) : Host.Outcome State Fault Refusal :=
  issueExt Cells.vtop w vtopBody s

end Sys2Proof.Machine
end

