-- ==== Sys2Proof/Machine/CrossLane.lean ====
section
/-! DEFINITION. Moves and the cross-lane family (R201, R202, R219 to R224). -/

namespace Sys2Proof.Machine

/-- MOV: a full issue keeps the source's tag and value (R201, R136). -/
def movBody (e : Env) : Eff := e.result e.va

/-- MOVL: the literal's bits 31:0, uniform (R201). -/
def movlBody (e : Env) : Eff := e.result (.u e.lit32)

/-- SEL: always general (R202). -/
def selBody (e : Env) : Eff := e.result (VVal.ofFn (fun l => if e.pc'.has l then e.va.at l else e.vb.at l))

/-- LANEOF: the lowest active lane in which the predicate holds, 32 when there is none (R221). -/
def laneofBody (e : Env) : Eff := e.result (.u (BitVec.ofNat 32 (lowest (e.act &&& e.pa))))

/-- NOP (R205). -/
def nopBody (e : Env) : Eff := .ok e.s

/-! ### Exchange and broadcast -/

/-- The source lane of lane `l` for each mode, with the lane's b (R219). -/
def lxchIdx (_ b : Nat) : Nat := b % 32
def lxchUp (l b : Nat) : Nat := if l < b then l else l - b
def lxchDown (l b : Nat) : Nat := if 31 < l + b then l else l + b
def lxchXor (l b : Nat) : Nat := Nat.xor l (b % 32)

/-- What a lane exchange writes (R139, R219): the source lane's value, or the lane's earlier contents when the source is
general and that lane is not active. -/
def exchange (e : Env) (src : Nat → Nat → Nat) : Eff :=
  let old := e.co.v e.w.d.toNat
  let get (l : Nat) : W32 :=
    let s := src l (e.vb.at l).toNat
    if e.act.has s || !e.va.isG then e.va.at s else old.at l
  e.result (if e.va.isU then e.va else VVal.ofFn get)

def lxchIdxBody (e : Env) : Eff := exchange e lxchIdx
def lxchUpBody (e : Env) : Eff := exchange e lxchUp
def lxchDownBody (e : Env) : Eff := exchange e lxchDown
def lxchXorBody (e : Env) : Eff := exchange e lxchXor

/-- BCAST (R220): SHAPE for a source lane number that is not uniform; a general source whose named lane is not active writes
nothing. A narrow destination of a partial issue is SHAPE before that (log 76). -/
def bcastBody (e : Env) : Eff :=
  if !e.vb.isU then e.trap cShape
  else
    let s := (e.vb.at 0).toNat % 32
    if e.shapeTrap e.w.d.toNat (.u 0) then e.trap cShape
    else if e.va.isG && !e.act.has s then .ok e.s
    else e.result (.u (e.va.at s))

/-! ### Votes and matching -/

/-- A truth value in every active lane. -/
def allLanes (b : Bool) : Mask := if b then BitVec.allOnes 32 else 0

def voteAllBody (e : Env) : Eff := e.presult (allLanes (e.act &&& ~~~ e.pa == 0))
def voteAnyBody (e : Env) : Eff := e.presult (allLanes (e.act &&& e.pa != 0))
def voteBalBody (e : Env) : Eff := e.result (.u (e.act &&& e.pa))

/-- MATCH: the active lanes whose key equals the lane's own (R223). -/
def matchLanesBody (e : Env) : Eff :=
  e.result (VVal.ofFn (fun l => e.act &&& maskOf (fun m => e.va.at m == e.va.at l)))

/-- LCOMP: the survivors' values at the lowest positions (R224). -/
def lcompBody (e : Env) : Eff :=
  let list := (maskLanes (e.act &&& e.pb)).map e.va.at
  e.result (VVal.ofFn (fun j => list.getD j 0))

/-! ### The meanings of the rows, one for each constructor -/

/-- MOV. -/
def execMov (w : BaseWord) (s : State) : Host.Outcome State Fault Refusal :=
  issueBase Cells.mov w movBody s

/-- MOV_EXT. -/
def execMovExt (w : ExtWord) (s : State) : Host.Outcome State Fault Refusal :=
  issueExt Cells.mov w movBody s

/-- MOVL. -/
def execMovl (w : BaseWord) (s : State) : Host.Outcome State Fault Refusal :=
  issueBase Cells.movl w movlBody s

/-- MOVL_EXT. -/
def execMovlExt (w : ExtWord) (s : State) : Host.Outcome State Fault Refusal :=
  issueExt Cells.movl w movlBody s

/-- SEL. -/
def execSel (w : ExtWord) (s : State) : Host.Outcome State Fault Refusal :=
  issueExt Cells.sel w selBody s

/-- LANEOF. -/
def execLaneof (w : BaseWord) (s : State) : Host.Outcome State Fault Refusal :=
  issueBase Cells.laneof w laneofBody s

/-- LANEOF_EXT. -/
def execLaneofExt (w : ExtWord) (s : State) : Host.Outcome State Fault Refusal :=
  issueExt Cells.laneof w laneofBody s

/-- NOP. -/
def execNop (w : BaseWord) (s : State) : Host.Outcome State Fault Refusal :=
  issueBase Cells.nop w nopBody s

/-- NOP_EXT. -/
def execNopExt (w : ExtWord) (s : State) : Host.Outcome State Fault Refusal :=
  issueExt Cells.nop w nopBody s

/-- LXCH_IDX. -/
def execLxchIdx (w : BaseWord) (s : State) : Host.Outcome State Fault Refusal :=
  issueBase Cells.lxchIdx w lxchIdxBody s

/-- LXCH_IDX_EXT. -/
def execLxchIdxExt (w : ExtWord) (s : State) : Host.Outcome State Fault Refusal :=
  issueExt Cells.lxchIdx w lxchIdxBody s

/-- LXCH_UP. -/
def execLxchUp (w : BaseWord) (s : State) : Host.Outcome State Fault Refusal :=
  issueBase Cells.lxchUp w lxchUpBody s

/-- LXCH_UP_EXT. -/
def execLxchUpExt (w : ExtWord) (s : State) : Host.Outcome State Fault Refusal :=
  issueExt Cells.lxchUp w lxchUpBody s

/-- LXCH_DOWN. -/
def execLxchDown (w : BaseWord) (s : State) : Host.Outcome State Fault Refusal :=
  issueBase Cells.lxchDown w lxchDownBody s

/-- LXCH_DOWN_EXT. -/
def execLxchDownExt (w : ExtWord) (s : State) : Host.Outcome State Fault Refusal :=
  issueExt Cells.lxchDown w lxchDownBody s

/-- LXCH_XOR. -/
def execLxchXor (w : BaseWord) (s : State) : Host.Outcome State Fault Refusal :=
  issueBase Cells.lxchXor w lxchXorBody s

/-- LXCH_XOR_EXT. -/
def execLxchXorExt (w : ExtWord) (s : State) : Host.Outcome State Fault Refusal :=
  issueExt Cells.lxchXor w lxchXorBody s

/-- BCAST. -/
def execBcast (w : BaseWord) (s : State) : Host.Outcome State Fault Refusal :=
  issueBase Cells.bcast w bcastBody s

/-- BCAST_EXT. -/
def execBcastExt (w : ExtWord) (s : State) : Host.Outcome State Fault Refusal :=
  issueExt Cells.bcast w bcastBody s

/-- VOTE_ALL. -/
def execVoteAll (w : BaseWord) (s : State) : Host.Outcome State Fault Refusal :=
  issueBase Cells.voteAll w voteAllBody s

/-- VOTE_ALL_EXT. -/
def execVoteAllExt (w : ExtWord) (s : State) : Host.Outcome State Fault Refusal :=
  issueExt Cells.voteAll w voteAllBody s

/-- VOTE_ANY. -/
def execVoteAny (w : BaseWord) (s : State) : Host.Outcome State Fault Refusal :=
  issueBase Cells.voteAny w voteAnyBody s

/-- VOTE_ANY_EXT. -/
def execVoteAnyExt (w : ExtWord) (s : State) : Host.Outcome State Fault Refusal :=
  issueExt Cells.voteAny w voteAnyBody s

/-- VOTE_BAL. -/
def execVoteBal (w : BaseWord) (s : State) : Host.Outcome State Fault Refusal :=
  issueBase Cells.voteBal w voteBalBody s

/-- VOTE_BAL_EXT. -/
def execVoteBalExt (w : ExtWord) (s : State) : Host.Outcome State Fault Refusal :=
  issueExt Cells.voteBal w voteBalBody s

/-- MATCH. -/
def execMatchLanes (w : BaseWord) (s : State) : Host.Outcome State Fault Refusal :=
  issueBase Cells.matchLanes w matchLanesBody s

/-- MATCH_EXT. -/
def execMatchLanesExt (w : ExtWord) (s : State) : Host.Outcome State Fault Refusal :=
  issueExt Cells.matchLanes w matchLanesBody s

/-- LCOMP. -/
def execLcomp (w : BaseWord) (s : State) : Host.Outcome State Fault Refusal :=
  issueBase Cells.lcomp w lcompBody s

/-- LCOMP_EXT. -/
def execLcompExt (w : ExtWord) (s : State) : Host.Outcome State Fault Refusal :=
  issueExt Cells.lcomp w lcompBody s

end Sys2Proof.Machine
end

