-- ==== Sys2Proof/Machine/Control.lean ====
section
/-! DEFINITION. Control flow, joins, exits, traps and the system registers (R23 to R31, R38, R140, R186, R203, R204, R225 to
R232, R303). -/

namespace Sys2Proof.Machine

/-! ### Branches (R226 to R228) -/

/-- The target in the required literal (R179). -/
def Env.target (e : Env) : W32 := e.lit32

def braBody (e : Env) : Eff := .branch e.s [(e.act, e.target)]

/-- A branch to per-lane targets (R31, R227): ILLEGAL when a target is not a multiple of 4, with the offending lanes and the
lowest one's target. Of the groups it forms, that of the lowest active lane issues first; the count of R22 goes on. -/
def Env.branchLanes (e : Env) (co : Cohort) (t : Nat → W32) : Eff :=
  let bad := e.act &&& maskOf (fun l => (t l).toNat % 4 != 0)
  if bad != 0 then .trap { code := cIllegal, mask := bad, xaddr := t (lowest bad) }
  else
    let first := lowest e.act
    .branch (e.put { co with curMask := e.act &&& maskOf (fun l => t l == t first), elected := co.elected ++ [(first, e.act)] })
      (e.lanes.map (fun l => (Mask.one l, t l)))

def brxBody (e : Env) : Eff := e.branchLanes e.co e.va.at
def retBody (e : Env) : Eff := e.branchLanes e.co e.va.at

/-- CALL: the return offset with the shape MOVL gives, then the branch (R197, R228). -/
def callBody (e : Env) : Eff :=
  if e.shapeTrap e.w.d.toNat (.u 0) then e.trap cShape
  else .branch (e.put (e.setV e.co e.w.d.toNat (.u e.next))) [(e.act, e.target)]

/-- CALLX: reads its targets before it writes the return offset (R195, R228). -/
def callxBody (e : Env) : Eff :=
  if e.shapeTrap e.w.d.toNat (.u 0) then e.trap cShape
  else e.branchLanes (e.setV e.co e.w.d.toNat (.u e.next)) e.va.at

/-! ### Joins (R23 to R27, R229) -/

/-- MEET (R23): ILLEGAL for a busy join at another address, and for a push in a lane of depth 64. -/
def meetBody (e : Env) : Eff :=
  let n := e.w.d.toNat
  let (m, a) := e.co.j n
  let deep := e.act &&& maskOf (fun l => 64 ≤ (e.co.lane l).depth)
  if m != 0 && a != e.target then e.trap cIllegal
  else if deep != 0 then .trap { code := cIllegal, mask := deep }
  else
    let co := e.co.mapLanes e.act (fun _ l => { l with meets := l.mr :: l.meets, mr := e.target })
    .ok (e.put (co.setJ n (m ||| e.act) e.target))

/-- WAITJ (R26): the active members are held; every other lane passes. -/
def waitjBody (e : Env) : Eff :=
  let n := e.w.d.toNat
  let held := e.act &&& (e.co.j n).1
  .branch (e.put (e.co.mapLanes held (fun _ l => { l with waitj := some (n, e.next) }))) [(held, e.pc)]

/-- The members of a join that are held for it: at their meeting point with the join's address, or at its WAITJ (R24,
R26). R24 speaks of the join of a lane: one that is a member of several with the same address is held for each of them, and
goes with the one that is due first, the lowest number where several are (DESIGN CHOICE, log 120). -/
def Cohort.heldFor (co : Cohort) (n : Nat) : Mask :=
  let (m, a) := co.j n
  m &&& co.live &&& maskOf (fun l =>
    let x := co.lane l
    (x.pc == x.mr && x.mr == a) || (x.waitj.map (·.1)) == some n)

/-- Every non-exited member of a join that is not empty is held for it (R25). -/
def Cohort.joinDue (co : Cohort) (n : Nat) : Bool :=
  let m := (co.j n).1 &&& co.live
  m != 0 && co.heldFor n == m

/-- The release of a join (R25, R26): each member pops its MR, a lane held at a WAITJ goes on after it, and the join is
empty. -/
def Cohort.release (co : Cohort) (n : Nat) : Cohort :=
  let (m, a) := co.j n
  let co := co.mapLanes (m &&& co.live) (fun _ l =>
    let l' := l.pop
    match l.waitj with
    | some (_, nx) => { l' with pc := nx, waitj := none }
    | none => l')
  co.setJ n 0 a

/-! ### EXIT, TRAP, BKPT, XRET (R230 to R232) -/

/-- Whether the cohort has an explicit transaction open. -/
def Env.inTx (e : Env) : Bool := e.co.tx.isSome

/-- EXIT (R27, R36, R37): ILLEGAL inside an explicit transaction (R278). -/
def exitBody (e : Env) : Eff :=
  if e.inTx then e.trap cIllegal
  else .branch (e.put (e.co.exitLanes e.act e.blk.table.isSome)) [(e.act, e.pc)]

def trapBody (e : Env) : Eff :=
  .trap { code := cTrapi, mask := e.act, xaddr := BitVec.ofNat 32 e.w.a.toNat }
def bkptBody (e : Env) : Eff := .trap { code := cBkpt, mask := e.act }

/-- XRET (R232, R343): ILLEGAL outside a handler, and with an XPC that is not a multiple of 4. -/
def xretBody (e : Env) : Eff :=
  if !e.co.hmode || e.co.xpc.toNat % 4 != 0 then e.trap cIllegal
  else .set (e.put e.co.leaveHandler)

/-! ### System registers (R203, R204) -/

/-- JSTAT of a lane (R30). -/
def jstat (co : Cohort) (l : Nat) : W32 :=
  let busy := (List.range 8).foldl (fun acc n => if (co.j n).1 != 0 then acc + 2 ^ n else acc) 0
  BitVec.ofNat 32 (2 ^ 31 * bit co.serial + 2 ^ 16 * busy + (co.lane l).depth % 128)

/-- A system register's value with the shape of R140 (R203, R55). -/
def Env.sreg (e : Env) (n : Nat) : VVal :=
  let nat (x : Nat) : VVal := .u (BitVec.ofNat 32 x)
  let core := e.core
  let cl := e.s.cluster (clusterOf core)
  match n with
  | 0 => if e.blk.table.isSome then VVal.ofFn (fun l => BitVec.ofNat 32 l) else .a 0 1
  | 1 => if e.blk.table.isSome then VVal.ofFn (fun l => BitVec.ofNat 32 (e.co.lane l).tid)
         else .a (BitVec.ofNat 32 (32 * e.co.cohid)) 1
  | 2 => nat e.co.cohid
  | 3 => nat e.blk.slots.length
  | 4 => nat e.blk.nlanes
  | 5 => nat e.blk.node
  | 6 => .u e.blk.rcd.parent
  | 7 => nat e.blk.rcd.nchild
  | 8 => nat e.blk.childix
  | 9 => nat e.blk.depth
  | 10 => nat e.blk.inbox
  | 11 => nat e.blk.outbox
  | 12 => nat e.blk.resbuf
  | 13 => nat (core % 4)
  | 14 => nat (clusterOf core % 8)
  | 15 => nat (dieOf core)
  | 16 => .u ((e.s.core core).cycle.setWidth 32)
  | 17 => nat (e.s.core core).wallet
  | 18 => nat cl.step
  | 19 => nat (e.s.die (dieOf core)).pool
  | 20 => .u e.co.fpctl
  | 21 => .u e.co.xpc
  | 22 => .u e.co.xcause
  | 23 => .u e.co.xmask
  | 24 => .u e.co.xaddr
  | 25 => .u (((e.s.launch e.blk.launch).map (·.tol)).getD 0)
  | 26 => .u e.blk.resid
  | _ => VVal.ofFn (jstat e.co)

def getsBody (e : Env) : Eff := e.result (e.sreg e.w.a.toNat)

/-- SETS (R204): SHAPE for a source that is not uniform; ILLEGAL for a reserved FPCTL bit (R161). -/
def setsBody (e : Env) : Eff :=
  if !e.va.isU then e.trap cShape
  else
    let v := e.va.at 0
    if e.w.d.toNat = 21 then .ok (e.put { e.co with xpc := v })
    else if v &&& ~~~ fpctlMask != 0 then e.trap cIllegal
    else .ok (e.put { e.co with fpctl := v })

/-! ### REGROUP (R32 to R35, R225) -/

/-- The checks of R32 that every cohort makes by itself. "Any lane's meet depth" is read as that of a lane that has not exited
(log 64). -/
def Env.regroupBad (e : Env) : Bool :=
  !e.full || (maskLanes e.co.live).any (fun l => (e.co.lane l).depth != 0) ||
  (List.range 8).any (fun n => (e.co.j n).1 != 0)

/-- The cohorts of a block that hold a lane that has not exited. -/
def State.livingCohorts (s : State) (b : Nat) : List (Nat × Cohort) :=
  (s.blockCohorts b).filter (fun p => p.2.live != 0)

/-- Arrival at a collective (R32, R34): the first cohort fixes the offset; a cohort at another offset, or with another
general allocation, raises ILLEGAL. The cohort then waits until the move, which advances it. Each check is of the cohort as a whole,
so the offending lanes are all its active lanes, also where the meet depth of some is what fails (DESIGN CHOICE, log 125). -/
def regroupLike (e : Env) (restore : Bool) : Eff :=
  let c : Collective := (e.blk.coll).getD
    { restore := restore, offset := e.pc, next := e.next, key := e.w.a.toNat, g := e.co.g, arrived := [] }
  if c.offset != e.pc || e.regroupBad || c.g != e.co.g then e.trap cIllegal
  else if c.arrived.contains e.co.cohid then .wait .collective 0 0
  else .hold (e.s.setBlock e.co.blk { e.blk with coll := some { c with arrived := c.arrived ++ [e.co.cohid] } }) .collective

def regroupBody (e : Env) : Eff := regroupLike e false

/-- REGROUP.RESTORE while no regrouping is in effect makes the first three checks and does nothing (R34). -/
def regroupRestoreBody (e : Env) : Eff :=
  if e.blk.table.isNone then (if e.regroupBad then e.trap cIllegal else .ok e.s)
  else regroupLike e true

/-! ### ALLOCREG and FREEREG (R38, R39, R303) -/

/-- Slice-registers of a core that cohorts hold, and those that none holds (R15, R39). -/
def State.slicesUsed (s : State) (core : Nat) : Nat :=
  (s.coreCohorts core).foldl (fun acc p => acc + p.2.g * ((List.range 4).filter (fun i => p.2.slices.getLsbD i)).length) 0
def State.slicePool (s : State) (core : Nat) : Nat := 32768 - s.slicesUsed core

/-- The number of slices of a cohort that hold a lane that has not exited. -/
def Cohort.liveSlices (co : Cohort) : Nat := ((List.range 4).filter (fun i => (slicesOf co.live).getLsbD i)).length

/-- Another cohort of the core began to wait in ALLOCREG earlier (R39). -/
def Env.laterInPool (e : Env) : Bool :=
  let mine := ((e.co.waitAt e.pc).map (·.since)).getD e.s.nextId
  e.s.allWaits.any (fun x => coreOf x.1 == e.core && x.2.2.kind == .registers && x.2.2.since < mine && x.1 != e.slot)

/-- ALLOCREG (R38, R39, R303). -/
def allocregBody (e : Env) : Eff :=
  let n := 8 * (e.w.a.toNat + 1)
  if e.blk.table.isSome || !e.full || 256 < n then e.trap cIllegal
  else if n ≤ e.co.g then e.presult (BitVec.allOnes 32)
  else
    let need := (n - e.co.g) * e.co.liveSlices
    if e.laterInPool || e.s.slicePool e.core < need then .wait .registers need 0
    else
      let co := { e.co with g := n, vregs := e.co.vregs.filter (fun p => p.1 < e.co.g || n ≤ p.1) }
      .ok (e.put (co.setP e.w.d.toNat e.act (BitVec.allOnes 32)))

/-- FREEREG (R38, R303). -/
def freeregBody (e : Env) : Eff :=
  let n := 8 * (e.w.a.toNat + 1)
  if e.blk.table.isSome || !e.full || 256 < n || e.co.g < n then e.trap cIllegal
  else .ok (e.put { e.co with g := n, vregs := e.co.vregs.filter (fun p => p.1 < n || 256 ≤ p.1) })

/-! ### The meanings of the rows, one for each constructor -/

/-- GETS. -/
def execGets (w : BaseWord) (s : State) : Host.Outcome State Fault Refusal :=
  issueBase Cells.gets w getsBody s

/-- GETS_EXT. -/
def execGetsExt (w : ExtWord) (s : State) : Host.Outcome State Fault Refusal :=
  issueExt Cells.gets w getsBody s

/-- SETS. -/
def execSets (w : BaseWord) (s : State) : Host.Outcome State Fault Refusal :=
  issueBase Cells.sets w setsBody s

/-- SETS_EXT. -/
def execSetsExt (w : ExtWord) (s : State) : Host.Outcome State Fault Refusal :=
  issueExt Cells.sets w setsBody s

/-- BRA. -/
def execBra (w : BaseWord) (s : State) : Host.Outcome State Fault Refusal :=
  issueBase Cells.bra w braBody s

/-- BRA_EXT. -/
def execBraExt (w : ExtWord) (s : State) : Host.Outcome State Fault Refusal :=
  issueExt Cells.bra w braBody s

/-- BRX. -/
def execBrx (w : BaseWord) (s : State) : Host.Outcome State Fault Refusal :=
  issueBase Cells.brx w brxBody s

/-- BRX_EXT. -/
def execBrxExt (w : ExtWord) (s : State) : Host.Outcome State Fault Refusal :=
  issueExt Cells.brx w brxBody s

/-- CALL. -/
def execCall (w : BaseWord) (s : State) : Host.Outcome State Fault Refusal :=
  issueBase Cells.call w callBody s

/-- CALL_EXT. -/
def execCallExt (w : ExtWord) (s : State) : Host.Outcome State Fault Refusal :=
  issueExt Cells.call w callBody s

/-- CALLX. -/
def execCallx (w : BaseWord) (s : State) : Host.Outcome State Fault Refusal :=
  issueBase Cells.callx w callxBody s

/-- CALLX_EXT. -/
def execCallxExt (w : ExtWord) (s : State) : Host.Outcome State Fault Refusal :=
  issueExt Cells.callx w callxBody s

/-- RET. -/
def execRet (w : BaseWord) (s : State) : Host.Outcome State Fault Refusal :=
  issueBase Cells.ret w retBody s

/-- RET_EXT. -/
def execRetExt (w : ExtWord) (s : State) : Host.Outcome State Fault Refusal :=
  issueExt Cells.ret w retBody s

/-- MEET. -/
def execMeet (w : BaseWord) (s : State) : Host.Outcome State Fault Refusal :=
  issueBase Cells.meet w meetBody s

/-- MEET_EXT. -/
def execMeetExt (w : ExtWord) (s : State) : Host.Outcome State Fault Refusal :=
  issueExt Cells.meet w meetBody s

/-- WAITJ. -/
def execWaitj (w : BaseWord) (s : State) : Host.Outcome State Fault Refusal :=
  issueBase Cells.waitj w waitjBody s

/-- WAITJ_EXT. -/
def execWaitjExt (w : ExtWord) (s : State) : Host.Outcome State Fault Refusal :=
  issueExt Cells.waitj w waitjBody s

/-- EXIT. -/
def execExit (w : BaseWord) (s : State) : Host.Outcome State Fault Refusal :=
  issueBase Cells.exit w exitBody s

/-- EXIT_EXT. -/
def execExitExt (w : ExtWord) (s : State) : Host.Outcome State Fault Refusal :=
  issueExt Cells.exit w exitBody s

/-- TRAP. -/
def execTrap (w : BaseWord) (s : State) : Host.Outcome State Fault Refusal :=
  issueBase Cells.trap w trapBody s

/-- TRAP_EXT. -/
def execTrapExt (w : ExtWord) (s : State) : Host.Outcome State Fault Refusal :=
  issueExt Cells.trap w trapBody s

/-- BKPT. -/
def execBkpt (w : BaseWord) (s : State) : Host.Outcome State Fault Refusal :=
  issueBase Cells.bkpt w bkptBody s

/-- BKPT_EXT. -/
def execBkptExt (w : ExtWord) (s : State) : Host.Outcome State Fault Refusal :=
  issueExt Cells.bkpt w bkptBody s

/-- XRET. -/
def execXret (w : BaseWord) (s : State) : Host.Outcome State Fault Refusal :=
  issueBase Cells.xret w xretBody s

/-- XRET_EXT. -/
def execXretExt (w : ExtWord) (s : State) : Host.Outcome State Fault Refusal :=
  issueExt Cells.xret w xretBody s

/-- REGROUP. -/
def execRegroup (w : BaseWord) (s : State) : Host.Outcome State Fault Refusal :=
  issueBase Cells.regroup w regroupBody s

/-- REGROUP_EXT. -/
def execRegroupExt (w : ExtWord) (s : State) : Host.Outcome State Fault Refusal :=
  issueExt Cells.regroup w regroupBody s

/-- REGROUP_RESTORE. -/
def execRegroupRestore (w : BaseWord) (s : State) : Host.Outcome State Fault Refusal :=
  issueBase Cells.regroupRestore w regroupRestoreBody s

/-- REGROUP_RESTORE_EXT. -/
def execRegroupRestoreExt (w : ExtWord) (s : State) : Host.Outcome State Fault Refusal :=
  issueExt Cells.regroupRestore w regroupRestoreBody s

/-- ALLOCREG. -/
def execAllocreg (w : BaseWord) (s : State) : Host.Outcome State Fault Refusal :=
  issueBase Cells.allocreg w allocregBody s

/-- ALLOCREG_EXT. -/
def execAllocregExt (w : ExtWord) (s : State) : Host.Outcome State Fault Refusal :=
  issueExt Cells.allocreg w allocregBody s

/-- FREEREG. -/
def execFreereg (w : BaseWord) (s : State) : Host.Outcome State Fault Refusal :=
  issueBase Cells.freereg w freeregBody s

/-- FREEREG_EXT. -/
def execFreeregExt (w : ExtWord) (s : State) : Host.Outcome State Fault Refusal :=
  issueExt Cells.freereg w freeregBody s

end Sys2Proof.Machine
end

