-- ==== Sys2Proof/Machine/Functions.lean ====
section
/-! DEFINITION. The correctly rounded functions of R160 and R241: 2^a, log2 a, sin a, cos a, tanh a. Each value is formed in
fixed point with 320 fraction bits, far more than any rounding of an FP32 result needs, and marked inexact: none of them is
a dyadic rational except in the cases that R160 lists, which are taken first (log 8). -/

namespace Sys2Proof.Machine

/-- Fraction bits. -/
def fpBits : Nat := 320
def fpOne : Nat := 2 ^ fpBits

/-- ⌊π × 2^512⌋. -/
def piBig : Nat := 42121870893450636219446821484559388105255997313489254605594685088103805782276098919793885372247726346443771296916333485327292916625599161542353774203832599
/-- ⌊ln 2 × 2^512⌋. -/
def ln2Big : Nat := 9293584264128987901384440660653081117630633404975079641076009770578364573633075645167623918067512986930843040596952636663673675798576024949780480621393957

def ln2Fix : Nat := ln2Big / 2 ^ 192

/-- Terms z^k / k! from the given one on. -/
def expGo (z : Nat) : Nat → Nat → Nat → Nat
  | 0, _, _ => 0
  | fuel + 1, k, term => term + expGo z fuel (k + 1) (term * z / fpOne / k)

/-- e^z for 0 ≤ z < 1. -/
def expFix (z : Nat) : Nat := expGo z 100 1 fpOne

/-- 2^k × e^r for a non-negative exponent y = k ln 2 + r. -/
def expBig (y : Nat) : Nat := expFix (y % ln2Fix) * 2 ^ (y / ln2Fix)

/-- Σ s^(2i+1) / (2i+1). -/
def atanhGo (s2 : Nat) : Nat → Nat → Nat → Nat
  | 0, _, _ => 0
  | fuel + 1, k, p => p / k + atanhGo s2 fuel (k + 2) (p * s2 / fpOne)

/-- ln m for 1 ≤ m < 2. -/
def lnFix (m : Nat) : Nat :=
  let s := (m - fpOne) * fpOne / (m + fpOne)
  2 * atanhGo (s * s / fpOne) 120 1 s

/-- The alternating series of sine (first term r, k = 1) and cosine (first term 1, k = 0) at r: term × r^2 / ((k+1)(k+2)). -/
def sinGo (r2 : Nat) : Nat → Nat → Nat → Int
  | 0, _, _ => 0
  | fuel + 1, k, term => (term : Int) - sinGo r2 fuel (k + 2) (term * r2 / fpOne / ((k + 1) * (k + 2)))

def sinFix (r : Nat) : Nat := (sinGo (r * r / fpOne) 60 1 r).toNat
def cosFix (r : Nat) : Nat := (sinGo (r * r / fpOne) 60 0 fpOne).toNat

/-- The fixed-point magnitude of m × 2^e, rounded down. -/
def toFix (m : Nat) (e : Int) : Nat :=
  let k := e + fpBits
  if 0 ≤ k then m * 2 ^ k.toNat else m / 2 ^ (-k).toNat

/-- An irrational value from its fixed-point magnitude. -/
def ofFix (neg : Bool) (v : Nat) : XVal := .fin neg v (-fpBits) true

/-- A value just below m × 2^e in magnitude, closer to it than any rounding boundary of FP32. -/
def justBelow (neg : Bool) (m : Nat) (e : Int) : XVal := .fin neg (m * 2 ^ 64 - 1) (e - 64) true

/-- The magnitude lies below 2^k. -/
def below (m : Nat) (e k : Int) : Bool := decide (e + (bitLen m : Int) ≤ k)

/-- 2^a (R160). -/
def xex2 : XVal → XRes
  | .nan => (.nan, 0)
  | .inf n => (if n then .fin false 0 0 false else .inf false, 0)
  | .fin n m e _ =>
    if m = 0 then (.fin false 1 0 false, 0)
    else if !below m e 12 then (if n then .fin false 1 (-4096) true else .fin false 1 4096 true, 0)
    else
      -- a = k + f with 0 ≤ f < 1, both exact: a is a multiple of 2^e
      let d : Nat := if e < 0 then (-e).toNat else 0
      let a : Int := scaled n m e (-(d : Int))
      let k := a / 2 ^ d
      let f := (a % 2 ^ d).toNat
      if f = 0 then (.fin false 1 k false, 0)
      else (.fin false (expFix (toFix f (-(d : Int)) * ln2Fix / fpOne)) (k - fpBits) true, 0)

/-- log2 a (R159, R160). -/
def xlg2 : XVal → XRes
  | .nan => (.nan, 0)
  | .inf n => if n then (.nan, flNV) else (.inf false, 0)
  | .fin n m e _ =>
    if m = 0 then (.inf true, flDZ)
    else if n then (.nan, flNV)
    else
      let k : Int := e + bitLen m - 1
      let x := m * 2 ^ (fpBits + 1 - bitLen m)
      if x = fpOne then (XVal.ofInt k, 0)
      else
        let v : Int := k * fpOne + (lnFix x * fpOne / ln2Fix : Nat)
        (ofFix (decide (v < 0)) v.natAbs, 0)

/-- The argument of a sine or cosine: the quadrant modulo 4 and the remainder in fixed point, of a positive m × 2^e. -/
def reduceAngle (m : Nat) (e : Int) : Nat × Nat :=
  let k := e + 511
  let x := if 0 ≤ k then m * 2 ^ k.toNat else m / 2 ^ (-k).toNat
  -- π/2 at 511 fraction bits
  let half := piBig / 4
  let q := x / half
  (q % 4, (x % half) / 2 ^ 191)

/-- sin a (R159, R160). -/
def xsin : XVal → XRes
  | .nan => (.nan, 0)
  | .inf _ => (.nan, flNV)
  | .fin n m e _ =>
    if m = 0 then (.fin n 0 0 false, 0)
    else if below m e (-40) then (justBelow n m e, 0)
    else
      let (q, r) := reduceAngle m e
      let v := if q % 2 = 0 then sinFix r else cosFix r
      (ofFix (n != (2 ≤ q)) v, 0)

/-- cos a (R159, R160). -/
def xcos : XVal → XRes
  | .nan => (.nan, 0)
  | .inf _ => (.nan, flNV)
  | .fin _ m e _ =>
    if m = 0 then (.fin false 1 0 false, 0)
    else if below m e (-40) then (justBelow false 1 0, 0)
    else
      let (q, r) := reduceAngle m e
      let v := if q % 2 = 0 then cosFix r else sinFix r
      (ofFix (q = 1 || q = 2) v, 0)

/-- tanh a (R160). -/
def xtanh : XVal → XRes
  | .nan => (.nan, 0)
  | .inf n => (.fin n 1 0 false, 0)
  | .fin n m e _ =>
    if m = 0 then (.fin n 0 0 false, 0)
    else if below m e (-40) then (justBelow n m e, 0)
    else if !below m e 6 then (justBelow n 1 0, 0)
    else
      let y := expBig (toFix m (e + 1))
      (ofFix n ((y - fpOne) * fpOne / (y + fpOne)), 0)

end Sys2Proof.Machine
end

