-- ==== Sys2Proof/Machine/Float.lean ====
section
/-! DEFINITION. Floating point, compares and classification, packed pairs, SETFP, and the conversions
(spec/10_isa_float_convert.md R233 to R253). -/

namespace Sys2Proof.Machine

/-- A non-finite element of a format (R163): a NaN or an infinity; in E4M3 only a NaN, in E3M2 never. -/
def nonFinite (f : Fmt) (bits : Nat) : Bool :=
  match f.value bits with
  | .nan => true
  | .inf _ => true
  | .fin .. => false

/-- The mode the word encodes (R181). -/
def Env.rm (e : Env) : RMode := RMode.ofField e.w.rmField

/-- FP32 value of a source in a lane. -/
def Env.fa (e : Env) (l : Nat) : XVal := v32 (e.va.at l)
def Env.fb (e : Env) (l : Nat) : XVal := v32 (e.vb.at l)
def Env.fc (e : Env) (l : Nat) : XVal := v32 (e.vc.at l)

/-- An FP32 result made under R235. -/
def Env.fp (e : Env) (uni : Bool) (x : Nat → XRes) : Eff :=
  e.laneWise none uni (nonFinite fmt32) (fun l => rounded fmt32 e.rm e.w.satField false (x l))

def Env.fp1 (e : Env) (f : XVal → XRes) : Eff := e.fp e.va.isU (fun l => f (e.fa l))
def Env.fp2 (e : Env) (f : XVal → XVal → XRes) : Eff := e.fp (e.va.isU && e.vb.isU) (fun l => f (e.fa l) (e.fb l))

def faddBody (e : Env) : Eff := e.fp2 (xadd e.rm)
def fsubBody (e : Env) : Eff := e.fp2 (fun a b => xadd e.rm a b.neg)
def fmulBody (e : Env) : Eff := e.fp2 xmul
def fdivBody (e : Env) : Eff := e.fp2 xdiv
def ffmaBody (e : Env) : Eff :=
  e.fp (e.va.isU && e.vb.isU && e.vc.isU) (fun l => xfma e.rm (e.fa l) (e.fb l) (e.fc l))

/-- a stands before b, −0 before +0 (R238). -/
def before (a b : XVal) : Bool :=
  xlt a b || (match a, b with
    | .fin true 0 _ _, .fin false 0 _ _ => true
    | _, _ => false)

/-- FMIN and FMAX (R238): the operand chosen bit for bit. -/
def pick (least : Bool) (a b : W32) : W32 :=
  match v32 a, v32 b with
  | .nan, .nan => 0x7FC00000#32
  | .nan, _ => b
  | _, .nan => a
  | x, y => if least then (if before y x then b else a) else (if before x y then b else a)

def Env.pickBody (e : Env) (least : Bool) : Eff :=
  e.laneWise none (e.va.isU && e.vb.isU) (nonFinite fmt32) (fun l => { bits := (pick least (e.va.at l) (e.vb.at l)).toNat })

def fminBody (e : Env) : Eff := e.pickBody true
def fmaxBody (e : Env) : Eff := e.pickBody false

def fabsBody (e : Env) : Eff := e.word1 (fun a => a &&& 0x7FFFFFFF#32)
def fnegBody (e : Env) : Eff := e.word1 (fun a => a ^^^ 0x80000000#32)

/-- FRND (R240). -/
def frndRes (rm : RMode) (a : W32) : FRes :=
  match v32 a with
  | .nan => { bits := fmt32.nanBits }
  | .inf _ => { bits := a.toNat }
  | .fin n m e _ =>
    if 0 ≤ e then { bits := a.toNat }
    else
      let (t, inexact) := roundTo rm n m e false 0
      { bits := (roundFmt fmt32 .rne false false (.fin n t 0 false)).bits, fl := if inexact then flNX else 0 }

def frndBody (e : Env) : Eff := e.laneWise none e.va.isU (nonFinite fmt32) (fun l => frndRes e.rm (e.va.at l))

def fsqrtBody (e : Env) : Eff := e.fp1 xsqrt
def frcpBody (e : Env) : Eff := e.fp1 xrcp
def frsqBody (e : Env) : Eff := e.fp1 xrsq
def fex2Body (e : Env) : Eff := e.fp1 xex2
def flg2Body (e : Env) : Eff := e.fp1 xlg2
def fsinBody (e : Env) : Eff := e.fp1 xsin
def fcosBody (e : Env) : Eff := e.fp1 xcos
def ftanhBody (e : Env) : Eff := e.fp1 xtanh

/-! ### Compare and classify (R242, R243) -/

/-- The FSET conditions. -/
def condFloat (c : Nat) (a b : XVal) : Bool :=
  let un := a.isNan || b.isNan
  let rel (k : Nat) : Bool :=
    match k with
    | 0 => xeq a b
    | 1 => !un && !xeq a b
    | 2 => xlt a b
    | 3 => xlt a b || xeq a b
    | 4 => xlt b a
    | _ => xlt b a || xeq a b
  if c < 6 then rel c else if c = 6 then !un else if c = 7 then un else un || rel (c - 8)

/-- The bits of a scalar of a format in a register (R150). -/
def scalarBits (f : Fmt) (x : W32) : Nat := x.toNat % 2 ^ f.width

def fsetBody (e : Env) : Eff :=
  let f := fmtOf e.ty
  e.presult (maskOf (fun l =>
    condFloat (e.w.sub.toNat % 16) (f.value (scalarBits f (e.va.at l))) (f.value (scalarBits f (e.vb.at l)))))

/-- The class of an encoding as a bit number of the mask of R243. -/
def classOf (f : Fmt) (x : Nat) : Nat :=
  match f.value x with
  | .nan => 8
  | .inf n => if n then 0 else 7
  | .fin n m _ _ =>
    if m = 0 then (if n then 3 else 4)
    else if x / 2 ^ f.mb % 2 ^ f.eb = 0 then (if n then 2 else 5)
    else (if n then 1 else 6)

def fclsBody (e : Env) : Eff :=
  let f := fmtOf e.ty
  e.presult (maskOf (fun l => e.w.sub.getLsbD (classOf f (scalarBits f (e.va.at l)))))

/-! ### Packed pairs (R244) -/

/-- Both halves made under R235: the flags are the OR over both. -/
def packed (f : Fmt) (rm : RMode) (sat : Bool) (x : Nat → XRes) : FRes :=
  let r0 := rounded f rm sat false (x 0)
  let r1 := rounded f rm sat false (x 1)
  { bits := r0.bits + 2 ^ 16 * r1.bits, fl := r0.fl ||| r1.fl }

/-- Element i of a packed word. -/
def half (f : Fmt) (x : W32) (i : Nat) : XVal := f.value (x.toNat / 2 ^ (16 * i) % 2 ^ 16)

/-- A non-finite element in either half. -/
def nonFinite2 (f : Fmt) (bits : Nat) : Bool := nonFinite f (bits % 2 ^ 16) || nonFinite f (bits / 2 ^ 16)

def Env.packed2 (e : Env) (f : Fmt) (op : XVal → XVal → XRes) : Eff :=
  e.laneWise none (e.va.isU && e.vb.isU) (nonFinite2 f)
    (fun l => packed f e.rm e.w.satField (fun i => op (half f (e.va.at l) i) (half f (e.vb.at l) i)))

def Env.packed3 (e : Env) (f : Fmt) : Eff :=
  e.laneWise none (e.va.isU && e.vb.isU && e.vc.isU) (nonFinite2 f)
    (fun l => packed f e.rm e.w.satField
      (fun i => xfma e.rm (half f (e.va.at l) i) (half f (e.vb.at l) i) (half f (e.vc.at l) i)))

def phaddBody (e : Env) : Eff := e.packed2 fmt16 (xadd e.rm)
def phmulBody (e : Env) : Eff := e.packed2 fmt16 xmul
def phfmaBody (e : Env) : Eff := e.packed3 fmt16
def pbaddBody (e : Env) : Eff := e.packed2 fmtBf (xadd e.rm)
def pbmulBody (e : Env) : Eff := e.packed2 fmtBf xmul
def pbfmaBody (e : Env) : Eff := e.packed3 fmtBf

/-! ### SETFP (R245) -/

/-- A mask with a reserved bit is ILLEGAL before the SHAPE of a narrow destination of a partial issue (log 77). -/
def setfpBody (e : Env) : Eff :=
  if !e.va.isU || !e.vb.isU then e.trap cShape
  else
    let m := e.va.at 0
    let old := e.co.fpctl
    if m &&& ~~~ fpctlMask != 0 then e.trap cIllegal
    else if e.shapeTrap e.w.d.toNat (.u old) then e.trap cShape
    else
      let co := { e.co with fpctl := (old &&& ~~~ m) ||| (e.vb.at 0 &&& m) }
      .ok (e.put (e.setV co e.w.d.toNat (.u old)))

/-! ### CVT (R246, R247) -/

/-- The source operand of a conversion in a lane: the pair for a 64-bit type, else the register. -/
def Env.cvtSrc (e : Env) (t : Ty) (l : Nat) : Nat := if t.bits = 64 then (e.a64 l).toNat else (e.va.at l).toNat

/-- Float to integer (R157, R247). -/
def floatToInt (d : Ty) (rm : RMode) (x : XVal) : Int × W32 :=
  let (lo, hi) := tyRange d
  match x with
  | .nan => (0, flNV)
  | .inf n => (if n then lo else hi, flNV)
  | .fin n m e st =>
    let (v, inexact) := roundInt rm n m e st
    let (y, c) := clampInt v lo hi
    (y, if c then flNV else if inexact then flNX else 0)

/-- An integer in its register form: extended to 32 bits, or 64 bits (R151). -/
def placeInt (d : Ty) (x : Int) : Nat := wrapN (readInt d (wrapN x d.bits)) (max 32 d.bits)

/-- One conversion (R247). -/
def convert (d s : Ty) (rm : RMode) (sat ns : Bool) (x : Nat) : FRes :=
  if s.isFloat then
    let f := fmtOf s
    let v := f.value (x % 2 ^ f.width)
    if d.isFloat then rounded (fmtOf d) rm sat ns (v, 0)
    else
      let (y, fl) := floatToInt d rm v
      { bits := placeInt d y, fl := fl }
  else
    let v := readInt s x
    if d.isFloat then rounded (fmtOf d) rm sat ns (XVal.ofInt v, 0)
    else intResult d sat v

/-- A lane-wise result in a pair, with flags (R136's Other row: all sources U gives U). -/
def Env.laneWise64 (e : Env) (uni : Bool) (f : Nat → FRes) : Eff :=
  let fl := e.lanes.foldl (fun acc l => acc ||| (f l).fl) 0
  let co := { e.co with fpctl := e.co.fpctl ||| fl }
  let e' := { e with co := co, s := e.put co }
  e'.result64 uni (fun l => BitVec.ofNat 64 (f (if uni then lowest e.act else l)).bits)

def cvtBody (e : Env) : Eff :=
  let d := e.w.dty.getD .i32
  let s := e.w.sty.getD .i32
  let uni := if s.bits = 64 then e.co.pairU e.w.a.toNat else e.va.isU
  let res (l : Nat) : FRes := convert d s e.rm e.w.satField e.w.nsField (e.cvtSrc s l)
  if d.bits = 64 then e.laneWise64 uni res
  else e.laneWise none uni (if d.isFloat then nonFinite (fmtOf d) else noBad) res

/-! ### QNT and DQNT (R248 to R250) -/

/-- Width of a quantised code. -/
def qBits (t : Ty) : Nat := if t = .q4a then 4 else 8

/-- SCALE and ZP of a scale word (R248, R89). -/
def scaleOf (w : Nat) : XVal := fmt16.value (w % 2 ^ 16)
def zpOf (t : Ty) (w : Nat) : Nat := w / 2 ^ 16 % 2 ^ qBits t

/-- One quantisation (R249). -/
def quantise (d s : Ty) (rm : RMode) (a w : Nat) : FRes :=
  let f := fmtOf s
  let zp := zpOf d w
  let qmax : Int := 2 ^ qBits d - 1
  match f.value (a % 2 ^ f.width), scaleOf w with
  | .nan, _ | _, .nan | _, .inf _ => { bits := zp, fl := flNV }
  | x, .fin ns ms es st =>
    if ms = 0 then { bits := zp, fl := flNV }
    else
      match x with
      | .inf n => { bits := if n != ns then 0 else qmax.toNat, fl := flNV }
      | x =>
        match (xdiv x (.fin ns ms es st)).1 with
        | .fin n m e st =>
          let (y, inexact) := roundInt rm n m e st
          let (q, c) := clampInt (y + zp) 0 qmax
          { bits := q.toNat, fl := (if inexact then flNX else 0) ||| (if c then flSAT else 0) }
        | _ => { bits := zp, fl := flNV }

def qntBody (e : Env) : Eff :=
  e.laneWise none (e.va.isU && e.vb.isU) noBad
    (fun l => quantise (e.w.dty.getD .q8a) (e.w.sty.getD .f32) e.rm (e.va.at l).toNat (e.vb.at l).toNat)

/-- A scale times an integer, exact (R153): a zero integer with a finite scale gives +0; another zero product takes the XOR of
the signs. -/
def scaleTimes (scale : XVal) (d : Int) : XRes :=
  match scale with
  | .nan => (.nan, 0)
  | .inf n => if d = 0 then (.nan, flNV) else (.inf (n != decide (d < 0)), 0)
  | .fin n m e st => if d = 0 then (.fin false 0 0 false, 0) else xmul (.fin n m e st) (XVal.ofInt d)

/-- Dequant (R153, R250): scale × (q − zp). -/
def dequant (scale : XVal) (q zp : Nat) : XRes := scaleTimes scale ((q : Int) - zp)

def dqntBody (e : Env) : Eff :=
  let d := fmtOf (e.w.dty.getD .f32)
  let s := e.w.sty.getD .q8a
  e.laneWise none (e.va.isU && e.vb.isU) (nonFinite d) (fun l =>
    rounded d e.rm e.w.satField false
      (dequant (scaleOf (e.vb.at l).toNat) ((e.va.at l).toNat % 2 ^ qBits s) (zpOf s (e.vb.at l).toNat)))

/-! ### Packing (R251 to R253) -/

/-- PKB (R251). -/
def pkbW (halfMode : Bool) (a b : W32) : W32 :=
  if halfMode then BitVec.ofNat 32 (a.toNat % 2 ^ 16 + 2 ^ 16 * (b.toNat % 2 ^ 16))
  else BitVec.ofNat 32 (a.toNat % 256 + 256 * (b.toNat % 256))

/-- UPKB (R252). -/
def upkbW (k : Nat) (sx : Bool) (a : W32) : W32 :=
  let y := a.toNat / 256 ^ k % 256
  if sx then BitVec.ofInt 32 (sext y 8) else BitVec.ofNat 32 y

/-- PK6 and UPK6 (R253). -/
def pk6W (a : W32) : W32 :=
  BitVec.ofNat 32 ((List.range 4).foldl (fun acc i => acc + (a.toNat / 256 ^ i % 64) * 64 ^ i) 0)
def upk6W (a : W32) : W32 :=
  BitVec.ofNat 32 ((List.range 4).foldl (fun acc i => acc + (a.toNat / 64 ^ i % 64) * 256 ^ i) 0)

def pkbBody (e : Env) : Eff := e.word2 (pkbW (e.w.sub.getLsbD 0))
def upkbBody (e : Env) : Eff := e.word1 (upkbW (e.w.sub.toNat % 4) (e.w.sub.getLsbD 2))
def pk6Body (e : Env) : Eff := e.word1 pk6W
def upk6Body (e : Env) : Eff := e.word1 upk6W

/-! ### The meanings of the rows, one for each constructor -/

/-- FSET. -/
def execFset (w : BaseWord) (s : State) : Host.Outcome State Fault Refusal :=
  issueBase Cells.fset w fsetBody s

/-- FSET_EXT. -/
def execFsetExt (w : ExtWord) (s : State) : Host.Outcome State Fault Refusal :=
  issueExt Cells.fset w fsetBody s

/-- FCLS. -/
def execFcls (w : ExtWord) (s : State) : Host.Outcome State Fault Refusal :=
  issueExt Cells.fcls w fclsBody s

/-- FADD. -/
def execFadd (w : BaseWord) (s : State) : Host.Outcome State Fault Refusal :=
  issueBase Cells.fadd w faddBody s

/-- FADD_EXT. -/
def execFaddExt (w : ExtWord) (s : State) : Host.Outcome State Fault Refusal :=
  issueExt Cells.fadd w faddBody s

/-- FSUB. -/
def execFsub (w : BaseWord) (s : State) : Host.Outcome State Fault Refusal :=
  issueBase Cells.fsub w fsubBody s

/-- FSUB_EXT. -/
def execFsubExt (w : ExtWord) (s : State) : Host.Outcome State Fault Refusal :=
  issueExt Cells.fsub w fsubBody s

/-- FMUL. -/
def execFmul (w : BaseWord) (s : State) : Host.Outcome State Fault Refusal :=
  issueBase Cells.fmul w fmulBody s

/-- FMUL_EXT. -/
def execFmulExt (w : ExtWord) (s : State) : Host.Outcome State Fault Refusal :=
  issueExt Cells.fmul w fmulBody s

/-- FFMA. -/
def execFfma (w : ExtWord) (s : State) : Host.Outcome State Fault Refusal :=
  issueExt Cells.ffma w ffmaBody s

/-- FMIN. -/
def execFmin (w : BaseWord) (s : State) : Host.Outcome State Fault Refusal :=
  issueBase Cells.fmin w fminBody s

/-- FMIN_EXT. -/
def execFminExt (w : ExtWord) (s : State) : Host.Outcome State Fault Refusal :=
  issueExt Cells.fmin w fminBody s

/-- FMAX. -/
def execFmax (w : BaseWord) (s : State) : Host.Outcome State Fault Refusal :=
  issueBase Cells.fmax w fmaxBody s

/-- FMAX_EXT. -/
def execFmaxExt (w : ExtWord) (s : State) : Host.Outcome State Fault Refusal :=
  issueExt Cells.fmax w fmaxBody s

/-- FABS. -/
def execFabs (w : BaseWord) (s : State) : Host.Outcome State Fault Refusal :=
  issueBase Cells.fabs w fabsBody s

/-- FABS_EXT. -/
def execFabsExt (w : ExtWord) (s : State) : Host.Outcome State Fault Refusal :=
  issueExt Cells.fabs w fabsBody s

/-- FNEG. -/
def execFneg (w : BaseWord) (s : State) : Host.Outcome State Fault Refusal :=
  issueBase Cells.fneg w fnegBody s

/-- FNEG_EXT. -/
def execFnegExt (w : ExtWord) (s : State) : Host.Outcome State Fault Refusal :=
  issueExt Cells.fneg w fnegBody s

/-- FRND. -/
def execFrnd (w : BaseWord) (s : State) : Host.Outcome State Fault Refusal :=
  issueBase Cells.frnd w frndBody s

/-- FRND_EXT. -/
def execFrndExt (w : ExtWord) (s : State) : Host.Outcome State Fault Refusal :=
  issueExt Cells.frnd w frndBody s

/-- FDIV. -/
def execFdiv (w : BaseWord) (s : State) : Host.Outcome State Fault Refusal :=
  issueBase Cells.fdiv w fdivBody s

/-- FDIV_EXT. -/
def execFdivExt (w : ExtWord) (s : State) : Host.Outcome State Fault Refusal :=
  issueExt Cells.fdiv w fdivBody s

/-- FSQRT. -/
def execFsqrt (w : BaseWord) (s : State) : Host.Outcome State Fault Refusal :=
  issueBase Cells.fsqrt w fsqrtBody s

/-- FSQRT_EXT. -/
def execFsqrtExt (w : ExtWord) (s : State) : Host.Outcome State Fault Refusal :=
  issueExt Cells.fsqrt w fsqrtBody s

/-- FRCP. -/
def execFrcp (w : BaseWord) (s : State) : Host.Outcome State Fault Refusal :=
  issueBase Cells.frcp w frcpBody s

/-- FRCP_EXT. -/
def execFrcpExt (w : ExtWord) (s : State) : Host.Outcome State Fault Refusal :=
  issueExt Cells.frcp w frcpBody s

/-- FRSQ. -/
def execFrsq (w : BaseWord) (s : State) : Host.Outcome State Fault Refusal :=
  issueBase Cells.frsq w frsqBody s

/-- FRSQ_EXT. -/
def execFrsqExt (w : ExtWord) (s : State) : Host.Outcome State Fault Refusal :=
  issueExt Cells.frsq w frsqBody s

/-- SETFP. -/
def execSetfp (w : BaseWord) (s : State) : Host.Outcome State Fault Refusal :=
  issueBase Cells.setfp w setfpBody s

/-- SETFP_EXT. -/
def execSetfpExt (w : ExtWord) (s : State) : Host.Outcome State Fault Refusal :=
  issueExt Cells.setfp w setfpBody s

/-- FEX2. -/
def execFex2 (w : BaseWord) (s : State) : Host.Outcome State Fault Refusal :=
  issueBase Cells.fex2 w fex2Body s

/-- FEX2_EXT. -/
def execFex2Ext (w : ExtWord) (s : State) : Host.Outcome State Fault Refusal :=
  issueExt Cells.fex2 w fex2Body s

/-- FLG2. -/
def execFlg2 (w : BaseWord) (s : State) : Host.Outcome State Fault Refusal :=
  issueBase Cells.flg2 w flg2Body s

/-- FLG2_EXT. -/
def execFlg2Ext (w : ExtWord) (s : State) : Host.Outcome State Fault Refusal :=
  issueExt Cells.flg2 w flg2Body s

/-- FSIN. -/
def execFsin (w : BaseWord) (s : State) : Host.Outcome State Fault Refusal :=
  issueBase Cells.fsin w fsinBody s

/-- FSIN_EXT. -/
def execFsinExt (w : ExtWord) (s : State) : Host.Outcome State Fault Refusal :=
  issueExt Cells.fsin w fsinBody s

/-- FCOS. -/
def execFcos (w : BaseWord) (s : State) : Host.Outcome State Fault Refusal :=
  issueBase Cells.fcos w fcosBody s

/-- FCOS_EXT. -/
def execFcosExt (w : ExtWord) (s : State) : Host.Outcome State Fault Refusal :=
  issueExt Cells.fcos w fcosBody s

/-- FTANH. -/
def execFtanh (w : BaseWord) (s : State) : Host.Outcome State Fault Refusal :=
  issueBase Cells.ftanh w ftanhBody s

/-- FTANH_EXT. -/
def execFtanhExt (w : ExtWord) (s : State) : Host.Outcome State Fault Refusal :=
  issueExt Cells.ftanh w ftanhBody s

/-- PHADD. -/
def execPhadd (w : BaseWord) (s : State) : Host.Outcome State Fault Refusal :=
  issueBase Cells.phadd w phaddBody s

/-- PHADD_EXT. -/
def execPhaddExt (w : ExtWord) (s : State) : Host.Outcome State Fault Refusal :=
  issueExt Cells.phadd w phaddBody s

/-- PHMUL. -/
def execPhmul (w : BaseWord) (s : State) : Host.Outcome State Fault Refusal :=
  issueBase Cells.phmul w phmulBody s

/-- PHMUL_EXT. -/
def execPhmulExt (w : ExtWord) (s : State) : Host.Outcome State Fault Refusal :=
  issueExt Cells.phmul w phmulBody s

/-- PHFMA. -/
def execPhfma (w : ExtWord) (s : State) : Host.Outcome State Fault Refusal :=
  issueExt Cells.phfma w phfmaBody s

/-- PBADD. -/
def execPbadd (w : BaseWord) (s : State) : Host.Outcome State Fault Refusal :=
  issueBase Cells.pbadd w pbaddBody s

/-- PBADD_EXT. -/
def execPbaddExt (w : ExtWord) (s : State) : Host.Outcome State Fault Refusal :=
  issueExt Cells.pbadd w pbaddBody s

/-- PBMUL. -/
def execPbmul (w : BaseWord) (s : State) : Host.Outcome State Fault Refusal :=
  issueBase Cells.pbmul w pbmulBody s

/-- PBMUL_EXT. -/
def execPbmulExt (w : ExtWord) (s : State) : Host.Outcome State Fault Refusal :=
  issueExt Cells.pbmul w pbmulBody s

/-- PBFMA. -/
def execPbfma (w : ExtWord) (s : State) : Host.Outcome State Fault Refusal :=
  issueExt Cells.pbfma w pbfmaBody s

/-- CVT. -/
def execCvt (w : ExtWord) (s : State) : Host.Outcome State Fault Refusal :=
  issueExt Cells.cvt w cvtBody s

/-- QNT. -/
def execQnt (w : ExtWord) (s : State) : Host.Outcome State Fault Refusal :=
  issueExt Cells.qnt w qntBody s

/-- DQNT. -/
def execDqnt (w : ExtWord) (s : State) : Host.Outcome State Fault Refusal :=
  issueExt Cells.dqnt w dqntBody s

/-- PK6. -/
def execPk6 (w : BaseWord) (s : State) : Host.Outcome State Fault Refusal :=
  issueBase Cells.pk6 w pk6Body s

/-- PK6_EXT. -/
def execPk6Ext (w : ExtWord) (s : State) : Host.Outcome State Fault Refusal :=
  issueExt Cells.pk6 w pk6Body s

/-- UPK6. -/
def execUpk6 (w : BaseWord) (s : State) : Host.Outcome State Fault Refusal :=
  issueBase Cells.upk6 w upk6Body s

/-- UPK6_EXT. -/
def execUpk6Ext (w : ExtWord) (s : State) : Host.Outcome State Fault Refusal :=
  issueExt Cells.upk6 w upk6Body s

/-- PKB. -/
def execPkb (w : BaseWord) (s : State) : Host.Outcome State Fault Refusal :=
  issueBase Cells.pkb w pkbBody s

/-- PKB_EXT. -/
def execPkbExt (w : ExtWord) (s : State) : Host.Outcome State Fault Refusal :=
  issueExt Cells.pkb w pkbBody s

/-- UPKB. -/
def execUpkb (w : BaseWord) (s : State) : Host.Outcome State Fault Refusal :=
  issueBase Cells.upkb w upkbBody s

/-- UPKB_EXT. -/
def execUpkbExt (w : ExtWord) (s : State) : Host.Outcome State Fault Refusal :=
  issueExt Cells.upkb w upkbBody s

end Sys2Proof.Machine
end

