-- ==== Sys2Proof/Machine/Memory.lean ====
section
/-! DEFINITION. Loads, stores, decoding loads, atomics, reductions and fences (spec/11_isa_memory_sync.md R254 to R265,
R278; spec/04_memory_spaces.md R82 to R98, R110 to R112). Checks in the order of R256: context, SHAPE, ALIGN, DESC, then
the waits, then the translation of every active lane. -/

namespace Sys2Proof.Machine

/-! ### What the checks share -/

/-- A surrogate run (R76). -/
def Env.surr (e : Env) : Bool := e.blk.surrogate
/-- Stores go to the block's transaction buffer, and loads look there first (R76, R80). -/
def Env.buffered (e : Env) : Bool := e.surr || e.inTx
/-- The key of the cohort's VF (R323, R359). -/
def Env.key (e : Env) : Nat := (e.s.vf e.blk.vf).key
/-- The active lanes that satisfy a test. -/
def Env.lanesThat (e : Env) (p : Nat → Bool) : Mask := e.act &&& maskOf (fun l => e.act.has l && p l)

/-- A trap over some lanes: XADDR holds the lowest of their addresses (R84, R340; log 18), and a record's ADDR the address of
the lowest lane (R347). -/
def trapLow (code : Nat) (mask : Mask) (addr : Nat → W64) : Eff :=
  let low := (maskLanes mask).foldl (fun acc l => min acc (addr l).toNat) (2 ^ 64)
  .trap { code := code, mask := mask, xaddr := BitVec.ofNat 32 low, addr := addr (lowest mask) }

/-- The same where no rule but R256 speaks of XADDR: the address of the lowest lane. -/
def trapFirst (code : Nat) (mask : Mask) (addr : Nat → W64) : Eff := trapAt code mask (addr (lowest mask))

/-- A check over the active lanes: the trap over the offending ones, or on. -/
def Env.checkLanes (e : Env) (code : Nat) (addr : Nat → W64) (bad : Nat → Bool) (k : Eff) : Eff :=
  let m := e.lanesThat bad
  if m != 0 then trapLow code m addr else k

/-- A general result into a run of registers that starts at a field (R255, R257). -/
def Env.setRun (e : Env) (co : Cohort) (d n : Nat) (f : Nat → Nat → W32) : Cohort :=
  if d = zv then co else (List.range n).foldl (fun co i => e.setV co (d + i) (VVal.ofFn (f i))) co

/-- A general result bound for a narrow name (R137). -/
def Env.shapeG (e : Env) : Bool := e.w.d.toNat != zv && 256 ≤ e.w.d.toNat

/-- Registers that hold a width (R255). -/
def regsOf (w : Nat) : Nat := cdiv w 4

/-- The word a load places in register `i` of its destination (R255). -/
def loadReg (ty : Ty) (bs : List Byte) (i : Nat) : W32 :=
  if ty.bytes < 4 then (if ty.signed then BitVec.ofInt 32 (sext (leNat bs) ty.bits) else leW 32 bs)
  else leW 32 ((bs.drop (4 * i)).take 4)

/-- The bytes a store takes from its data register or run in a lane (R255). -/
def storeBytes (co : Cohort) (n w l : Nat) : List Byte :=
  ((List.range (regsOf w)).flatMap (fun i => bytesOf32 ((if n = zv then VVal.u 0 else co.v (n + i)).at l))).take w

/-! ### Translation of the active lanes (R256) -/

/-- The park of a translation fault: the code, address and DETAIL of the lowest lane that fails, and the lanes that fail. -/
def xlatPark (s : State) (acc : Access) (mask : Mask) (va : W64) (err : XlatErr) : Eff :=
  .park s (xlatRecord err acc va mask)

/-- Every active lane translated, before any element event; the lanes' physical addresses, or the park. -/
def Env.xlatLanes (e : Env) (s : State) (acc : Access) (va : Nat → W64) (k : (Nat → Xlat) → Eff) : Eff :=
  let tl := s.coreTlbs e.core
  let rs := e.lanes.map (fun l => (l, s.translate tl e.blk.vf (va l) acc))
  let bad := rs.filterMap (fun r => match r.2 with
    | .error err => some (r.1, err)
    | .ok _ => none)
  match bad with
  | (l, err) :: _ => xlatPark s acc (maskOf (fun i => bad.any (fun b => b.1 == i))) (va l) err
  | [] => k (fun l => match rs.find? (fun r => r.1 == l) with
    | some (_, .ok x) => x
    | _ => { pa := 0, fattr := 0, page := 0, size := 1 })

/-- What the active lanes find, each for itself, before any element event; or the park of the lowest lane that fails, with
its own address and reason. -/
def Env.resolveLanes {α : Type} (e : Env) (s : State) (acc : Access) (f : Nat → Except (W64 × XlatErr) α)
    (k : (Nat → Option α) → Eff) : Eff :=
  let rs := e.lanes.map (fun l => (l, f l))
  let bad := rs.filterMap (fun r => match r.2 with
    | .error x => some (r.1, x)
    | .ok _ => none)
  match bad with
  | (_, va, err) :: _ => xlatPark s acc (maskOf (fun i => bad.any (fun b => b.1 == i))) va err
  | [] => k (fun l => match rs.find? (fun r => r.1 == l) with
    | some (_, .ok x) => some x
    | _ => none)

/-- A read of bytes at some physical addresses: a poisoned line kills the block (R388), and the instruction does not complete. -/
def Env.unlessPoisoned (e : Env) (s : State) (pas : List Nat) (k : Eff) : Eff :=
  match pas.find? s.poisoned with
  | some pa => .set (s.meetPoison e.co.blk e.slot (pa / 64))
  | none => k

/-- Every active lane translated for an access that reads. -/
def Env.readLanes (e : Env) (s : State) (acc : Access) (va : Nat → W64) (k : (Nat → Xlat) → Eff) : Eff :=
  e.xlatLanes s acc va (fun x => e.unlessPoisoned s (e.lanes.map (fun l => (x l).pa)) (k x))

/-! ### Device reads and writes by a lane -/

/-- A byte as a lane reads it: the buffered byte where the mask covers it, memory elsewhere (R76). -/
def Env.devByte (e : Env) (va pa : Nat) : Byte :=
  match if e.buffered then e.blk.buf.look va else none with
  | some b => b
  | none => e.s.physByte e.key pa

def Env.devRead (e : Env) (va : W64) (pa n : Nat) : List Byte :=
  (List.range n).map (fun i => e.devByte (va.toNat + i) (pa + i))

/-- An explicit transaction remembers the bytes a read took from memory (R277). -/
def Env.noteReads (e : Env) (co : Cohort) (va : W64) (pa n : Nat) : Cohort :=
  { co with tx := co.tx.map (fun t => { t with reads :=
      ((List.range n).filter (fun i => (e.blk.buf.look (va.toNat + i)).isNone)).map (pa + ·) ++ t.reads }) }

/-- The number of lines a buffer holds: its bytes lie in rising order. -/
def lineCount (buf : SMap Byte) : Nat :=
  (buf.foldl (fun (acc : Nat × Option Nat) p =>
    if acc.2 = some (p.1 / 64) then acc else (acc.1 + 1, some (p.1 / 64))) (0, none)).1

/-- A store to the transaction buffer; none when it needs a line and the buffer is full (R76). -/
def bufStore (b : Block) (va : Nat) (bs : List Byte) (who : BufBy) : Option Block :=
  if b.buf.any (fun p => p.1 / 64 == va / 64) || lineCount b.buf < b.bufLines then
    some { b with buf := (bs.zipIdx).foldl (fun m p => m.put (va + p.2) p.1) b.buf,
                  bufBy := (bs.zipIdx).foldl (fun m p => m.put (va + p.2) who) b.bufBy }
  else none

/-- The stores of every active lane, ascending, to the buffer. -/
def bufStores (b : Block) : List (W64 × List Byte × BufBy) → Option Block
  | [] => some b
  | (va, bs, who) :: rest => (bufStore b va.toNat bs who).bind (fun b => bufStores b rest)

/-- A lane as the buffer names it in a store that issues now. -/
def Env.bufBy (e : Env) (l : Nat) : BufBy := { store := e.s.tick, tid := (e.co.lane l).tid, cohort := e.co.cohid }

/-- A surrogate block ends at once (R76): nothing of it issues further, so none of its instructions waits any more. -/
def State.endAtOnce (s : State) (bi : Nat) (b : Block) : State :=
  { s.setBlock bi { b with overflow := true, ending := true } with
    cohorts := s.cohorts.mapVals (fun _ co => if co.blk = bi then { co with waits := [] } else co) }

/-- Overflow of the transaction buffer: an explicit transaction aborts, a surrogate block ends at once (R76, R80, R81). -/
def Env.overflow (e : Env) : Eff :=
  if e.surr then .ok (e.s.endAtOnce e.co.blk e.blk)
  else .set (e.s.abortTx e.slot txOverflow)

/-! ### LD, ST, LDQ (R258 to R260) -/

/-- Any device access with .acq or .rel is ILLEGAL in a transaction (R278). -/
def Env.ordBad (e : Env) : Bool := e.buffered && e.w.ord != 0

def ldBody (e : Env) : Eff :=
  let w := e.ty.bytes
  if e.ordBad then e.trap cIllegal
  else if e.shapeG then e.trap cShape
  else e.checkLanes cAlign e.devAddr (fun l => (e.devAddr l).toNat % w != 0) <|
    e.readLanes e.s .read e.devAddr (fun x =>
      let bytes := lanes32.map (fun l => if e.act.has l then e.devRead (e.devAddr l) (x l).pa w else [])
      let co := e.lanes.foldl (fun co l => e.noteReads co (e.devAddr l) (x l).pa w) e.co
      .ok (e.put (e.setRun co e.w.d.toNat (regsOf w) (fun i l => loadReg e.ty (bytes.getD l []) i))))

def stBody (e : Env) : Eff :=
  let w := e.ty.bytes
  if e.ordBad then e.trap cIllegal
  else e.checkLanes cAlign e.devAddr (fun l => (e.devAddr l).toNat % w != 0) <|
    e.xlatLanes e.s .write e.devAddr (fun x =>
      let data (l : Nat) := storeBytes e.co e.w.b.toNat w l
      if e.buffered then
        match bufStores e.blk (e.lanes.map (fun l => (e.devAddr l, data l, e.bufBy l))) with
        | some b => .ok (e.s.setBlock e.co.blk b)
        | none => e.overflow
      else .ok (e.lanes.foldl (fun s l => s.physWrite e.key none (x l).pa (data l)) e.s))

/-- The layout of a decodable page (R88, R89): EFMT, data-block bytes B, group G; none where R90 raises FORMAT whatever the
byte. -/
structure QFmt where
  efmt : Nat
  b    : Nat
  g    : Nat
  deriving DecidableEq, Repr, Inhabited

/-- What a format attribute describes; none for RAW and for a malformed one (R88). An attribute whose reserved bits 11:10 are not zero
is malformed, and its entry is not (DEDUCED, log 122). -/
def qfmtOf (fattr : Nat) : Option QFmt :=
  let grp := fattr / 256 % 4
  let efmt := fattr / 16 % 16
  let blk := fattr % 16
  if fattr / 1024 != 0 || efmt = 0 || 4 < efmt then none
  else if efmt = 3 || efmt = 4 then (if blk = 0 && grp = 0 then some { efmt := efmt, b := 0, g := 0 } else none)
  else if grp = 3 || 8 < blk then none
  else some { efmt := efmt, b := 256 * 2 ^ blk, g := 32 * 2 ^ grp }

/-- Elements per data block, scale-table bytes and unit bytes (R89). -/
def QFmt.elems (q : QFmt) : Nat := if q.efmt = 2 then 2 * q.b else q.b
def QFmt.unit (q : QFmt) : Nat := q.b + 4 * q.elems / q.g

/-- Whether an offset of a page names a data byte (R89, R90). -/
def QFmt.isData (q : QFmt) (off size : Nat) : Bool :=
  q.efmt == 3 || q.efmt == 4 || (off / q.unit < size / q.unit && off % q.unit < q.b)

/-- The offset, in the page, of the scale entry of an element (R89). -/
def QFmt.scaleOff (q : QFmt) (off h : Nat) : Nat :=
  let j := off % q.unit
  let elem := if q.efmt = 2 then 2 * j + h else j
  off / q.unit * q.unit + q.b + 4 * (elem / q.g)

/-- The decoded element (R90) as FP32 bits: `byte` is the data byte, `h` the nibble, `entry` the scale entry. -/
def QFmt.decode (q : QFmt) (byte h entry : Nat) : W32 :=
  match q.efmt with
  | 1 => roundF32 (dequant (scaleOf entry) byte (zpOf .q8a entry)).1
  | 2 => roundF32 (dequant (scaleOf entry) (byte / 16 ^ h % 16) (zpOf .q4a entry)).1
  | 3 => roundF32 (fmtE4.value byte)
  | _ => roundF32 (fmtE5.value byte)

/-- FORMAT (R90) at an address. -/
def formatErr : XlatErr := { code := codeFormat }

/-- What a lane of LDQ reads (R90, R260): its data byte, the page's layout and, where the format has scales, its scale entry
with the entry's own address. -/
structure QLane where
  x     : Xlat
  q     : QFmt
  entry : Option (W64 × Xlat)
  deriving Repr, Inhabited

/-- A lane of LDQ resolved: PAGE or PERM of its data byte, FORMAT, then PAGE or PERM of its scale entry (R90, R256). -/
def Env.ldqLane (e : Env) (l : Nat) : Except (W64 × XlatErr) QLane :=
  let tl := e.s.coreTlbs e.core
  let a := e.devAddr l
  match e.s.translate tl e.blk.vf a .read with
  | .error err => .error (a, err)
  | .ok x =>
    let off := a.toNat - x.page
    match qfmtOf x.fattr with
    | none => .error (a, formatErr)
    | some q =>
      if !q.isData off x.size then .error (a, formatErr)
      else if 2 < q.efmt then .ok { x := x, q := q, entry := none }
      else
        let ea : W64 := BitVec.ofNat 64 (x.page + q.scaleOff off ((e.vb.at l).toNat % 2))
        match e.s.translate tl e.blk.vf ea .read with
        | .error err => .error (ea, err)
        | .ok y => .ok { x := x, q := q, entry := some (ea, y) }

/-- The element a lane of LDQ decodes. -/
def Env.ldqValue (e : Env) (l : Nat) (r : QLane) : W32 :=
  r.q.decode (leNat (e.devRead (e.devAddr l) r.x.pa 1)) ((e.vb.at l).toNat % 2)
    (match r.entry with
     | some (a, y) => leNat (e.devRead a y.pa 4)
     | none => 0)

/-- The device addresses that the active lanes of LDQ read, with their widths. -/
def Env.ldqReads (e : Env) (r : Nat → Option QLane) : List (W64 × Nat × Nat) :=
  e.lanes.flatMap (fun l => match r l with
    | none => []
    | some q => (e.devAddr l, q.x.pa, 1) :: (match q.entry with
      | some (a, y) => [(a, y.pa, 4)]
      | none => []))

def ldqBody (e : Env) : Eff :=
  if e.ordBad then e.trap cIllegal
  else if e.shapeG then e.trap cShape
  else e.resolveLanes e.s .read e.ldqLane (fun r =>
    e.unlessPoisoned e.s ((e.ldqReads r).map (fun x => x.2.1)) <|
      let vals := lanes32.map (fun l => if e.act.has l then ((r l).map (e.ldqValue l)).getD 0 else 0)
      let co := (e.ldqReads r).foldl (fun co x => e.noteReads co x.1 x.2.1 x.2.2) e.co
      .ok (e.put (e.setRun co e.w.d.toNat 1 (fun _ l => vals.getD l 0))))

/-! ### Buffers and peers (R261, R262, R83, R84, R93, R95 to R97) -/

/-- The offset named in a lane, as a 64-bit address for XADDR. -/
def Env.bufAddr (e : Env) (l : Nat) : W64 := (e.va.at l).setWidth 64

/-- A load from the block's own ASP or WBF. -/
def Env.loadBuf (e : Env) (bound : Nat) (read : Nat → Nat → List Byte) : Eff :=
  let w := e.ty.bytes
  if e.shapeG then e.trap cShape
  else e.checkLanes cAlign e.bufAddr (fun l => (e.va.at l).toNat % w != 0) <|
    e.checkLanes cDesc e.bufAddr (fun l => bound < (e.va.at l).toNat + w) <|
      let bytes := lanes32.map (fun l => if e.act.has l then read (e.va.at l).toNat w else [])
      .ok (e.put (e.setRun e.co e.w.d.toNat (regsOf w) (fun i l => loadReg e.ty (bytes.getD l []) i)))

def ldsBody (e : Env) : Eff := e.loadBuf e.blk.aspBound (e.s.aspRead e.blk)
def ldwBody (e : Env) : Eff := e.loadBuf e.blk.wbfBound (e.s.wbfRead e.blk)

def stsBody (e : Env) : Eff :=
  let w := e.ty.bytes
  e.checkLanes cAlign e.bufAddr (fun l => (e.va.at l).toNat % w != 0) <|
    e.checkLanes cDesc e.bufAddr (fun l => e.blk.aspBound < (e.va.at l).toNat + w) <|
      .ok (e.lanes.foldl (fun s l => s.aspWrite e.blk (e.va.at l).toNat (storeBytes e.co e.w.b.toNat w l)) e.s)

/-- The member and the offset of a peer address (R95). -/
def peerMember (a : W32) : Nat := a.toNat / 2 ^ 22 % 4
def peerOffset (a : W32) : Nat := a.toNat % 2 ^ 22

/-- A range of `n` bytes at a peer address breaks R95. -/
def Env.peerBad (e : Env) (a : W32) (n : Nat) : Bool :=
  a.toNat / 2 ^ 24 != 0 || (e.s.memberBounds e.co.blk e.blk (peerMember a)).1 < peerOffset a + n

/-- The block a peer address names (R97). -/
def Env.peerBlock (e : Env) (a : W32) : Option (Nat × Block) := e.s.memberBlock e.co.blk e.blk (peerMember a)

/-- The park of PEERGONE over lanes, with the peer address of the lowest (R97). -/
def Env.peerGone (e : Env) (mask : Mask) (a : W32) : Eff :=
  .park e.s { code := codePeerGone, cls := 2, mask := mask, addr := a.setWidth 64, nest := true }

/-- The checks of a lane-wise peer access, then its effect. -/
def Env.peerLanes (e : Env) (k : Eff) : Eff :=
  let w := e.ty.bytes
  e.checkLanes cAlign e.bufAddr (fun l => (e.va.at l).toNat % w != 0) <|
    let far := e.lanesThat (fun l => e.peerBad (e.va.at l) w)
    if far != 0 then trapFirst cDesc far e.bufAddr
    else
      let gone := e.lanesThat (fun l => (e.peerBlock (e.va.at l)).isNone)
      if gone != 0 then e.peerGone gone (e.va.at (lowest gone)) else k

def ldsPeerBody (e : Env) : Eff :=
  let w := e.ty.bytes
  if e.blk.member.isNone then e.trap cIllegal
  else if e.shapeG then e.trap cShape
  else e.peerLanes <|
    let read (l : Nat) : List Byte := match e.peerBlock (e.va.at l) with
      | some (_, b) => e.s.aspRead b (peerOffset (e.va.at l)) w
      | none => []
    let bytes := lanes32.map (fun l => if e.act.has l then read l else [])
    .ok (e.put (e.setRun e.co e.w.d.toNat (regsOf w) (fun i l => loadReg e.ty (bytes.getD l []) i)))

def stsPeerBody (e : Env) : Eff :=
  let w := e.ty.bytes
  if e.buffered || e.blk.member.isNone then e.trap cIllegal
  else e.peerLanes <|
    .ok (e.lanes.foldl (fun s l => match e.peerBlock (e.va.at l) with
      | some (_, b) => s.aspWrite b (peerOffset (e.va.at l)) (storeBytes e.co e.w.b.toNat w l)
      | none => s) e.s)

/-! ### ATOM (R263) -/

/-- The operations of R263 and R110 on elements of a type. -/
inductive AtomOp where
  | add | fadd | min | max | and | or | xor | xchg | cas
  deriving DecidableEq, Repr, Inhabited

/-- The new value from the old one, the operand and, for cas, the replacement; none for no write. -/
def AtomOp.new (op : AtomOp) (ty : Ty) (old b c : Nat) : Option Nat :=
  match op with
  | .add => some ((old + b) % 2 ^ ty.bits)
  | .fadd => some (addF32 (BitVec.ofNat 32 old) (BitVec.ofNat 32 b)).toNat
  | .min => some (if readInt ty b < readInt ty old then b else old)
  | .max => some (if readInt ty old < readInt ty b then b else old)
  | .and => some (old &&& b)
  | .or => some (old ||| b)
  | .xor => some (old ^^^ b)
  | .xchg => some b
  | .cas => if old = b then some c else none

/-- The bytes of a value of a width. -/
def valBytes (w v : Nat) : List Byte := bytesLE w v

/-- One lane's read-modify-write at a time, ascending: the state and the old values. -/
def Env.atomLanes (e : Env) (op : AtomOp) (w : Nat) (x : Nat → Xlat) :
    List Nat → State → List (Nat × List Byte) → State × List (Nat × List Byte)
  | [], s, old => (s, old)
  | l :: rest, s, old =>
    let bs := s.physRead e.key (x l).pa w
    let b := leNat (storeBytes e.co e.w.b.toNat w l)
    let c := leNat (storeBytes e.co e.w.c.toNat w l)
    let s := match op.new e.ty (leNat bs) b c with
      | some v => s.physWrite e.key none (x l).pa (valBytes w v)
      | none => s
    e.atomLanes op w x rest s ((l, bs) :: old)

def Env.atom (e : Env) (op : AtomOp) : Eff :=
  let w := e.ty.bytes
  if e.buffered then e.trap cIllegal
  else if e.shapeG then e.trap cShape
  else e.checkLanes cAlign e.devAddr (fun l => (e.devAddr l).toNat % w != 0) <|
    e.readLanes e.s .rmw e.devAddr (fun x =>
      let (s, old) := e.atomLanes op w x e.lanes e.s []
      let ty : Ty := if w = 8 then .b64 else .b32
      let val (i l : Nat) : W32 := match old.find? (fun p => p.1 == l) with
        | some (_, bs) => loadReg ty bs i
        | none => 0
      .ok (s.setCohort e.slot (e.setRun e.co e.w.d.toNat (regsOf w) val)))

def atomAddBody (e : Env) : Eff := e.atom .add
def atomFaddBody (e : Env) : Eff := e.atom .fadd
def atomMinBody (e : Env) : Eff := e.atom .min
def atomMaxBody (e : Env) : Eff := e.atom .max
def atomAndBody (e : Env) : Eff := e.atom .and
def atomOrBody (e : Env) : Eff := e.atom .or
def atomXorBody (e : Env) : Eff := e.atom .xor
def atomXchgBody (e : Env) : Eff := e.atom .xchg
def atomCasBody (e : Env) : Eff := e.atom .cas

/-! ### RED (R110, R111, R264) -/

/-- The combiner: a lane's value joins the request of its element, or opens one (R110): the element's address, the value so far,
the first lane, and the lanes that have joined. -/
def combine (op : AtomOp) (ty : Ty) (va : W64) (v : Nat) : List (W64 × Nat × Nat × Mask) → Nat → List (W64 × Nat × Nat × Mask)
  | [], l => [(va, v, l, maskOf (· == l))]
  | (a, x, l0, m) :: rest, l =>
    if a = va then (a, (op.new ty x v 0).getD x, l0, m ||| maskOf (· == l)) :: rest
    else (a, x, l0, m) :: combine op ty va v rest l

def Env.red (e : Env) (op : AtomOp) : Eff :=
  let w := e.ty.bytes
  if e.buffered then e.trap cIllegal
  else e.checkLanes cAlign e.devAddr (fun l => (e.devAddr l).toNat % w != 0) <|
    e.afterPaying (cdiv (popc e.act) 8) [(.counter, e.co.ocCount 3 < 63)] none (fun s =>
      e.xlatLanes s .rmw e.devAddr (fun x =>
        let reqs := e.lanes.foldl (fun acc l =>
          combine op e.ty (e.devAddr l) (leNat (storeBytes e.co e.w.b.toNat w l)) acc l) []
        let (id, s) := s.fresh
        let request (r : W64 × Nat × Nat × Mask) : RedReq :=
          { id := id, slot := e.slot, vf := e.blk.vf, opc := e.cell.opc, ty := e.ty, va := r.1, pa := (x r.2.2.1).pa,
            ipa := (x r.2.2.1).ipa, value := BitVec.ofNat 64 r.2.1, lanes := r.2.2.2 }
        let s := { s with reds := s.reds ++ reqs.map request }
        .ok (s.updCohort e.slot (fun co => co.ocPost 3 id))))

def redAddBody (e : Env) : Eff := e.red .add
def redFaddBody (e : Env) : Eff := e.red .fadd
def redMinBody (e : Env) : Eff := e.red .min
def redMaxBody (e : Env) : Eff := e.red .max
def redAndBody (e : Env) : Eff := e.red .and
def redOrBody (e : Env) : Eff := e.red .or
def redXorBody (e : Env) : Eff := e.red .xor

/-- The operation of a reduction cell (R254). -/
def redOp (opc : Nat) : AtomOp :=
  match opc with
  | 0xB0 => .add
  | 0xB1 => .fadd
  | 0xB2 => .min
  | 0xB3 => .max
  | 0xB4 => .and
  | 0xB5 => .or
  | _ => .xor

/-- The partition applies one request atomically (R111). -/
def State.applyRed (s : State) (r : RedReq) : State :=
  let w := r.ty.bytes
  let key := (s.vf r.vf).key
  match (redOp r.opc).new r.ty (leNat (s.physRead key r.pa w)) r.value.toNat 0 with
  | some v => s.physWrite key none r.pa (valBytes w v)
  | none => s

/-! ### Fences (R265) -/

/-- A fence orders accesses that already stand at their points of the one store (log 3); it writes nothing. -/
def Env.fence (e : Env) : Eff := .ok e.s

def fenceCohBody (e : Env) : Eff := e.fence
def fenceBlkBody (e : Env) : Eff := e.fence
def fenceCoreBody (e : Env) : Eff := e.fence
def fenceCluBody (e : Env) : Eff := e.fence
def fenceDieBody (e : Env) : Eff := e.fence
def fenceDevBody (e : Env) : Eff := e.fence
def fenceSysBody (e : Env) : Eff := e.fence

/-! ### The meanings of the rows, one for each constructor -/

/-- LD. -/
def execLd (w : BaseWord) (s : State) : Host.Outcome State Fault Refusal :=
  issueBase Cells.ld w ldBody s

/-- LD_EXT. -/
def execLdExt (w : ExtWord) (s : State) : Host.Outcome State Fault Refusal :=
  issueExt Cells.ld w ldBody s

/-- ST. -/
def execSt (w : BaseWord) (s : State) : Host.Outcome State Fault Refusal :=
  issueBase Cells.st w stBody s

/-- ST_EXT. -/
def execStExt (w : ExtWord) (s : State) : Host.Outcome State Fault Refusal :=
  issueExt Cells.st w stBody s

/-- LDQ. -/
def execLdq (w : ExtWord) (s : State) : Host.Outcome State Fault Refusal :=
  issueExt Cells.ldq w ldqBody s

/-- LDS. -/
def execLds (w : BaseWord) (s : State) : Host.Outcome State Fault Refusal :=
  issueBase Cells.lds w ldsBody s

/-- LDS_EXT. -/
def execLdsExt (w : ExtWord) (s : State) : Host.Outcome State Fault Refusal :=
  issueExt Cells.lds w ldsBody s

/-- STS. -/
def execSts (w : BaseWord) (s : State) : Host.Outcome State Fault Refusal :=
  issueBase Cells.sts w stsBody s

/-- STS_EXT. -/
def execStsExt (w : ExtWord) (s : State) : Host.Outcome State Fault Refusal :=
  issueExt Cells.sts w stsBody s

/-- LDS_PEER. -/
def execLdsPeer (w : ExtWord) (s : State) : Host.Outcome State Fault Refusal :=
  issueExt Cells.ldsPeer w ldsPeerBody s

/-- STS_PEER. -/
def execStsPeer (w : ExtWord) (s : State) : Host.Outcome State Fault Refusal :=
  issueExt Cells.stsPeer w stsPeerBody s

/-- LDW. -/
def execLdw (w : BaseWord) (s : State) : Host.Outcome State Fault Refusal :=
  issueBase Cells.ldw w ldwBody s

/-- LDW_EXT. -/
def execLdwExt (w : ExtWord) (s : State) : Host.Outcome State Fault Refusal :=
  issueExt Cells.ldw w ldwBody s

/-- ATOM_ADD. -/
def execAtomAdd (w : BaseWord) (s : State) : Host.Outcome State Fault Refusal :=
  issueBase Cells.atomAdd w atomAddBody s

/-- ATOM_ADD_EXT. -/
def execAtomAddExt (w : ExtWord) (s : State) : Host.Outcome State Fault Refusal :=
  issueExt Cells.atomAdd w atomAddBody s

/-- ATOM_FADD. -/
def execAtomFadd (w : BaseWord) (s : State) : Host.Outcome State Fault Refusal :=
  issueBase Cells.atomFadd w atomFaddBody s

/-- ATOM_FADD_EXT. -/
def execAtomFaddExt (w : ExtWord) (s : State) : Host.Outcome State Fault Refusal :=
  issueExt Cells.atomFadd w atomFaddBody s

/-- ATOM_MIN. -/
def execAtomMin (w : BaseWord) (s : State) : Host.Outcome State Fault Refusal :=
  issueBase Cells.atomMin w atomMinBody s

/-- ATOM_MIN_EXT. -/
def execAtomMinExt (w : ExtWord) (s : State) : Host.Outcome State Fault Refusal :=
  issueExt Cells.atomMin w atomMinBody s

/-- ATOM_MAX. -/
def execAtomMax (w : BaseWord) (s : State) : Host.Outcome State Fault Refusal :=
  issueBase Cells.atomMax w atomMaxBody s

/-- ATOM_MAX_EXT. -/
def execAtomMaxExt (w : ExtWord) (s : State) : Host.Outcome State Fault Refusal :=
  issueExt Cells.atomMax w atomMaxBody s

/-- ATOM_AND. -/
def execAtomAnd (w : BaseWord) (s : State) : Host.Outcome State Fault Refusal :=
  issueBase Cells.atomAnd w atomAndBody s

/-- ATOM_AND_EXT. -/
def execAtomAndExt (w : ExtWord) (s : State) : Host.Outcome State Fault Refusal :=
  issueExt Cells.atomAnd w atomAndBody s

/-- ATOM_OR. -/
def execAtomOr (w : BaseWord) (s : State) : Host.Outcome State Fault Refusal :=
  issueBase Cells.atomOr w atomOrBody s

/-- ATOM_OR_EXT. -/
def execAtomOrExt (w : ExtWord) (s : State) : Host.Outcome State Fault Refusal :=
  issueExt Cells.atomOr w atomOrBody s

/-- ATOM_XOR. -/
def execAtomXor (w : BaseWord) (s : State) : Host.Outcome State Fault Refusal :=
  issueBase Cells.atomXor w atomXorBody s

/-- ATOM_XOR_EXT. -/
def execAtomXorExt (w : ExtWord) (s : State) : Host.Outcome State Fault Refusal :=
  issueExt Cells.atomXor w atomXorBody s

/-- ATOM_XCHG. -/
def execAtomXchg (w : BaseWord) (s : State) : Host.Outcome State Fault Refusal :=
  issueBase Cells.atomXchg w atomXchgBody s

/-- ATOM_XCHG_EXT. -/
def execAtomXchgExt (w : ExtWord) (s : State) : Host.Outcome State Fault Refusal :=
  issueExt Cells.atomXchg w atomXchgBody s

/-- ATOM_CAS. -/
def execAtomCas (w : ExtWord) (s : State) : Host.Outcome State Fault Refusal :=
  issueExt Cells.atomCas w atomCasBody s

/-- RED_ADD. -/
def execRedAdd (w : BaseWord) (s : State) : Host.Outcome State Fault Refusal :=
  issueBase Cells.redAdd w redAddBody s

/-- RED_ADD_EXT. -/
def execRedAddExt (w : ExtWord) (s : State) : Host.Outcome State Fault Refusal :=
  issueExt Cells.redAdd w redAddBody s

/-- RED_FADD. -/
def execRedFadd (w : BaseWord) (s : State) : Host.Outcome State Fault Refusal :=
  issueBase Cells.redFadd w redFaddBody s

/-- RED_FADD_EXT. -/
def execRedFaddExt (w : ExtWord) (s : State) : Host.Outcome State Fault Refusal :=
  issueExt Cells.redFadd w redFaddBody s

/-- RED_MIN. -/
def execRedMin (w : BaseWord) (s : State) : Host.Outcome State Fault Refusal :=
  issueBase Cells.redMin w redMinBody s

/-- RED_MIN_EXT. -/
def execRedMinExt (w : ExtWord) (s : State) : Host.Outcome State Fault Refusal :=
  issueExt Cells.redMin w redMinBody s

/-- RED_MAX. -/
def execRedMax (w : BaseWord) (s : State) : Host.Outcome State Fault Refusal :=
  issueBase Cells.redMax w redMaxBody s

/-- RED_MAX_EXT. -/
def execRedMaxExt (w : ExtWord) (s : State) : Host.Outcome State Fault Refusal :=
  issueExt Cells.redMax w redMaxBody s

/-- RED_AND. -/
def execRedAnd (w : BaseWord) (s : State) : Host.Outcome State Fault Refusal :=
  issueBase Cells.redAnd w redAndBody s

/-- RED_AND_EXT. -/
def execRedAndExt (w : ExtWord) (s : State) : Host.Outcome State Fault Refusal :=
  issueExt Cells.redAnd w redAndBody s

/-- RED_OR. -/
def execRedOr (w : BaseWord) (s : State) : Host.Outcome State Fault Refusal :=
  issueBase Cells.redOr w redOrBody s

/-- RED_OR_EXT. -/
def execRedOrExt (w : ExtWord) (s : State) : Host.Outcome State Fault Refusal :=
  issueExt Cells.redOr w redOrBody s

/-- RED_XOR. -/
def execRedXor (w : BaseWord) (s : State) : Host.Outcome State Fault Refusal :=
  issueBase Cells.redXor w redXorBody s

/-- RED_XOR_EXT. -/
def execRedXorExt (w : ExtWord) (s : State) : Host.Outcome State Fault Refusal :=
  issueExt Cells.redXor w redXorBody s

/-- FENCE_COH. -/
def execFenceCoh (w : BaseWord) (s : State) : Host.Outcome State Fault Refusal :=
  issueBase Cells.fenceCoh w fenceCohBody s

/-- FENCE_COH_EXT. -/
def execFenceCohExt (w : ExtWord) (s : State) : Host.Outcome State Fault Refusal :=
  issueExt Cells.fenceCoh w fenceCohBody s

/-- FENCE_BLK. -/
def execFenceBlk (w : BaseWord) (s : State) : Host.Outcome State Fault Refusal :=
  issueBase Cells.fenceBlk w fenceBlkBody s

/-- FENCE_BLK_EXT. -/
def execFenceBlkExt (w : ExtWord) (s : State) : Host.Outcome State Fault Refusal :=
  issueExt Cells.fenceBlk w fenceBlkBody s

/-- FENCE_CORE. -/
def execFenceCore (w : BaseWord) (s : State) : Host.Outcome State Fault Refusal :=
  issueBase Cells.fenceCore w fenceCoreBody s

/-- FENCE_CORE_EXT. -/
def execFenceCoreExt (w : ExtWord) (s : State) : Host.Outcome State Fault Refusal :=
  issueExt Cells.fenceCore w fenceCoreBody s

/-- FENCE_CLU. -/
def execFenceClu (w : BaseWord) (s : State) : Host.Outcome State Fault Refusal :=
  issueBase Cells.fenceClu w fenceCluBody s

/-- FENCE_CLU_EXT. -/
def execFenceCluExt (w : ExtWord) (s : State) : Host.Outcome State Fault Refusal :=
  issueExt Cells.fenceClu w fenceCluBody s

/-- FENCE_DIE. -/
def execFenceDie (w : BaseWord) (s : State) : Host.Outcome State Fault Refusal :=
  issueBase Cells.fenceDie w fenceDieBody s

/-- FENCE_DIE_EXT. -/
def execFenceDieExt (w : ExtWord) (s : State) : Host.Outcome State Fault Refusal :=
  issueExt Cells.fenceDie w fenceDieBody s

/-- FENCE_DEV. -/
def execFenceDev (w : BaseWord) (s : State) : Host.Outcome State Fault Refusal :=
  issueBase Cells.fenceDev w fenceDevBody s

/-- FENCE_DEV_EXT. -/
def execFenceDevExt (w : ExtWord) (s : State) : Host.Outcome State Fault Refusal :=
  issueExt Cells.fenceDev w fenceDevBody s

/-- FENCE_SYS. -/
def execFenceSys (w : BaseWord) (s : State) : Host.Outcome State Fault Refusal :=
  issueBase Cells.fenceSys w fenceSysBody s

/-- FENCE_SYS_EXT. -/
def execFenceSysExt (w : ExtWord) (s : State) : Host.Outcome State Fault Refusal :=
  issueExt Cells.fenceSys w fenceSysBody s

end Sys2Proof.Machine
end

