-- ==== Sys2Proof/Machine/Barriers.lean ====
section
/-! DEFINITION. Barrier objects (spec/04_memory_spaces.md R105 to R109; spec/11_isa_memory_sync.md R266, R267). -/

namespace Sys2Proof.Machine

/-- A barrier object (R105). -/
structure Bar where
  gen  : Nat
  pend : Nat
  exp  : Nat
  inn  : Nat
  out  : Nat
  rsv  : Nat := 0
  deriving DecidableEq, Repr, Inhabited

/-- The object 16 bytes hold (R105). -/
def Bar.ofBytes (bs : List Byte) : Bar :=
  let n := leNat bs
  { gen := n % 16, pend := n / 2 ^ 4 % 2 ^ 16, exp := n / 2 ^ 20 % 2 ^ 16, inn := n / 2 ^ 36 % 2 ^ 16,
    out := n / 2 ^ 52 % 2 ^ 16, rsv := n / 2 ^ 68 % 2 ^ 60 }

/-- The 16 bytes of an object. -/
def Bar.bytes (b : Bar) : List Byte :=
  bytesLE 16 (b.gen + 2 ^ 4 * b.pend + 2 ^ 20 * b.exp + 2 ^ 36 * b.inn + 2 ^ 52 * b.out + 2 ^ 68 * b.rsv)

/-- The opening condition (R108). -/
def Bar.due (b : Bar) : Bool := b.pend == 0 && b.inn == 0 && b.out == 0

/-- The object after an opening (R108). -/
def Bar.opened (b : Bar) : Bar := { b with gen := (b.gen + 1) % 16, pend := b.exp }

/-- The name of an object among all cores, for the cohorts that wait on it. -/
def objName (b : Block) (off : Nat) : Nat := b.core * 2 ^ 32 + b.aspBase + off

/-- An object of a block read and written. -/
def State.bar (s : State) (b : Block) (off : Nat) : Bar := Bar.ofBytes (s.aspRead b off 16)
def State.setBar (s : State) (b : Block) (off : Nat) (x : Bar) : State := s.aspWrite b off x.bytes

/-- The cohort slots that hold in BAR.WAIT on an object, in release order (R109). -/
def State.barWaiters (s : State) (name : Nat) : List Nat :=
  (sortLex (fun x => s.rank x.2.1) (s.allWaits.filter (fun x => x.2.2.kind == .barrier && x.2.2.need == name))).map (·.1)

/-- The cohorts an opening releases after its first wave wait for their own waves (R109). -/
def State.startWaves (s : State) (b : Block) (name : Nat) : State :=
  let cl := clusterOf b.core
  let c := s.cluster cl
  let rest := if c.wsize = 0 then [] else (s.barWaiters name).drop c.wsize
  if rest.isEmpty then s else s.setCluster cl { c with waves := c.waves ++ [{ slots := rest, size := c.wsize }] }

/-- An object changed in one atomic update; when that completes the opening condition, it opens (R106, R108). -/
def State.barUpdate (s : State) (b : Block) (off : Nat) (old new : Bar) : State :=
  if new.due && !old.due then (s.startWaves b (objName b off)).setBar b off new.opened
  else s.setBar b off new

/-- A copy's decrement of an object of a block (R107): a count of 0 stays. -/
def State.barDecrement (s : State) (blk off : Nat) (isIn : Bool) : State :=
  match s.block blk with
  | none => s
  | some b =>
    let o := s.bar b off
    s.barUpdate b off o (if isIn then { o with inn := o.inn - 1 } else { o with out := o.out - 1 })

/-- Whether a cohort still waits for its wave of an opening (R109). -/
def State.inWave (s : State) (slot : Nat) : Bool := s.clusters.any (fun p => p.2.waves.any (fun w => w.slots.contains slot))

/-- BARRIER_WAVE (R109): the oldest pending opening of a cluster releases its next wave. -/
def execBarrierWave (cluster : Nat) (s : State) : Host.Outcome State Fault Refusal :=
  if !s.clocked (clusterDie cluster) then .next s
  else
    let c := s.cluster cluster
    match c.waves with
    | [] => .next s
    | w :: ws =>
      let rest := w.slots.drop w.size
      .next (s.setCluster cluster { c with waves := if rest.isEmpty then ws else ws ++ [{ w with slots := rest }] })

/-! ### The instructions -/

/-- What a BAR instruction needs of its second operand and its place. -/
structure BarForm where
  usesB   : Bool          -- a count or a generation, which must be uniform
  surrBad : Bool          -- ILLEGAL with .peer in a surrogate run (R76, R278)
  writesD : Bool := false
  deriving DecidableEq, Repr, Inhabited

/-- The block and the offset the object operand names. -/
def Env.barTarget (e : Env) : Option (Nat × Block) × Nat :=
  let a := e.va.at 0
  if e.w.peer then (e.peerBlock a, peerOffset a) else (some (e.co.blk, e.blk), a.toNat)

/-- A BAR instruction up to the contents of its object (R266): context, SHAPE, ALIGN, DESC, the count check `countBad` of
R267, the contents check `contents` of R105 and R106, and PEERGONE. -/
def Env.barOp (e : Env) (f : BarForm) (countBad : Bool) (contents : Bar → Bool) (k : Block → Nat → Bar → Eff) : Eff :=
  let a := e.va.at 0
  let addr : W64 := a.setWidth 64
  let (target, off) := e.barTarget
  if e.w.peer && (e.blk.member.isNone || (e.surr && f.surrBad)) then e.trap cIllegal
  else if !e.va.isU || (f.usesB && !e.vb.isU) || (f.writesD && e.shapeTrap e.w.d.toNat (.u 0)) then e.trap cShape
  else if a.toNat % 16 != 0 then trapAt cAlign e.act addr
  else if (if e.w.peer then e.peerBad a 16 else e.blk.aspBound < a.toNat + 16) then trapAt cDesc e.act addr
  else if countBad then e.trap cIllegal
  else
    match target with
    | none => e.peerGone e.act a
    | some (_, b) =>
      let o := e.s.bar b off
      if contents o then e.trap cIllegal else k b off o

/-- The contents that R105 refuses. -/
def Bar.malformed (o : Bar) : Bool := o.rsv != 0 || o.exp == 0

/-- The count operand. -/
def Env.barCount (e : Env) : Nat := (e.vb.at 0).toNat

/-- A block known to have an object at an offset (R48). -/
def Block.noteObj (b : Block) (off : Nat) : Block := if b.objs.contains off then b else { b with objs := off :: b.objs }

/-- The object of a BAR instruction's target written, and known as one. -/
def Env.putObj (e : Env) (b : Block) (off : Nat) (o : Bar) : State :=
  (e.s.setBar b off o).updBlock ((e.barTarget.1.map (·.1)).getD 0) (·.noteObj off)

def barInitBody (e : Env) : Eff :=
  let n := e.barCount
  e.barOp { usesB := true, surrBad := true } (n < 1 || 65535 < n) (fun _ => false) (fun b off _ =>
    .ok (e.putObj b off { gen := 0, pend := n, exp := n, inn := 0, out := 0 }))

def barXinBody (e : Env) : Eff :=
  let n := e.barCount
  e.barOp { usesB := true, surrBad := true } (65535 < n) (fun o => o.malformed || 65535 < o.inn + n) (fun b off o =>
    .ok (e.putObj b off { o with inn := o.inn + n }))

def barXoutBody (e : Env) : Eff :=
  let n := e.barCount
  e.barOp { usesB := true, surrBad := true } (65535 < n) (fun o => o.malformed || 65535 < o.out + n) (fun b off o =>
    .ok (e.putObj b off { o with out := o.out + n }))

/-- BAR.ARR (R267): GEN before the arrival. -/
def barArrBody (e : Env) : Eff :=
  e.barOp { usesB := false, surrBad := true, writesD := true } false (fun o => o.malformed || o.pend == 0) (fun b off o =>
    let s := (e.s.barUpdate b off o { o with pend := o.pend - 1 }).updBlock ((e.barTarget.1.map (·.1)).getD 0) (·.noteObj off)
    .ok (s.updCohort e.slot (fun co => e.setV co e.w.d.toNat (.u (BitVec.ofNat 32 o.gen)))))

/-- BAR.WAIT (R267): holds while GEN equals bits 3:0 of Vb, and until the cohort's wave. A cohort that an opening has released and
that has not issued yet is held again where GEN has come to equal Vb anew (log 95). -/
def barWaitBody (e : Env) : Eff :=
  e.barOp { usesB := true, surrBad := false } false Bar.malformed (fun b off o =>
    if o.gen == (e.vb.at 0).toNat % 16 || e.s.inWave e.slot then .wait .barrier (objName b off) 0
    else .ok (e.s.updBlock ((e.barTarget.1.map (·.1)).getD 0) (·.noteObj off)))

/-! ### The meanings of the rows, one for each constructor -/

/-- BAR_INIT. -/
def execBarInit (w : BaseWord) (s : State) : Host.Outcome State Fault Refusal :=
  issueBase Cells.barInit w barInitBody s

/-- BAR_INIT_EXT. -/
def execBarInitExt (w : ExtWord) (s : State) : Host.Outcome State Fault Refusal :=
  issueExt Cells.barInit w barInitBody s

/-- BAR_ARR. -/
def execBarArr (w : BaseWord) (s : State) : Host.Outcome State Fault Refusal :=
  issueBase Cells.barArr w barArrBody s

/-- BAR_ARR_EXT. -/
def execBarArrExt (w : ExtWord) (s : State) : Host.Outcome State Fault Refusal :=
  issueExt Cells.barArr w barArrBody s

/-- BAR_WAIT. -/
def execBarWait (w : BaseWord) (s : State) : Host.Outcome State Fault Refusal :=
  issueBase Cells.barWait w barWaitBody s

/-- BAR_WAIT_EXT. -/
def execBarWaitExt (w : ExtWord) (s : State) : Host.Outcome State Fault Refusal :=
  issueExt Cells.barWait w barWaitBody s

/-- BAR_XIN. -/
def execBarXin (w : BaseWord) (s : State) : Host.Outcome State Fault Refusal :=
  issueBase Cells.barXin w barXinBody s

/-- BAR_XIN_EXT. -/
def execBarXinExt (w : ExtWord) (s : State) : Host.Outcome State Fault Refusal :=
  issueExt Cells.barXin w barXinBody s

/-- BAR_XOUT. -/
def execBarXout (w : BaseWord) (s : State) : Host.Outcome State Fault Refusal :=
  issueBase Cells.barXout w barXoutBody s

/-- BAR_XOUT_EXT. -/
def execBarXoutExt (w : ExtWord) (s : State) : Host.Outcome State Fault Refusal :=
  issueExt Cells.barXout w barXoutBody s

end Sys2Proof.Machine
end

