-- ==== Sys2Proof/Machine/Copies.lean ====
section
/-! DEFINITION. Copies and copy channels (spec/04_memory_spaces.md R99 to R104; spec/11_isa_memory_sync.md R268 to R275),
outstanding counters and write pointers. -/

namespace Sys2Proof.Machine

/-! ### Posting (R268 to R270) -/

def Env.cDst (e : Env) : Bool := e.w.sub.getLsbD 0
def Env.cDec (e : Env) : Bool := e.w.sub.getLsbD 1
def Env.cRcv (e : Env) : Bool := e.w.sub.getLsbD 2
def Env.cSnd (e : Env) : Bool := e.w.sub.getLsbD 3

/-- The length, and the object word of R269. -/
def Env.cLen (e : Env) : Nat := (e.vc.at 0).toNat
def Env.cObj (e : Env) : W32 := if e.w.c.toNat = zv then 0 else (e.co.v (e.w.c.toNat + 1)).at 0

/-- Whether a field's register, or pair, is uniform. -/
def Env.fieldU (e : Env) (pair : Bool) (n : Nat) : Bool := if pair then e.co.pairU n else (e.co.v n).isU

/-- The members that a CPYM or a CPYP delivers to. -/
def Env.copyMembers (e : Env) (k : CopyKind) : List Nat :=
  match k with
  | .cpym => [0, 1, 2, 3]
  | .cpyp => [peerMember (e.va.at 0)]
  | _ => []

/-- The bounds a destination range and its receiver object must keep: (ASP, WBF) of each destination block. -/
def Env.dstBounds (e : Env) (k : CopyKind) : List (Nat × Nat) :=
  match k with
  | .cpy => [(e.blk.aspBound, e.blk.wbfBound)]
  | .cpyo => []
  | _ => (e.copyMembers k).map (e.s.memberBounds e.co.blk e.blk)

/-- The copy's checks after ALIGN (R270), as the value XADDR holds: the length, or an address (a buffer offset, an object's
offset, a device address). Of several bounds that break at once the rule says not which one XADDR names: here the first of the
destination, the source, the receiver's object, the sender's object and a CPYO's crossing (DESIGN CHOICE, log 107). -/
def Env.copyDesc (e : Env) (k : CopyKind) : Option (Nat ⊕ W64) :=
  let len := e.cLen
  let robj := (e.cObj.toNat % 2 ^ 16) * 16
  let sobj := (e.cObj.toNat / 2 ^ 16) * 16
  let dOff := if k = .cpyp then peerOffset (e.va.at 0) else (e.va.at 0).toNat
  let srcBuf := k == .cpyo || k == .cpyp
  if len < 1 || 1048576 < len then some (.inl len)
  else if (k == .cpyp && (e.va.at 0).toNat / 2 ^ 24 != 0) ||
      (e.dstBounds k).any (fun b => (if e.cDst then b.2 else b.1) < dOff + len) then some (.inr ((e.va.at 0).setWidth 64))
  else if srcBuf && e.blk.aspBound < (e.vb.at 0).toNat + len then some (.inr ((e.vb.at 0).setWidth 64))
  else if e.cRcv && (e.dstBounds k).any (fun b => b.1 < robj + 16) then some (.inr (BitVec.ofNat 64 robj))
  else if e.cSnd && e.blk.aspBound < sobj + 16 then some (.inr (BitVec.ofNat 64 sobj))
  else if k == .cpyo && (e.a64 0).toNat / 2 ^ 32 != ((e.a64 0).toNat + len - 1) / 2 ^ 32 then some (.inr (e.a64 0))
  else none

/-- A copy instruction (R270). A CPYM has no peer address: its PEERGONE gives the destination offset (log 71). -/
def Env.copyOp (e : Env) (k : CopyKind) : Eff :=
  let len := e.cLen
  let obj := e.cRcv || e.cSnd
  let context := match k with
    | .cpy => false
    | .cpym => e.blk.member.isNone || e.surr
    | .cpyo => e.buffered
    | .cpyp => e.buffered || e.blk.member.isNone
  let shapeOk := e.fieldU (k == .cpyo) e.w.a.toNat && e.fieldU (k == .cpy || k == .cpym) e.w.b.toNat &&
    e.fieldU obj e.w.c.toNat
  if context then e.trap cIllegal
  else if !shapeOk then e.trap cShape
  else if e.cDec && len % 2 != 0 then trapVal cAlign e.act (BitVec.ofNat 64 len)
  else if e.cDec && (e.va.at 0).toNat % 2 != 0 then trapAt cAlign e.act ((e.va.at 0).setWidth 64)
  else
    match e.copyDesc k with
    | some (.inl n) => trapVal cDesc e.act (BitVec.ofNat 64 n)
    | some (.inr x) => trapAt cDesc e.act x
    | none =>
      e.afterPaying (2 * cdiv len 4096) [(.counter, e.co.ocCount 0 < 63)] none (fun s =>
        let targets := (e.copyMembers k).map (s.memberBlock e.co.blk e.blk)
        if targets.any (·.isNone) then
          .park s { code := codePeerGone, cls := 2, mask := e.act, addr := (e.va.at 0).setWidth 64, nest := true }
        else
          let ch := e.w.d.toNat
          let (id, s) := s.fresh
          let pairA := k == .cpyo
          let c : Copy := {
            id := id, slot := e.slot, blk := e.co.blk, ch := ch, kind := k, toWbf := e.cDst, dec := e.cDec, rcv := e.cRcv,
            snd := e.cSnd, dst := if pairA then e.a64 0 else (e.va.at 0).setWidth 64,
            src := if k == .cpy || k == .cpym then e.b64 0 else (e.vb.at 0).setWidth 64,
            len := len, robj := (e.cObj.toNat % 2 ^ 16) * 16, sobj := (e.cObj.toNat / 2 ^ 16) * 16,
            dstBlks := if k == .cpy then [e.co.blk] else targets.filterMap (fun t => t.map (·.1)),
            data := if k == .cpy || k == .cpym then e.b64 0 else 0 }
          let s := s.setChan e.core ch ((s.core e.core).chan ch ++ [c])
          let s := if c.rcv then c.dstBlks.foldl (fun s b => s.updBlock b (·.noteObj c.robj)) s else s
          let ptr : WPtr := { copy := id, s := c.dst.setWidth 32, n := len }
          .ok (s.updCohort e.slot (fun co => { co.ocPost 0 id with wptrs := co.wptrs.put ch ptr })))

def cpyBody (e : Env) : Eff := e.copyOp .cpy
def cpymBody (e : Env) : Eff := e.copyOp .cpym
def cpyoBody (e : Env) : Eff := e.copyOp .cpyo
def cpypBody (e : Env) : Eff := e.copyOp .cpyp

/-! ### The channel (R99, R100, R103, R107, R271) -/

/-- The destination bytes of one unit of a copy: a byte, or a BF16 element in decode mode. -/
def Copy.unit (c : Copy) : Nat := if c.dec then 2 else 1

/-- The next data byte of a decodable page after one (R271). -/
def QFmt.nextData (q : QFmt) (x : Xlat) (va : Nat) : Nat :=
  let off := va - x.page
  if q.efmt == 3 || q.efmt == 4 || off % q.unit + 1 < q.b then va + 1
  else if off / q.unit + 1 < x.size / q.unit then x.page + (off / q.unit + 1) * q.unit
  else x.page + x.size

/-- What reading the next unit of a copy gives: its destination bytes, and the data byte and nibble after it; or the address
that fails, with why. -/
def State.copyRead (s : State) (core : Nat) (c : Copy) : Except (W64 × XlatErr) (List Byte × W64 × Nat) :=
  match s.block c.blk with
  | none => .ok ([0], 0, 0)
  | some b =>
    let tl := s.coreTlbs core
    let key := (s.vf b.vf).key
    match c.kind with
    | .cpyo | .cpyp => .ok (s.aspRead b (c.src.toNat + c.prog) 1, 0, 0)
    | _ =>
      if c.dec then
        match s.translate tl b.vf c.data .read with
        | .error e => .error (c.data, e)
        | .ok x =>
          match qfmtOf x.fattr with
          | none => .error (c.data, formatErr)
          | some q =>
            let off := c.data.toNat - x.page
            if !q.isData off x.size then .error (c.data, formatErr)
            else
              let ea : W64 := if q.efmt ≤ 2 then BitVec.ofNat 64 (x.page + q.scaleOff off c.half) else c.data
              match s.translate tl b.vf ea .read with
              | .error e => .error (ea, e)
              | .ok y =>
                let entry := if q.efmt ≤ 2 then leNat (s.physRead key y.pa 4) else 0
                let v := q.decode (s.physByte key x.pa).toNat c.half entry
                let bf := (roundFmt fmtBf .rne false false (v32 v)).bits
                let (va', h') := if q.efmt = 2 && c.half = 0 then (c.data, 1)
                  else (BitVec.ofNat 64 (q.nextData x c.data.toNat), 0)
                .ok (bytesLE 2 bf, va', h')
      else
        let a := c.src + BitVec.ofNat 64 c.prog
        match s.translate tl b.vf a .read with
        | .error e => .error (a, e)
        | .ok x => .ok ([s.physByte key x.pa], 0, 0)

/-- The destination bytes of one unit delivered (R100, R102), or the address that fails. -/
def State.copyWrite (s : State) (core : Nat) (c : Copy) (bs : List Byte) : Except (W64 × XlatErr) State :=
  match c.kind with
  | .cpyo =>
    match s.block c.blk with
    | none => .ok s
    | some b =>
      let a := c.dst + BitVec.ofNat 64 c.prog
      match s.translate (s.coreTlbs core) b.vf a .write with
      | .error e => .error (a, e)
      | .ok x => .ok (s.physWrite (s.vf b.vf).key none x.pa bs)
  | k =>
    let off := (if k = .cpyp then peerOffset (c.dst.setWidth 32) else c.dst.toNat) + c.prog
    .ok (c.dstBlks.foldl (fun s bi => match s.block bi with
      | none => s
      | some t => if c.toWbf then s.wbfWrite t off bs else s.aspWrite t off bs) s)

/-- The poisoned line that the next unit of a copy would read, data or scale entry, if any (R388). -/
def State.copyPoison (s : State) (core : Nat) (c : Copy) : Option Nat :=
  match c.kind, s.block c.blk with
  | .cpyo, _ | .cpyp, _ | _, none => none
  | _, some b =>
    let xlat (a : W64) : Option Xlat := (s.translate (s.coreTlbs core) b.vf a .read).toOption
    let pas := match xlat (if c.dec then c.data else c.src + BitVec.ofNat 64 c.prog) with
      | none => []
      | some x =>
        x.pa :: (match if c.dec then qfmtOf x.fattr else none with
          | some q =>
            let off := c.data.toNat - x.page
            if 2 < q.efmt || !q.isData off x.size then []
            else ((xlat (BitVec.ofNat 64 (x.page + q.scaleOff off c.half))).map (fun y : Xlat => y.pa)).toList
          | none => [])
    (pas.find? s.poisoned).map (· / 64)

/-- The head of a channel, when it has started and has not stopped, on a die with clocks. -/
def State.startedCopy (s : State) (core ch : Nat) : Option Copy :=
  match (s.core core).chan ch with
  | c :: _ => if c.started && !c.stopped && s.clocked (dieOf core) then some c else none
  | [] => none

/-- The head of a channel, when it runs: no link has dropped under it (R339). -/
def State.runningCopy (s : State) (core ch : Nat) : Option Copy := (s.startedCopy core ch).filter (fun c => c.lost.isNone)

/-- The head of a channel replaced. -/
def State.setHead (s : State) (core ch : Nat) (c : Copy) : State := s.setChan core ch (c :: ((s.core core).chan ch).drop 1)

/-- The posting cohort's write pointer follows its newest copy (R101). -/
def State.notePtr (s : State) (c : Copy) (prog : Nat) : State :=
  s.updCohort c.slot (fun co => match co.wptrs.look c.ch with
    | some p => if p.copy = c.id then { co with wptrs := co.wptrs.put c.ch { p with prog := prog } } else co
    | none => co)

/-- Ended blocks whose allocations no posted copy still needs are gone (R36, R273). -/
def State.reap (s : State) : State :=
  let aimed (b : Nat) : Bool := s.cores.any (fun c => c.2.chans.any (fun q => q.2.any (fun k => k.dstBlks.contains b)))
  { s with blocks := s.blocks.filter (fun p => !p.2.ended || aimed p.1) }

/-- A copy is dropped with its killed block (R272, R350). -/
def State.copyDrop (s : State) (core ch : Nat) (c : Copy) : State :=
  ((s.setChan core ch (((s.core core).chan ch).filter (fun k => k.id != c.id))).opDone c.slot 0 c.id).reap

/-- The copy's block meets a poisoned line (R388): the error counts, and the copy of a block that is already killed goes no
further. While a kill of the block is due the copy does not come to the line again. -/
def State.copyMeets (s : State) (core ch : Nat) (c : Copy) (line : Nat) : State :=
  if ((s.block c.blk).map (·.killed)).getD true then
    ((s.meetPoison c.blk c.slot line).updBlock c.blk (fun b => { b with ecc := none })).copyDrop core ch c
  else if ((s.block c.blk).bind (·.ecc)).isSome then s
  else s.meetPoison c.blk c.slot line

/-- Units delivered one after another, up to a number of them and before the last; a unit that fails is left. -/
def State.deliver (s : State) (core ch : Nat) : Nat → State
  | 0 => s
  | n + 1 =>
    match s.runningCopy core ch with
    | none => s
    | some c =>
      if c.srcDone || c.len ≤ c.prog + c.unit then s
      else
        match s.copyPoison core c with
        | some line => s.copyMeets core ch c line
        | none =>
          match s.copyRead core c with
          | .error _ => s
          | .ok (bs, va, h) =>
            match s.copyWrite core c bs with
            | .error _ => s
            | .ok s =>
              let c := { c with prog := c.prog + c.unit, data := va, half := h }
              ((s.setHead core ch c).notePtr c c.prog).deliver core ch n

/-- COPY_START (R99): the oldest copy of a channel starts. -/
def execCopyStart (core ch : Nat) (s : State) : Host.Outcome State Fault Refusal :=
  match (s.core core).chan ch with
  | c :: _ => if c.started || !s.clocked (dieOf core) then .next s else .next (s.setHead core ch { c with started := true })
  | [] => .next s

/-- COPY_DELIVER (R100, R101): up to `n` further units in ascending order; the last one lands with COPY_COMPLETE. -/
def execCopyDeliver (core ch n : Nat) (s : State) : Host.Outcome State Fault Refusal :=
  match s.runningCopy core ch with
  | none => .next s
  | some c => .next (s.deliver core ch (min n c.len))

/-- The channel reads the last source byte and the sender's OUT falls (R107). -/
def State.sourceDone (s : State) (core ch : Nat) (c : Copy) (bs : List Byte) : State :=
  let s := s.setHead core ch { c with srcDone := true, last := bs }
  if c.snd then s.barDecrement c.blk c.sobj false else s

/-- COPY_SOURCE_READ_DONE (R107). -/
def execCopySourceReadDone (core ch : Nat) (s : State) : Host.Outcome State Fault Refusal :=
  match s.runningCopy core ch with
  | none => .next s
  | some c =>
    if c.srcDone || c.prog + c.unit < c.len then .next s
    else
      match s.copyPoison core c with
      | some line => .next (s.copyMeets core ch c line)
      | none =>
        match s.copyRead core c with
        | .error _ => .next s
        | .ok (bs, _, _) => .next (s.sourceDone core ch c bs)

/-- A copy leaves its channel complete (R99, R101, R107): the receivers' IN falls, the pointer reads s + n, OC.COPY falls. -/
def State.copyEnd (s : State) (core ch : Nat) (c : Copy) : State :=
  let s := s.setChan core ch (((s.core core).chan ch).drop 1)
  let s := if c.rcv then c.dstBlks.foldl (fun s b => s.barDecrement b c.robj true) s else s
  ((s.notePtr c c.len).opDone c.slot 0 c.id).reap

/-- COPY_COMPLETE (R99): the last unit lands. -/
def execCopyComplete (core ch : Nat) (s : State) : Host.Outcome State Fault Refusal :=
  match s.runningCopy core ch with
  | none => .next s
  | some c =>
    if !c.srcDone then .next s
    else
      match s.copyWrite core c c.last with
      | .error _ => .next s
      | .ok s => .next (s.copyEnd core ch c)

/-- Why the next unit of a copy fails, if it does: the address and whether it is the destination's. -/
def State.copyFailure (s : State) (core : Nat) (c : Copy) : Option (W64 × XlatErr × Access) :=
  let write (bs : List Byte) : Option (W64 × XlatErr × Access) := match s.copyWrite core c bs with
    | .error (a, e) => some (a, e, .write)
    | .ok _ => none
  if c.srcDone then write c.last
  else
    match s.copyRead core c with
    | .error (a, e) => some (a, e, .read)
    | .ok (bs, _, _) => write bs

/-- The unit at which a copy stops: the one a dropped link has failed, or the next one, when it fails (R272, R339). -/
def State.copyStop (s : State) (core : Nat) (c : Copy) : Option (W64 × XlatErr × Access) :=
  match c.lost with
  | some (a, ipa, write) => some (a, { code := codePerm, stage2 := true, ipa := ipa }, if write then .write else .read)
  | none => s.copyFailure core c

/-- COPY_FAULT (R272): a copy stops at a unit that it cannot read or write, and its cohort parks at its next boundary; a killed
block's copy is dropped. -/
def execCopyFault (core ch : Nat) (s : State) : Host.Outcome State Fault Refusal :=
  match s.startedCopy core ch with
  | none => .next s
  | some c =>
    match s.copyStop core c with
    | none => .next s
    | some (a, e, acc) =>
      if ((s.block c.blk).map (·.killed)).getD true then .next (s.copyDrop core ch c) else
      let s := s.setHead core ch { c with stopped := true }
      .next (s.parkBoundary c.slot
        { xlatRecord e acc a 0 with copy := true, ch := ch, nest := false } false)

/-! ### Requests to the reduction units (R111, R339) -/

/-- The die whose partition holds a physical address: bit 8 (R87). -/
def homeDie (pa : Nat) : Nat := pa / 256 % 2

/-- RED_APPLY: the request at a place of the pending ones reaches its partition, or its peer (R111); the burst completes with
its last request (R125). A request whose link has dropped fails, and its cohort parks with PERM, the record naming the lanes whose
request it was (R339, R347; log 72). A die without
clocks, the partition's or the cohort's, holds it (R385). -/
def execRedApply (req : Nat) (s : State) : Host.Outcome State Fault Refusal :=
  match s.reds[req]? with
  | none => .next s
  | some r =>
    if !s.clocked (dieOf (coreOf r.slot)) || (inHbm r.pa && !s.clocked (homeDie r.pa)) then .next s
    else
      let rest := { s with reds := s.reds.eraseIdx req }
      let settled (s : State) : State := if s.reds.any (fun q => q.id == r.id) then s else s.opDone r.slot 3 r.id
      match if r.lost then some codePerm else s.physFault r.pa with
      | none => .next (settled { s.applyRed r with reds := rest.reds })
      | some code =>
        .next ((settled rest).parkBoundary r.slot
          { xlatRecord { code := code, stage2 := true, ipa := r.ipa } .rmw r.va r.lanes with nest := false } false)

/-! ### Counters and pointers (R126, R101, R274, R275) -/

def waitocBody (e : Env) : Eff :=
  if e.w.b.toNat < e.co.ocCount (e.w.a.toNat) then .wait .counter 0 0 else .ok e.s

/-- The cohort's pointer for a channel (R101). -/
def Cohort.ptr (co : Cohort) (ch : Nat) : W32 :=
  match co.wptrs.look ch with
  | some p => p.s + BitVec.ofNat 32 p.prog
  | none => 0

def rdwpBody (e : Env) : Eff := e.result (.u (e.co.ptr e.w.a.toNat))

def waitwpBody (e : Env) : Eff :=
  if !e.vb.isU then e.trap cShape
  else if (e.co.ptr e.w.a.toNat).toNat < (e.vb.at 0).toNat then .wait .pointer 0 0
  else .ok e.s

/-! ### The meanings of the rows, one for each constructor -/

/-- CPY. -/
def execCpy (w : ExtWord) (s : State) : Host.Outcome State Fault Refusal :=
  issueExt Cells.cpy w cpyBody s

/-- CPYM. -/
def execCpym (w : ExtWord) (s : State) : Host.Outcome State Fault Refusal :=
  issueExt Cells.cpym w cpymBody s

/-- CPYO. -/
def execCpyo (w : ExtWord) (s : State) : Host.Outcome State Fault Refusal :=
  issueExt Cells.cpyo w cpyoBody s

/-- CPYP. -/
def execCpyp (w : ExtWord) (s : State) : Host.Outcome State Fault Refusal :=
  issueExt Cells.cpyp w cpypBody s

/-- WAITOC. -/
def execWaitoc (w : BaseWord) (s : State) : Host.Outcome State Fault Refusal :=
  issueBase Cells.waitoc w waitocBody s

/-- WAITOC_EXT. -/
def execWaitocExt (w : ExtWord) (s : State) : Host.Outcome State Fault Refusal :=
  issueExt Cells.waitoc w waitocBody s

/-- RDWP. -/
def execRdwp (w : BaseWord) (s : State) : Host.Outcome State Fault Refusal :=
  issueBase Cells.rdwp w rdwpBody s

/-- RDWP_EXT. -/
def execRdwpExt (w : ExtWord) (s : State) : Host.Outcome State Fault Refusal :=
  issueExt Cells.rdwp w rdwpBody s

/-- WAITWP. -/
def execWaitwp (w : BaseWord) (s : State) : Host.Outcome State Fault Refusal :=
  issueBase Cells.waitwp w waitwpBody s

/-- WAITWP_EXT. -/
def execWaitwpExt (w : ExtWord) (s : State) : Host.Outcome State Fault Refusal :=
  issueExt Cells.waitwp w waitwpBody s

end Sys2Proof.Machine
end

