-- ==== Sys2Proof/Machine/Transactions.lean ====
section
/-! DEFINITION. Explicit transactions and GCHK (spec/03_tree_sweeps.md R76 to R81; spec/11_isa_memory_sync.md R276 to
R279). -/

namespace Sys2Proof.Machine

/-- TXB (R276): TXNEST, ILLEGAL for a partial mask, then the wait for the block's buffer. -/
def txbBody (e : Env) : Eff :=
  if e.buffered then e.trap cTxnest
  else if !e.full then e.trap cIllegal
  else if e.blk.holder.isSome then .wait .buffer 0 0
  else
    let co := { e.setV e.co e.w.d.toNat (.u 0) with tx := some { abort := e.target, vd := e.w.d.toNat } }
    .ok ((e.put co).setBlock e.co.blk { e.blk with holder := some e.slot, buf := [], bufBy := [] })

/-- The checks TXC, TXA and TXW share (R80, R278). -/
def Env.txCheck (e : Env) (needFull : Bool) (k : Tx → Eff) : Eff :=
  if e.surr then e.trap cTxnest
  else
    match e.co.tx with
    | none => e.trap cIllegal
    | some t => if needFull && !e.full then e.trap cIllegal else k t

def txaBody (e : Env) : Eff := e.txCheck true (fun _ => .set (e.s.abortTx e.slot txTxa))

/-- The buffered bytes translated for a commit: a TXC needs both R and W, a guard's commit the W of its stores (R352). -/
def State.commitXlat (s : State) (tlbs : List TlbEntry) (vf : Nat) (acc : Access) :
    SMap Byte → Except (W64 × XlatErr) (List (Nat × Byte))
  | [] => .ok []
  | (va, b) :: rest =>
    match s.translate tlbs vf (BitVec.ofNat 64 va) acc with
    | .error e => .error (BitVec.ofNat 64 va, e)
    | .ok x =>
      match s.commitXlat tlbs vf acc rest with
      | .error e => .error e
      | .ok l => .ok ((x.pa, b) :: l)

/-- The commit point (R78, R129): every buffered byte at once; `writer` is the committing cohort. -/
def State.commitBytes (s : State) (key : Nat) (writer : Option Nat) (l : List (Nat × Byte)) : State :=
  l.foldl (fun s p => s.physWrite key writer p.1 [p.2]) s

/-- TXC (R276, R277): a conflict aborts; otherwise the buffer commits and the lanes continue. -/
def txcBody (e : Env) : Eff :=
  e.txCheck true (fun t =>
    if t.conflict then .set (e.s.abortTx e.slot txConflict)
    else
      match e.s.commitXlat (e.s.coreTlbs e.core) e.blk.vf .rmw e.blk.buf with
      | .error (va, err) => xlatPark e.s .rmw e.act va err
      | .ok l =>
        let s := e.s.commitBytes e.key (some e.slot) l
        let s := s.updBlock e.co.blk (fun b => { b with buf := [], bufBy := [], holder := none })
        .ok (s.updCohort e.slot (fun co => { co with tx := none })))

/-- Lines added to a watch set one at a time; none when a seventeenth is named (R80). A line that holds a byte another agent
wrote after the transaction read it makes a conflict (R277). -/
def Tx.watchLines (t : Tx) : List Nat → Option Tx
  | [] => some t
  | ln :: rest =>
    if t.watch.contains ln then t.watchLines rest
    else if 16 ≤ t.watch.length then none
    else
      { t with watch := t.watch ++ [ln], conflict := t.conflict || t.clobbered.any (fun p => p / 64 == ln) }.watchLines rest

def txwBody (e : Env) : Eff :=
  e.txCheck false (fun t =>
    e.xlatLanes e.s .read e.devAddr (fun x =>
      match t.watchLines (e.lanes.map (fun l => (x l).pa / 64)) with
      | some t => .ok (e.put { e.co with tx := some t })
      | none => .set (e.s.abortTx e.slot txOverflow)))

/-- TX_CONFLICT (R277): the core detects a conflict at an instruction boundary. -/
def execTxConflict (slot : Nat) (s : State) : Host.Outcome State Fault Refusal :=
  match (s.cohort slot).bind (·.tx) with
  | some t => if t.conflict && s.clocked (dieOf (coreOf slot)) then .next (s.abortTx slot txConflict) else .next s
  | none => .next s

/-- RESID after a GCHK (R77). -/
def residAfter (seen : Bool) (resid v : W32) : W32 :=
  let m := v &&& 0x7FFFFFFF#32
  if (v32 v).isNan || (v32 resid).isNan then 0x7FC00000#32
  else if !seen || xlt (v32 resid) (v32 m) then m
  else resid

def gchkBody (e : Env) : Eff :=
  if !e.surr then e.trap cIllegal
  else if !e.va.isU then e.trap cShape
  else .ok (e.s.setBlock e.co.blk { e.blk with resid := residAfter e.blk.gseen e.blk.resid (e.va.at 0), gseen := true })

/-! ### The meanings of the rows, one for each constructor -/

/-- TXB. -/
def execTxb (w : BaseWord) (s : State) : Host.Outcome State Fault Refusal :=
  issueBase Cells.txb w txbBody s

/-- TXB_EXT. -/
def execTxbExt (w : ExtWord) (s : State) : Host.Outcome State Fault Refusal :=
  issueExt Cells.txb w txbBody s

/-- TXC. -/
def execTxc (w : BaseWord) (s : State) : Host.Outcome State Fault Refusal :=
  issueBase Cells.txc w txcBody s

/-- TXC_EXT. -/
def execTxcExt (w : ExtWord) (s : State) : Host.Outcome State Fault Refusal :=
  issueExt Cells.txc w txcBody s

/-- TXA. -/
def execTxa (w : BaseWord) (s : State) : Host.Outcome State Fault Refusal :=
  issueBase Cells.txa w txaBody s

/-- TXA_EXT. -/
def execTxaExt (w : ExtWord) (s : State) : Host.Outcome State Fault Refusal :=
  issueExt Cells.txa w txaBody s

/-- TXW. -/
def execTxw (w : BaseWord) (s : State) : Host.Outcome State Fault Refusal :=
  issueBase Cells.txw w txwBody s

/-- TXW_EXT. -/
def execTxwExt (w : ExtWord) (s : State) : Host.Outcome State Fault Refusal :=
  issueExt Cells.txw w txwBody s

/-- GCHK. -/
def execGchk (w : BaseWord) (s : State) : Host.Outcome State Fault Refusal :=
  issueBase Cells.gchk w gchkBody s

/-- GCHK_EXT. -/
def execGchkExt (w : ExtWord) (s : State) : Host.Outcome State Fault Refusal :=
  issueExt Cells.gchk w gchkBody s

end Sys2Proof.Machine
end

