-- ==== Sys2Proof/Machine/Matrix.lean ====
section
/-! DEFINITION. Descriptors, tiles, the matrix family, CMPR and MVT (spec/12_isa_engines_system.md R280 to R295, R301;
spec/07_number_formats.md R164, R165, R167; R45). -/

namespace Sys2Proof.Machine

/-! ### Descriptors (R282 to R285) -/

/-- A descriptor's fields (R282). -/
structure Dsc where
  base   : Nat
  extent : Nat
  pitch  : Nat
  space  : Nat
  rsv    : Nat
  deriving DecidableEq, Repr, Inhabited

def Dsc.of (d : BitVec 128) : Dsc :=
  let n := d.toNat
  { base := n % 2 ^ 32, extent := n / 2 ^ 32 % 2 ^ 32, pitch := n / 2 ^ 64 % 2 ^ 32, space := n / 2 ^ 96 % 16, rsv := n / 2 ^ 100 }

/-- A descriptor of a space from its fields. -/
def mkDsc (space : Nat) (base extent pitch : W32) : BitVec 128 :=
  BitVec.ofNat 128 (base.toNat + 2 ^ 32 * extent.toNat + 2 ^ 64 * pitch.toNat + 2 ^ 96 * space)

/-- DSET (R283). -/
def dsetBody (e : Env) : Eff :=
  let pt := e.w.sub.getLsbD 1
  if !(e.va.isU && e.fieldU pt e.w.b.toNat) then e.trap cShape
  else
    let pitch : W32 := if pt && e.w.b.toNat != zv then (e.co.v (e.w.b.toNat + 1)).at 0 else 0
    let d := mkDsc (if e.w.sub.getLsbD 0 then 2 else 1) (e.va.at 0) (e.vb.at 0) pitch
    .ok (e.put { e.co with descs := e.co.descs.put e.w.d.toNat d })

/-- A uniform result into a run of registers: SHAPE for a narrow run under a partial issue (R137, R284). -/
def dgetBody (e : Env) : Eff :=
  let d := e.w.d.toNat
  let x := e.co.d e.w.a.toNat
  if e.shapeTrap d (.u 0) then e.trap cShape
  else if d = zv then .ok e.s
  else .ok (e.put ((List.range 4).foldl (fun co i => e.setV co (d + i) (.u (x.extractLsb' (32 * i) 32))) e.co))

/-- An operand laid out in rows (R285). -/
structure Rows where
  n     : Nat             -- rows
  len   : Nat             -- bytes of a row
  extra : Nat := 0        -- bytes after the rows (the scale table of .q4a)
  last  : Bool := true    -- whether the rows must end within the extent (not MMAG's A: R293)
  deriving DecidableEq, Repr, Inhabited

/-- P of R285. -/
def Dsc.stride (d : Dsc) (r : Rows) : Nat := if d.pitch = 0 then r.len else d.pitch

/-- The end of an operand's footprint. -/
def Dsc.footEnd (d : Dsc) (r : Rows) : Nat :=
  if r.extra = 0 then d.base + (r.n - 1) * d.stride r + r.len else d.base + r.n * d.stride r + r.extra

/-- The bound of a space (R98). -/
def Env.bound (e : Env) (space : Nat) : Nat := if space = 2 then e.blk.wbfBound else e.blk.aspBound

/-- DESC for one operand (R282, R285, R98). -/
def Env.dscBad (e : Env) (d : Dsc) (spaces : List Nat) (r : Rows) : Bool :=
  d.rsv != 0 || !spaces.contains d.space || (d.pitch != 0 && d.pitch < r.len) || d.extent < 1 ||
  e.bound d.space < d.base + d.extent || (r.last && d.base + d.extent < d.footEnd r)

/-- ALIGN for one operand of the matrix family (R285). -/
def Dsc.misaligned (d : Dsc) (r : Rows) : Bool := d.base % 16 != 0 || d.stride r % 16 != 0

/-- A trap with BASE in XADDR and every active lane. -/
def Env.trapBase (e : Env) (code : Nat) (d : Dsc) : Eff := trapAt code e.act (BitVec.ofNat 64 d.base)

/-- ALIGN, then DESC, each in field order A, then B (R285). -/
def Env.checkDscs (e : Env) (a b : Dsc) (sa sb : List Nat) (ra rb : Rows) (k : Eff) : Eff :=
  if a.misaligned ra then e.trapBase cAlign a
  else if b.misaligned rb then e.trapBase cAlign b
  else if e.dscBad a sa ra then e.trapBase cDesc a
  else if e.dscBad b sb rb then e.trapBase cDesc b
  else k

/-! ### Tiles (R286 to R288) -/

/-- The elements of a tile, read in order from the entries of its keys. -/
def tileDense : SMap W32 → Nat → Nat → List W32
  | _, _, 0 => []
  | [], k, n + 1 => 0 :: tileDense [] (k + 1) n
  | (key, v) :: m, k, n + 1 => if key = k then v :: tileDense m (k + 1) n else 0 :: tileDense ((key, v) :: m) (k + 1) n

def Block.tileAll (b : Block) (t : Nat) : List W32 :=
  tileDense (b.tiles.filter (fun p => t * 16384 ≤ p.1 && p.1 < (t + 1) * 16384)) (t * 16384) 16384

/-- The entries of a list of elements; +0.0 is not listed. -/
def tileEntries : Nat → List W32 → SMap W32
  | _, [] => []
  | k, x :: l => if x = 0 then tileEntries (k + 1) l else (k, x) :: tileEntries (k + 1) l

/-- A whole tile written. -/
def Block.putTile (b : Block) (t : Nat) (l : List W32) : Block :=
  { b with tiles := b.tiles.filter (fun p => p.1 < t * 16384) ++ tileEntries (t * 16384) (l.take 16384) ++
      b.tiles.filter (fun p => (t + 1) * 16384 ≤ p.1) }

/-- The issuing cohort's block replaced. -/
def Env.putBlock (e : Env) (s : State) (b : Block) : State := s.setBlock e.co.blk b

def tzeroBody (e : Env) : Eff := .ok (e.putBlock e.s (e.blk.putTile e.w.d.toNat []))

/-- The offset of TRD and TWR: SHAPE, then DESC beyond 16,352 (R287). -/
def Env.tileOff (e : Env) (k : Nat → Eff) : Eff :=
  if !e.vb.isU then e.trap cShape
  else if 16352 < (e.vb.at 0).toNat then trapVal cDesc e.act ((e.vb.at 0).setWidth 64)
  else k (e.vb.at 0).toNat

def trdBody (e : Env) : Eff :=
  if e.shapeG then e.trap cShape
  else e.tileOff (fun off => .ok (e.put (e.setRun e.co e.w.d.toNat 1 (fun _ l => e.blk.tile e.w.a.toNat (off + l)))))

def twrBody (e : Env) : Eff :=
  e.tileOff (fun off =>
    .ok (e.putBlock e.s (e.lanes.foldl (fun b l => b.setTile e.w.d.toNat (off + l) (e.va.at l)) e.blk)))

/-- One element of TCVT (R288). -/
def tcvtElem (isrc : Bool) (f : Fmt) (rm : RMode) (sat ns : Bool) (scale x : W32) : W32 :=
  let v := if isrc then XVal.ofInt (sext x.toNat 32) else v32 x
  roundF32 (f.value (roundFmt f rm sat ns (xmul v (v32 scale)).1).bits)

def tcvtBody (e : Env) : Eff :=
  if !e.vb.isU then e.trap cShape
  else
    let g := tcvtElem (e.w.sub.getLsbD 9) (fmtOf e.ty) e.rm e.w.satField e.w.nsField (e.vb.at 0)
    .ok (e.putBlock e.s (e.blk.putTile e.w.d.toNat ((e.blk.tileAll e.w.a.toNat).map g)))

/-! ### The matrix family: layouts and checks (R289 to R294) -/

/-- The type of a matrix cell: fixed by the cell for MMA (R280), in FMT otherwise. -/
def Env.matTy (e : Env) : Ty :=
  match e.cell.opc with
  | 0xE8 => .e4m3
  | 0xE9 => .e5m2
  | 0xEA => .i8
  | 0xEB => .bf16
  | 0xEC => .q4a
  | _ => e.ty

/-- K in dense positions for P passes (R289). -/
def Env.matK (e : Env) : Nat := kTotal e.matTy e.w.passes

/-- Bytes of an element of a float or INT8 operand. -/
def elemBytes (ty : Ty) : Nat := if ty = .bf16 then 2 else 1

/-- G of .q4a (R280). -/
def groupOf (grp : Nat) : Nat := 32 * 2 ^ grp

/-- The rows of A (R289, R293, R294). -/
def rowsA (ty : Ty) (k : Nat) (sparse gather : Bool) : Rows :=
  let len := if ty = .q4a then k else if sparse then k / 2 * elemBytes ty else k * elemBytes ty
  { n := 128, len := len, last := !gather }

/-- The rows of B (R289). -/
def rowsB (ty : Ty) (k grp : Nat) : Rows :=
  if ty = .q4a then { n := 128, len := k / 2, extra := 512 * k / groupOf grp }
  else { n := k, len := 128 * elemBytes ty }

/-- Entries of the reservation table that are taken (R45). -/
def Cluster.tableUse (c : Cluster) : Nat := (c.mat.filter (fun m => m.opc != 0xEF && m.granted < m.passes)).length

/-- Row index `i` of a gather, and metadata byte m(i, g), from the C run (R293, R294). -/
def Env.cReg (e : Env) (r l : Nat) : W32 := if e.w.c.toNat = zv then 0 else (e.co.v (e.w.c.toNat + r)).at l
def Env.gatherIdx (e : Env) : List W32 := (List.range 128).map (fun i => e.cReg (i / 32) (i % 32))
def metaByte (run : Nat → Nat → W32) (i g : Nat) : Nat := (run (4 * (g / 4) + i / 32) (i % 32)).toNat / 256 ^ (g % 4) % 256

/-- The set bits of a byte. -/
def popByte (n : Nat) : Nat := ((List.range 8).filter (fun b => n / 2 ^ b % 2 = 1)).length

/-- The index check of MMAG (R293). -/
def Env.gatherCheck (e : Env) (a : Dsc) (ra : Rows) (k : Eff) : Eff :=
  let bad := e.gatherIdx.filter (fun x => a.extent < x.toNat * a.stride ra + ra.len)
  match bad with
  | [] => k
  | x :: rest =>
    let low := rest.foldl (fun m y => if y.toNat < m.toNat then y else m) x
    trapVal cDesc (maskOf (fun l => (List.range 4).any (fun r => e.cReg r l == low))) (low.setWidth 64)

/-- The metadata check of MMAS (R294). -/
def Env.metaCheck (e : Env) (kk : Nat) (k : Eff) : Eff :=
  let badAt (i : Nat) : Option Nat := (List.range (kk / 8)).find? (fun g => popByte (metaByte e.cReg i g) != 4)
  let bad := (List.range 128).filterMap (fun i => (badAt i).map (fun g => (i, g)))
  match bad with
  | [] => k
  | (i, g) :: _ =>
    .trap { code := cMetadata, mask := maskOf (fun l => bad.any (fun b => b.1 % 32 == l)),
            xaddr := BitVec.ofNat 32 (i * 65536 + g) }

/-- A matrix instruction (R291): its checks, its waits, and its posting. -/
def Env.matrix (e : Env) (gather sparse : Bool) : Eff :=
  let ty := e.matTy
  let k := e.matK
  let a := Dsc.of (e.co.d e.w.a.toNat)
  let b := Dsc.of (e.co.d e.w.b.toNat)
  let ra := rowsA ty k sparse gather
  let rb := rowsB ty k e.w.grp
  let c := e.s.cluster (clusterOf e.core)
  let post : Eff :=
    e.afterPaying ((if sparse then 28 else 48) * e.w.passes) [(.counter, e.co.ocCount 1 < 63)]
      (some { kind := .entry, cls := 1, free := 16 - c.tableUse }) (fun s =>
        let (id, s) := s.fresh
        let op : MatOp := {
          id := id, slot := e.slot, blk := e.co.blk, opc := e.cell.opc, fmt := ty, tile := e.w.d.toNat,
          da := e.co.d e.w.a.toNat, db := e.co.d e.w.b.toNat, passes := e.w.passes, grp := e.w.grp,
          idx := if gather then e.gatherIdx else [],
          mdata := if sparse then (List.range (4 * cdiv k 32)).flatMap (fun r => lanes32.map (e.cReg r)) else [],
          prio := e.blk.prio, age := e.blk.age }
        let s := s.updCluster (clusterOf e.core) (fun c => { c with mat := c.mat ++ [op] })
        .ok (s.updCohort e.slot (fun co => co.ocPost 1 id)))
  if !e.full || ((gather || sparse) && e.co.gone != 0) then e.trap cIllegal
  else if ty == .q4a && k % groupOf e.w.grp != 0 then e.trap cIllegal
  else e.checkDscs a b [1] [2] ra rb <|
    if gather then e.gatherCheck a ra post else if sparse then e.metaCheck k post else post

def mmaE4m3Body (e : Env) : Eff := e.matrix false false
def mmaE5m2Body (e : Env) : Eff := e.matrix false false
def mmaI8Body (e : Env) : Eff := e.matrix false false
def mmaBf16Body (e : Env) : Eff := e.matrix false false
def mmaQ4aBody (e : Env) : Eff := e.matrix false false
def mmagBody (e : Env) : Eff := e.matrix true false
def mmasBody (e : Env) : Eff := e.matrix false true

/-! ### CMPR (R295) -/

def Env.cmprRows (e : Env) : Nat := e.w.modb.toNat % 128 + 1

def cmprBody (e : Env) : Eff :=
  let k := kTotal e.ty e.w.passes
  let n := e.cmprRows
  let eb := elemBytes e.ty
  let a := Dsc.of (e.co.d e.w.a.toNat)
  let b := Dsc.of (e.co.d e.w.b.toNat)
  if !e.full || e.co.gone != 0 then e.trap cIllegal
  else e.checkDscs a b [1] [1, 2] { n := n, len := k / 2 * eb } { n := n, len := k * eb } <|
    e.afterPaying 8 [(.counter, e.co.ocCount 1 < 63)] none (fun s =>
      let (id, s) := s.fresh
      let op : MatOp := {
        id := id, slot := e.slot, blk := e.co.blk, opc := 0xEF, fmt := e.ty, tile := 0, da := e.co.d e.w.a.toNat,
        db := e.co.d e.w.b.toNat, passes := e.w.passes, rows := n, run := e.w.d.toNat, prio := e.blk.prio, age := e.blk.age }
      let s := s.updCluster (clusterOf e.core) (fun c => { c with mat := c.mat ++ [op] })
      let run : Pending := { op := id, first := e.w.d.toNat, count := 4 * cdiv k 32 }
      .ok (s.updCohort e.slot (fun co =>
        let co := co.ocPost 1 id
        if e.w.d.toNat = zv then co else { co with pending := run :: co.pending })))

/-! ### What a pass computes (R164, R165, R290) -/

/-- Bytes of a descriptor's region of a block. -/
def State.dscRead (s : State) (b : Block) (d : Dsc) (off n : Nat) : List Byte :=
  if d.space = 2 then s.wbfRead b (d.base + off) n else s.aspRead b (d.base + off) n

/-- Elements of a run of bytes. -/
def elems (w : Nat) : Nat → List Byte → List Nat
  | 0, _ => []
  | n + 1, bs => leNat (bs.take w) :: elems w n (bs.drop w)

/-- An exact sum of products in order (R164). -/
def sumProducts (f : Fmt) : List (Nat × Nat) → XVal
  | [] => .fin false 0 0 false
  | (x, y) :: rest => rest.foldl (fun acc p => (xadd .rne acc (xmul (f.value p.1) (f.value p.2)).1).1) (xmul (f.value x) (f.value y)).1

/-- An exact integer sum of products. -/
def sumInts (l : List (Nat × Nat)) : Int := l.foldl (fun acc p => acc + sext p.1 8 * sext p.2 8) 0

/-- The tile element after a chunk, and whether the INT8 sum saturated (R164). -/
def chunk (ty : Ty) (acc : W32) (l : List (Nat × Nat)) : W32 × Bool :=
  if ty = .i8 then
    let (v, c) := clampInt (sext acc.toNat 32 + sumInts l) (tyRange .i32).1 (tyRange .i32).2
    (BitVec.ofInt 32 v, c)
  else (addF32 acc (roundF32 (sumProducts (fmtOf ty) l)), false)

/-- The tile element after a group of .q4a (R165, and R153 for the sign of a zero product): activations, weights, scale entry. -/
def groupQ4 (acc : W32) (l : List (Nat × Nat)) (entry : Nat) : W32 :=
  let s : Int := l.foldl (fun a p => a + sext p.1 8 * (p.2 : Int)) 0
  let c : Int := zpOf .q4a entry * l.foldl (fun a p => a + sext p.1 8) 0
  addF32 acc (roundF32 (scaleTimes (scaleOf entry) (s - c)).1)

/-- A row of A: the elements of its K positions; none where MMAS has pruned one. -/
def MatOp.sparseRow (m : MatOp) (i : Nat) (kept : List Nat) (k : Nat) : List (Option Nat) :=
  let run (r l : Nat) : W32 := m.mdata.getD (32 * r + l) 0
  (List.range (k / 8)).flatMap (fun g =>
    let byte := metaByte run i g
    (List.range 8).map (fun p =>
      if byte / 2 ^ p % 2 = 1 then kept[4 * g + popByte (byte % 2 ^ p)]? else none))

/-- The rows of A as the engine reads them: the latch of MMAG, else ASP. -/
def State.matRowA (s : State) (b : Block) (m : MatOp) (d : Dsc) (r : Rows) (i : Nat) : List Byte :=
  if m.opc = 0xED then (m.latch.drop (i * r.len)).take r.len else s.dscRead b d (i * d.stride r) r.len

/-- A pass's positions along K: those of pass `p` (R289). -/
def passRange (ty : Ty) (p : Nat) : Nat × Nat := (p * kTotal ty 1, kTotal ty 1)

/-- One pass of a float or INT8 operation over a tile (R290, R294). -/
def State.passDense (s : State) (b : Block) (m : MatOp) (p : Nat) : List W32 × Bool :=
  let k := kTotal m.fmt m.passes
  let sparse := m.opc == 0xEE
  let da := Dsc.of m.da
  let db := Dsc.of m.db
  let ra := rowsA m.fmt k sparse (m.opc == 0xED)
  let rb := rowsB m.fmt k m.grp
  let eb := elemBytes m.fmt
  let (k0, kn) := passRange m.fmt p
  let rowsBv := (List.range kn).map (fun j => (elems eb 128 (s.dscRead b db ((k0 + j) * db.stride rb) rb.len)).toArray)
  let acc := (b.tileAll m.tile).toArray
  let rowA (i : Nat) : List (Option Nat) :=
    let bs := s.matRowA b m da ra i
    if sparse then m.sparseRow i (elems eb (k / 2) bs) k else (elems eb k bs).map some
  let out := (List.range 128).flatMap (fun i =>
    let a := ((rowA i).drop k0).take kn
    (List.range 128).map (fun j =>
      chunk m.fmt (acc.getD (128 * i + j) 0)
        ((a.zip rowsBv).filterMap (fun q => q.1.map (fun x => (x, q.2.getD j 0))))))
  (out.map (·.1), out.any (·.2))

/-- One pass of a .q4a operation: the groups whose last position lies in the pass (R165). -/
def State.passQ4 (s : State) (b : Block) (m : MatOp) (p : Nat) : List W32 :=
  let k := kTotal m.fmt m.passes
  let g := groupOf m.grp
  let da := Dsc.of m.da
  let db := Dsc.of m.db
  let ra := rowsA m.fmt k false (m.opc == 0xED)
  let rb := rowsB m.fmt k m.grp
  let (k0, kn) := passRange m.fmt p
  let groups := (List.range (k / g)).filter (fun x => k0 < (x + 1) * g && (x + 1) * g ≤ k0 + kn)
  let acc := (b.tileAll m.tile).toArray
  let rowsAv := ((List.range 128).map (fun i => elems 1 k (s.matRowA b m da ra i))).toArray
  let rowsBv := ((List.range 128).map (fun j =>
    (s.dscRead b db (j * db.stride rb) rb.len).flatMap (fun x => [x.toNat % 16, x.toNat / 16]))).toArray
  let entry (j x : Nat) : Nat := leNat (s.dscRead b db (128 * db.stride rb + 4 * (j * (k / g) + x)) 4)
  let entries := ((List.range 128).map (fun j => groups.map (entry j))).toArray
  (List.range 128).flatMap (fun i => (List.range 128).map (fun j =>
    let pairs := (rowsAv.getD i []).zip (rowsBv.getD j [])
    (groups.zip (entries.getD j [])).foldl
      (fun a q => groupQ4 a ((pairs.drop (q.1 * g)).take g) q.2) (acc.getD (128 * i + j) 0)))

/-! ### The engine's steps (R45, R292, R293) -/

/-- Whether R292 allows the next pass of an operation. -/
def matAllowed (l : List MatOp) (m : MatOp) : Bool :=
  m.opc != 0xEF && m.granted < m.passes &&
  l.all (fun o => o.id == m.id || o.opc == 0xEF || o.blk != m.blk || o.tile != m.tile ||
    (o.granted == 0 && !(o.slot == m.slot && o.id < m.id)))

/-- The rank of a request (R45). Of two requests of one block, which are of one priority and one age, the one posted first is served
first (DESIGN CHOICE, log 105). -/
def MatOp.rank (m : MatOp) : List Nat :=
  match m.aged with
  | some a => [0, a]
  | none => [1, 3 - m.prio, m.age, m.id]

/-- A request that has waited 4,096 clocks and is not ranked so yet (R45). -/
def MatOp.dueAge (m : MatOp) : Bool := m.opc != 0xEF && m.granted < m.passes && 4096 ≤ m.waited && m.aged.isNone

/-- MMAG's rows gathered into the operand latch before its first pass (R293). -/
def State.gatherRows (s : State) (m : MatOp) : List Byte :=
  match s.block m.blk with
  | none => []
  | some b =>
    let k := kTotal m.fmt m.passes
    let d := Dsc.of m.da
    let r := rowsA m.fmt k false true
    m.idx.flatMap (fun x => s.dscRead b d (x.toNat * d.stride r) r.len)

/-- An operation of a cluster changed. -/
def Cluster.updMat (c : Cluster) (id : Nat) (f : MatOp → MatOp) : Cluster :=
  { c with mat := c.mat.map (fun m => if m.id = id then f m else m) }

/-- MATRIX_PASS_GRANT (R45, R292): one clock of the arbiter. The highest-ranked entry whose next pass R292 allows is granted
it; the entries that remain have waited a clock more. A request whose aging is due is ranked first (R45). -/
def execMatrixPassGrant (cluster : Nat) (s : State) : Host.Outcome State Fault Refusal :=
  let c := s.cluster cluster
  if !s.clocked (clusterDie cluster) || c.mat.any MatOp.dueAge then .next s
  else
    let c := { c with mat := c.mat.map (fun m =>
      if m.opc != 0xEF && m.granted < m.passes then { m with waited := m.waited + 1 } else m) }
    match sortLex MatOp.rank (c.mat.filter (matAllowed c.mat)) with
    | [] => .next (s.setCluster cluster c)
    | m :: _ =>
      let latch := if m.opc = 0xED && m.granted = 0 then s.gatherRows m else m.latch
      .next (s.setCluster cluster (c.updMat m.id (fun m => { m with granted := m.granted + 1, latch := latch })))

/-- MATRIX_REQUEST_AGING (R45). -/
def execMatrixRequestAging (cluster op : Nat) (s : State) : Host.Outcome State Fault Refusal :=
  let c := s.cluster cluster
  let order := (c.mat.filterMap (·.aged)).foldl max 0 + 1
  .next (if s.clocked (clusterDie cluster) then
    s.setCluster cluster (c.updMat op (fun m => if m.dueAge then { m with aged := some order } else m))
  else s)

/-- MATRIX_PASS_WRITE (R290, R162): the oldest granted pass of an operation reads its operands and writes its tile; the
last one completes the operation (R125). -/
def execMatrixPassWrite (cluster op : Nat) (s : State) : Host.Outcome State Fault Refusal :=
  let c := s.cluster cluster
  match c.mat.find? (fun m => m.id == op && m.opc != 0xEF) with
  | none => .next s
  | some m =>
    if m.granted ≤ m.written || !s.clocked (clusterDie cluster) then .next s
    else
      match s.block m.blk with
      | none => .next (s.setCluster cluster { c with mat := c.mat.filter (fun x => x.id != op) })
      | some b =>
        let (tile, sat) := if m.fmt = .q4a then (s.passQ4 b m m.written, false) else s.passDense b m m.written
        let s := s.setBlock m.blk (b.putTile m.tile tile)
        let s := if sat then s.updCohort m.slot (fun co => { co with fpctl := co.fpctl ||| flSAT }) else s
        if m.written + 1 = m.passes then
          .next ((s.setCluster cluster { c with mat := c.mat.filter (fun x => x.id != op) }).opDone m.slot 1 op)
        else .next (s.setCluster cluster (c.updMat op (fun m => { m with written := m.written + 1 })))

/-- Mag (R295): the order of magnitudes as a key; a NaN is above every number. -/
def magKey (ty : Ty) (x : Nat) : Nat :=
  if ty = .i8 then (sext x 8).natAbs
  else
    let f := fmtOf ty
    match f.value x with
    | .nan => 2 ^ 32
    | _ => x % 2 ^ (f.eb + f.mb)

/-- The metadata byte of a group of eight: the four of highest magnitude, lower positions first on ties (R295). -/
def keepByte (ty : Ty) (xs : List Nat) : Nat :=
  let order := sortBy (fun p : Nat × Nat => 2 ^ 33 - magKey ty p.1) xs.zipIdx
  (order.take 4).foldl (fun acc p => acc + 2 ^ p.2) 0

/-- The elements of a group that a metadata byte keeps, in ascending place. -/
def keptOf (byte : Nat) (xs : List Nat) : List Nat := (xs.zipIdx.filter (fun p => byte / 2 ^ p.2 % 2 = 1)).map (·.1)

/-- Group `g` of row `r` of CMPR: read, judged and written, before the next one is read; its metadata byte joins the others. -/
def State.cmprGroup (b : Block) (m : MatOp) (st : State × List Nat) (r g : Nat) : State × List Nat :=
  let k := kTotal m.fmt m.passes
  let eb := elemBytes m.fmt
  let da := Dsc.of m.da
  let db := Dsc.of m.db
  let xs := elems eb 8 (st.1.dscRead b db (r * db.stride { n := m.rows, len := k * eb } + 8 * g * eb) (8 * eb))
  let byte := keepByte m.fmt xs
  (st.1.aspWrite b (da.base + r * da.stride { n := m.rows, len := k / 2 * eb } + 4 * g * eb)
    ((keptOf byte xs).flatMap (bytesLE eb)), st.2 ++ [byte])

/-- The rows of CMPR, group by group (R295): the state, and the metadata bytes row by row. -/
def State.cmprRows (s : State) (b : Block) (m : MatOp) : State × List Nat :=
  let n := kTotal m.fmt m.passes / 8
  (List.range m.rows).foldl (fun st r => (List.range n).foldl (fun st g => State.cmprGroup b m st r g) st) (s, [])

/-- CMPR_COMPLETE (R295): the compressed rows go to ASP and the metadata to the run, but for a register that an abort has written
since (log 91). -/
def execCmprComplete (cluster op : Nat) (s : State) : Host.Outcome State Fault Refusal :=
  let c := s.cluster cluster
  match c.mat.find? (fun m => m.id == op && m.opc == 0xEF) with
  | none => .next s
  | some m =>
    if !s.clocked (clusterDie cluster) then .next s
    else
      let s' := s.setCluster cluster { c with mat := c.mat.filter (fun x => x.id != op) }
      match s.block m.blk with
      | none => .next s'
      | some b =>
        let k := kTotal m.fmt m.passes
        let (s', bytes) := s'.cmprRows b m
        let bytes := bytes.toArray
        let mbyte (i g : Nat) : Nat := if g < k / 8 then bytes.getD (i * (k / 8) + g) 0x0F else 0x0F
        let reg (r l : Nat) : W32 := BitVec.ofNat 32 ((List.range 4).foldl (fun acc y =>
          acc + mbyte (32 * (r % 4) + l) (4 * (r / 4) + y) * 256 ^ y) 0)
        let s' := s'.updCohort m.slot (fun co =>
          if m.run = zv then co
          else (List.range (4 * cdiv k 32)).foldl (fun co r =>
            if m.run + r < co.g && !co.stale.contains (m.id, m.run + r) then co.setV (m.run + r) (VVal.ofFn (reg r)) else co) co)
        .next (s'.opDone m.slot 1 op)

/-! ### MVT (R301, R167) -/

/-- One output of MVT in a lane, with its flags (R167). -/
def mvtRow (f : Fmt) (ws : List Nat) (xs : List W32) : FRes :=
  (ws.zip xs).foldl (fun acc p =>
    let r := rounded fmt32 .rne false false (xfma .rne (f.value p.1) (v32 p.2) (v32 (BitVec.ofNat 32 acc.bits)))
    { bits := r.bits, fl := acc.fl ||| r.fl }) { bits := 0 }

def mvtBody (e : Env) : Eff :=
  let f := if e.w.moda.getLsbD 8 then fmtBf else fmt32
  let es := if e.w.moda.getLsbD 8 then 2 else 4
  let m := e.w.mdim
  let n := e.w.ndim
  let w (l : Nat) : Nat := (e.vb.at l).toNat
  let addr (l : Nat) : W64 := (e.vb.at l).setWidth 64
  e.checkLanes cAlign addr (fun l => w l % es != 0) <|
    e.checkLanes cDesc addr (fun l => e.blk.wbfBound < w l + m * n * es) <|
      e.afterPaying (1 + cdiv (m * n * popc e.act) 16) [] none (fun s =>
        let x (l : Nat) : List W32 := (List.range n).map (fun j =>
          if e.w.a.toNat = zv then 0 else (e.co.v (e.w.a.toNat + j)).at l)
        let out (l : Nat) : List FRes := (List.range m).map (fun i =>
          mvtRow f (elems es n (e.s.wbfRead e.blk (w l + i * n * es) (n * es))) (x l))
        let outs := lanes32.map (fun l => if e.act.has l then out l else [])
        let nf := e.lanesThat (fun l => (outs.getD l []).any (fun r => nonFinite fmt32 r.bits))
        if tnf e.co.fpctl && nf != 0 then .trapPaid s { code := cNonfinite, mask := nf }
        else
          let fl := outs.foldl (fun acc l => l.foldl (fun acc r => acc ||| r.fl) acc) 0
          .ok (s.updCohort e.slot (fun co =>
            e.setRun { co with fpctl := co.fpctl ||| fl } e.w.d.toNat m
              (fun i l => BitVec.ofNat 32 ((outs.getD l []).getD i { bits := 0 }).bits))))

/-! ### The meanings of the rows, one for each constructor -/

/-- DSET. -/
def execDset (w : BaseWord) (s : State) : Host.Outcome State Fault Refusal :=
  issueBase Cells.dset w dsetBody s

/-- DSET_EXT. -/
def execDsetExt (w : ExtWord) (s : State) : Host.Outcome State Fault Refusal :=
  issueExt Cells.dset w dsetBody s

/-- DGET. -/
def execDget (w : BaseWord) (s : State) : Host.Outcome State Fault Refusal :=
  issueBase Cells.dget w dgetBody s

/-- DGET_EXT. -/
def execDgetExt (w : ExtWord) (s : State) : Host.Outcome State Fault Refusal :=
  issueExt Cells.dget w dgetBody s

/-- TZERO. -/
def execTzero (w : BaseWord) (s : State) : Host.Outcome State Fault Refusal :=
  issueBase Cells.tzero w tzeroBody s

/-- TZERO_EXT. -/
def execTzeroExt (w : ExtWord) (s : State) : Host.Outcome State Fault Refusal :=
  issueExt Cells.tzero w tzeroBody s

/-- TRD. -/
def execTrd (w : BaseWord) (s : State) : Host.Outcome State Fault Refusal :=
  issueBase Cells.trd w trdBody s

/-- TRD_EXT. -/
def execTrdExt (w : ExtWord) (s : State) : Host.Outcome State Fault Refusal :=
  issueExt Cells.trd w trdBody s

/-- TWR. -/
def execTwr (w : BaseWord) (s : State) : Host.Outcome State Fault Refusal :=
  issueBase Cells.twr w twrBody s

/-- TWR_EXT. -/
def execTwrExt (w : ExtWord) (s : State) : Host.Outcome State Fault Refusal :=
  issueExt Cells.twr w twrBody s

/-- TCVT. -/
def execTcvt (w : ExtWord) (s : State) : Host.Outcome State Fault Refusal :=
  issueExt Cells.tcvt w tcvtBody s

/-- MMA_E4M3. -/
def execMmaE4m3 (w : ExtWord) (s : State) : Host.Outcome State Fault Refusal :=
  issueExt Cells.mmaE4m3 w mmaE4m3Body s

/-- MMA_E5M2. -/
def execMmaE5m2 (w : ExtWord) (s : State) : Host.Outcome State Fault Refusal :=
  issueExt Cells.mmaE5m2 w mmaE5m2Body s

/-- MMA_I8. -/
def execMmaI8 (w : ExtWord) (s : State) : Host.Outcome State Fault Refusal :=
  issueExt Cells.mmaI8 w mmaI8Body s

/-- MMA_BF16. -/
def execMmaBf16 (w : ExtWord) (s : State) : Host.Outcome State Fault Refusal :=
  issueExt Cells.mmaBf16 w mmaBf16Body s

/-- MMA_Q4A. -/
def execMmaQ4a (w : ExtWord) (s : State) : Host.Outcome State Fault Refusal :=
  issueExt Cells.mmaQ4a w mmaQ4aBody s

/-- MMAG. -/
def execMmag (w : ExtWord) (s : State) : Host.Outcome State Fault Refusal :=
  issueExt Cells.mmag w mmagBody s

/-- MMAS. -/
def execMmas (w : ExtWord) (s : State) : Host.Outcome State Fault Refusal :=
  issueExt Cells.mmas w mmasBody s

/-- CMPR. -/
def execCmpr (w : ExtWord) (s : State) : Host.Outcome State Fault Refusal :=
  issueExt Cells.cmpr w cmprBody s

/-- MVT. -/
def execMvt (w : ExtWord) (s : State) : Host.Outcome State Fault Refusal :=
  issueExt Cells.mvt w mvtBody s

end Sys2Proof.Machine
end

