-- ==== Sys2Proof/Machine/Aster.lean ====
section
/-! DEFINITION. Value groups and the Aster engine (spec/12_isa_engines_system.md R296 to R300; R166), and the instructions
that read or steer tokens, boost and time (R304 to R307). -/

namespace Sys2Proof.Machine

/-! ### VGA (R298, R299) -/

def vgaBody (e : Env) : Eff :=
  let a := Dsc.of (e.co.d e.w.a.toNat)
  let b := Dsc.of (e.co.d e.w.b.toNat)
  let row (d : Dsc) : Rows := { n := 1, len := d.extent }
  let n := b.extent / 4
  let c := e.s.cluster (clusterOf e.core)
  if e.shapeG then e.trap cShape
  else if a.base % 4 != 0 then e.trapBase cAlign a
  else if b.base % 4 != 0 then e.trapBase cAlign b
  else if e.dscBad a [1, 2] (row a) then e.trapBase cDesc a
  else if e.dscBad b [1, 2] (row b) then e.trapBase cDesc b
  else if 131072 < a.extent then trapAt cVglimit e.act (BitVec.ofNat 64 a.extent)
  else if 65535 < n then trapAt cVglimit e.act (BitVec.ofNat 64 n)
  else
    e.afterPaying (4 + cdiv (cdiv a.extent 4) 64) [(.counter, e.co.ocCount 2 < 63)]
      (some { kind := .queue, cls := 2, free := 32 - c.vga.length }) (fun s =>
        let (id, s) := s.fresh
        let op : VgaOp := { id := id, slot := e.slot, blk := e.co.blk, vd := e.w.d.toNat, mask := e.act,
                            da := e.co.d e.w.a.toNat, db := e.co.d e.w.b.toNat, window := Config.freeWord s.tick }
        let s := s.updCluster (clusterOf e.core) (fun c => { c with vga := c.vga ++ [op] })
        let vd : Pending := { op := id, first := e.w.d.toNat, count := 1 }
        .ok (s.updCohort e.slot (fun co =>
          let co := co.ocPost 2 id
          if e.w.d.toNat = zv then co else { co with pending := vd :: co.pending })))

/-- What one word of a stream comes to. -/
inductive VgaStep where
  | more (v : VgaOp)
  | done (rows : List W32)
  | fault (xaddr : Nat)

/-- The current run joined to the row's sum (R166). -/
def VgaOp.closeRun (v : VgaOp) : VgaOp :=
  if v.values = 0 then v
  else { v with acc := addF32 v.acc (mulF32 v.t (BitVec.ofNat 32 (v.word.toNat % 2 ^ 16 * 2 ^ 16))), t := 0 }

/-- The engine reads the next word of a stream (R296 to R299). A word that may not follow the one before it is the failing one, so
for a value word that lacks its position it is the word after it (log 92). -/
def State.vgaWord (s : State) (v : VgaOp) : VgaStep :=
  let da := Dsc.of v.da
  let db := Dsc.of v.db
  match s.block v.blk with
  | none => .fault 0
  | some b =>
    let off := 4 * v.cursor
    if da.extent < off + 4 then .fault da.extent
    else
      let w := leW 32 (s.dscRead b da off 4)
      let lo := w.toNat % 2 ^ 16
      let v' := { v with cursor := v.cursor + 1, window := Config.freeWord (s.tick + v.cursor) }
      if w.toNat / 2 ^ 16 % 2 ^ 14 != 0 then .fault off
      else
        match w.toNat / 2 ^ 30 with
        | 1 =>
          if v.fresh || 16 ≤ v.values then .fault off
          else .more { v'.closeRun with values := v.values + 1, fresh := true, word := w, t := 0 }
        | 0 =>
          if v.values = 0 || db.extent / 4 ≤ lo then .fault off
          else .more { v' with t := addF32 v.t (leW 32 (s.dscRead b db (4 * lo) 4)), fresh := false }
        | 2 =>
          if v.fresh || lo != 0 then .fault off
          else
            let rows := v.rows ++ [v'.closeRun.acc]
            if rows.length = 32 then .done rows
            else .more { v' with rows := rows, values := 0, fresh := false, word := 0, t := 0, acc := 0 }
        | _ => .fault off

/-- Up to a number of words. -/
def State.vgaRun (s : State) : Nat → VgaOp → VgaStep
  | 0, v => .more v
  | n + 1, v =>
    match s.vgaWord v with
    | .more v => s.vgaRun n v
    | r => r

/-- The Aster engine reads on in its first posted VGA, up to `n` words, and does not finish it (R300). -/
def State.asterRead (s : State) (cluster n : Nat) : State :=
  let c := s.cluster cluster
  match c.vga with
  | [] => s
  | v :: rest =>
    if !s.clocked (clusterDie cluster) then s
    else
      match s.vgaRun (min n 32768) v with
      | .more v => s.setCluster cluster { c with vga := v :: rest }
      | _ => s

/-- The results written to the active lanes of the posting issue (R298), unless an abort has written Vd since (log 91). -/
def Cohort.vgaWrite (co : Cohort) (v : VgaOp) (rows : List W32) : Cohort :=
  let old := co.v v.vd
  if co.stale.contains (v.id, v.vd) then co
  else co.setV v.vd (VVal.ofFn (fun l => if v.mask.has l then rows.getD l 0 else old.at l))

/-- The VGLIMIT of a stream reported to its cohort (R299): raised before its next issue, or parking it when no lane is left; a
parked cohort is served it once its park is settled (R346). -/
def State.vgaFault (s : State) (slot xaddr : Nat) : State :=
  match s.cohort slot with
  | none => s
  | some co =>
    if co.live = 0 || co.park.isSome then
      s.parkBoundary slot { code := cVglimit, cls := 1, addr := BitVec.ofNat 64 xaddr } true
    else s.setCohort slot { co with vglimit := co.vglimit ++ [xaddr] }

/-- VGA_COMPLETE (R298 to R300): the engine finishes the oldest posted VGA, writing Vd or reporting VGLIMIT, and frees its
queue. -/
def execVgaComplete (cluster : Nat) (s : State) : Host.Outcome State Fault Refusal :=
  let c := s.cluster cluster
  match c.vga with
  | [] => .next s
  | v :: rest =>
    if !s.clocked (clusterDie cluster) then .next s
    else
      let s' := s.setCluster cluster { c with vga := rest }
      match s.vgaRun 32769 v with
      | .done rows => .next ((s'.updCohort v.slot (fun co => co.vgaWrite v rows)).opDone v.slot 2 v.id)
      | .fault x => .next ((s'.opDone v.slot 2 v.id).vgaFault v.slot x)
      | .more v => .next (s.setCluster cluster { c with vga := v :: rest })

/-! ### Tokens, boost and time (R304 to R307) -/

def walletBody (e : Env) : Eff :=
  let w := (e.s.core e.core).wallet
  let n := (e.vb.at 0).toNat
  if !e.vb.isU || e.shapeTrap e.w.d.toNat (.u 0) then e.trap cShape
  else if 1023 < n then e.trap cIllegal
  else if w < n then .wait .wallet 0 0
  else .ok (e.put (e.setV e.co e.w.d.toNat (.u (BitVec.ofNat 32 w))))

def boostBody (e : Env) : Eff :=
  let n := (e.vb.at 0).toNat
  if !e.vb.isU || e.shapeTrap e.w.d.toNat (.u 0) then e.trap cShape
  else if 2 < n then e.trap cIllegal
  else
    let step := (e.s.cluster (clusterOf e.core)).step
    .ok ((e.put (e.setV e.co e.w.d.toNat (.u (BitVec.ofNat 32 step)))).setBlock e.co.blk { e.blk with boost := n })

/-- A cluster's claim (R305): the highest among the blocks resident on its cores, ended ones apart. -/
def State.claim (s : State) (cluster : Nat) : Nat :=
  (s.blocks.filter (fun p => clusterOf p.2.core == cluster && !p.2.ended)).foldl (fun m p => max m p.2.boost) 0

/-- The clusters of a die that hold boost (R306, R380). -/
def State.holders (s : State) (die : Nat) : Nat :=
  (s.clusters.filter (fun p => clusterDie p.1 == die && p.2.holding)).length

/-- One PERMITS sample (R306). -/
def State.permits (s : State) (core : Nat) : W32 :=
  let cl := clusterOf core
  BitVec.ofNat 32 (2 ^ 12 * s.holders (dieOf core) + 2 ^ 10 * s.claim cl + 2 ^ 8 * (s.cluster cl).step +
    (s.die (dieOf core)).pool)

def permitsBody (e : Env) : Eff := e.result (.u (e.s.permits e.core))

def cycleBody (e : Env) : Eff := e.result64 true (fun _ => (e.s.core e.core).cycle)

/-! ### The meanings of the rows, one for each constructor -/

/-- VGA. -/
def execVga (w : ExtWord) (s : State) : Host.Outcome State Fault Refusal :=
  issueExt Cells.vga w vgaBody s

/-- WALLET. -/
def execWallet (w : BaseWord) (s : State) : Host.Outcome State Fault Refusal :=
  issueBase Cells.wallet w walletBody s

/-- WALLET_EXT. -/
def execWalletExt (w : ExtWord) (s : State) : Host.Outcome State Fault Refusal :=
  issueExt Cells.wallet w walletBody s

/-- BOOST. -/
def execBoost (w : BaseWord) (s : State) : Host.Outcome State Fault Refusal :=
  issueBase Cells.boost w boostBody s

/-- BOOST_EXT. -/
def execBoostExt (w : ExtWord) (s : State) : Host.Outcome State Fault Refusal :=
  issueExt Cells.boost w boostBody s

/-- PERMITS. -/
def execPermits (w : BaseWord) (s : State) : Host.Outcome State Fault Refusal :=
  issueBase Cells.permits w permitsBody s

/-- PERMITS_EXT. -/
def execPermitsExt (w : ExtWord) (s : State) : Host.Outcome State Fault Refusal :=
  issueExt Cells.permits w permitsBody s

/-- CYCLE. -/
def execCycle (w : BaseWord) (s : State) : Host.Outcome State Fault Refusal :=
  issueBase Cells.cycle w cycleBody s

/-- CYCLE_EXT. -/
def execCycleExt (w : ExtWord) (s : State) : Host.Outcome State Fault Refusal :=
  issueExt Cells.cycle w cycleBody s

end Sys2Proof.Machine
end

