-- ==== Sys2Proof/Machine/Power.lean ====
section
/-! DEFINITION. Tokens and the ring (R43, R44, R376 to R378), permits and boost (R379 to R382), thermal states (R383 to
R385), posted writes (R376, R386), the energy latch (R387), and the event log (R394). -/

namespace Sys2Proof.Machine

/-! ### The event log in flash (R394) -/

/-- New entries go to flash, which keeps the newest 8,192. -/
def State.flushLog (s : State) : State :=
  s.updGrotto (fun g =>
    let newest := (g.flashLog.head?.map (·.seq)).getD 0
    { g with flashLog := (g.sram.filter (fun e => newest < e.seq) ++ g.flashLog).take 8192 })

/-- LOG_FLUSH (R394): once a second. -/
def execLogFlush (s : State) : Host.Outcome State Fault Refusal := .next s.flushLog

/-! ### The ring (R43, R377) -/

/-- Tokens the controller adds in a ring clock, in sixteenths (R377). -/
def Die.inject (d : Die) : Nat := if d.tstate = .throttle then d.rate / 2 else d.rate

/-- The waits of the first-in-line instructions of a die's wallets have waited one ring clock more, and no other wait of the
die has waited any as first in line (R44). -/
def State.ageFirst (s : State) (die : Nat) : State :=
  let firsts := (List.range 32).filterMap (fun c => (s.line (32 * die + c)).head?.map (fun x => (x.1, x.2.2.pc)))
  { s with cohorts := s.cohorts.mapVals (fun k co =>
      if dieOf (coreOf k) = die then
        { co with waits := co.waits.map (fun r =>
            { r with revs := if firsts.any (fun f => f.1 == k && f.2 == r.pc) then r.revs + 1 else 0 }) }
      else co) }

/-- TOKEN_INJECT (R377): one ring clock of the controller. The whole-token part of the fraction register goes into the slot
that stands before station 0, once that place is free. -/
def execTokenInject (die : Nat) (s : State) : Host.Outcome State Fault Refusal :=
  let d := s.die die
  if !s.clocked die || d.slots.get 0 0 != 0 then .next s
  else
    let f := d.fraction + d.inject
    let w := min (f / 16) 4095
    .next ((s.setDie die { d with fraction := f - 16 * w, slots := if w = 0 then d.slots else d.slots.put 0 w }).ageFirst die)

/-- The class in which a wallet takes a token (R43): 1 starved, 2 first in line waiting, 3 below the cap; 4 takes none. -/
def State.tokenClass (s : State) (core : Nat) : Nat :=
  let c := s.core core
  if 1023 ≤ c.wallet then 4 else if s.starvedNow core then 1 else if (s.line core).isEmpty then 3 else 2

/-- The core of a cluster that takes the next token: the first class that has one, in rotating order (R43). The three classes
share one rotation position: the core after the one that took the station's last token (log 62). -/
def State.tokenTaker (s : State) (cluster : Nat) : Option Nat :=
  let order := (List.range 4).map (fun i => ((s.cluster cluster).ringRot + i) % 4)
  let pick (k : Nat) : Option Nat := order.find? (fun i => s.tokenClass (4 * cluster + i) == k)
  match pick 1 with
  | some i => some i
  | none =>
    match pick 2 with
    | some i => some i
    | none => pick 3

/-- Tokens offered one by one; what no wallet takes is left. -/
def State.offer (s : State) (cluster : Nat) : Nat → State × Nat
  | 0 => (s, 0)
  | n + 1 =>
    match s.tokenTaker cluster with
    | none => (s, n + 1)
    | some i =>
      let s := s.updCore (4 * cluster + i) (fun c => { c with wallet := c.wallet + 1 })
      (s.updCluster cluster (fun c => { c with ringRot := (i + 1) % 4 })).offer cluster n

/-- A wallet whose first in line has waited through four revolutions of 8 ring clocks becomes starved, for that instruction
(R44); one that is starved stays so. -/
def State.markStarved (s : State) (core : Nat) : State :=
  match (s.line core).head? with
  | some x =>
    if 32 ≤ x.2.2.revs && !s.starvedNow core then s.updCore core (fun c => { c with starved := some x.2.2.since }) else s
  | none => s

/-- WALLET_STARVED (R44); a core without clocks keeps its state (R385). -/
def execWalletStarved (core : Nat) (s : State) : Host.Outcome State Fault Refusal :=
  .next (if s.clocked (dieOf core) then s.markStarved core else s)

/-- RING_STATION (R43): the slot before a station is offered to its cluster's wallets, and what is left moves on, once the
next place is free. Place 8 is the injection point. A wallet that is to become starved does so first. -/
def execRingStation (die station : Nat) (s : State) : Host.Outcome State Fault Refusal :=
  let d := s.die die
  if !s.clocked die || d.slots.get (station + 1) 0 != 0 then .next s
  else
    let s := (List.range 4).foldl (fun s i => s.markStarved (4 * (8 * die + station) + i)) s
    let (s, left) := s.offer (8 * die + station) (d.slots.get station 0)
    .next (s.updDie die (fun d =>
      let m := d.slots.del station
      { d with slots := if left = 0 then m else m.put (station + 1) left }))

/-- TOKEN_WITHDRAW (R43, R377): tokens that return to the injection point are lost. -/
def execTokenWithdraw (die : Nat) (s : State) : Host.Outcome State Fault Refusal :=
  if !s.clocked die then .next s
  else .next (s.updDie die (fun d =>
    { d with tokLost := d.tokLost + BitVec.ofNat 64 (d.slots.get 8 0), slots := d.slots.del 8 }))

/-- A waiting instruction that sixteen have passed becomes first in line (R42). Two that the same payment has passed for the
sixteenth time stand in the order in which they are promoted here (DESIGN CHOICE, log 106). -/
def State.promote (s : State) (slot : Nat) : State :=
  match (s.cohort slot).bind (fun co => co.waits.find? WaitRec.dueFirst) with
  | none => s
  | some r =>
    let (n, s) := s.fresh
    s.updCohort slot (fun co => { co with waits := co.waits.map (fun x =>
      if x.pc == r.pc then { x with promoted := some n } else x) })

/-- PRICE_LINE_AGING (R42); a core without clocks keeps its state (R385). -/
def execPriceLineAging (slot : Nat) (s : State) : Host.Outcome State Fault Refusal :=
  .next (if s.clocked (dieOf (coreOf slot)) then s.promote slot else s)

/-! ### Permits and boost (R379 to R382) -/

/-- The pool after a boundary of the controller: an interval without boost adds a permit (R380). -/
def Die.refill (d : Die) : Die := if d.poolBoost then d else { d with pool := min 64 (d.pool + 1) }

/-- Holds granted in rotating order (R380, R384). -/
def State.grantHolds (s : State) (die : Nat) : List Nat → Nat → State
  | [], _ => s
  | c :: rest, free =>
    let x := s.cluster c
    if free = 0 || (s.die die).pool < 8 || s.claim c = 0 || x.holding || x.falling then s.grantHolds die rest free
    else
      ((s.setCluster c { x with holding := true }).updDie die (fun d => { d with lastGrant := c % 8 })).grantHolds die rest
        (free - 1)

/-- POOL_BOUNDARY (R380). -/
def execPoolBoundary (die : Nat) (s : State) : Host.Outcome State Fault Refusal :=
  if !s.clocked die then .next s
  else
    let s := s.updDie die Die.refill
    let order := (List.range 8).map (fun i => 8 * die + ((s.die die).lastGrant + 1 + i) % 8)
    let s := if (s.die die).tstate = .normal then s.grantHolds die order (2 - s.holders die) else s
    .next (s.updDie die (fun d => { d with poolBoost := s.clusters.any (fun p => clusterDie p.1 == die && 0 < p.2.step) }))

/-- Whether a cohort is resident on a cluster. -/
def State.clusterEmpty (s : State) (cluster : Nat) : Bool := s.cohorts.all (fun p => clusterOf (coreOf p.1) != cluster)

/-- A cluster whose forward bias has settled: a step up that has waited for it takes place (R382). -/
def Cluster.risen (c : Cluster) : Cluster :=
  if c.rising = 0 then c else { c with step := c.rising, rising := 0, settled := true }

/-- The step that a claim asks for (R380, R382): at once when it is no step up or forward bias has settled, else once it
has. -/
def Cluster.stepTo (c : Cluster) (claim : Nat) : Cluster :=
  if claim ≤ c.step || (c.bias == .forward && c.settled) then { c with step := claim, holding := claim != 0 }
  else { c with rising := claim }

/-- A holding cluster's step at its own boundary (R380): charged in advance, or falling. A step up of the boundary before has
settled by then (R382). -/
def State.boundaryStep (s : State) (cluster : Nat) : State :=
  let die := clusterDie cluster
  let c := (s.cluster cluster).risen
  let d := s.die die
  let s :=
    if c.holding && !c.falling then
      if d.tstate != .normal || d.pool = 0 then s.setCluster cluster { c with falling := true }
      else
        let claim := s.claim cluster
        (s.setCluster cluster (c.stepTo claim)).setDie die { d with pool := d.pool - min claim d.pool }
    else s.setCluster cluster c
  s.updCluster cluster (fun c =>
    if c.falling then
      let st := c.step - 1
      { c with step := st, falling := st != 0, holding := st != 0 }
    else c)

/-- CLUSTER_BOUNDARY (R380, R382): the step of the next interval, and the bias that goes with it. Reverse bias needs a last cohort
that has left: a cluster that has held none since reset has none. -/
def execClusterBoundary (cluster : Nat) (s : State) : Host.Outcome State Fault Refusal :=
  let die := clusterDie cluster
  if !s.clocked die then .next s
  else
    let s := s.boundaryStep cluster
    let empty := s.clusterEmpty cluster
    let s := s.updCluster cluster (fun c =>
      let bias : Bias := if 0 < c.step || 0 < c.rising then .forward else if empty && c.emptyInt && c.used then .reverse else .none
      { c with bias := bias, settled := bias == c.bias && c.settled, emptyInt := empty })
    .next (s.updDie die (fun d => { d with poolBoost := d.poolBoost || 0 < (s.cluster cluster).step }))

/-! ### Thermal control (R383 to R385) -/

/-- TSTATE after a sample, leaving the dwell aside (R383). -/
def Die.thermalNext (d : Die) (t : Nat) : TState :=
  let cooled : TState := if t + 4 ≤ d.tboost then .normal else if t + 4 ≤ d.tthr then .warm else .throttle
  if d.temg ≤ t then .emergency
  else
    match d.tstate with
    | .normal => if d.tthr ≤ t then .throttle else if d.tboost ≤ t then .warm else .normal
    | .warm => if d.tthr ≤ t then .throttle else if t + 4 ≤ d.tboost then .normal else .warm
    | .throttle => cooled
    | .emergency => if t + 10 ≤ d.temg then cooled else .emergency

def TState.code : TState → Nat
  | .normal => 0
  | .warm => 1
  | .throttle => 2
  | .emergency => 3

/-- THERMAL_SAMPLE (R383, R385, R394): a move outside EMERGENCY's entry waits 20 samples, 2 ms. -/
def execThermalSample (die tmax : Nat) (s : State) : Host.Outcome State Fault Refusal :=
  let d := s.die die
  let t := tmax % 256
  let n := d.samples + 1
  let nx := d.thermalNext t
  if !s.released then .next s
  else if nx = d.tstate || (nx != .emergency && n < 20) then .next (s.setDie die { d with tmax := t, samples := n })
  else
    let s := s.setDie die { d with tmax := t, samples := 0, tstate := nx, emgCnt := if nx = .emergency then d.emgCnt + 1 else d.emgCnt }
    let s := s.logEvent (plainEntry logTState die nx.code)
    .next (if nx = .emergency then s.flushLog else s)

/-! ### Posted writes (R376, R386, R391) -/

/-- POWER_POST (R376): a PF write of a word of a power or RAS block that has a posted field. -/
def execPowerPost (ras : Bool) (die off : Nat) (value : W32) (s : State) : Host.Outcome State Fault Refusal :=
  if !s.released then .next s
  else .next (s.updGrotto (fun g => { g with posted := g.posted ++ [{ ras := ras, die := die, off := off, value := value }] }))

/-- Whether Grotto accepts a posted word, and what it then writes (R376, R386, R391); none for a refusal. -/
def State.applyPosted (s : State) (p : Posted) : Option State :=
  let v := p.value.toNat
  let d := s.die p.die
  let other := (s.die (1 - p.die)).rate
  if p.ras then
    if p.off = 0x40 then
      let gap := v % 2 ^ 16
      if gap < 16 then none else some (s.setDie p.die { d with scrubEn := v / 2 ^ 30 % 2 = 1, scrubGap := gap })
    else if p.off = 0x44 then
      let n := v % 2 ^ 16
      if n < 1 then none else some (s.setDie p.die { d with cethr := n })
    else some s
  else if p.off = 0 then
    let r := v % 2 ^ 16
    if r < 16 || 8000 < r || 16000 < r + other then none else some (s.setDie p.die { d with rate := r })
  else if p.off = 4 then
    let emg := v / 2 ^ 16 % 256
    let thr := v / 2 ^ 8 % 256
    let bst := v % 256
    if emg < 60 || 110 < emg || thr < 50 || emg < thr + 5 || bst < 40 || thr < bst then none
    else some (s.setDie p.die { d with temg := emg, tthr := thr, tboost := bst })
  else if 0x40 ≤ p.off && p.off < 0x80 && p.off % 8 = 0 then
    let size := v % 256
    if 64 < size then none
    else some (s.updCluster (8 * p.die + (p.off - 0x40) / 8) (fun c => { c with wgap := v / 2 ^ 8 % 256, wsize := size }))
  else some s

/-- GROTTO_APPLY (R376): Grotto judges the oldest posted write. -/
def execGrottoApply (s : State) : Host.Outcome State Fault Refusal :=
  match s.grotto.posted with
  | [] => .next s
  | p :: rest =>
    let s := s.updGrotto (fun g => { g with posted := rest })
    .next ((s.applyPosted p).getD (s.updDie p.die (fun d => { d with refused := true })))

/-! ### Energy (R387) -/

/-- A read of ENERGYLO (R387): the accumulator's low word, its high word latched; what the die has drawn since the last read is
not the spec's to say. -/
def State.sampleEnergy (s : State) (die : Nat) : State :=
  s.updDie die (fun d =>
    let e := d.energy + Config.freeWord s.tick
    { d with energy := e, latch := e.extractLsb' 32 32 })

/-- ENERGYLO_READ (R387): a PF read; while Grotto holds the latch it waits. -/
def execEnergyloRead (die : Nat) (s : State) : Host.Outcome State Fault Refusal :=
  .next (if !s.released || (s.die die).latchHeld then s
  else
    let s := s.sampleEnergy die
    { s with answer := some (bytesLE 4 ((s.die die).energy.toNat % 2 ^ 32)) })

/-- Grotto's own reads (R387): that of the low word takes the latch and holds it, that of the high word lets it go. -/
def State.grottoEnergy (s : State) (die : Nat) (high : Bool) : State :=
  if !s.released then s
  else if high then s.updDie die (fun d => { d with latchHeld := false })
  else (s.sampleEnergy die).updDie die (fun d => { d with latchHeld := true })

end Sys2Proof.Machine
end

