-- ==== Sys2Proof/Machine/Admit.lean ====
section
/-! DEFINITION. Admission of a block to a core (spec/02_execution_model.md R14 to R19; spec/03_tree_sweeps.md R54, R59, R76;
spec/04_memory_spaces.md R83; spec/06_registers_operands.md R131, R133; spec/17_power_thermal.md R382). -/

namespace Sys2Proof.Machine

/-- What a block needs of a core (R16). -/
structure Needs where
  ncoh   : Nat
  slices : Nat                    -- slice-registers
  narrow : Nat
  tiles  : Nat
  asp    : Nat
  wbf    : Nat
  deriving DecidableEq, Repr, Inhabited

/-- The cohorts of a block of `n` lanes (R14). -/
def cohortsOf (n : Nat) : Nat := cdiv n 32

/-- The size of a WBF allocation of `w` bytes (R83). -/
def wbfSizeOf (w : Nat) : Nat := roundUp w 4096

/-- The size of the ASP range of a block whose bound is `bound`, in a launch with `txbuf` (R16, R76, R83). -/
def aspSizeOf (bound txbuf : Nat) : Nat := roundUp bound 1024 + txbuf

/-- The needs of a node's block (R16, R54). -/
def needsOf (k : KernelEntry) (txbuf : Nat) (phase : Phase) (r : NodeRec) : Needs :=
  let nc := cohortsOf r.lanes
  { ncoh := nc, slices := k.gregs * cdiv r.lanes 8, narrow := k.narrow * nc, tiles := k.tiles,
    asp := aspSizeOf (areaOf k.aspb phase r).bound txbuf, wbf := wbfSizeOf k.wbfb }

/-- Whether an empty core admits it (R59). -/
def Needs.fitsEmpty (d : Needs) : Bool :=
  d.ncoh ≤ 64 && d.slices ≤ 32768 && d.narrow ≤ 32768 && d.asp ≤ 4096 * 1024 && d.wbf ≤ 2048 * 1024 && d.tiles ≤ 24

/-- Where a block is placed on a core: the slot of each cohort, and its bases. -/
structure Place where
  slots : List Nat
  asp   : Nat
  wbf   : Nat
  deriving DecidableEq, Repr, Inhabited

/-- The narrow names of a core that resident cohorts hold (R131). -/
def State.narrowUsed (s : State) (core : Nat) : Nat :=
  (s.coreCohorts core).foldl (fun acc p => acc + ((s.block p.2.blk).map (·.n)).getD 0) 0

/-- The tiles of a core that blocks which have not ended hold. -/
def State.tilesUsed (s : State) (core : Nat) : Nat :=
  (s.coreBlocks core).foldl (fun acc p => if p.2.ended then acc else acc + p.2.k) 0

/-- The lowest base at which a range of a size fits between the taken ranges of a store (R16). -/
def lowestBase (total size : Nat) (taken : List (Nat × Nat)) : Option Nat :=
  let free (b : Nat) : Bool := b + size ≤ total && taken.all (fun r => !overlaps b size r.1 r.2)
  (sortBy id (0 :: taken.map (fun r => r.1 + r.2))).find? free

/-- The free slots of a quarter, lowest first (R17). Which of them a cohort takes is the model's choice: the lowest (log 65). -/
def State.freeSlots (s : State) (core q : Nat) : List Nat :=
  ((List.range 16).map (fun i => 64 * core + 16 * q + i)).filter (fun x => (s.cohort x).isNone)

/-- The quarter of cohort 0: the one with the most free slots, the lowest-numbered of several (R17). -/
def firstQuarter (free : Nat → Nat) : Nat :=
  (List.range 4).foldl (fun b q => if free b < free q then q else b) 0

/-- The slots of a block's cohorts; none when a quarter would hold a seventeenth (R17). -/
def State.pickSlots (s : State) (core ncoh : Nat) : Option (List Nat) :=
  let q0 := firstQuarter (fun q => (s.freeSlots core q).length)
  (List.range ncoh).mapM (fun k => (s.freeSlots core ((q0 + k) % 4))[k / 4]?)

/-- Where the ASP and the WBF range of a block lie on a core that has what it needs beside cohort slots (R16, R83). -/
def State.rooms (s : State) (core : Nat) (d : Needs) : Option (Nat × Nat) :=
  let bs := s.coreBlocks core
  if !s.clocked (dieOf core) then none
  else if s.slicePool core < d.slices || 32768 < s.narrowUsed core + d.narrow || 24 < s.tilesUsed core + d.tiles then none
  else
    match lowestBase (4096 * 1024) d.asp (bs.map (fun p => (p.2.aspBase, p.2.aspSize))),
      lowestBase (2048 * 1024) d.wbf (bs.map (fun p => (p.2.wbfBase, p.2.wbfSize))) with
    | some a, some w => some (a, w)
    | _, _ => none

/-- Whether a core admits a block with such needs, and where it places it (R16, R17, R83). A cluster under reverse bias admits it
once the bias is removed (R382): `State.settledOn`. -/
def State.admits (s : State) (core : Nat) (d : Needs) : Option Place :=
  match s.pickSlots core d.ncoh, s.rooms core d with
  | some sl, some (a, w) => some { slots := sl, asp := a, wbf := w }
  | _, _ => none

/-- Places of blocks none of whose clusters is under reverse bias (R382): an admission elsewhere waits until it is removed. -/
def State.settledOn (s : State) (cores : List (Nat × Place)) : Option (List (Nat × Place)) :=
  if cores.any (fun p => (s.cluster (clusterOf p.1)).bias == .reverse) then none else some cores

/-- The absent lane positions of cohort `c` of a block of `n` lanes (R14). -/
def absentOf (n c : Nat) : Mask := maskOf (fun l => n ≤ 32 * c + l)

/-- A cohort at admission (R13, R14, R133). -/
def Cohort.fresh (blk c n g : Nat) : Cohort :=
  let absent := absentOf n c
  { blk := blk, cohid := c, lanes := lanes32.map (fun l => { tid := 32 * c + l }), absent := absent,
    slices := slicesOf (~~~ absent), g := g }

/-- The bytes of a node record (R52). -/
def NodeRec.bytes (r : NodeRec) : List Byte :=
  bytesLE 4 r.parent.toNat ++ bytesLE 4 r.first.toNat ++ bytesLE 2 r.nchild ++ bytesLE 2 r.lanes ++ bytesLE 2 r.kind ++
  bytesLE 2 r.rb ++ bytesLE 2 r.cslot ++ bytesLE 6 0 ++ bytesLE 8 r.payload.toNat ++ bytesLE 2 r.kup ++ bytesLE 2 r.kdn ++
  bytesLE 2 r.kex ++ bytesLE 2 0 ++ bytesLE 8 r.user0.toNat ++ bytesLE 8 r.user1.toNat ++ bytesLE 8 0

/-- A block becomes resident: its cohorts take their slots, and the tree area is filled but for INBOX (R16, R54, R133). -/
def State.admitTo (s : State) (b : Block) (g : Nat) (pl : Place) : Nat × State :=
  let (id, s) := s.fresh
  let b := { b with slots := pl.slots.map some, aspBase := pl.asp, wbfBase := pl.wbf, age := s.nextAge, since := s.frontClk }
  let s := { s with nextAge := s.nextAge + 1 }
  let s := (List.zip (List.range pl.slots.length) pl.slots).foldl (fun s p =>
    s.setCohort p.2 (Cohort.fresh id p.1 b.nlanes g)) s
  let s := (s.setBlock id b).updCluster (clusterOf b.core) (fun c => { c with emptyInt := false, used := true })
  let a := areaOf (((s.kernelOf b).map (·.aspb)).getD 0) b.phase b.rcd
  let s := s.aspWrite b a.record b.rcd.bytes
  let s := s.aspWrite b a.outbox (List.replicate (a.resbuf - a.outbox) 0)
  (id, s.aspWrite b a.resbuf (List.replicate (a.bound - a.resbuf) 0))

end Sys2Proof.Machine
end

