-- ==== Sys2Proof/Machine/Launches.lean ====
section
/-! DEFINITION. How a launch stops and how it completes (spec/03_tree_sweeps.md R74; spec/14_host_interface.md R329, R331,
R334, R335), and the engine's accesses to device memory for a launch (R334). -/

namespace Sys2Proof.Machine

/-- STATUS of a completion record (R335). -/
def stOk : Nat := 0
def stTreebound : Nat := 1
def stEcc : Nat := 2
def stKilled : Nat := 3
def stStackSize : Nat := 4
def stCtxSize : Nat := 5
def stBadLaunch : Nat := 6

/-- Cause codes of class K (R340). -/
def codeTreebound : Nat := 33
def codeQueuelen : Nat := 34
def codeKilled : Nat := 35

/-- TREEBOUND reasons (R74). -/
def tbDepth : Nat := 1
def tbSize : Nat := 2
def tbMalformed : Nat := 3
def tbGang : Nat := 4
def tbFit : Nat := 5

/-! ### Queues -/

/-- Error codes of a queue (R330). -/
def qQueuelen : Nat := 1
def qWrap : Nat := 2
def qBadkind : Nat := 3
def qBadpkt : Nat := 4
def qBadwr : Nat := 5
def qPage : Nat := 6

/-- An error stops a queue; the first cause stays (R325, R330). -/
def Queue.halt (q : Queue) (code : Nat) (eoff : W32) : Queue :=
  if q.stop then q else { q with stop := true, code := code, eoff := eoff }

/-- The reset of R331, once no packet runs. -/
def Queue.reset (q : Queue) : Queue :=
  { q with qrd := 0, qwr := 0, stop := false, code := 0, eoff := 0, pending := false, rst := false, blocked := false }

/-- A packet completes (R329, R331): a blocked one that may now start sets the pending bit, a waiting reset is made. -/
def Queue.complete (q : Queue) (id : Nat) : Queue :=
  let fl := q.flight.filter (fun p => p.id != id)
  let q := { q with flight := fl, pending := q.pending || (q.blocked && fl.isEmpty) }
  if q.rst && fl.isEmpty then q.reset else q

/-! ### Stops (R74) -/

/-- The node's input-copy slots are free once the launch has stopped (R70). -/
def Launch.dropCopies (l : Launch) : Launch :=
  { l with nodes := l.nodes.mapVals (fun _ n => { n with copySlot := none }) }

/-- A launch stops: nothing more of it is taken, dispatched or pushed. The first stop stands. -/
def State.stopLaunch (s : State) (lid status detail node : Nat) : State :=
  match s.launch lid with
  | none => s
  | some l =>
    if l.stop.isSome then s
    else
      let s := s.setLaunch lid { l.dropCopies with stop := some (status, detail, node), search := [] }
      { s with clusters := s.clusters.mapVals (fun _ c =>
          { c with waiting := c.waiting.filter (fun d => d.launch != lid),
                   downWait := if (c.downWait.map (·.1)) == some lid then none else c.downWait }) }

/-- A record of class K that no cohort raised, for a launch (R334, R347). -/
def Launch.record (l : Launch) (code detail node : Nat) (addr : W64) (ipa : Nat) : FaultInfo :=
  { code := code, cls := 3, detail := detail, addr := addr, node := node, ipa := BitVec.ofNat 64 ipa, queue := l.queue,
    tag := l.tag }

/-- A kill event (R350, R394): one record of class K, and an entry of the event log whose DETAIL is the node. -/
def State.postKill (s : State) (vf die : Nat) (r : FaultInfo) : State :=
  (s.postRecord vf r).logEvent { plainEntry logKill die r.node with vf := vf, slot := r.slot }

/-- The die field of an entry of the package. -/
def noDie : Nat := 0xFF

/-- TREEBOUND at a node (R74). -/
def State.treebound (s : State) (lid reason node : Nat) : State :=
  match s.launch lid with
  | none => s
  | some l =>
    if l.stop.isSome then s
    else (s.postKill l.vf noDie (l.record codeTreebound reason node 0 0)).stopLaunch lid stTreebound reason node

/-- An access of an agent for a launch fails translation (R334). -/
def State.engineFault (s : State) (lid node : Nat) (va : W64) (e : XlatErr) (acc : Access) : State :=
  match s.launch lid with
  | none => s
  | some l =>
    (s.postKill l.vf noDie (l.record e.code (xlatDetail e acc) node va (if e.stage2 then e.ipa else 0))).stopLaunch lid
      stKilled 0 0

/-! ### Completion (R335) -/

/-- The completion record's fields but DONE, as offsets with bytes. -/
def Launch.completion (l : Launch) : List Byte × List Byte :=
  let (st, det, node) := l.stop.getD (stOk, 0, 0)
  (bytesLE 4 st ++ bytesLE 4 det ++ bytesLE 4 node ++ bytesLE 2 l.tag,
   bytesLE 8 l.gpass ++ bytesLE 8 l.gfail ++ bytesLE 4 l.relaunch ++ bytesLE 20 0)

/-- The front end writes a launch's completion record, then DONE; a page that fails translation stops the queue (R334). -/
def State.writeCompletion (s : State) (l : Launch) : State :=
  match s.translate [] l.vf l.crec .write with
  | .error e =>
    (s.postKill l.vf noDie (l.record e.code (xlatDetail e .write) 0 l.crec (if e.stage2 then e.ipa else 0))).updQueue l.vf
      l.queue (fun q => q.halt qPage (BitVec.ofNat 32 l.off))
  | .ok x =>
    let key := (s.vf l.vf).key
    let (a, b) := l.completion
    let s := ((s.physWrite key none x.pa a).physWrite key none (x.pa + 0x10) b).physWrite key none (x.pa + 0x38) (bytesLE 8 1)
    s.updVf l.vf (fun v => { v with launches := v.launches + 1 })

/-- A launch completes: its record, its packet, and its place among the launches. -/
def State.completeLaunch (s : State) (lid : Nat) : State :=
  match s.launch lid with
  | none => s
  | some l =>
    let s := s.writeCompletion l
    let s := s.updQueue l.vf l.queue (fun q => q.complete l.packet)
    { s with launches := s.launches.del lid }

/-- Whether a block of a launch has still to end: resident or swapped out. -/
def State.hasBlock (s : State) (lid : Nat) : Bool :=
  s.blocks.any (fun p => p.2.launch == lid && !p.2.ended) ||
  s.vfs.any (fun p => p.2.swapped.any (fun r => r.block.launch == lid))

/-- Whether an agent has still something to do for a launch. -/
def State.agentsBusy (s : State) (lid : Nat) (l : Launch) : Bool :=
  !l.search.isEmpty || !l.pops.isEmpty ||
  s.clusters.any (fun p => p.2.waiting.any (fun d => d.launch == lid) || (p.2.downWait.map (·.1)) == some lid)

/-- The address of a cluster's frame at a height (R50). -/
def Launch.frameAddr (l : Launch) (fr : Nat × Nat) : W64 :=
  l.stack + BitVec.ofNat 64 ((fr.1 * l.d + fr.2) * l.f)

/-- A pop frees a frame's height and writes nothing (R57, R399). -/
def Launch.pop (l : Launch) (fr : Nat × Nat) : Launch :=
  { l with heights := l.heights.put fr.1 ((l.heights.get fr.1 []).filter (· != fr.2)),
           nodes := l.nodes.mapVals (fun _ n => if n.frame == some fr then { n with frame := none } else n) }

/-- Whether an INBOX copy reads a frame. -/
def Launch.readsFrame (l : Launch) (fr : Nat × Nat) (src : Option Nat) : Bool :=
  let a := (l.frameAddr fr).toNat
  (src.map (fun x => decide (a ≤ x && x < a + l.f))).getD false

/-- The node at the head of what is dispatched with a block: its own, or its gang's first member. -/
def Block.headNode (b : Block) : Nat := if b.gang.isSome && !b.alone then b.node - b.member.getD 0 else b.node

/-- Whether INBOX copies from a frame, other than those of the blocks dispatched with node `head`, have still to be made
(R66). -/
def State.copiesPending (s : State) (lid : Nat) (l : Launch) (fr : Nat × Nat) (head : Nat) : Bool :=
  s.blocks.any (fun p => p.2.launch == lid && !p.2.inboxDone && !p.2.ended && p.2.headNode != head && l.readsFrame fr p.2.inboxAddr) ||
  s.clusters.any (fun c => c.2.waiting.any (fun d => d.launch == lid && d.nodes.headD 0 != head &&
    d.inboxes.any (fun i => l.readsFrame fr i.1)))

/-- Whether a complete frame may be popped: the INBOX copies of the blocks dispatched with node `head` have ended, and so has
every other copy from the frame (R61, R66). -/
def State.popDue (s : State) (lid : Nat) (l : Launch) (p : Nat × Nat × Nat) : Bool :=
  !s.copiesPending lid l p.2 p.1 &&
  !s.blocks.any (fun b => b.2.launch == lid && !b.2.inboxDone && !b.2.ended && b.2.headNode == p.1)

/-- The frames that are due are popped. -/
def State.settlePops (s : State) (lid : Nat) : State :=
  match s.launch lid with
  | none => s
  | some l =>
    let due := l.pops.filter (s.popDue lid l)
    if due.isEmpty then s
    else s.setLaunch lid (due.foldl (fun l p => l.pop p.2) { l with pops := l.pops.filter (fun p => !due.contains p) })

/-- Whether a launch is over (R68, R74, R335). -/
def State.launchOver (s : State) (lid : Nat) (l : Launch) : Bool :=
  l.started && !s.hasBlock lid &&
  (l.stop.isSome ||
    (!s.agentsBusy lid l &&
      match l.phase with
      | .up => l.sweep != 2 && l.rootDone
      | .down => l.rootTaken && l.heights.all (fun h => h.2.isEmpty)))

/-- What follows an engine's step for a launch: frames that are due are popped, and a launch that is over completes. -/
def State.settle (s : State) (lid : Nat) : State :=
  let s := s.settlePops lid
  match s.launch lid with
  | none => s
  | some l => if s.launchOver lid l then s.completeLaunch lid else s

end Sys2Proof.Machine
end

