-- ==== Sys2Proof/Machine/Frames.lean ====
section
/-! DEFINITION. Node records and frames in device memory (spec/03_tree_sweeps.md R50 to R57, R71), and pushes and pops. -/

namespace Sys2Proof.Machine

/-! ### The engine's accesses -/

/-- Why an agent's step stops its launch: a TREEBOUND reason at a node (R74), or an access that fails translation (R334). -/
inductive Trouble where
  | bound (reason node : Nat)
  | xlat (node : Nat) (va : W64) (e : XlatErr) (acc : Access)

/-- What an agent's step gives: a value, or the state it has reached with the trouble it meets. -/
abbrev Eng := Except (State × Trouble)

/-- The agent of a cluster serves a node of a launch. -/
structure Serve where
  lid  : Nat
  vf   : Nat
  cl   : Nat
  node : Nat

/-- An agent reads device memory (R334). -/
def State.engRead (s : State) (a : Serve) (va : W64) (n : Nat) : Eng (List Byte) :=
  match s.vmRead (s.clusterTlbs a.cl) a.vf va n with
  | .error (x, e) => .error (s, .xlat a.node x e .read)
  | .ok bs => .ok bs

/-- An agent writes device memory (R334). -/
def State.engWrite (s : State) (a : Serve) (va : W64) (bs : List Byte) : Eng State :=
  match s.vmWrite (s.clusterTlbs a.cl) a.vf va bs with
  | .error (x, e) => .error (s, .xlat a.node x e .write)
  | .ok s => .ok s

/-- The state after an agent's step, whether it met trouble or not (R74, R334). -/
def served (lid : Nat) : Eng State → State
  | .ok s => s
  | .error (s, .bound reason node) => s.treebound lid reason node
  | .error (s, .xlat node va e acc) => s.engineFault lid node va e acc

/-! ### Node records (R52, R71) -/

/-- The record 64 bytes hold; none when a reserved field is not zero. -/
def NodeRec.ofBytes (bs : List Byte) : Option NodeRec :=
  let f (off n : Nat) : Nat := leNat ((bs.drop off).take n)
  if f 13 1 != 0 || f 18 6 != 0 || f 38 2 != 0 || f 56 8 != 0 then none
  else some { parent := BitVec.ofNat 32 (f 0 4), first := BitVec.ofNat 32 (f 4 4), nchild := f 8 2, lanes := f 10 2,
              kind := f 12 1, rb := f 14 2, cslot := f 16 2, payload := BitVec.ofNat 64 (f 24 8), kup := f 32 2,
              kdn := f 34 2, kex := f 36 2, user0 := BitVec.ofNat 64 (f 40 8), user1 := BitVec.ofNat 64 (f 48 8) }

def kPlain : Nat := 0
def kGang4 : Nat := 1
def kGuarded : Nat := 2
def kSkip : Nat := 3

/-- The phase in which a launch guards its GUARDED nodes. -/
def Launch.guardPhase (l : Launch) : Phase := if l.sweep = 1 then .down else .up

/-- Whether a node's first block is a surrogate run in this phase. -/
def Launch.guards (l : Launch) (r : NodeRec) : Bool := r.kind == kGuarded && l.phase == l.guardPhase

/-- The limits of R52. -/
def NodeRec.limitsOk (r : NodeRec) : Bool :=
  r.kind ≤ 3 && r.cslot ≤ 4096 && r.cslot % 16 == 0 && r.rb ≤ 4096 && r.rb % 4 == 0 &&
  (r.kind == kSkip || (1 ≤ r.lanes && r.lanes ≤ 1024))

/-- The checks of R53 on a record read from TREE for a node taken from `par`. -/
def Launch.recordOk (l : Launch) (r : NodeRec) (par : Option (Nat × Node)) : Bool :=
  let kernels := if r.kind = kSkip then [] else
    (match l.phase with | .up => r.kup | .down => r.kdn) :: (if l.guards r then [r.kex] else [])
  r.limitsOk &&
  (match par with
   | none => r.parent == 0xFFFFFFFF#32
   | some (i, p) => r.parent == BitVec.ofNat 32 i && r.rb ≤ p.rcd.cslot && p.depth + 1 ≤ 65535) &&
  decide (r.first.toNat + r.nchild ≤ l.nnodes) &&
  kernels.all (fun k => (l.kernels.look k).isSome)

/-- The records of an implicit tree (R71). -/
def Launch.implicitRec (l : Launch) (i : Nat) : NodeRec :=
  if i = 0 then { kind := kSkip, first := 1, nchild := l.nleaf, kup := 0, kdn := 1 }
  else { parent := 0, lanes := l.llanes, rb := l.lrb, kup := 0, kdn := 1, user0 := BitVec.ofNat 64 (i - 1) }

/-- A node taken from `par`: its record read and checked. -/
def State.readNode (s : State) (a : Serve) (l : Launch) (i : Nat) (par : Option (Nat × Node)) : Eng Node :=
  let mk (r : NodeRec) : Node :=
    { state := .taken, rcd := r, taker := a.cl,
      childix := match par with
        | none => 0
        | some (_, p) => i - p.rcd.first.toNat
      depth := match par with
        | none => 0
        | some (_, p) => p.depth + 1
      parent := match par with
        | none => 0
        | some (p, _) => p
      pframe := par.bind (fun p => p.2.frame) }
  if l.implicit then .ok (mk (l.implicitRec i))
  else
    match s.engRead { a with node := i } (l.tree + BitVec.ofNat 64 (64 * i)) 64 with
    | .error e => .error e
    | .ok bs =>
      match NodeRec.ofBytes bs with
      | none => .error (s, .bound tbMalformed i)
      | some r => if l.recordOk r par then .ok (mk r) else .error (s, .bound tbMalformed i)

/-! ### Frames (R56, R57) -/

/-- A frame's header. -/
structure Frame where
  node    : Nat
  parent  : Nat
  next    : Nat
  fin     : Nat                   -- END
  join    : Nat
  thieves : Nat := 0
  state   : Nat := 0
  phase   : Nat
  cslot   : Nat
  size    : Nat
  deriving DecidableEq, Repr, Inhabited

def fOpen : Nat := 0
def fWaiting : Nat := 1
def fComplete : Nat := 2

/-- The header 64 bytes hold; none when a field is outside its range (R56). -/
def Frame.ofBytes (bs : List Byte) : Option Frame :=
  let f (off n : Nat) : Nat := leNat ((bs.drop off).take n)
  let x : Frame := { node := f 0 4, parent := f 4 4, next := f 8 4, fin := f 12 4, join := f 16 4, thieves := f 20 2,
                     state := f 22 1, phase := f 23 1, cslot := f 24 2, size := f 26 2 }
  if f 28 36 != 0 || 2 < x.state || 1 < x.phase || x.size < 1 || 1024 < x.size then none else some x

/-- The 64 bytes of a header. -/
def Frame.bytes (x : Frame) : List Byte :=
  bytesLE 4 x.node ++ bytesLE 4 x.parent ++ bytesLE 4 x.next ++ bytesLE 4 x.fin ++ bytesLE 4 x.join ++
  bytesLE 2 x.thieves ++ bytesLE 1 x.state ++ bytesLE 1 x.phase ++ bytesLE 2 x.cslot ++ bytesLE 2 x.size ++ bytesLE 36 0

/-- The address of a slot of a frame. -/
def Launch.slotAddr (l : Launch) (fr : Nat × Nat) (cslot k : Nat) : W64 :=
  l.frameAddr fr + BitVec.ofNat 64 (64 + k * cslot)

/-- The occupied heights of a cluster's stack, rising. -/
def Launch.stackOf (l : Launch) (cl : Nat) : List Nat := l.heights.get cl []

/-- The stack's top frame. -/
def Launch.top (l : Launch) (cl : Nat) : Option (Nat × Nat) := (l.stackOf cl).getLast?.map (fun h => (cl, h))

/-- The node whose frame lies at a place. -/
def Launch.frameNode (l : Launch) (fr : Nat × Nat) : Option (Nat × Node) := l.nodes.find? (fun p => p.2.frame == some fr)

/-- The size of a node's frame in units of 64 bytes (R56). -/
def NodeRec.frameUnits (r : NodeRec) : Nat := cdiv (64 + r.nchild * r.cslot) 64

/-- PHASE of a header (R56). -/
def Phase.bit : Phase → Nat
  | .up => 0
  | .down => 1

/-- Whether a header is one that R56 to R66 give the frame of node `i` in a phase: the copies of the node's fields, NEXT within
its children, JOIN at most their number and, as a child that has not started has not finished, at least that of the unstarted
ones, which in the down phase it is; OPEN while some are unstarted, COMPLETE when JOIN is 0, never WAITING in the down phase. -/
def Frame.okFor (x : Frame) (phase : Phase) (i : Nat) (r : NodeRec) : Bool :=
  let last := r.first.toNat + r.nchild
  x.node == i && x.parent == r.parent.toNat && x.cslot == r.cslot && x.size == r.frameUnits && x.fin == last % 2 ^ 32 &&
  x.phase == phase.bit && r.first.toNat ≤ x.next && x.next ≤ last && x.join ≤ r.nchild &&
  decide (last ≤ x.next + x.join) && (phase == .up || decide (x.next + x.join = last)) &&
  (x.state == fOpen) == (x.next != last) && (x.state == fComplete) == (x.join == 0) && (phase == .up || x.state != fWaiting)

/-- A frame's header read: one that breaks the rules is TREEBOUND at the frame's node (R51, R56). -/
def State.readFrame (s : State) (a : Serve) (l : Launch) (fr : Nat × Nat) : Eng Frame :=
  match s.engRead a (l.frameAddr fr) 64 with
  | .error e => .error e
  | .ok bs =>
    match Frame.ofBytes bs, l.frameNode fr with
    | none, n => .error (s, .bound tbMalformed ((n.map (·.1)).getD a.node))
    | some x, none => .ok x
    | some x, some (i, n) => if x.okFor l.phase i n.rcd then .ok x else .error (s, .bound tbMalformed i)

/-- The agent that serves the node of a frame. -/
def Launch.serving (l : Launch) (a : Serve) (fr : Nat × Nat) : Serve :=
  { a with node := ((l.frameNode fr).map (·.1)).getD a.node }

/-- A frame's header written. -/
def State.writeFrame (s : State) (a : Serve) (l : Launch) (fr : Nat × Nat) (x : Frame) : Eng State :=
  s.engWrite a (l.frameAddr fr) x.bytes

/-- A node record of the engine changed. -/
def State.updNode (s : State) (lid i : Nat) (f : Node → Node) : State :=
  s.updLaunch lid (fun l => { l with nodes := l.nodes.upd i f })

/-- A push of a node's frame on a cluster's stack (R56, R57): SIZE is judged before the height. -/
def State.push (s : State) (a : Serve) (n : Node) (slots : List Byte) : Eng State :=
  match s.launch a.lid with
  | none => .ok s
  | some l =>
    let r := n.rcd
    let h := match (l.stackOf a.cl).getLast? with
      | some t => t + 1
      | none => 0
    let units := r.frameUnits
    if l.f < units * 64 then .error (s, .bound tbSize a.node)
    else if l.d ≤ h then .error (s, .bound tbDepth a.node)
    else
      let fr := (a.cl, h)
      let x : Frame := { node := a.node, parent := r.parent.toNat, next := r.first.toNat, fin := (r.first.toNat + r.nchild) % 2 ^ 32,
                         join := r.nchild, state := fOpen, phase := l.phase.bit,
                         cslot := r.cslot, size := units }
      match s.engWrite a (l.frameAddr fr) (x.bytes ++ slots) with
      | .error e => .error e
      | .ok s => .ok (s.updLaunch a.lid (fun l =>
          { l with heights := l.heights.put a.cl (l.stackOf a.cl ++ [h]),
                   nodes := l.nodes.upd a.node (fun n => { n with frame := some fr, state := .gathering }) }))

end Sys2Proof.Machine
end

