-- ==== Sys2Proof/Machine/Tree.lean ====
section
/-! DEFINITION. The Helictite engine (spec/03_tree_sweeps.md R58 to R75, R77): takes, steals and leapfrogs, dispatches,
hand-offs, both sweeps, and what the end of a block does. -/

namespace Sys2Proof.Machine

/-! ### Hand-offs (R61, R66, R67, R71, R74) -/

/-- A dispatch joins those its taker's agent has waiting; its nodes are DISPATCHED (R59, R72). -/
def State.queueDispatch (s : State) (d : Dispatch) : State :=
  let s := d.nodes.foldl (fun s i => s.updNode d.launch i (fun n => { n with state := .dispatched })) s
  let (n, s) := s.fresh
  s.updCluster d.taker (fun c => { c with waiting := c.waiting ++ [{ d with order := n }] })

/-- A node hands up its result (R61): to RESULT for the root, to RESULT for an implicit leaf, else to its slot; the hand-off
that makes JOIN zero goes on with the parent. After a stop it copies and decrements, and does nothing more (R74). `fuel`
bounds the chain of SKIP parents. -/
def State.handUp (s : State) (a : Serve) (data : List Byte) : Nat → Eng State
  | 0 => .ok s
  | fuel + 1 => do
    let some l := s.launch a.lid | return s
    let some n := l.nodes.look a.node | return s
    let s := s.updNode a.lid a.node (fun n => { n with state := .done })
    if a.node = 0 then
      let s ← if l.implicit then pure s else s.engWrite a l.result data
      return s.updLaunch a.lid (fun l => { l with rootDone := true, upRoot := data })
    else
      let some fr := n.pframe | return s
      let s ← if l.implicit then s.engWrite a (l.result + BitVec.ofNat 64 ((a.node - 1) * l.lrb)) data else pure s
      let x ← s.readFrame a l fr
      let s ← if l.implicit then pure s else s.engWrite a (l.slotAddr fr x.cslot n.childix) data
      let x := { x with join := (x.join + 2 ^ 32 - 1) % 2 ^ 32 }
      if x.join != 0 || l.stop.isSome then s.writeFrame a l fr x
      else
        let s ← s.writeFrame a l fr { x with state := fComplete }
        let some p := l.nodes.look n.parent | return s
        if p.rcd.kind = kSkip then
          let s ← s.handUp { a with node := n.parent } (List.replicate p.rcd.rb 0) fuel
          return s.updLaunch a.lid (fun l => l.pop fr)
        else
          let src := (some (l.slotAddr fr 0 0).toNat, p.rcd.nchild * p.rcd.cslot)
          return s.queueDispatch { launch := a.lid, nodes := [n.parent], phase := .up, taker := a.cl, inboxes := [src], pop := some fr }

/-- A node that has reached DONE gives up its input-copy slot, where no relaunch can follow (R70, R75; log 68). -/
def State.freeCopy (s : State) (lid i : Nat) : State :=
  if ((s.launch lid).map (·.idemp)).getD true then s
  else s.updNode lid i (fun n => if n.state == .done then { n with copySlot := none } else n)

/-- The agent that took a block's node has its clocks (R61, R385): without them it makes no hand-off, no decision of a guard and
no relaunch (log 37). -/
def State.takerRuns (s : State) (b : Block) : Bool := s.clocked (clusterDie b.taker)

/-- The hand-off of a block's node from its RESBUF or OUTBOX; the first one acts (R61, R66, R67). It is made by the agent that
took the node. -/
def State.handOff (s : State) (bi : Nat) : State :=
  match s.block bi with
  | none => s
  | some b =>
    if b.handed then s
    else
      let s := s.setBlock bi { b with handed := true }
      let a : Serve := { lid := b.launch, vf := b.vf, cl := b.taker, node := b.node }
      match b.phase with
      | .up => (served b.launch (s.handUp a (s.aspRead b b.resbuf b.rcd.rb) (b.depth + 1))).freeCopy b.launch b.node
      | .down =>
        let s := (s.updNode b.launch b.node (fun n => { n with state := .done })).freeCopy b.launch b.node
        match s.launch b.launch with
        | none => s
        | some l =>
          if b.rcd.nchild = 0 || l.stop.isSome then s
          else
            match l.nodes.look b.node with
            | none => s
            | some n =>
              let s := s.updCluster b.taker (fun c => { c with downWait := none })
              (served b.launch (s.push a n (s.aspRead b b.outbox (b.rcd.nchild * b.rcd.cslot)))).updNode b.launch b.node
                (fun n => { n with state := .done })

/-! ### Takes (R58, R61, R64, R66, R70) -/

/-- Whether a node's block needs an input copy (R70). -/
def Launch.needsCopy (l : Launch) (r : NodeRec) : Bool := l.idemp || r.kind == kGuarded

/-- The bytes an input gives: read at its address, or the root's own up result (R66). -/
def State.inputBytes (s : State) (a : Serve) (l : Launch) (src : Option Nat) (n : Nat) : Eng (List Byte) :=
  match src with
  | some x => s.engRead a (BitVec.ofNat 64 x) n
  | none => .ok (l.upRoot.take n)

/-- An agent acts on nodes it has taken in the up phase (R61). -/
def State.runUp (s : State) (a : Serve) (ns : List (Nat × Node)) : Eng State :=
  match ns with
  | [] => .ok s
  | (i, n) :: more =>
    let r := n.rcd
    let a := { a with node := i }
    if !more.isEmpty || (r.nchild = 0 && r.kind != kSkip) then
      .ok (s.queueDispatch { launch := a.lid, nodes := ns.map (·.1), phase := .up, taker := a.cl,
                             inboxes := ns.map (fun _ => (some 0, 0)) })
    else if r.nchild = 0 then s.handUp a (List.replicate r.rb 0) (n.depth + 1)
    else s.push a n (List.replicate (r.nchild * r.cslot) 0)

/-- An agent acts on nodes it has taken in the down phase, with where the INBOX of each lies; `pop` is the frame whose JOIN
the take set to 0 (R66, R70). An internal SKIP node's input is cut to CSLOT bytes where its RB is greater: R66 speaks of padding only
(DESIGN CHOICE, log 121). -/
def State.runDown (s : State) (a : Serve) (l : Launch) (ns : List (Nat × Node)) (ins : List (Option Nat × Nat))
    (pop : Option (Nat × Nat)) : Eng State :=
  match ns with
  | [] => .ok s
  | (i, n) :: more =>
    let r := n.rcd
    let a := { a with node := i }
    let big := (List.zip ns ins).find? (fun p => p.1.2.rcd.kind != kSkip && l.needsCopy p.1.2.rcd && l.f < p.2.2)
    let popped (s : State) : State := match pop with
      | some fr => s.updLaunch a.lid (fun l => { l with pops := l.pops ++ [(i, fr)] })
      | none => s
    match big with
    | some p => .error (s, .bound tbSize p.1.1)
    | none =>
      if r.kind = kSkip && more.isEmpty then
        if r.nchild = 0 then .ok (popped (s.updNode a.lid i (fun n => { n with state := .done })))
        else
          match s.inputBytes a l (ins.headD (none, 0)).1 (ins.headD (none, 0)).2 with
          | .error e => .error e
          | .ok v =>
            let slot := (v ++ List.replicate r.cslot 0).take r.cslot
            match s.push a n (List.replicate r.nchild slot).flatten with
            | .error e => .error e
            | .ok s => .ok (popped (s.updNode a.lid i (fun n => { n with state := .done })))
      else
        let s := s.queueDispatch { launch := a.lid, nodes := ns.map (·.1), phase := .down, taker := a.cl, inboxes := ins, pop := pop }
        .ok (if r.nchild = 0 then s else s.updCluster a.cl (fun c => { c with downWait := some (a.lid, i) }))

/-- Nodes entered among those the engine has taken. -/
def State.addNodes (s : State) (lid : Nat) (ns : List (Nat × Node)) : State :=
  s.updLaunch lid (fun l => { l with nodes := ns.foldl (fun m p => m.put p.1 p.2) l.nodes })

/-- The nodes of one take at NEXT: one node, or a gang (R58, R64). Each record of the group is read and checked against R52 and
R53 before the group is judged: a malformed sibling is MALFORMED at the sibling (log 67). -/
def State.readTake (s : State) (a : Serve) (l : Launch) (x : Frame) (par : Nat × Node) : Eng (List (Nat × Node)) := do
  let i := x.next
  let n ← s.readNode a l i (some par)
  if l.implicit || n.rcd.kind != kGang4 then return [(i, n)]
  else if n.childix % 4 != 0 || par.2.rcd.nchild < n.childix + 4 then throw (s, .bound tbGang i)
  else
    let n1 ← s.readNode a l (i + 1) (some par)
    let n2 ← s.readNode a l (i + 2) (some par)
    let n3 ← s.readNode a l (i + 3) (some par)
    let ns := [(i, n), (i + 1, n1), (i + 2, n2), (i + 3, n3)]
    if ns.any (fun p => p.2.rcd.kind != kGang4 || p.2.rcd.nchild != 0) then throw (s, .bound tbGang i)
    else return ns

/-- A take of the next child or gang of a frame (R58, R61, R66). A thief sets its bit of THIEVES. -/
def State.takeFrom (s : State) (a : Serve) (fr : Nat × Nat) (thief : Bool) : Eng State := do
  let some l := s.launch a.lid | return s
  let some par := l.frameNode fr | return s
  let a := { a with node := par.1 }
  let x ← s.readFrame a l fr
  let ns ← s.readTake a l x par
  let k := ns.length
  let next := x.next + k
  let down := l.phase == .down
  let join := if down then (x.join + 2 ^ 32 - k) % 2 ^ 32 else x.join
  let state := if down then (if join = 0 then fComplete else x.state) else if next % 2 ^ 32 = x.fin then fWaiting else x.state
  let x' := { x with next := next % 2 ^ 32, join := join, state := state,
                     thieves := if thief then x.thieves ||| 2 ^ a.cl else x.thieves }
  let s ← s.writeFrame a l fr x'
  let s := s.addNodes a.lid ns
  if down then
    let ins := ns.map (fun p =>
      if l.implicit then (some l.input.toNat, l.lrb) else (some (l.slotAddr fr x.cslot p.2.childix).toNat, p.2.rcd.rb))
    s.runDown a l ns ins (if join = 0 then some fr else none)
  else s.runUp a ns

/-- The launch's first take, node 0 (R60). -/
def State.takeRoot (s : State) (a : Serve) (l : Launch) : Eng State := do
  let s := s.updLaunch a.lid (fun l => { l with rootTaken := true })
  let a := { a with node := 0 }
  let n ← s.readNode a l 0 none
  if n.rcd.kind = kGang4 then throw (s, .bound tbGang 0)
  let s := s.addNodes a.lid [(0, n)]
  match l.phase with
  | .up => s.runUp a [(0, n)]
  | .down => s.runDown a l [(0, n)] [(if l.sweep = 2 then none else some l.input.toNat, n.rcd.rb)] none

/-- A cluster's agent may act for a launch: its VF's slice is current, nothing stops it, and it waits for nothing (R59, R66,
R74, R357, R385). -/
def State.agentFree (s : State) (cl : Nat) (l : Launch) : Bool :=
  let c := s.cluster cl
  s.clocked (clusterDie cl) && s.curVf == some l.vf && !s.stopping && l.started && l.stop.isNone &&
  c.waiting.isEmpty && c.downWait.isNone

/-- The end of an agent's step: what it met, and whether the launch is over. -/
def agentStep (lid : Nat) (r : Eng State) : State := (served lid r).settle lid

/-- TAKE and DOWN_TAKE (R60, R61, R66): node 0, by cluster 0 of die 0, or the next child of the top frame while it is OPEN. -/
def State.ownTake (s : State) (cl lid : Nat) (phase : Phase) : State :=
  match s.launch lid with
  | none => s
  | some l =>
    if !s.agentFree cl l || l.phase != phase then s
    else
      let a : Serve := { lid := lid, vf := l.vf, cl := cl, node := 0 }
      if !l.rootTaken then (if cl = 0 then agentStep lid (s.takeRoot a l) else s)
      else
        match l.top cl with
        | none => s
        | some fr =>
          match s.readFrame (l.serving a fr) l fr with
          | .error e => agentStep lid (.error e)
          | .ok x => if x.state = fOpen then agentStep lid (s.takeFrom a fr false) else s

def execTake (cluster launch : Nat) (s : State) : Host.Outcome State Fault Refusal :=
  .next (s.ownTake cluster launch .up)

def execDownTake (cluster launch : Nat) (s : State) : Host.Outcome State Fault Refusal :=
  .next (s.ownTake cluster launch .down)

/-- The lowest OPEN frame among some places, lowest first. -/
def State.lowestOpen (s : State) (a : Serve) (l : Launch) : List (Nat × Nat) → Eng (Option (Nat × Nat))
  | [] => .ok none
  | fr :: rest =>
    match s.readFrame (l.serving a fr) l fr with
    | .error e => .error e
    | .ok x => if x.state = fOpen then .ok (some fr) else s.lowestOpen a l rest

/-- The first victim with an OPEN frame. -/
def State.victim (s : State) (a : Serve) (l : Launch) : List Nat → Eng (Option (Nat × Nat))
  | [] => .ok none
  | c :: rest =>
    match s.lowestOpen a l ((l.stackOf c).map (fun h => (c, h))) with
    | .error e => .error e
    | .ok (some fr) => .ok (some fr)
    | .ok none => s.victim a l rest

/-- The clusters a thief looks at (R62): its own die's from the one after it, then the other die's from the one whose number
follows its own. -/
def stealOrder (cl : Nat) : List Nat :=
  let die := cl / 8
  let me := cl % 8
  (List.range 7).map (fun i => 8 * die + (me + 1 + i) % 8) ++ (List.range 8).map (fun i => 8 * (1 - die) + (me + 1 + i) % 8)

/-- STEAL (R62). -/
def execSteal (cluster launch : Nat) (s : State) : Host.Outcome State Fault Refusal :=
  .next (match s.launch launch with
  | none => s
  | some l =>
    if !s.agentFree cluster l || !l.rootTaken || !(l.stackOf cluster).isEmpty then s
    else
      let a : Serve := { lid := launch, vf := l.vf, cl := cluster, node := 0 }
      match s.victim a l (stealOrder cluster) with
      | .error e => agentStep launch (.error e)
      | .ok none => s
      | .ok (some fr) => agentStep launch (s.takeFrom a fr true))

/-- The places of a stack at or above the lowest frame whose PARENT is `node` (R63). -/
def State.fromChild (s : State) (a : Serve) (l : Launch) (node : Nat) : List (Nat × Nat) → Eng (List (Nat × Nat))
  | [] => .ok []
  | fr :: rest =>
    match s.readFrame (l.serving a fr) l fr with
    | .error e => .error e
    | .ok x => if x.parent = node then .ok (fr :: rest) else s.fromChild a l node rest

/-- What a leapfrog takes from a victim, if anything (R63). -/
def State.leapTarget (s : State) (a : Serve) (l : Launch) (victim : Nat) : Eng (Option (Nat × Nat)) := do
  let some top := l.top a.cl | return none
  let x ← s.readFrame (l.serving a top) l top
  if x.state != fWaiting || !x.thieves.testBit victim then return none
  else
    let frs ← s.fromChild a l x.node ((l.stackOf victim).map (fun h => (victim, h)))
    s.lowestOpen a l frs

/-- LEAPFROG (R63, R66): in the up phase only. -/
def execLeapfrog (cluster launch victim : Nat) (s : State) : Host.Outcome State Fault Refusal :=
  .next (match s.launch launch with
  | none => s
  | some l =>
    if !s.agentFree cluster l || l.phase != .up || !l.rootTaken || 16 ≤ victim then s
    else
      let a : Serve := { lid := launch, vf := l.vf, cl := cluster, node := 0 }
      match s.leapTarget a l victim with
      | .error e => agentStep launch (.error e)
      | .ok none => s
      | .ok (some fr) => agentStep launch (s.takeFrom a fr true))

/-! ### Dispatch (R16, R18, R54, R59, R70, R76) -/

/-- The kernel a dispatch runs a node with. -/
def Dispatch.kernelIx (d : Dispatch) (r : NodeRec) : Nat :=
  if d.exact then r.kex else Sys2Proof.Machine.kernelIx d.phase r

/-- The nodes of a dispatch with their records, kernels and needs. -/
def Launch.dispatchNeeds (l : Launch) (d : Dispatch) : List (Nat × Node × KernelEntry × Needs) :=
  d.nodes.filterMap (fun i => do
    let n ← l.nodes.look i
    let k ← l.kernels.look (d.kernelIx n.rcd)
    return (i, n, k, needsOf k l.txbuf d.phase n.rcd))

/-- The cores of a dispatch, if it is admitted: the members of a gang on cores 0 to 3 of the cluster, else the first of
`order` that admits the block. -/
def State.placeOn (s : State) (cl : Nat) (order : List Nat) (nd : List (Nat × Node × KernelEntry × Needs)) :
    Option (List (Nat × Place)) :=
  match nd with
  | [(_, _, _, d)] => order.findSome? (fun c => (s.admits c d).map (fun p => [(c, p)]))
  | _ => (List.zip (List.range nd.length) nd).mapM (fun p => (s.admits (4 * cl + p.1) p.2.2.2.2).map (fun pl => (4 * cl + p.1, pl)))

/-- The same where the admission need not wait for a bias (R382). -/
def State.placeNow (s : State) (cl : Nat) (order : List Nat) (nd : List (Nat × Node × KernelEntry × Needs)) :
    Option (List (Nat × Place)) := (s.placeOn cl order nd).bind s.settledOn

/-- The rotating order of an agent's cores (R59). -/
def State.coreOrder (s : State) (cl : Nat) : List Nat := (List.range 4).map (fun i => 4 * cl + ((s.cluster cl).rot + i) % 4)

/-- A free input-copy slot; which one is free (R70). -/
def State.freeCopySlot (s : State) (l : Launch) : Option Nat :=
  let used := l.nodes.filterMap (fun p => p.2.copySlot)
  let free := (List.range 4096).filter (fun c => !used.contains c)
  if free.isEmpty then none else free[Config.freeChoice s.tick % free.length]?

/-- The address of an input-copy slot (R334). -/
def Launch.copyAddr (l : Launch) (c : Nat) : W64 := l.ctx + BitVec.ofNat 64 (0x1C00000 + l.f * c)

/-- The input copies of a dispatch's nodes that need one and have none (R70). -/
def State.makeCopies (s : State) (a : Serve) (d : Dispatch) : List (Nat × (Option Nat × Nat)) → Eng State
  | [] => .ok s
  | (i, src, len) :: rest => do
    let some l := s.launch a.lid | return s
    let some n := l.nodes.look i | return s
    if !l.needsCopy n.rcd || n.copySlot.isSome then s.makeCopies a d rest
    else
      let some c := s.freeCopySlot l | return s
      let bs ← s.inputBytes { a with node := i } l src len
      let s ← s.engWrite { a with node := i } (l.copyAddr c) bs
      (s.updNode a.lid i (fun n => { n with copySlot := some c, copyLen := len })).makeCopies a d rest

/-- The block of a node at its dispatch (R19, R54, R76, R83). -/
def Dispatch.block (d : Dispatch) (l : Launch) (i core : Nat) (n : Node) (k : KernelEntry) (inp : Option Nat × Nat)
    (gang member : Option Nat) : Block :=
  let r := n.rcd
  let a := areaOf k.aspb d.phase r
  { vf := l.vf, launch := d.launch, node := i, phase := d.phase, kernel := d.kernelIx r, prio := l.prio, age := 0, core := core,
    member := member, gang := gang, alone := d.alone.isSome, nlanes := r.lanes, slots := [], n := k.narrow, k := k.tiles,
    aspBase := 0, aspSize := aspSizeOf a.bound l.txbuf, aspBound := a.bound, wbfBase := 0, wbfSize := wbfSizeOf k.wbfb,
    wbfBound := k.wbfb, bufLines := l.txbuf / 128, surrogate := l.guards r && !d.exact, handed := d.handed, taker := n.taker,
    dispatcher := d.taker, exact := d.exact, inboxAddr := inp.1, inboxLen := inp.2, rcd := r, childix := n.childix, depth := n.depth,
    inbox := a.inbox, outbox := a.outbox, resbuf := a.resbuf }

/-- The blocks of a dispatch become resident (R16, R18). Of the members of a gang, which are admitted together, the lower-numbered
one is the older (R19; log 90). -/
def State.admitAll (s : State) (d : Dispatch) (l : Launch) (gang : Option Nat) :
    List ((Nat × Node × KernelEntry × Needs) × (Option Nat × Nat) × (Nat × Place)) → State
  | [] => s
  | ((i, n, k, _), inp, core, pl) :: rest =>
    let member := if d.alone.isSome then d.alone else if gang.isSome then some (n.childix % 4) else none
    (s.admitTo (d.block l i core n k inp gang member) k.gregs pl).2.admitAll d l gang rest

/-- Where the INBOX of a node is read: its own input copy where it has one (R70), else what the take gave. -/
def Launch.inboxSource (l : Launch) (i : Nat) (inp : Option Nat × Nat) : Option Nat × Nat :=
  match (l.nodes.look i).bind (fun n => n.copySlot.map (fun c => (c, n.copyLen))) with
  | some (c, len) => (some (l.copyAddr c).toNat, len)
  | none => inp

/-- A dispatch that cores can hold is made: its input copies first, then its blocks (R59, R70). -/
def State.dispatch (s : State) (cl : Nat) (d : Dispatch) (l : Launch) (nd : List (Nat × Node × KernelEntry × Needs))
    (cores : List (Nat × Place)) : State :=
  let a : Serve := { lid := d.launch, vf := l.vf, cl := cl, node := d.nodes.headD 0 }
  match s.makeCopies a d (List.zip d.nodes d.inboxes) with
  | .error e => agentStep d.launch (.error e)
  | .ok s =>
    match s.launch d.launch with
    | none => s
    | some l =>
      let (g, s) := s.fresh
      let gang := if nd.length = 4 || d.alone.isSome then some g else none
      let nd := nd.map (fun p => (p.1, (l.nodes.look p.1).getD p.2.1, p.2.2))
      let inps := (List.zip d.nodes d.inboxes).map (fun p => l.inboxSource p.1 p.2)
      let s := s.admitAll d l gang (List.zip nd (List.zip inps cores))
      s.updLaunch d.launch (fun l => match d.pop with
        | some fr => { l with pops := l.pops ++ [(d.nodes.headD 0, fr)] }
        | none => l)

/-- Whether enough input-copy slots are free for a dispatch's nodes that still need one (R70). -/
def Launch.copiesFree (l : Launch) (nd : List (Nat × Node × KernelEntry × Needs)) : Bool :=
  let used := (l.nodes.filter (fun p => p.2.copySlot.isSome)).length
  let more := (nd.filter (fun p => l.needsCopy p.2.1.rcd && p.2.1.copySlot.isNone)).length
  used + more ≤ 4096

/-- Whether the engine runs for a launch: its VF's slice is current and nothing stops it (R357). -/
def State.engineRuns (s : State) (l : Launch) : Bool := s.released && s.curVf == some l.vf && !s.stopping

/-- Whether a swapped-out block of the VF began to wait before a dispatch did, and so returns before it (R48). -/
def State.swappedFirst (s : State) (l : Launch) (d : Dispatch) : Bool := (s.vf l.vf).swapped.any (fun r => r.order < d.order)

/-- An agent's oldest waiting dispatch made on cores of its cluster; none while it must wait (R48, R59, R70). A gang, which uses
cores 0 to 3 at once, leaves the agent's rotation where it stands (log 66). -/
def State.placeHead (s : State) (cluster : Nat) (d : Dispatch) (rest : List Dispatch) (l : Launch) : Option State :=
  let nd := l.dispatchNeeds d
  if !l.copiesFree nd || s.swappedFirst l d then none
  else
    (s.placeNow cluster (s.coreOrder cluster) nd).map (fun cores =>
      let rot := match cores with
        | [(c, _)] => (c % 4 + 1) % 4
        | _ => (s.cluster cluster).rot
      (s.updCluster cluster (fun c => { c with waiting := rest, rot := rot })).dispatch cluster d l nd cores)

/-- BLOCK_DISPATCH (R59): the agent's oldest waiting dispatch. A block that no empty core could hold is TREEBOUND with FIT;
one that no core of the cluster admits waits; one of a launch that has stopped or gone is dropped (R74). -/
def execBlockDispatch (cluster : Nat) (s : State) : Host.Outcome State Fault Refusal :=
  .next (match (s.cluster cluster).waiting with
  | [] => s
  | d :: rest =>
    let dropped := s.updCluster cluster (fun c => { c with waiting := rest })
    match s.launch d.launch with
    | none => dropped
    | some l =>
      if !s.engineRuns l || !s.clocked (clusterDie cluster) then s
      else if l.stop.isSome then dropped
      else
        match (l.dispatchNeeds d).find? (fun p => !p.2.2.2.fitsEmpty) with
        | some p => (s.treebound d.launch tbFit p.1).settle d.launch
        | none => (s.placeHead cluster d rest l).getD s)

/-- The cores a placement search tries, in order (R75, R77). -/
def State.searchOrder (s : State) (d : Dispatch) : List Nat :=
  let others := (List.range 15).map (fun i => (d.taker + 1 + i) % 16)
  match d.alone with
  | some m => (d.taker :: others).map (fun c => 4 * c + m)
  | none => s.coreOrder d.taker ++ others.flatMap (fun c => (List.range 4).map (fun m => 4 * c + m))

/-- The first of a launch's searches that a core ends, with the searches before and after it. -/
def State.findSearch (s : State) (l : Launch) :
    List Dispatch → List Dispatch → Option (Dispatch × List Dispatch × List (Nat × Place))
  | _, [] => none
  | seen, d :: rest =>
    match (if s.swappedFirst l d || !s.clocked (clusterDie d.taker) then none else s.placeNow d.taker (s.searchOrder d) (l.dispatchNeeds d)) with
    | some cores => some (d, seen ++ rest, cores)
    | none => s.findSearch l (seen ++ [d]) rest

/-- The first of a launch's searches that a core ends, made (R75, R77). -/
def State.placeSearch (s : State) (lid : Nat) (l : Launch) : Option State :=
  (s.findSearch l [] l.search).map (fun x =>
    (s.updLaunch lid (fun l => { l with search := x.2.1 })).dispatch x.1.taker x.1 l (l.dispatchNeeds x.1) x.2.2)

/-- PLACEMENT_SEARCH (R75, R77, R385): an agent of a die without clocks searches for nothing. -/
def execPlacementSearch (launch : Nat) (s : State) : Host.Outcome State Fault Refusal :=
  .next (match s.launch launch with
  | none => s
  | some l =>
    if !s.engineRuns l || l.stop.isSome then s
    else
      match l.search.findSome? (fun d =>
        if s.clocked (clusterDie d.taker) then (l.dispatchNeeds d).find? (fun p => !p.2.2.2.fitsEmpty) else none) with
      | some p => (s.treebound launch tbFit p.1).settle launch
      | none => (s.placeSearch launch l).getD s)

/-! ### The INBOX copy (R54, R59, R61, R66) -/

/-- A block goes without ever having issued: its INBOX copy failed and its launch has stopped. -/
def State.dropBlock (s : State) (bi : Nat) : State :=
  { s with blocks := s.blocks.del bi, cohorts := s.cohorts.filter (fun p => p.2.blk != bi) }

/-- The agent that dispatched a block has its clocks (R59, R385). -/
def State.dispatcherRuns (s : State) (b : Block) : Bool := s.clocked (clusterDie b.dispatcher)

/-- Whether the end of a block's INBOX copy is to pop a frame from which other children have still to be copied (R66). -/
def State.copyWaits (s : State) (l : Launch) (b : Block) : Bool :=
  l.pops.any (fun p => p.1 == b.headNode && s.copiesPending b.launch l p.2 p.1)

/-- INBOX_COPY (R54, R59, R61, R66, R72): the copy ends, the block may issue, and a complete frame is popped; a gang's frame once the
last member's copy has ended. The agent that dispatched the block makes it, on whichever cluster the block's core stands, and both
need their clocks (R385). The copy that pops a frame is the last one made from it (log 84). A block that has been killed gets no
copy any more. -/
def execInboxCopy (blk : Nat) (s : State) : Host.Outcome State Fault Refusal :=
  .next (match s.block blk with
  | none => s
  | some b =>
    match s.launch b.launch with
    | none => s
    | some l =>
      if b.inboxDone || b.killed || b.ended || s.curVf != some b.vf || !s.clocked (dieOf b.core) || !s.dispatcherRuns b || s.copyWaits l b then s
      else
        let a : Serve := { lid := b.launch, vf := b.vf, cl := b.dispatcher, node := b.node }
        match s.inputBytes a l b.inboxAddr b.inboxLen with
        | .error e => agentStep b.launch (.error (e.1.dropBlock blk, e.2))
        | .ok bs =>
          let s := (s.aspWrite b b.inbox bs).setBlock blk { b with inboxDone := true }
          (s.updNode b.launch b.node (fun n => if n.state == .done then n else { n with state := .running })).settle b.launch)

/-! ### The end of a block (R36, R61, R74, R75, R77, R350) -/

/-- The dispatch of a node again with its input copy: the exact kernel, or a relaunch (R75, R77). -/
def State.again (s : State) (b : Block) (exact : Bool) : State :=
  let (ord, s) := s.fresh
  s.updLaunch b.launch (fun l =>
    match l.nodes.look b.node with
    | none => l
    | some n =>
      let src : Option Nat × Nat := match n.copySlot with
        | some c => (some (l.copyAddr c).toNat, n.copyLen)
        | none => (none, 0)
      let d : Dispatch := { launch := b.launch, nodes := [b.node], phase := b.phase, exact := exact, handed := b.handed,
                            alone := if b.gang.isSome then some (b.childix % 4) else none, taker := b.taker, inboxes := [src], order := ord }
      { l with search := l.search ++ [d] })

/-- Whether a surrogate's guard passes (R77). -/
def State.guardPasses (s : State) (b : Block) : Bool :=
  let tol := ((s.launch b.launch).map (·.tol)).getD 0
  b.gseen && !b.overflow && !b.killed && !(v32 b.resid).isNan && !(v32 tol).isNan && !xlt (v32 tol) (v32 b.resid)

/-- The commit of a passing guard (R78): all of the buffer at one point. -/
def State.guardCommit (s : State) (b : Block) : Eng State :=
  match s.commitXlat (s.coreTlbs b.core) b.vf .write b.buf with
  | .error (va, e) => .error (s, .xlat b.node va e .write)
  | .ok l => .ok (s.commitBytes (s.vf b.vf).key none l)

/-- The end of a surrogate run (R74, R77). -/
def State.guardDecide (s : State) (bi : Nat) (b : Block) : State :=
  let s := s.updNode b.launch b.node (fun n => { n with state := .guarding })
  if s.guardPasses b then
    match s.guardCommit b with
    | .error e => served b.launch (.error e)
    | .ok s =>
      let s := s.updLaunch b.launch (fun l => { l with gpass := l.gpass + 1 })
      (s.updVf b.vf (fun v => { v with gpass := v.gpass + 1 })).handOff bi
  else
    let s := s.updLaunch b.launch (fun l => { l with gfail := l.gfail + 1 })
    let s := s.updVf b.vf (fun v => { v with gfail := v.gfail + 1 })
    if ((s.launch b.launch).bind (·.stop)).isSome then s else s.again b true

/-- The end of a killed block (R75): an ECC kill that has not stopped the launch is followed by a relaunch. A node whose hand-off
NRES has made stays DONE (R72). -/
def State.killedEnd (s : State) (b : Block) : State :=
  if b.killCode != codeEcc || ((s.launch b.launch).bind (·.stop)).isSome then s
  else
    let s := s.updLaunch b.launch (fun l => { l with relaunch := l.relaunch + 1 })
    let s := s.updNode b.launch b.node (fun n =>
      { n with relaunch := n.relaunch + 1, state := if n.state == .done then .done else .dispatched })
    let s := s.updDie (dieOf b.core) (fun d => { d with relaunch := satInc d.relaunch })
    s.again b b.exact

/-- A block ends (R36): its guard, its hand-off or its relaunch, its node's input-copy slot, and perhaps its launch. A node that
NRES has made DONE keeps its slot, where a relaunch may need it, until its block ends (R70, R75; log 68). -/
def State.endBlock (s : State) (bi : Nat) : State :=
  match s.block bi with
  | none => s
  | some b =>
    let s := if b.surrogate then s.guardDecide bi b else if b.killed then s.killedEnd b else s.handOff bi
    let s := s.updNode b.launch b.node (fun n => if n.state == .done && !b.killed then { n with copySlot := none } else n)
    (s.reap).settle b.launch

/-- Whether a cohort may release its slot (R35, R36, R346, R350). -/
def State.mayRelease (s : State) (co : Cohort) (b : Block) : Bool :=
  co.idleEngines &&
  (b.killed || (b.ecc.isNone && b.ending) ||
    (b.ecc.isNone && co.live == 0 && co.park.isNone && co.later.isEmpty && co.vglimit.isEmpty &&
      (b.table.isNone || (s.blockCohorts co.blk).all (fun p => p.2.live == 0))))

/-- A slot is in no wave of any opening any more. -/
def State.leaveWaves (s : State) (slot : Nat) : State :=
  s.updCluster (clusterOf (coreOf slot)) (fun c =>
    { c with waves := c.waves.map (fun w => { w with slots := w.slots.filter (· != slot) }) })

/-- A cohort releases its slot, and its block may end (R36), which is for the agent that took its node to answer (R61). -/
def State.releaseSlot (s : State) (slot : Nat) : State :=
  match s.cohort slot with
  | none => s
  | some co =>
    match s.block co.blk with
    | none => s
    | some b =>
      let b' := { b with slots := setAt b.slots co.cohid none }
      if !s.clocked (dieOf b.core) || !s.mayRelease co b || (b'.ended && !s.takerRuns b) then s
      else
        let s := ({ s.leaveWaves slot with cohorts := s.cohorts.del slot }).setBlock co.blk b'
        if b'.ended then s.endBlock co.blk else s

/-- COHORT_SLOT_RELEASE (R36). -/
def execCohortSlotRelease (slot : Nat) (s : State) : Host.Outcome State Fault Refusal := .next (s.releaseSlot slot)

/-- A block is killed (R75, R350): its transaction and its stopped copies go, and it issues nothing more. An ECC kill that is
not followed by a relaunch, and a driver's kill of a block that is no surrogate run, stop the launch. -/
def State.killBlock (s : State) (bi code : Nat) : State :=
  match s.block bi with
  | none => s
  | some b =>
    if b.killed || b.ended then s
    else
      let s := s.setBlock bi { b with killed := true, killCode := code, buf := [], bufBy := [], holder := none, coll := none, ecc := none }
      let s := { s with cohorts := s.cohorts.mapVals (fun _ co =>
        if co.blk = bi then { co with tx := none, park := none, later := [], waits := [], vglimit := [] } else co) }
      let mine := ((s.core b.core).chans).flatMap (fun q => (q.2.filter (fun c => c.stopped && c.blk == bi)).map (fun c => (q.1, c)))
      let s := mine.foldl (fun s p => s.copyDrop b.core p.1 p.2) s
      if b.surrogate then s
      else
        match s.launch b.launch with
        | none => s
        | some l =>
          let done := ((l.nodes.look b.node).map (·.relaunch)).getD 0
          if code = codeEcc && l.idemp && done < 3 then s
          else s.stopLaunch b.launch (if code = codeEcc then stEcc else stKilled) 0 b.node

/-! ### PHASE_TURN (R60, R68) -/

/-- PHASE_TURN: in BOTH, the down phase begins once the root's up hand-off has been made and every block of the up phase has
ended. -/
def execPhaseTurn (launch : Nat) (s : State) : Host.Outcome State Fault Refusal :=
  .next (match s.launch launch with
  | none => s
  | some l =>
    if !s.engineRuns l || l.stop.isSome || l.sweep != 2 || l.phase != .up || !l.rootDone || s.hasBlock launch ||
        s.agentsBusy launch l then s
    else s.setLaunch launch { l with phase := .down, rootTaken := false, rootDone := false, nodes := [], heights := [] })

/-! ### NRES (R67, R302) -/

/-- NRES (R67, R302): the agent that took the node makes the hand-off, so the first NRES waits while that agent's die has no
clocks (R385; log 37). -/
def nresBody (e : Env) : Eff :=
  if e.surr then e.trap cIllegal
  else if e.blk.handed then .ok e.s
  else if !e.s.takerRuns e.blk then .wait .collective 0 0
  else .ok (e.s.handOff e.co.blk)

/-! ### The meanings of the rows, one for each constructor -/

/-- NRES. -/
def execNres (w : BaseWord) (s : State) : Host.Outcome State Fault Refusal :=
  issueBase Cells.nres w nresBody s

/-- NRES_EXT. -/
def execNresExt (w : ExtWord) (s : State) : Host.Outcome State Fault Refusal :=
  issueExt Cells.nres w nresBody s

end Sys2Proof.Machine
end

