-- ==== Sys2Proof/Machine/Front.lean ====
section
/-! DEFINITION. The front end (spec/14_host_interface.md R325 to R335): notify words, the scanner, packets and their checks,
the start of a launch. A QUEUE_FETCH parses up to sixteen packets; the row of a packet kind is the same parse made one packet
at a time, while the queue's pending bit is set. -/

namespace Sys2Proof.Machine

/-- A little-endian field of some bytes. -/
def fld (bs : List Byte) (off n : Nat) : Nat := leNat ((bs.drop off).take n)

/-- The fields of a packet (R328): its kind, tag, BAR, size in bytes, and its first 64 bytes. -/
structure Parsed where
  kind : Nat
  tag  : Nat
  bar  : Bool
  size : Nat
  bs   : List Byte

def pkPad : Nat := 0
def pkLaunch : Nat := 1
def pkWaitmem : Nat := 2
def pkSignalmem : Nat := 3
def pkFence : Nat := 4
def pkQctl : Nat := 5

/-- What the parse of the packet at QRD comes to: nothing to parse yet (R327), a check that fails with its code (R330), or the
packet. -/
inductive ParseRes where
  | none
  | bad (code tag : Nat)
  | ok (p : Parsed)

/-- The ring size of a queue (R324). -/
def Queue.size (q : Queue) : Nat := 2 ^ q.log2sz

/-- Whether every byte of some ranges is zero. -/
def zeroIn (bs : List Byte) (l : List (Nat × Nat)) : Bool := l.all (fun r => ((bs.drop r.1).take (r.2 - r.1)).all (· == 0))

/-- BADPKT by kind (R328): bytes beyond the fields, and fields outside their limits. -/
def badPacket (kind : Nat) (bs : List Byte) : Bool :=
  let f := fld bs
  match kind with
  | 1 => f 8 8 % 64 != 0 || f 16 8 % 64 != 0 || 3 < f 24 1 || !zeroIn bs [(25, 28), (32, 64)]
  | 2 => f 8 8 % 8 != 0 || 3 < f 32 1 || !zeroIn bs [(33, 64)]
  | 3 => f 8 8 % 8 != 0 || 1 < f 24 1 || !zeroIn bs [(25, 64)]
  | 4 => !zeroIn bs [(8, 64)]
  | 5 => 1 < f 8 1 || 63 < f 12 4 || !zeroIn bs [(9, 12), (16, 64)]
  | _ => false

/-- Whether every page of a range allows an access of the front end, which looks in no TLB. -/
def State.rangeOk (s : State) (vf : Nat) (va : W64) (n : Nat) (acc : Access) : Bool :=
  match s.xlatRange [] vf va acc (piecesOf va.toNat n) with
  | .ok _ => true
  | .error _ => false

/-- Whether the addresses a packet names translate (R330). Of the kernel table of a record whose NKERN is above its limit the first
65,536 entries are translated (DESIGN CHOICE, log 111). -/
def State.namesTranslate (s : State) (vf : Nat) (kind : Nat) (bs : List Byte) : Bool :=
  let addr (o : Nat) : W64 := BitVec.ofNat 64 (fld bs o 8)
  match kind with
  | 1 =>
    match s.vmRead [] vf (addr 8) 0x80 with
    | .error _ => false
    | .ok r => s.rangeOk vf (addr 8) (0x80 + 64 * min (fld r 0x48 4) 65536) .read && s.rangeOk vf (addr 16) 64 .write
  | 2 => s.rangeOk vf (addr 8) 8 .read
  | 3 => s.rangeOk vf (addr 8) 8 (if fld bs 24 1 = 1 then .rmw else .write)
  | _ => true

/-- The checks of R330 on the packet at QRD; a queue whose EN is 0 is not served (R324). A queue whose reset still waits for its
running packets goes on starting packets (DESIGN CHOICE, log 109). -/
def State.parse (s : State) (vf : Nat) (q : Queue) : ParseRes :=
  if q.stop || !q.en || q.qrd = q.qwr then .none
  else
    let at_ : W64 := q.qbase + BitVec.ofNat 64 q.qrd
    match s.vmRead [] vf at_ 64 with
    | .error _ => .bad qPage 0
    | .ok bs =>
      let h := fld bs 0 8
      let kind := h % 256
      let len := h / 2 ^ 8 % 2 ^ 16
      let tag := h / 2 ^ 32 % 2 ^ 16
      let n := 64 * len
      if q.size < n then .bad qQueuelen tag
      else if q.size < q.qrd + n then .bad qWrap tag
      else if 5 < kind then .bad qBadkind tag
      else if (q.qwr + q.size - q.qrd) % q.size < n then .none
      else if !s.rangeOk vf at_ n .read then .bad qPage tag
      else if len = 0 || (kind != pkPad && len != 1) || h / 2 ^ 49 != 0 || h / 2 ^ 24 % 2 ^ 8 != 0 || badPacket kind bs then
        .bad qBadpkt tag
      else if !s.namesTranslate vf kind bs then .bad qPage tag
      else .ok { kind := kind, tag := tag, bar := h / 2 ^ 48 % 2 = 1, size := n, bs := bs }

/-- A queue after its packet has started: QRD moves past it. -/
def Queue.advance (q : Queue) (p : Parsed) : Queue := { q with qrd := (q.qrd + p.size) % q.size, blocked := false }

/-- The condition of a WAITMEM packet, read at system scope (R329). -/
def State.waitHolds (s : State) (vf : Nat) (bs : List Byte) : Bool :=
  match s.vmRead [] vf (BitVec.ofNat 64 (fld bs 8 8)) 8 with
  | .error _ => true
  | .ok w =>
    let m := BitVec.ofNat 64 (fld bs 24 8)
    let x := BitVec.ofNat 64 (leNat w) &&& m
    let y := BitVec.ofNat 64 (fld bs 16 8) &&& m
    match fld bs 32 1 with
    | 0 => x == y
    | 1 => x != y
    | 2 => y.toNat ≤ x.toNat
    | _ => x.toNat < y.toNat

/-- A WAITMEM of a queue is read again (R329): once its condition holds the queue's pending bit is set. One whose ring or ADDR page
does not translate at a re-read stays blocked, and nothing stops (DESIGN CHOICE, log 110). -/
def State.reread (s : State) (vf qi : Nat) : State :=
  let q := (s.vf vf).queue qi
  if !q.blocked then s
  else
    match s.parse vf q with
    | .ok p => if p.kind = pkWaitmem && s.waitHolds vf p.bs then s.updQueue vf qi (fun q => { q with pending := true }) else s
    | _ => s

/-- The write of a SIGNALMEM (R329); the queues of its VF that wait in a WAITMEM read again. -/
def State.signal (s : State) (vf : Nat) (bs : List Byte) : State :=
  let va := BitVec.ofNat 64 (fld bs 8 8)
  let add := fld bs 24 1 = 1
  match s.translate [] vf va (if add then .rmw else .write) with
  | .error _ => s
  | .ok x =>
    let key := (s.vf vf).key
    let old := if add then leNat (s.physRead key x.pa 8) else 0
    let s := s.physWrite key none x.pa (bytesLE 8 ((old + fld bs 16 8) % 2 ^ 64))
    (s.vf vf).queues.foldl (fun s q => s.reread vf q.1) s

/-- A LAUNCH packet starts: its launch is known, its checks are still to be made. -/
def State.newLaunch (s : State) (vf qi : Nat) (q : Queue) (p : Parsed) : State :=
  let (id, s) := s.fresh
  let (pk, s) := s.fresh
  let l : Launch := { vf := vf, queue := qi, tag := p.tag, prio := fld p.bs 24 1 % 4, swapq := fld p.bs 28 4,
                      crec := BitVec.ofNat 64 (fld p.bs 16 8), lrec := BitVec.ofNat 64 (fld p.bs 8 8), off := q.qrd,
                      packet := pk }
  (s.setLaunch id l).updQueue vf qi (fun q =>
    { q with flight := q.flight ++ [{ id := pk, off := q.qrd, kind := pkLaunch, tag := p.tag, launch := some id }] })

/-- A vector of MSI-X is raised. -/
def State.raise (s : State) (vf : Option Nat) (vec : Nat) : State := { s with msix := (vf, vec) :: s.msix }

/-- Whether a packet can start (R329): the packets before it, and a WAITMEM's condition. -/
def State.canStart (s : State) (vf : Nat) (q : Queue) (p : Parsed) : Bool :=
  (q.flight.isEmpty || !(p.bar || p.kind == pkSignalmem || p.kind == pkFence || p.kind == pkQctl)) &&
  (p.kind != pkWaitmem || s.waitHolds vf p.bs)

/-- A packet that can start does so (R329). FENCE and SIGNALMEM are system-scope releases of what came before; in this model's
one coherent store that asks for nothing more (log 3). -/
def State.startPacket (s : State) (vf qi : Nat) (q : Queue) (p : Parsed) : State :=
  let s := match p.kind with
    | 1 => s.newLaunch vf qi q p
    | 3 => s.signal vf p.bs
    | 5 => if fld p.bs 8 1 = 0 then s.raise (some vf) (fld p.bs 12 4)
           else s.updQueue vf qi (fun q => { q with stop := true, code := 0 })
    | _ => s
  s.updQueue vf qi (fun q => q.advance p)

/-- A check stops the queue (R330); QUEUELEN is a kill event too. -/
def State.badPacketStop (s : State) (vf qi : Nat) (q : Queue) (code tag : Nat) : State :=
  let s := s.updQueue vf qi (fun x => x.halt code (BitVec.ofNat 32 q.qrd))
  if code = qQueuelen then s.postKill vf noDie { code := codeQueuelen, cls := 3, queue := qi, tag := tag } else s

/-- One packet of a fetch: the state, and whether the fetch may go on. -/
def State.fetchOne (s : State) (vf qi : Nat) : State × Bool :=
  let q := (s.vf vf).queue qi
  match s.parse vf q with
  | .none => (s, false)
  | .bad code tag => (s.badPacketStop vf qi q code tag, false)
  | .ok p =>
    if s.canStart vf q p then (s.startPacket vf qi q p, true)
    else (s.updQueue vf qi (fun q => { q with blocked := true }), false)

/-- A fetch of up to `n` packets (R326); packets left after them set the pending bit again. -/
def State.fetchMany (s : State) (vf qi : Nat) : Nat → State
  | 0 => s.updQueue vf qi (fun q => { q with pending := q.pending || (!q.stop && q.qrd != q.qwr) })
  | n + 1 =>
    match s.fetchOne vf qi with
    | (s, true) => s.fetchMany vf qi n
    | (s, false) => s

/-- The front end works for a VF: its slice is current and has not ended (R326, R357). -/
def State.frontRuns (s : State) (vf : Nat) : Bool := s.released && s.curVf == some vf && !s.stopping

/-- The first set pending bit from a VF's start position (R326). -/
def Vf.nextPending (v : Vf) : Option Nat := ((List.range 64).map (fun i => (v.start + i) % 64)).find? (fun q => (v.queue q).pending)

/-- QUEUE_FETCH (R326). -/
def execQueueFetch (s : State) : Host.Outcome State Fault Refusal :=
  .next (match s.curVf with
  | none => s
  | some v =>
    if !s.frontRuns v then s
    else
      match (s.vf v).nextPending with
      | none => s
      | some q =>
        let s := s.updVf v (fun x => { x with start := (q + 1) % 64 })
        (s.updQueue v q (fun x => { x with pending := false })).fetchMany v q 16)

/-- One packet of a kind, while the queue's pending bit is set. -/
def State.packetRow (s : State) (vf qi : Nat) (isKind : Parsed → Bool) : State :=
  let q := (s.vf vf).queue qi
  if !s.frontRuns vf || !q.pending then s
  else
    match s.parse vf q with
    | .ok p => if isKind p && s.canStart vf q p then s.startPacket vf qi q p else s
    | _ => s

def execPad (vf q : Nat) (s : State) : Host.Outcome State Fault Refusal :=
  .next (s.packetRow vf q (fun p => p.kind == pkPad))
def execLaunch (vf q : Nat) (s : State) : Host.Outcome State Fault Refusal :=
  .next (s.packetRow vf q (fun p => p.kind == pkLaunch))
def execWaitmem (vf q : Nat) (s : State) : Host.Outcome State Fault Refusal :=
  .next (s.packetRow vf q (fun p => p.kind == pkWaitmem))
def execSignalmem (vf q : Nat) (s : State) : Host.Outcome State Fault Refusal :=
  .next (s.packetRow vf q (fun p => p.kind == pkSignalmem))
def execFence (vf q : Nat) (s : State) : Host.Outcome State Fault Refusal :=
  .next (s.packetRow vf q (fun p => p.kind == pkFence))
def execQctlIntr (vf q : Nat) (s : State) : Host.Outcome State Fault Refusal :=
  .next (s.packetRow vf q (fun p => p.kind == pkQctl && fld p.bs 8 1 == 0))
def execQctlStop (vf q : Nat) (s : State) : Host.Outcome State Fault Refusal :=
  .next (s.packetRow vf q (fun p => p.kind == pkQctl && fld p.bs 8 1 == 1))

/-- WAITMEM_POLL (R329). -/
def execWaitmemPoll (vf q : Nat) (s : State) : Host.Outcome State Fault Refusal :=
  .next (if s.frontRuns vf then s.reread vf q else s)

/-- NOTIFY (R325): a store to a notify word. -/
def execNotify (vf q : Nat) (value : W32) (s : State) : Host.Outcome State Fault Refusal :=
  .next (if !s.released then s
  else s.updQueue vf q (fun x =>
    if x.stop then x
    else if !x.en || value.toNat % 64 != 0 || x.size ≤ value.toNat then x.halt qBadwr value
    else { x with qwr := value.toNat, pending := true }))

/-- QUEUE_RESET (R331): at once when no packet of the queue runs, else once the last one has completed. -/
def execQueueReset (vf q : Nat) (s : State) : Host.Outcome State Fault Refusal :=
  .next (if !s.released then s
  else s.updQueue vf q (fun x => if x.flight.isEmpty then x.reset else { x with rst := true }))

/-! ### LAUNCH_START (R49, R50, R332 to R335) -/

/-- The largest declared sizes of R314: the scratchpad with 4,096 barrier objects after it, and the weight buffer. -/
def maxAspb : Nat := 4194304 + 16 * 4096
def maxWbfb : Nat := 2097152

/-- A kernel-table entry (R333); none when it breaks a limit of R131, R314 or R333. Any ASPB up to the limit is taken, a multiple
of 16 or not (DESIGN CHOICE, log 101). -/
def kernelOfBytes (bs : List Byte) : Option KernelEntry :=
  let f := fld bs
  let k : KernelEntry := { code := BitVec.ofNat 64 (f 0 8), csize := f 8 4, gregs := f 12 2, narrow := f 14 2, tiles := f 16 1,
                           aspb := f 20 4, wbfb := f 24 4, handler := BitVec.ofNat 32 (f 28 4) }
  if !zeroIn bs [(17, 20), (32, 64)] || f 0 8 % 4 != 0 || k.csize < 4 || 2 ^ 24 < k.csize || k.csize % 4 != 0 ||
      k.gregs < 8 || 256 < k.gregs || k.gregs % 8 != 0 || 1280 < k.narrow || k.narrow % 8 != 0 || 24 < k.tiles ||
      maxAspb < k.aspb || maxWbfb < k.wbfb ||
      !(k.handler == 0xFFFFFFFF#32 || (k.handler.toNat % 4 == 0 && k.handler.toNat < k.csize)) then none
  else some k

/-- The launch with the fields of its record (R332). -/
def Launch.ofRecord (l : Launch) (r : List Byte) : Launch :=
  let f := fld r
  let fl := f 0x0C 4
  { l with tree := BitVec.ofNat 64 (f 0 8), nnodes := f 8 4, sweep := fl % 4, implicit := fl / 4 % 2 = 1, idemp := fl / 8 % 2 = 1,
           swap := fl / 16 % 2 = 1, nleaf := f 0x10 4, llanes := f 0x14 2, lrb := f 0x16 2, stack := BitVec.ofNat 64 (f 0x18 8),
           d := f 0x28 1, f := f 0x2C 4, result := BitVec.ofNat 64 (f 0x30 8), input := BitVec.ofNat 64 (f 0x38 8),
           tol := BitVec.ofNat 32 (f 0x40 4), txbuf := f 0x44 4, ctx := BitVec.ofNat 64 (f 0x50 8) }

/-- The kernel-table entries a launch can name (R335). -/
def Launch.named (l : Launch) (nkern : Nat) : List Nat :=
  if l.implicit then (match l.sweep with | 0 => [0] | 1 => [1] | _ => [0, 1]) else List.range nkern

/-- The fields of the record within their limits (R49, R332), and SWAPQ within its own (R328). -/
def Launch.fieldsOk (l : Launch) (r : List Byte) : Bool :=
  let f := fld r
  f 0x0C 4 / 32 == 0 && zeroIn r [(0x29, 0x2C), (0x4C, 0x50), (0x60, 0x80)] && l.sweep != 3 && 1 ≤ l.d && 64 ≤ l.f &&
  l.f ≤ 65536 && l.f % 64 == 0 && f 0x18 8 % 4096 == 0 && f 0x20 8 % 4096 == 0 && l.lrb ≤ 4096 && l.lrb % 4 == 0 && l.txbuf ≤ 262144 &&
  l.txbuf % 4096 == 0 && 1 ≤ f 0x48 4 && f 0x48 4 ≤ 65536 && f 0x50 8 % 4096 == 0 && (!l.swap || 1 ≤ l.swapq) &&
  (if l.implicit then 1 ≤ l.nleaf && l.nleaf ≤ 16777215 && 1 ≤ l.llanes && l.llanes ≤ 1024
   else f 0 8 % 64 == 0 && 1 ≤ l.nnodes && l.nnodes ≤ 0xFFFFFFFE)

/-- The launch with its fields and kernel table, or the STATUS of the first check that fails (R335). -/
def State.checkLaunch (s : State) (l : Launch) : Except Nat Launch :=
  match s.vmRead [] l.vf l.lrec 0x80 with
  | .error _ => .error stBadLaunch
  | .ok r =>
    let l := l.ofRecord r
    let nk := fld r 0x48 4
    if !l.fieldsOk r || (l.named nk).any (fun k => nk ≤ k) then .error stBadLaunch
    else
      match s.vmRead [] l.vf (l.lrec + 0x80) (64 * nk) with
      | .error _ => .error stBadLaunch
      | .ok t =>
        match (l.named nk).mapM (fun k => (kernelOfBytes ((t.drop (64 * k)).take 64)).map (fun e => (k, e))) with
        | none => .error stBadLaunch
        | some ks =>
          if fld r 0x20 8 < 16 * l.d * l.f then .error stStackSize
          else if fld r 0x58 8 < 4096 * (7168 + l.f) || !s.rangeOk l.vf l.ctx (fld r 0x58 8) .rmw then .error stCtxSize
          else .ok { l with kernels := ks, started := true, phase := if l.sweep = 1 then .down else .up }

/-- LAUNCH_START (R335): the checks; a launch that fails one completes at once with its status. -/
def execLaunchStart (launch : Nat) (s : State) : Host.Outcome State Fault Refusal :=
  .next (match s.launch launch with
  | none => s
  | some l =>
    if l.started || !s.frontRuns l.vf then s
    else
      match s.checkLaunch l with
      | .ok l => s.setLaunch launch l
      | .error st => (s.setLaunch launch { l with started := true, stop := some (st, 0, 0) }).settle launch)

end Sys2Proof.Machine
end

