-- ==== Sys2Proof/Machine/Outside.lean ====
section
/-! DEFINITION. Accesses from outside the part and the Lumak ports (spec/14_host_interface.md R322, R323, R337 to R339). -/

namespace Sys2Proof.Machine

/-! ### Host accesses to HBM (R323) -/

/-- Bytes of HBM read from outside under a key; a poisoned line answers with poison (R388). -/
def State.outsideRead (s : State) (key addr n : Nat) : Option (List Byte) :=
  let lines := (List.range n).map (fun i => (addr + i) / 64)
  if s.dies.any (fun d => d.2.poisoned.any lines.contains) then none else some (s.physRead key addr n)

/-- The atomics in the order of R263's table, by which a peer's access names one. -/
def peerAtomics : List AtomOp := [.add, .fadd, .min, .max, .and, .or, .xor, .xchg, .cas]

/-- HOST_MEM_ACCESS (R323): a CXL.mem access to HBM, byte by byte under the key of its granule's owner. CXL.mem reads and
writes; an atomic does not arrive by it. -/
def execHostMemAccess (addr : Nat) (acc : BusAccess) (s : State) : Host.Outcome State Fault Refusal :=
  let key (a : Nat) : Option Nat := (s.granules.look (a / 2 ^ 30)).map (fun v => (s.vf v).key)
  .next (if !s.released then s
  else match acc with
  | .read n =>
    if hbmSize < addr + n then s
    else { s with answer := ((List.range n).mapM (fun i => match key (addr + i) with
      | none => some [(0 : Byte)]
      | some k => s.outsideRead k (addr + i) 1)).map List.flatten }
  | .write bs =>
    if hbmSize < addr + bs.length then s
    else (List.zip (List.range bs.length) bs).foldl (fun s p => match key (addr + p.1) with
      | none => s
      | some k => s.physWrite k none (addr + p.1) [p.2]) s
  | .atomic _ _ _ _ => s)

/-- A store of the host to its own memory (R322, R336): what the part reads there afterwards. -/
def State.hostStore (s : State) (addr : Nat) (bs : List Byte) : State :=
  if addr + bs.length ≤ 2 ^ 48 then s.physWrite 0 none (2 ^ 48 + addr) bs else s

/-- A store that stands in a peer part's memory, at an offset of its HBM: the part's own later reads through the port follow it
in the peer's coherence order (R338). -/
def State.peerStore (s : State) (port off : Nat) (bs : List Byte) : State :=
  if port < 12 && off + bs.length ≤ 2 ^ 48 then s.physWrite 0 none ((2 + port) * 2 ^ 48 + off) bs else s

/-! ### Lumak (R337 to R339) -/

/-- Whether a port accepts an arriving access at an HBM offset (R337). One beyond HBM it refuses, whatever LIMIT says (DESIGN CHOICE,
log 127). -/
def Port.accepts (p : Port) (addr n : Nat) : Bool :=
  p.linEn && p.trained && p.linBase ≤ addr / 2 ^ 30 && (addr + n - 1) / 2 ^ 30 ≤ p.linLim && addr + n ≤ hbmSize

/-- A peer's atomic on HBM (R263, R337): the old value is the answer. -/
def State.inboundAtomic (s : State) (key addr op ty : Nat) (value compare : W64) : State :=
  match peerAtomics[op]?, Ty.ofCode ty with
  | some op, some ty =>
    let w := ty.bytes
    let old := s.physRead key addr w
    let v := value.toNat % 2 ^ (8 * w)
    let c := compare.toNat % 2 ^ (8 * w)
    let new := match op with
      | .cas => op.new ty (leNat old) c v
      | _ => op.new ty (leNat old) v 0
    let s := match new with
      | some x => s.physWrite key none addr (valBytes w x)
      | none => s
    { s with answer := some old }
  | _, _ => { s with answer := none }

/-- LUMAK_INBOUND (R337): accepted within LIN's window, under its VF's key, or refused. -/
def execLumakInbound (port addr : Nat) (acc : BusAccess) (s : State) : Host.Outcome State Fault Refusal :=
  let p := s.port port
  let key := (s.vf p.linVf).key
  .next (if !s.released then s
  else match acc with
  | .read n => if p.accepts addr n then { s with answer := s.outsideRead key addr n } else { s with answer := none }
  | .write bs =>
    if p.accepts addr bs.length then { s.physWrite key none addr bs with answer := some [] } else { s with answer := none }
  | .atomic op ty value compare =>
    if p.accepts addr (((Ty.ofCode ty).map Ty.bytes).getD 1) && (s.outsideRead key addr 1).isSome then
      s.inboundAtomic key addr op ty value compare
    else { s with answer := none })

/-- A port without a link. -/
def Port.down (p : Port) : Port := { p with trained := false, lanes := 0, failed := 0, training := false }

/-- A copy that runs through a port without a link fails at its next unit, where it did not fail before (R339). -/
def State.loseCopy (before s : State) (core ch : Nat) : State :=
  match (s.core core).chan ch with
  | c :: _ =>
    if !c.started || c.stopped || c.lost.isSome || (before.copyFailure core c).isSome then s
    else
      match s.copyFailure core c with
      | some (a, e, acc) => s.setHead core ch { c with lost := some (a, e.ipa, acc == .write) }
      | none => s
  | [] => s

/-- A port loses its link (R339): every access that waits on it fails, requests to the peer and the copies that run through the
port, also when the link trains again before their cohorts park. -/
def State.dropLink (s : State) (port : Nat) (p : Port) : State :=
  let t : State := { s.updPort port (fun _ => p) with reds := s.reds.map (fun r : RedReq => if aperture r.pa = port + 2 then { r with lost := true } else r) }
  t.cores.foldl (fun u c => c.2.chans.foldl (fun u q => s.loseCopy u c.1 q.1) u) t

/-- FLIT_REPLAY (R339): a replay, counted; the sixteenth failure in a row drops the link. -/
def execFlitReplay (port : Nat) (ok : Bool) (s : State) : Host.Outcome State Fault Refusal :=
  let p := s.port port
  let q := { p with replays := satInc p.replays, failed := if ok then 0 else p.failed + 1 }
  .next (if !p.trained then s else if 16 ≤ q.failed then s.dropLink port q.down else s.updPort port (fun _ => q))

/-- LINK_DROP (R339): the link drops, for a silence of the peer or for what FLIT_REPLAY has counted. -/
def execLinkDrop (port : Nat) (s : State) : Host.Outcome State Fault Refusal :=
  .next (if (s.port port).trained then s.dropLink port (s.port port).down else s)

/-- RETRAIN (R339): the link drops, and Grotto trains the port again. -/
def execRetrain (port : Nat) (s : State) : Host.Outcome State Fault Refusal :=
  .next (s.dropLink port { (s.port port).down with training := true })

/-- LINK_TRAINED (R339): the training that RETRAIN asked for completes; without a lane there is no link. -/
def execLinkTrained (port lanes : Nat) (s : State) : Host.Outcome State Fault Refusal :=
  .next (if s.released && (s.port port).training then
    s.updPort port (fun p => { p with trained := lanes != 0, lanes := min lanes 8, failed := 0, training := false })
  else s)

end Sys2Proof.Machine
end

