-- ==== Sys2Proof/Machine/Images.lean ====
section
/-! DEFINITION. What a save image and the swap pool hold in memory, byte by byte, and what is read back from them
(spec/15_faults_context.md R359 to R364; spec/06_registers_operands.md R134). The rules give the order and the size of every
part and the inner places of most; a byte whose place or value they do not give is open, and the contents that belong to such
bytes stand in `SavedImage` and `SwapRec` alone (log 26). -/

namespace Sys2Proof.Config

/-- The 64-byte units of an image's device section (R360, R362). -/
opaque deviceUnits : Nat

/-- What a save image, or a record of the swap pool, holds once something other than the part has written to its open bytes, by
the step counter. -/
opaque savedImage : Nat → Machine.SavedImage
opaque swappedRecord : Nat → Machine.SwapRec

end Sys2Proof.Config

namespace Sys2Proof.Machine

/-! ### Streams of bytes -/

/-- Bytes in ascending address; none where the spec leaves the byte open. -/
abbrev Stream := List (Option Byte)

def known (l : List Byte) : Stream := l.map some
def unknown (n : Nat) : Stream := List.replicate n none

/-- A part with what follows it up to the next multiple of 64 (R362, R363). -/
def pad64 (x : Stream) : Stream := x ++ unknown (roundUp x.length 64 - x.length)

/-- 32-bit words. -/
def words (l : List W32) : Stream := known (l.flatMap (fun x => bytesLE 4 x.toNat))

/-! ### Cohort records (R363) -/

/-- The names of a cohort in the order of its record: V0 to V(G - 1), then V256 to V(255 + N). -/
def recordNames (g n : Nat) : List Nat := List.range g ++ (List.range n).map (256 + ·)

/-- A tag's code (R134). -/
def VVal.code : VVal → Nat
  | .u _ => 0
  | .a _ _ => 1
  | .g _ => 2

/-- A name's words (R363). -/
def VVal.words : VVal → List W32
  | .u b => [b]
  | .a b s => [b, s]
  | .g l => (List.range 32).map (fun i => l.getD i 0)

/-- The tags of some names, four to a byte, the first in the lowest bits. -/
def tagBytes (l : List VVal) : List Byte :=
  (List.range (cdiv l.length 4)).map (fun i =>
    BitVec.ofNat 8 ((List.range 4).foldl (fun acc k => acc + 4 ^ k * ((l[4 * i + k]?).map VVal.code).getD 0) 0))

/-- A lane's meet entries 1 to 8, the first pushed first; those it does not have are open. -/
def Lane.meetBytes (x : Lane) : Stream :=
  let l := (x.meets.reverse).take 8
  Machine.words l ++ unknown (4 * (8 - l.length))

/-- The fixed part of a cohort record; the layout within the four bytes of the serial cursor at 0xA20 is open (log 26). -/
def Cohort.fixedPart (co : Cohort) : Stream :=
  let lane (f : Lane → W32) : Stream := words (lanes32.map (fun i => f (co.lane i)))
  unknown 64 ++ lane Lane.pc ++ lane Lane.mr ++ lanes32.flatMap (fun i => (co.lane i).meetBytes) ++
  words ((List.range 96).map co.p) ++ words ((List.range 8).map (fun i => (co.j i).1)) ++
  words ((List.range 8).map (fun i => (co.j i).2)) ++ known ((List.range 16).flatMap (fun i => bytesLE 16 (co.d i).toNat)) ++
  unknown 512 ++ known (lanes32.map (fun i => BitVec.ofNat 8 (co.lane i).depth)) ++ unknown 4 ++ known (List.replicate 28 0)

/-- A cohort record. -/
def Cohort.record (co : Cohort) (n : Nat) : Stream :=
  let vs := (recordNames co.g n).map co.v
  let tags := known (tagBytes vs)
  pad64 (co.fixedPart ++ tags ++ unknown (64 * cdiv vs.length 256 - tags.length) ++ words (vs.flatMap VVal.words))

/-! ### Block records and core sections (R362) -/

/-- A block with what its record holds. -/
structure BlockRec where
  block   : Block
  cohorts : List (Nat × Cohort)
  asp     : List Host.Cell
  wbf     : List Host.Cell

/-- The lines of a transaction buffer that hold bytes, in ascending address. -/
def bufLinesOf (m : SMap Byte) : List Nat := (m.map (fun p => p.1 / 64)).foldl (fun acc l => if acc.getLast? == some l then acc else acc ++ [l]) []

/-- One buffered line: its device address, its byte mask and its 64 data bytes; a byte outside the mask is open. -/
def bufLine (m : SMap Byte) (line : Nat) : Stream :=
  let at_ (i : Nat) : Option Byte := m.look (64 * line + i)
  let mask := (List.range 64).foldl (fun acc i => if (at_ i).isSome then acc + 2 ^ i else acc) 0
  known (bytesLE 8 (64 * line) ++ bytesLE 8 mask) ++ (List.range 64).map at_

/-- The parts of a block record between its header and its cohort records. -/
def BlockRec.parts (r : BlockRec) : List Stream :=
  let b := r.block
  let lines := bufLinesOf b.buf
  [match b.table with
    | some t => known ((List.range 1024).flatMap (fun i => bytesLE 2 (t.getD i 0)))
    | none => [],
   lines.flatMap (bufLine b.buf) ++ unknown (80 * (b.bufLines - lines.length)),
   known (bufRead r.asp 0 b.aspBound), known (bufRead r.wbf 0 b.wbfSize),
   (List.range b.k).flatMap (fun t => words (b.tileAll t))]

/-- The cohorts of a block in the order of COHID; none for one that has released its slot. -/
def BlockRec.each (r : BlockRec) : List (Option (Nat × Cohort)) :=
  (List.range r.block.slots.length).map (fun k => r.cohorts.find? (fun c => c.2.cohid == k))

/-- The record of a cohort that has released its slot: it holds no name any more, and its fixed part is open (DEDUCED, log 26). -/
def releasedRecord : Nat := 0xA40

/-- A block record with its NCOH cohort records. -/
def BlockRec.stream (r : BlockRec) : Stream :=
  unknown 256 ++ r.parts.flatMap pad64 ++ r.each.flatMap (fun x => match x with
    | some c => c.2.record r.block.n
    | none => unknown releasedRecord)

/-- A block record of the swap pool: the meet extensions of its deep cohorts follow (R364). -/
def BlockRec.swapStream (r : BlockRec) : Stream :=
  r.stream ++ unknown (7168 * (r.cohorts.filter (fun c => c.2.serial)).length)

/-- The record of a block of an image. -/
def SavedImage.blockRec (i : SavedImage) (bi : Nat) (b : Block) : BlockRec :=
  { block := b, cohorts := sortBy (fun c => c.2.cohid) (i.cohorts.filter (fun c => c.2.blk == bi)), asp := i.asp.get bi [],
    wbf := i.wbf.get bi [] }

/-- The blocks of a core. -/
def SavedImage.coreBlocks (i : SavedImage) (core : Nat) : List (Nat × Block) := i.blocks.filter (fun p => p.2.core == core)

/-- What stands before a core's block records: its header and the records of its stopped copies. -/
def SavedImage.coreHead (i : SavedImage) (core : Nat) : Stream :=
  unknown (64 + 64 * (i.copies.filter (fun c => c.1 == core && c.2.2.stopped)).length)

/-- A core section; none for a core that holds nothing. -/
def SavedImage.section_ (i : SavedImage) (core : Nat) : Stream :=
  match i.coreBlocks core with
  | [] => []
  | l => i.coreHead core ++ l.flatMap (fun p => (i.blockRec p.1 p.2).stream)

/-- The core sections, in ascending core from byte 512: core, offset, bytes. -/
def SavedImage.sections (i : SavedImage) : List (Nat × Nat × Stream) :=
  (List.range 64).foldl (fun acc c =>
    let o := match acc.getLast? with
      | some x => x.2.1 + x.2.2.length
      | none => 512
    acc ++ [(c, o, i.section_ c)]) []

/-- Where the core sections end and the device section begins. -/
def SavedImage.deviceOff (i : SavedImage) : Nat := 512 + (i.sections.map (fun x => x.2.2.length)).foldl (· + ·) 0

/-- The 512-byte header (R360). -/
def SavedImage.headerBytes (i : SavedImage) : List Byte :=
  let h := i.header
  bytesLE 4 h.magic.toNat ++ bytesLE 4 h.version.toNat ++ bytesLE 8 (i.deviceOff + 64 * Config.deviceUnits) ++
  [h.ncore, h.nslot, h.gfile, h.nfile, h.aspb, h.wbfb, h.ntile, h.nqueue, i.deviceOff / 64].flatMap (bytesLE 4) ++
  List.replicate 0xCC 0 ++ i.sections.flatMap (fun x => bytesLE 4 (if x.2.2.isEmpty then 0 else x.2.1 / 64))

/-- A save image (R360, R362): its header, the core sections in ascending core, and the device section, whose bytes are open. -/
def SavedImage.stream (i : SavedImage) : Stream := known i.headerBytes ++ i.sections.flatMap (fun x => x.2.2)

/-! ### A stream in memory -/

/-- A byte in a range that begins at an address. -/
def inArea (base n pa : Nat) : Bool := base ≤ pa && pa < base + n

/-- A range that the part writes with bytes that the spec leaves open: they read as free values. -/
def State.scramble (s : State) (base n : Nat) : State :=
  { s with mem := s.mem.filter (fun c => !inArea base n c.1), lineKeys := s.lineKeys.filter (fun l => !inArea base n (64 * l.1)) }

/-- The cells of a stream's known bytes. -/
def streamCells : Nat → Stream → List Host.Cell
  | _, [] => []
  | a, none :: l => streamCells (a + 1) l
  | a, some b :: l => (a, b) :: streamCells (a + 1) l

/-- The lines of some cells in rising order, under a key. -/
def cellLines (key : Nat) : List Host.Cell → SMap Nat
  | [] => []
  | [c] => [(c.1 / 64, key)]
  | c :: d :: l => if c.1 / 64 = d.1 / 64 then cellLines key (d :: l) else (c.1 / 64, key) :: cellLines key (d :: l)

/-- A range of HBM written with a stream under a key: the known bytes stand there, the others are open. What lies beyond HBM stands
nowhere (DESIGN CHOICE, log 119). -/
def State.writeStream (s : State) (key base size : Nat) (x : Stream) : State :=
  let n := min size (hbmSize - base)
  let cells := (streamCells base x).filter (fun c => inArea base n c.1)
  { s with mem := s.mem.filter (fun c => decide (c.1 < base)) ++ cells ++ s.mem.filter (fun c => decide (base + n ≤ c.1)),
           lineKeys := s.lineKeys.filter (fun l => decide (64 * l.1 < base)) ++ cellLines key cells ++
             s.lineKeys.filter (fun l => decide (base + n ≤ 64 * l.1)) }

/-- The cells and line keys that stand in a range. -/
def State.areaOf (s : State) (base n : Nat) : List Host.Cell × SMap Nat :=
  (s.mem.filter (fun c => inArea base n c.1), s.lineKeys.filter (fun l => inArea base n (64 * l.1)))

/-- Whether an area holds what a stream left in it; or bytes at the same places and under the same key, of which some differ. -/
inductive AreaNow where
  | intact | altered | open_
  deriving DecidableEq, Repr, Inhabited

/-- How an area stands against a stream that was written to it; the 8 bytes from offset `skip` on are not compared. A stream that ran
past the end of HBM is open (log 119). -/
def State.areaNow (s : State) (key base n skip : Nat) (x : Stream) : AreaNow :=
  let was := (State.writeStream { s with mem := [], lineKeys := [] } key base n x).areaOf base n
  let now := s.areaOf base n
  let cut (l : List Host.Cell) : List Host.Cell := l.filter (fun c => !inArea (base + skip) 8 c.1)
  if now.1.map Prod.fst != was.1.map Prod.fst || now.2 != was.2 || (hbmSize < base + n && hbmSize < base + x.length) then .open_
  else if cut now.1 == cut was.1 then .intact
  else .altered

/-! ### Reading back -/

/-- A little-endian number at an offset. -/
def numAt (rd : Nat → Byte) (o n : Nat) : Nat := leNat ((List.range n).map (fun i => rd (o + i)))
def wordAt (rd : Nat → Byte) (o : Nat) : W32 := BitVec.ofNat 32 (numAt rd o 4)

/-- A lane read from its places in a cohort record at `o`. -/
def Lane.reread (x : Lane) (rd : Nat → Byte) (o l : Nat) : Lane :=
  let d := numAt rd (o + 0xA00 + l) 1
  let low := (List.range (min d 8)).map (fun i => wordAt rd (o + 0x140 + 32 * l + 4 * i))
  { x with pc := wordAt rd (o + 0x40 + 4 * l), mr := wordAt rd (o + 0xC0 + 4 * l),
           meets := x.meets.take (d - 8) ++ low.reverse }

/-- The values that some tags announce, from an offset on, and where they end; a tag of 0b11 takes no bytes. -/
def readValues (rd : Nat → Byte) : Nat → List (Nat × Nat) → List (Nat × VVal) × Nat
  | o, [] => ([], o)
  | o, (name, tag) :: rest =>
    let (x, n) := match tag with
      | 0 => (VVal.u (wordAt rd o), 4)
      | 1 => (VVal.a (wordAt rd o) (wordAt rd (o + 4)), 8)
      | 2 => (VVal.g ((List.range 32).map (fun i => wordAt rd (o + 4 * i))), 128)
      | _ => (VVal.u 0, 0)
    let (l, e) := readValues rd (o + n) rest
    ((name, x) :: l, e)

/-- The names of a cohort with the tags that its record at `o` holds. -/
def readTags (rd : Nat → Byte) (o g n : Nat) : List (Nat × Nat) :=
  (recordNames g n).mapIdx (fun i name => (name, numAt rd (o + 0xA40 + i / 4) 1 / 4 ^ (i % 4) % 4))

/-- A cohort read from its record at `o`: where the record ends, and whether a tag is 0b11 (R361). A narrow name whose tag has become
0b10 fails no check of R361 and is read as general (DESIGN CHOICE, log 123). -/
def Cohort.reread (co : Cohort) (rd : Nat → Byte) (o n : Nat) : Cohort × Nat × Bool :=
  let tags := readTags rd o co.g n
  let (vs, e) := readValues rd (o + 0xA40 + 64 * cdiv tags.length 256) tags
  let c := { co with
    lanes := co.lanes.mapIdx (fun l x => x.reread rd o l), vregs := [],
    preds := (List.range 96).foldl (fun m i => let x := wordAt rd (o + 0x540 + 4 * i)
                                               if i = 0 || x = 0 then m else m.put i x) [],
    joins := (List.range 8).map (fun i => (i, wordAt rd (o + 0x6C0 + 4 * i), wordAt rd (o + 0x6E0 + 4 * i))),
    descs := (List.range 16).map (fun i => (i, BitVec.ofNat 128 (numAt rd (o + 0x700 + 16 * i) 16))) }
  (vs.foldl (fun c p => c.setV p.1 p.2) c, o + roundUp (e - o) 64, tags.any (fun t => t.2 == 3))

/-- Bytes of a buffer read from an offset on, keyed from 0. -/
def readBuf (rd : Nat → Byte) (o n : Nat) : List Host.Cell :=
  ((List.range n).map (fun i => (i, rd (o + i)))).filter (fun c => c.2 != 0)

/-- A block's transaction buffer read from its lines. -/
def readLines (rd : Nat → Byte) (o lines : Nat) : SMap Byte :=
  (List.range lines).foldl (fun m k =>
    let a := numAt rd (o + 80 * k) 8
    let mask := numAt rd (o + 80 * k + 8) 8
    (List.range 64).foldl (fun m i => if mask / 2 ^ i % 2 = 1 then m.put (a + i) (rd (o + 80 * k + 16 + i)) else m) m) []

/-- A block record read at `o`: what it holds, where it ends, and whether a tag is 0b11. -/
def BlockRec.reread (r : BlockRec) (rd : Nat → Byte) (o : Nat) : BlockRec × Nat × Bool :=
  let b := r.block
  let o1 := o + 256
  let o2 := o1 + (if b.table.isSome then 2048 else 0)
  let o3 := o2 + roundUp (80 * b.bufLines) 64
  let o4 := o3 + roundUp b.aspBound 64
  let o5 := o4 + roundUp b.wbfSize 64
  let o6 := o5 + 65536 * b.k
  let b' := { b with
    table := b.table.map (fun t => (List.range t.length).map (fun i => numAt rd (o1 + 2 * i) 2)),
    buf := readLines rd o2 (bufLinesOf b.buf).length,
    tiles := ((List.range (16384 * b.k)).map (fun i => (i, wordAt rd (o5 + 4 * i)))).filter (fun e => e.2 != 0) }
  let (cs, e, bad) := r.each.foldl (fun acc x => match x with
    | none => (acc.1, acc.2.1 + releasedRecord, acc.2.2)
    | some c =>
      let (co, e, x) := c.2.reread rd acc.2.1 b.n
      (acc.1 ++ [(c.1, co)], e, acc.2.2 || x)) ([], o6, false)
  ({ block := b', cohorts := cs, asp := readBuf rd o3 b.aspBound, wbf := readBuf rd o4 b.wbfSize }, e, bad)

/-- The contents of a core section read again from an offset on. -/
def SavedImage.rereadCore (i : SavedImage) (rd : Nat → Byte) (o : Nat) (l : List (Nat × Block)) : SavedImage :=
  (l.foldl (fun acc p =>
    let (r, e, bad) := (i.blockRec p.1 p.2).reread rd acc.2
    let x := acc.1
    ({ x with blocks := x.blocks.put p.1 r.block, cohorts := r.cohorts.foldl (fun m c => m.put c.1 c.2) x.cohorts,
              asp := x.asp.put p.1 r.asp, wbf := x.wbf.put p.1 r.wbf, badTag := x.badTag || bad }, e)) (i, o)).1

/-- An image read again from its places. -/
def SavedImage.reread (i : SavedImage) (rd : Nat → Byte) : SavedImage :=
  i.sections.foldl (fun x c => match i.coreBlocks c.1 with
    | [] => x
    | l => x.rereadCore rd (c.2.1 + (i.coreHead c.1).length) l) i

/-! ### The save area and the swap pool of a VF -/

/-- The size of the save images' part of a save area (R356, R364). -/
def saveMin : Nat := 640 * 2 ^ 20

/-- Where a VF's save area begins: a multiple of 4 KiB (R348). -/
def Vf.saveAt (v : Vf) : Nat := v.savebase.toNat / 4096 * 4096

/-- The bytes of a VF's save area that lie in HBM: all of SAVESZ, unless the area runs past its end (DESIGN CHOICE, log 119). -/
def Vf.saveSize (v : Vf) : Nat := min v.savesz.toNat (hbmSize - v.saveAt)

/-- The range of a VF's swap pool (R364). -/
def Vf.poolAt (v : Vf) : Nat := v.saveAt + saveMin
def Vf.poolSize (v : Vf) : Nat := v.saveSize - saveMin

/-- An image written at SAVEBASE under the VF's key (R357, R359). -/
def State.writeImage (s : State) (v : Nat) (i : SavedImage) : State :=
  let x := s.vf v
  s.writeStream x.key x.saveAt saveMin i.stream

/-- The header that stands at SAVEBASE (R360). -/
def State.headerAt (s : State) (v : Nat) : ImageHeader :=
  let word (o : Nat) : Nat := leNat (s.physRead (s.vf v).key ((s.vf v).saveAt + o) 4)
  { magic := BitVec.ofNat 32 (word 0x00), version := BitVec.ofNat 32 (word 0x04), ncore := word 0x10, nslot := word 0x14,
    gfile := word 0x18, nfile := word 0x1C, aspb := word 0x20, wbfb := word 0x24, ntile := word 0x28, nqueue := word 0x2C }

/-- Whether the offsets in a header are those of an image's sections. -/
def State.sameOffsets (s : State) (v : Nat) (i : SavedImage) : Bool :=
  let base := (s.vf v).saveAt
  s.physRead (s.vf v).key (base + 0x30) 4 == (i.headerBytes.drop 0x30).take 4 &&
  s.physRead (s.vf v).key (base + 0x100) 256 == (i.headerBytes.drop 0x100).take 256

/-- What stands in a save area or a swap pool beside its known bytes belongs to the VF that reads it. -/
def SavedImage.ownedBy (i : SavedImage) (v : Nat) : SavedImage := { i with blocks := i.blocks.mapVals (fun _ b => { b with vf := v }) }

/-- The image that a restore of a VF reads: all zeros for an idle VF; what was saved, with the bytes that now stand in the save
area where the rules give their places; and, once something has written to bytes that they leave open, or to the offsets, the
header with open contents. -/
def State.imageOf (s : State) (v : Nat) : SavedImage :=
  match (s.vf v).image with
  | none => {}
  | some i =>
    let x := s.vf v
    match s.areaNow x.key x.saveAt saveMin 8 i.stream with
    | .intact => i
    | .altered =>
      let h := s.headerAt v
      if h.magic = 0 then { header := h }
      else if s.sameOffsets v i then { i.reread (fun o => s.physByte x.key (x.saveAt + o)) with header := h }
      else { (Config.savedImage s.tick).ownedBy v with header := h }
    | .open_ =>
      let h := s.headerAt v
      { (if h.magic = 0 then {} else (Config.savedImage s.tick).ownedBy v) with header := h }

/-- A record of the swap pool as a block record. -/
def SwapRec.rec_ (r : SwapRec) : BlockRec := { block := r.block, cohorts := r.cohorts, asp := r.asp, wbf := r.wbf }

/-- The records of a VF's swap pool, one after the other in the order in which they left (R364). -/
def poolStream (l : List SwapRec) : Stream := l.flatMap (fun r => r.rec_.swapStream)

/-- The swap pool written anew. -/
def State.writePool (s : State) (v : Nat) : State :=
  let x := s.vf v
  s.writeStream x.key x.poolAt x.poolSize (poolStream x.swapped)

/-- A record of the swap pool read again at an offset. A shape tag of 0b11 in it, for which R361 names only the restore of an image,
reads as the uniform 0 (DESIGN CHOICE, log 113). -/
def SwapRec.reread (r : SwapRec) (rd : Nat → Byte) (o : Nat) : SwapRec :=
  let x := (r.rec_.reread rd o).1
  { r with block := x.block, cohorts := x.cohorts, asp := x.asp, wbf := x.wbf }

/-- The records of a swap pool that something has written to, read again one after the other. -/
def rereadPool (rd : Nat → Byte) : Nat → List SwapRec → List SwapRec
  | _, [] => []
  | o, r :: l => r.reread rd o :: rereadPool rd (o + r.rec_.swapStream.length) l

/-- An open record in the place of a record of the pool: of the same block, with a claim to no boost (R305). -/
def SwapRec.inPlaceOf (f r : SwapRec) : SwapRec :=
  { f with blk := r.blk, order := r.order, bytes := r.bytes,
           block := { f.block with vf := r.block.vf, launch := r.block.launch, gang := r.block.gang, boost := 0, leaving := false },
           cohorts := f.cohorts.map (fun c => (c.1, { c.2 with blk := r.blk, cohid := c.1 })),
           copies := f.copies.map (fun c => (c.1, { c.2 with blk := r.blk, ch := c.1 })),
           vgas := f.vgas.map (fun v => { v with blk := r.blk }) }

/-- The swap pool as memory holds it: a record goes on standing for the place it has in the order. -/
def State.poolOf (s : State) (v : Nat) : List SwapRec :=
  let x := s.vf v
  match s.areaNow x.key x.poolAt x.poolSize x.poolSize (poolStream x.swapped) with
  | .intact => x.swapped
  | .altered => rereadPool (fun o => s.physByte x.key (x.poolAt + o)) 0 x.swapped
  | .open_ => x.swapped.map (fun r => (Config.swappedRecord s.tick).inPlaceOf r)

/-- The records of a VF's swap pool taken from memory. -/
def State.syncPool (s : State) (v : Nat) : State := s.updVf v (fun x => { x with swapped := s.poolOf v })

end Sys2Proof.Machine
end

