-- ==== Sys2Proof/Machine/Faults.lean ====
section
/-! DEFINITION. The fault queue, the driver's commands and the TLBs (spec/15_faults_context.md R346 to R355). -/

namespace Sys2Proof.Machine

/-! ### The fault ring (R347, R348) -/

/-- The 64 bytes of a fault record (R347). -/
def FaultInfo.bytes (r : FaultInfo) (seq : W32) : List Byte :=
  bytesLE 4 seq.toNat ++
  bytesLE 4 (2 ^ 26 * bit r.txab + 2 ^ 25 * bit r.copy + 2 ^ 24 * bit r.nest + 2 ^ 16 * r.detail + 2 ^ 8 * r.cls + r.code) ++
  bytesLE 4 r.slot.toNat ++ bytesLE 4 r.pc.toNat ++ bytesLE 4 r.mask.toNat ++ bytesLE 4 (2 ^ 16 * r.queue + r.tag) ++
  bytesLE 8 r.addr.toNat ++ bytesLE 4 r.node ++ bytesLE 4 r.ch ++ bytesLE 8 r.ipa.toNat ++ bytesLE 16 0

/-- SEQ after a record (R347). -/
def nextSeq (x : W32) : W32 := if x = 0xFFFFFFFF#32 then 1 else x + 1

/-- The device physical address of a host physical address (R322). -/
def hostPa (a : Nat) : Nat := 2 ^ 48 + a % 2 ^ 48

/-- FAULT_RECORD_POST (R348, R392): the oldest waiting record goes to the ring; one that finds no room waits and sets OVF. -/
def execFaultRecordPost (vf : Nat) (s : State) : Host.Outcome State Fault Refusal :=
  let v := s.vf vf
  let n := 2 ^ v.fqlog2 / 64
  let head := v.fqhead.toNat
  .next (match v.records with
  | [] => s
  | r :: rest =>
    if !v.fqen || (head + 1) % n = v.fqtail.toNat % n then s.setVf vf { v with ovf := true }
    else
      let s := s.physWrite v.key none (hostPa (v.fqbase.toNat + 64 * head)) (r.bytes v.seq)
      let s := s.updVf vf (fun v =>
        { v with records := rest, seq := nextSeq v.seq, fqhead := BitVec.ofNat 32 ((head + 1) % n),
                 parks := if r.cls = 1 || r.cls = 2 then v.parks + 1 else v.parks,
                 kills := if r.cls = 3 then v.kills + 1 else v.kills })
      s.raise none v.fqvec)

/-! ### Commands (R349, R350) -/

/-- CMDST of a command (R348). -/
def cmdDone : Nat := 0
def cmdNotParked : Nat := 1
def cmdNoSlot : Nat := 2
def cmdBad : Nat := 3

/-- A command's answer; BUSY clears with it. -/
def State.answerCmd (s : State) (vf st : Nat) : State := s.updVf vf (fun v => { v with cmdst := st, busy := false })

/-- The state with a VF's saved image in place of the contents of the on-chip stores, for a command (R349). -/
def State.viewImage (s : State) (img : SavedImage) : State :=
  let s' := { s with blocks := img.blocks, cohorts := img.cohorts,
                     cores := s.cores.mapVals (fun _ c => { c with chans := [], asp := [], wbf := [] }),
                     clusters := s.clusters.mapVals (fun _ c =>
                       { c with mat := [], vga := [], waves := [], waiting := [], downWait := none }) }
  let s' := img.vgas.foldl (fun s v => s.updCluster v.1 (fun c => { c with vga := c.vga ++ [v.2] })) s'
  let s' := img.waiting.foldl (fun s d => s.updCluster d.1 (fun c => { c with waiting := c.waiting ++ [d.2] })) s'
  let s' := img.downWait.foldl (fun s d => s.updCluster d.1 (fun c => { c with downWait := some d.2 })) s'
  let s' := img.copies.foldl (fun s c => s.setChan c.1 c.2.1 ((s.core c.1).chan c.2.1 ++ [c.2.2])) s'
  img.blocks.foldl (fun s b => s.updCore b.2.core (fun c =>
    { c with asp := (img.asp.get b.1 []).foldl (fun m x => bufPut m (b.2.aspBase + x.1) x.2) c.asp })) s'

/-- The state in which a command finds a VF's cohorts (R349): as they stand while it runs, else as its saved image holds them. -/
def State.viewOf (s : State) (vf : Nat) : State :=
  if s.curVf = some vf || (s.vf vf).image.isNone then s else s.viewImage (s.imageOf vf)

/-- The bytes a store lists in a range, keyed from its start. -/
def cutCells (m : List Host.Cell) (base n : Nat) : List Host.Cell :=
  (m.filter (fun c => base ≤ c.1 && c.1 < base + n)).map (fun c => (c.1 - base, c.2))

/-- The copies that stand in the channels. -/
def State.allCopies (s : State) : List (Nat × Nat × Copy) :=
  s.cores.flatMap (fun c => c.2.chans.flatMap (fun q => q.2.map (fun k => (c.1, q.1, k))))

/-- A command made on a VF's cohorts: on the running VF as they stand, on another in its saved image, which is
written to the save area anew (R349). -/
def State.onVf (s : State) (vf : Nat) (f : State → State) : State :=
  if s.curVf = some vf then f s
  else
    match (s.vf vf).image with
    | none => f s
    | some _ =>
      let img := s.imageOf vf
      let t := f (s.viewImage img)
      let img' := { img with blocks := t.blocks, cohorts := t.cohorts, copies := t.allCopies,
                             vgas := t.clusters.flatMap (fun c => c.2.vga.map (fun v => (c.1, v))),
                             waiting := t.clusters.flatMap (fun c => c.2.waiting.map (fun d => (c.1, d))),
                             downWait := t.clusters.filterMap (fun c => c.2.downWait.map (fun d => (c.1, d.1, d.2))),
                             asp := t.blocks.mapVals (fun _ b => cutCells (t.core b.core).asp b.aspBase b.aspBound) }
      let t := { t with blocks := s.blocks, cohorts := s.cohorts, cores := s.cores, clusters := s.clusters }
      (t.updVf vf (fun v => { v with image := some img' })).writeImage vf img'

/-- The cohort of a VF in a slot. -/
def State.slotOf (s : State) (vf slot : Nat) : Option (Cohort × Block) :=
  match s.cohort slot with
  | none => none
  | some co =>
    match s.block co.blk with
    | none => none
    | some b => if b.vf = vf then some (co, b) else none

/-- VGLIMIT that the Aster engine has reported, raised before the cohort's next issue (R299): in the handler, or by a park at
the boundary. A cohort that waited at a REGROUP no longer does. -/
def State.raiseVglimit (s : State) (slot : Nat) (co : Cohort) (x : W64) (g : Mask) : State :=
  let s := s.updBlock co.blk (·.leaveColl co.cohid)
  if ((s.block co.blk).bind s.handlerOf).isSome && !co.hmode then
    s.takeTrap slot g (co.lane (lowest g)).pc { code := cVglimit, mask := g, xaddr := x.setWidth 32, addr := x }
  else s.parkBoundary slot { code := cVglimit, cls := 1, nest := co.hmode, addr := x } true

/-- The faults of asynchronous operations that fell while a cohort was parked, served in the order in which they occurred, up
to the first that parks it again (R346). VGLIMIT takes the trap where there is a handler; with no PC-group that could issue it
waits for one. -/
def State.serveLater (slot : Nat) : List FaultInfo → State → State
  | [], s => s
  | r :: rest, s =>
    match s.cohort slot with
    | none => s
    | some co =>
      let s := match r.code == cVglimit && !r.copy, co.nextGroup with
        | true, some (_, g) => s.raiseVglimit slot co r.addr g
        | true, none =>
          if co.live = 0 then s.parkBoundary slot r true
          else s.setCohort slot { co with vglimit := co.vglimit ++ [r.addr.toNat] }
        | false, _ => s.parkBoundary slot r false
      if ((s.cohort slot).bind (·.park)).isSome then s.updCohort slot (fun co => { co with later := rest })
      else serveLater slot rest s

/-- A VGLIMIT that has still to be raised, as a fault that waits. -/
def vglimitLater (x : Nat) : FaultInfo := { code := cVglimit, cls := 1, addr := BitVec.ofNat 64 x }

/-- A cohort's park is settled; faults that fell before it or meanwhile are served (R346). -/
def State.unpark (s : State) (slot : Nat) : State :=
  match s.cohort slot with
  | none => s
  | some co =>
    State.serveLater slot (co.vglimit.map vglimitLater ++ co.later)
      (s.setCohort slot { co with park := none, later := [], vglimit := [] })

/-- The stopped copy of a cohort in a channel. -/
def State.stoppedCopy (s : State) (slot ch : Nat) : Option Copy :=
  ((s.core (coreOf slot)).chan ch).find? (fun c => c.stopped && c.slot == slot)

/-- A stopped copy runs again from its stop byte (R272). -/
def State.resumeCopy (s : State) (slot ch : Nat) : State :=
  match s.stoppedCopy slot ch with
  | none => s
  | some c => s.setChan (coreOf slot) ch (((s.core (coreOf slot)).chan ch).map (fun k =>
      if k.id = c.id then { k with stopped := false, lost := none } else k))

/-- A stopped copy completes without its remaining bytes (R272). -/
def State.skipCopy (s : State) (slot ch : Nat) : State :=
  match s.stoppedCopy slot ch with
  | none => s
  | some c =>
    let core := coreOf slot
    let l := ((s.core core).chan ch).filter (fun k => k.id != c.id)
    let s := s.setChan core ch (c :: l)
    let s := if c.snd && !c.srcDone then s.barDecrement c.blk c.sobj false else s
    s.copyEnd core ch c

/-- The size of the instruction at an offset as LEN gives it; 4 when its word cannot be fetched (R349). Whether it can is found by a
fetch when the command runs, whatever the park was for (DESIGN CHOICE, log 112). -/
def State.skipSize (s : State) (core : Nat) (b : Block) (pc : W32) : Nat :=
  match s.kernelOf b with
  | none => 4
  | some k =>
    if k.csize < pc.toNat + 4 then 4
    else
      match s.codeBytes (s.coreTlbs core) b.vf (k.code + pc.setWidth 64) (piecesOf (k.code + pc.setWidth 64).toNat 4) with
      | .error _ => 4
      | .ok w => sizeOfLen (lenField (leW 32 w))

/-- The lanes of a park's PC-group pass the instruction that faulted (R349). -/
def State.skipInstr (s : State) (slot : Nat) (b : Block) (pc : W32) : State :=
  let n := BitVec.ofNat 32 (s.skipSize (coreOf slot) b pc)
  s.updCohort slot (fun co =>
    co.mapLanes (co.runnable &&& maskOf (fun l => (co.lane l).pc == pc)) (fun _ l => { l with pc := pc + n }))

/-- RETRY (R272, R349). It unparks at once also where the record of the park still waits for room in the ring, which it goes on doing;
so does a SKIP (DESIGN CHOICE, log 129). -/
def State.retryCmd (s : State) (vf slot : Nat) : State × Nat :=
  match s.slotOf vf slot with
  | none => (s, cmdNoSlot)
  | some (co, _) =>
    match co.park with
    | none => (s, cmdNotParked)
    | some r => ((if r.copy then s.resumeCopy slot r.ch else s).unpark slot, cmdDone)

/-- SKIP (R272, R349). -/
def State.skipCmd (s : State) (vf slot : Nat) : State × Nat :=
  match s.slotOf vf slot with
  | none => (s, cmdNoSlot)
  | some (co, b) =>
    match co.park with
    | none => (s, cmdNotParked)
    | some r =>
      let s := if r.copy then s.skipCopy slot r.ch else if r.txab || r.boundary then s else s.skipInstr slot b r.pc
      (s.unpark slot, cmdDone)

/-- The record of a driver's kill (R350). -/
def State.killRecord (s : State) (vf slot : Nat) (b : Block) : State :=
  let (q, t) := match s.launch b.launch with
    | some l => (l.queue, l.tag)
    | none => (0, 0)
  s.postKill vf (dieOf b.core) { code := codeKilled, cls := 3, slot := BitVec.ofNat 32 slot, node := b.node, queue := q, tag := t }

/-- KILLBLK (R349, R350). -/
def State.killblkCmd (s : State) (vf slot : Nat) : State × Nat :=
  match s.slotOf vf slot with
  | none => (s, cmdNoSlot)
  | some (co, b) => ((s.killRecord vf slot b).killBlock co.blk codeKilled, cmdDone)

/-- The guards of a launch's surrogate blocks that are killed while they are swapped out fail (R77, R350). -/
def State.failGuards (s : State) (vf lid : Nat) : State :=
  let n := ((s.vf vf).swapped.filter (fun r => r.block.launch == lid && r.block.surrogate)).length
  (s.updLaunch lid (fun l => { l with gfail := l.gfail + n })).updVf vf (fun v => { v with gfail := v.gfail + BitVec.ofNat 64 n })

/-- KILLLAUNCH (R349, R350): every block of the launch, swapped-out ones too; no exact kernel follows. -/
def State.killlaunchCmd (s : State) (vf slot : Nat) : State × Nat :=
  match s.slotOf vf slot with
  | none => (s, cmdNoSlot)
  | some (_, b) =>
    let s := (s.killRecord vf slot b).stopLaunch b.launch stKilled 0 b.node
    let s := (s.blocks.filter (fun p => p.2.launch == b.launch)).foldl (fun s p => s.killBlock p.1 codeKilled) s
    let s := (s.syncPool vf).failGuards vf b.launch
    ((s.updVf vf (fun v => { v with swapped := v.swapped.filter (fun r => r.block.launch != b.launch) })).writePool vf, cmdDone)

/-- OP of the commands on cohorts (R348). -/
def opRetry : Nat := 1
def opSkip : Nat := 2
def opKillblk : Nat := 3
def opKilllaunch : Nat := 4
/-- OP of the invalidations. -/
def opInval : Nat := 5
def opInvall : Nat := 6

/-- Whether a command is for a block on a die that has no clocks: the block of its slot, or any block of that block's launch. Such a
die keeps all its state (R385), so the command waits, with BUSY set (R348; log 118). -/
def State.commandWaits (s : State) (vf op slot : Nat) : Bool :=
  s.curVf == some vf &&
  match s.slotOf vf slot with
  | none => false
  | some (co, b) =>
    s.blocks.any (fun p => (p.1 == co.blk || (op == opKilllaunch && p.2.launch == b.launch)) && !s.clocked (dieOf p.2.core))

/-- Whether a command is refused: the VFs are in reset, or another command still runs (R348). -/
def State.commandBarred (s : State) (vf op slot : Nat) : Bool :=
  !s.released || ((s.vf vf).busy && ((s.vf vf).op != op || (s.vf vf).cmdslot != slot))

/-- A command on a cohort, with its answer. While one waits, no other is taken (R348). -/
def State.command (s : State) (vf op slot : Nat) (f : State → State × Nat) : State :=
  if s.commandBarred vf op slot then s
  else if s.commandWaits vf op slot then s.updVf vf (fun x => { x with busy := true, op := op, cmdslot := slot })
  else s.onVf vf (fun s => let (s, st) := f s
                           s.answerCmd vf st)

def execRetry (vf slot : Nat) (s : State) : Host.Outcome State Fault Refusal :=
  .next (s.command vf opRetry slot (fun s => s.retryCmd vf slot))
def execSkip (vf slot : Nat) (s : State) : Host.Outcome State Fault Refusal :=
  .next (s.command vf opSkip slot (fun s => s.skipCmd vf slot))
def execKillblk (vf slot : Nat) (s : State) : Host.Outcome State Fault Refusal :=
  .next (s.command vf opKillblk slot (fun s => s.killblkCmd vf slot))
def execKilllaunch (vf slot : Nat) (s : State) : Host.Outcome State Fault Refusal :=
  .next (s.command vf opKilllaunch slot (fun s => s.killlaunchCmd vf slot))

/-! ### Translations (R354, R355) -/

/-- Every TLB filtered, but those of a die without clocks, which keeps all its state (R385). -/
def State.filterTlbs (s : State) (keep : TlbEntry → Bool) : State :=
  { s with cores := s.cores.mapVals (fun i c => if s.clocked (dieOf i) then { c with tlb := c.tlb.filter keep } else c),
           clusters := s.clusters.mapVals (fun i c => if s.clocked (clusterDie i) then { c with tlb := c.tlb.filter keep } else c),
           dies := s.dies.mapVals (fun i d => if s.clocked i then { d with tlb := d.tlb.filter keep } else d) }

/-- Whether every entry of every TLB is one of some. -/
def State.tlbsAll (s : State) (keep : TlbEntry → Bool) : Bool :=
  s.cores.all (fun c => c.2.tlb.all keep) && s.clusters.all (fun c => c.2.tlb.all keep) && s.dies.all (fun d => d.2.tlb.all keep)

/-- An invalidation (R355): it completes once no TLB of either die holds an entry that has to go, and has BUSY set until then (R348).
While another command runs it is ignored. -/
def State.invalidate (s : State) (vf op : Nat) (keep : TlbEntry → Bool) : State :=
  if !s.released || ((s.vf vf).busy && (s.vf vf).op != op) then s
  else
    let t := s.filterTlbs keep
    if t.tlbsAll keep then t.answerCmd vf cmdDone else t.updVf vf (fun v => { v with busy := true, op := op })

/-- The translations that an INVAL of a VF leaves: those of other VFs and those outside its range. -/
def State.outsideInval (s : State) (vf : Nat) (e : TlbEntry) : Bool :=
  e.vf != vf || !overlaps e.page e.size (s.vf vf).invaddr.toNat (s.vf vf).invsize.toNat

/-- INVAL (R355): no TLB holds an entry of the range any more. -/
def execInval (vf : Nat) (s : State) : Host.Outcome State Fault Refusal := .next (s.invalidate vf opInval (s.outsideInval vf))

/-- INVALL (R355). -/
def execInvall (vf : Nat) (s : State) : Host.Outcome State Fault Refusal := .next (s.invalidate vf opInvall (fun e => e.vf != vf))

/-- An entry joins a TLB of a capacity; which entry makes room is open (R354). -/
def tlbAdd (cap choice : Nat) (e : TlbEntry) (l : List TlbEntry) : List TlbEntry :=
  if l.contains e then l else if l.length < cap then e :: l else e :: l.eraseIdx (choice % cap)

/-- PAGE_WALK (R351 to R354): a walk for the current VF fills the TLBs on its way; a walk that fails, or whose output R322, R337
or R339 rejects, leaves no entry. -/
def execPageWalk (core : Nat) (va : W64) (acc : Access) (s : State) : Host.Outcome State Fault Refusal :=
  .next (match s.curVf with
  | none => s
  | some vf =>
    if !s.clocked (dieOf core) || 2 ^ 52 ≤ va.toNat then s
    else
      match s.walkBoth vf va.toNat (accNeed acc) with
      | .error _ => s
      | .ok e =>
        if (s.physFault (e.phys + va.toNat % e.size)).isSome then s
        else
        let k := Config.freeChoice s.tick
        let s := s.updCore core (fun c => { c with tlb := tlbAdd 256 k e c.tlb })
        let s := s.updCluster (clusterOf core) (fun c => { c with tlb := tlbAdd 4096 k e c.tlb })
        s.updDie (dieOf core) (fun d => { d with tlb := tlbAdd 16384 k e d.tlb }))

end Sys2Proof.Machine
end

