-- ==== Sys2Proof/Machine/Errors.lean ====
section
/-! DEFINITION. What an uncorrectable error does to the work it touches (spec/18_reliability_telemetry.md R388, R389, R391;
R75). -/

namespace Sys2Proof.Machine

/-! ### Counters (R391) -/

/-- The frame of a line. -/
def frameOf (line : Nat) : Nat := line / 64

/-- A correctable error counted; the one that reaches CETHR in a frame makes a RETIRE event (R391, R394). -/
def State.noteCe (s : State) (die cls frame : Nat) : State :=
  let s := s.updDie die (fun d => { d with ce := d.ce.put cls (satInc (d.ce.get cls 0)) })
  if cls != 0 then s
  else
    let d := s.die die
    let n := d.frames.get frame 0 + 1
    if n < d.cethr then s.setDie die { d with frames := d.frames.put frame n }
    else (s.setDie die { d with frames := d.frames.del frame }).logEvent
      { plainEntry logRetire die 0 with cls := 0, addr := BitVec.ofNat 64 (frame * 4096) }

/-! ### Uncorrectable errors (R75, R388, R389) -/

/-- A block is killed with ECC: one record of class K, and KILLS of its die. -/
def State.eccKill (s : State) (bi : Nat) (slot : W32) : State :=
  match s.block bi with
  | none => s
  | some b =>
    if b.killed || b.ended then s
    else
      let (q, t) := match s.launch b.launch with
        | some l => (l.queue, l.tag)
        | none => (0, 0)
      let s := s.postKill b.vf (dieOf b.core) { code := codeEcc, cls := 3, slot := slot, node := b.node, queue := q, tag := t }
      (s.updDie (dieOf b.core) (fun d => { d with kills := satInc d.kills })).killBlock bi codeEcc

/-- The first slot a block still holds. -/
def Block.firstSlot (b : Block) : W32 :=
  match b.slots.findSome? id with
  | some x => BitVec.ofNat 32 x
  | none => 0xFFFFFFFF#32

/-- A store of a block meets an uncorrectable error, at a cohort slot of it. -/
def State.blockErrorAt (s : State) (bi cls : Nat) (slot : W32) (addr : W64) : State :=
  match s.block bi with
  | none => s
  | some b => (s.noteUe (dieOf b.core) cls b.vf slot addr).eccKill bi slot

/-- The same where the store is the block's, not a cohort's: the record names the first slot that the block still holds. -/
def State.blockError (s : State) (bi cls : Nat) (addr : W64) : State :=
  s.blockErrorAt bi cls (((s.block bi).map (·.firstSlot)).getD 0) addr

/-- An error in a word that no allocation of a core holds kills nothing (R388). -/
def State.freeError (s : State) (core cls : Nat) (addr : W64) : State := s.noteUe (dieOf core) cls 0xFF 0xFFFFFFFF#32 addr

/-- A word of a register file: its cohort's block is killed, if a cohort holds the word. -/
def State.fileError (s : State) (core cls off : Nat) (slot : Option Nat) : State :=
  match slot.bind (fun x => (s.cohort x).map (fun co => (x, co.blk))) with
  | some (x, bi) => s.blockErrorAt bi cls (BitVec.ofNat 32 x) (BitVec.ofNat 64 off)
  | none => s.freeError core cls (BitVec.ofNat 64 off)

/-- An element of a core's accumulator store: the block that holds its tile is killed, if there is one on the core. -/
def State.tileError (s : State) (core off : Nat) (blk : Option Nat) : State :=
  match blk.filter (fun bi => (s.block bi).any (fun b => b.core == core && 0 < b.k)) with
  | some bi => s.blockError bi 6 (BitVec.ofNat 64 off)
  | none => s.freeError core 6 (BitVec.ofNat 64 off)

/-- A word of a core's ASP or WBF: the block whose allocation holds it is killed; a word that no allocation holds kills
nothing, and the scrub corrects or zeroes it. -/
def State.bufError (s : State) (core cls off : Nat) (range : Block → Nat × Nat) (zero : Core → Core) : State :=
  match s.blocks.find? (fun p => p.2.core == core && (range p.2).1 ≤ off && off < (range p.2).1 + (range p.2).2) with
  | some p => s.blockError p.1 cls (BitVec.ofNat 64 off)
  | none =>
    let s := s.freeError core cls (BitVec.ofNat 64 off)
    if Config.freeChoice s.tick % 2 = 0 then s else s.updCore core zero

/-- A read of an HBM line by a cohort's block; by a slot that no cohort holds, the error is the line's alone. -/
def State.readError (s : State) (cls slot line : Nat) : State :=
  match s.cohort slot with
  | none => s.noteUe (lineDie line) cls 0xFF 0xFFFFFFFF#32 (BitVec.ofNat 64 (64 * line))
  | some co =>
    let x := BitVec.ofNat 32 slot
    (s.noteUe (lineDie line) cls (s.vfOf slot) x (BitVec.ofNat 64 (64 * line))).eccKill co.blk x

/-- A line is marked poisoned (R388, R390). -/
def State.markPoison (s : State) (line : Nat) : State :=
  s.updDie (lineDie line) (fun d => if d.poisoned.contains line then d else { d with poisoned := line :: d.poisoned })

/-- Reads that have met a poisoned line, which have counted, kill their blocks before anything else of the core, once each
(R388). -/
def State.settleErrors (s : State) (core : Nat) : State :=
  (s.coreBlocks core).foldl (fun s p =>
    match p.2.ecc with
    | some (slot, _) => (s.updBlock p.1 (fun b => { b with ecc := none })).eccKill p.1 (BitVec.ofNat 32 slot)
    | none => s) s

/-- The same for every core, when a slice has ended (R389). -/
def State.settleAllErrors (s : State) : State := (List.range 64).foldl (fun s c => s.settleErrors c) s

end Sys2Proof.Machine
end

