-- ==== Sys2Proof/Machine/Slices.lean ====
section
/-! DEFINITION. Time slices, the save and the restore of a VF, VRST (spec/15_faults_context.md R356 to R363; R193, R194,
R389). -/

namespace Sys2Proof.Machine

/-! ### Which VF runs (R356) -/

/-- Whether a VF takes part in slicing. -/
def Vf.takesPart (v : Vf) : Bool := v.quantum != 0 && saveMin ≤ v.savesz.toNat && v.state != .failed

/-- Whether a queue holds work: its pending bit, or a packet that has not completed. A stopped queue holds its unread packets
too. -/
def Queue.busy (q : Queue) : Bool := q.pending || !q.flight.isEmpty || q.qrd != q.qwr

/-- Whether a VF has work. -/
def State.hasWork (s : State) (v : Nat) : Bool :=
  let x := s.vf v
  x.queues.any (fun q => q.2.busy) || s.blocks.any (fun b => b.2.vf == v) || s.launches.any (fun l => l.2.vf == v) ||
  !x.swapped.isEmpty || (match x.image with
    | some i => !i.blocks.isEmpty
    | none => false)

def State.qualifies (s : State) (v : Nat) : Bool := (s.vf v).takesPart && s.hasWork v

/-- The next VF, in ascending number from the one after `a`, wrapping. -/
def State.nextVf (s : State) (a : Nat) : Option Nat := ((List.range 64).map (fun i => (a + 1 + i) % 64)).find? s.qualifies

/-! ### The end of a slice (R193, R194, R356, R357) -/

/-- A cohort at a stop: nothing of a wait is kept (R194). -/
def Cohort.stopped (co : Cohort) : Cohort :=
  { co with waits := [], idle := 0, aged := none, lanes := co.lanes.map (fun l => { l with waitj := none }) }

/-- The cohorts of some blocks stop: open explicit transactions abort with SLICE, waits and arrivals go (R81, R194). -/
def State.stopBlocks (s : State) (p : Nat → Bool) : State :=
  let s := (s.cohorts.filter (fun c => p c.2.blk)).foldl (fun s c => s.abortTx c.1 txSlice) s
  { s with cohorts := s.cohorts.mapVals (fun _ c => if p c.blk then c.stopped else c),
           blocks := s.blocks.mapVals (fun i b => if p i then { b with coll := none } else b) }

/-- SLICE_END (R356): after the quantum, or when the VF has no work; a VF that still has work while no other qualifies begins
its slice anew. The cohorts of a die without clocks come to no boundary at which they could stop, so it waits for them (R357,
R385). -/
def execSliceEnd (s : State) : Host.Outcome State Fault Refusal :=
  .next (match s.curVf with
  | none => s
  | some a =>
    let v := s.vf a
    let work := s.hasWork a
    if s.stopping || !(s.clocked 0 && s.clocked 1) || (s.sliceCnt < v.quantum.toNat * 1024 && work) then s
    else if work && s.nextVf a == some a then { s with sliceCnt := 0 }
    else { s with stopping := true }.stopBlocks (fun _ => true))

/-! ### Save and restore (R357, R358, R360 to R363) -/

/-- The drain of a save: INBOX copies, copies but those that have stopped and those behind them, matrix operations and
reductions (R357). -/
def State.drained (s : State) : Bool :=
  s.blocks.all (fun b => b.2.inboxDone || b.2.killed || b.2.ended) &&
  s.cores.all (fun c => c.2.chans.all (fun q => (q.2.head?.map (·.stopped)).getD true)) &&
  s.clusters.all (fun c => c.2.mat.isEmpty) && s.reds.isEmpty

/-- What is still posted by killed blocks goes with them: Aster queues are not drained, nor are copies that stand behind another
block's stopped copy, and the save records nothing of a killed block (R99, R300, R357, R389; log 88). -/
def State.dropPosted (s : State) : State :=
  let dead (bi : Nat) : Bool := ((s.block bi).map (·.killed)).getD false
  { s with clusters := s.clusters.mapVals (fun _ c => { c with vga := c.vga.filter (fun v => !dead v.blk) }),
           cores := s.cores.mapVals (fun _ c => { c with chans := c.chans.mapVals (fun _ q => q.filter (fun k => !dead k.blk)) }),
           cohorts := s.cohorts.mapVals (fun _ co => if dead co.blk then { co with ocVga := [], ocCopy := [] } else co) }

/-- Killed blocks that have drained end before a save, which records no state for them (R350, R389). -/
def State.flushKilled (s : State) : State :=
  let s := s.dropPosted
  (s.cohorts.filter (fun c => ((s.block c.2.blk).map (fun b => b.killed || b.ending)).getD false)).foldl
    (fun s c => s.releaseSlot c.1) s

/-- The largest of some numbers. -/
def largest (l : List Nat) : Nat := l.foldl max 0

/-- The header's capacity fields: the largest amounts the contents use (R360). The blocks stay on their cores, so the cores needed
are those up to the highest core that holds something (log 93). -/
def State.imageHeader (s : State) : ImageHeader :=
  let cores := s.blocks.map (fun b => b.2.core)
  let per (f : Nat → Nat) : Nat := largest (cores.map f)
  let sum (l : List Nat) : Nat := l.foldl (· + ·) 0
  { magic := 0x56534852#32, version := 1, ncore := largest (cores.map (· + 1)),
    nslot := per (fun c => (s.coreCohorts c).length), gfile := per (fun c => 32 * s.slicesUsed c),
    nfile := per (fun c => 8 * s.narrowUsed c), aspb := per (fun c => sum ((s.coreBlocks c).map (fun b => b.2.aspSize))),
    wbfb := per (fun c => sum ((s.coreBlocks c).map (fun b => b.2.wbfSize))), ntile := per s.tilesUsed,
    nqueue := largest (s.clusters.map (fun c => c.2.vga.length)) }

/-- The blocks that an image records: all but the killed ones that have ended, which stand only while a sibling's stopped copy aims
at them (R389; log 88). -/
def State.imageBlocks (s : State) : SMap Block := s.blocks.filter (fun b => !(b.2.killed && b.2.ended))

/-- A block as an image holds it: no boost claim (R358), and nothing of a swap-out that had still to drain (log 51). -/
def Block.atRest (b : Block) : Block := { b with boost := 0, leaving := false }

/-- The image of what the on-chip stores hold (R362, R363). -/
def State.image (s : State) : SavedImage :=
  let kept := s.imageBlocks
  { header := { s with blocks := kept }.imageHeader, blocks := kept.mapVals (fun _ b => b.atRest), cohorts := s.cohorts,
    asp := kept.mapVals (fun _ b => cutCells (s.core b.core).asp b.aspBase b.aspBound),
    wbf := kept.mapVals (fun _ b => cutCells (s.core b.core).wbf b.wbfBase b.wbfSize),
    copies := s.allCopies,
    vgas := s.clusters.flatMap (fun c => c.2.vga.map (fun v => (c.1, v))),
    waiting := s.clusters.flatMap (fun c => c.2.waiting.map (fun d => (c.1, d))),
    downWait := s.clusters.filterMap (fun c => c.2.downWait.map (fun d => (c.1, d.1, d.2))) }

/-- Every on-chip store of the blocks zeroed (R357). -/
def State.clearChip (s : State) : State :=
  { s with blocks := [], cohorts := [], reds := [],
           cores := s.cores.mapVals (fun _ c => { c with asp := [], wbf := [], chans := [] }),
           clusters := s.clusters.mapVals (fun _ c =>
             { c with mat := [], vga := [], waves := [], waiting := [], downWait := none }) }

/-- Bytes of an image put back at a base. -/
def putCells (m : List Host.Cell) (base : Nat) (l : List Host.Cell) : List Host.Cell :=
  l.foldl (fun m c => bufPut m (base + c.1) c.2) m

/-- The on-chip stores written from an image. -/
def State.loadImage (s : State) (i : SavedImage) : State :=
  let s := { s with blocks := SMap.tidy (i.blocks.mapVals (fun _ b => b.atRest)), cohorts := SMap.tidy i.cohorts }
  let s := i.blocks.foldl (fun s b => s.updCore b.2.core (fun c =>
    { c with asp := putCells c.asp b.2.aspBase (i.asp.get b.1 []), wbf := putCells c.wbf b.2.wbfBase (i.wbf.get b.1 []) })) s
  let s := i.copies.foldl (fun s c => s.setChan c.1 c.2.1 ((s.core c.1).chan c.2.1 ++ [c.2.2])) s
  let s := i.vgas.foldl (fun s v => s.updCluster v.1 (fun c => { c with vga := c.vga ++ [v.2] })) s
  let s := i.waiting.foldl (fun s d => s.updCluster d.1 (fun c => { c with waiting := c.waiting ++ [d.2] })) s
  let s := i.downWait.foldl (fun s d => s.updCluster d.1 (fun c => { c with downWait := some d.2 })) s
  i.blocks.foldl (fun s b => s.updCluster (clusterOf b.2.core) (fun c =>
    { c with emptyInt := false, used := true, bias := if c.bias == .reverse then .none else c.bias })) s

/-! ### The save area (R357, R360, R364) -/

/-- A VF's cohorts and blocks saved, and every on-chip store zeroed (R357). -/
def State.saveVf (s : State) (a : Nat) : State :=
  let i := s.image
  (s.clearChip.updVf a (fun x => { x with state := .saved, image := some i })).writeImage a i

/-- Whether a block keeps within the limits of a block and within its own ranges (R14, R83, R131). -/
def Block.sound (b : Block) : Bool :=
  decide (b.nlanes ≤ 1024) && decide (b.n ≤ 1280) && decide (b.k ≤ 24) && decide (b.aspBound ≤ b.aspSize) && decide (b.wbfBound ≤ b.wbfSize)

/-- Whether an image names only cores, cohort slots, channels and clusters of the part, and keeps each block and cohort within the
stores and limits of R1, R14 and R131: more would need a larger part than the limits of R360 allow. -/
def SavedImage.fitsPart (i : SavedImage) : Bool :=
  i.blocks.all (fun b => decide (b.2.core < 64) && b.2.slots.all (fun x => x.all (fun k => decide (k < 4096))) &&
    b.2.sound && decide (b.2.aspBase + b.2.aspSize ≤ 4096 * 1024) && decide (b.2.wbfBase + b.2.wbfSize ≤ 2048 * 1024)) &&
  i.cohorts.all (fun c => decide (c.1 < 4096) && decide (c.2.g ≤ 256) &&
    i.blocks.any (fun b => b.1 == c.2.blk && b.2.core == coreOf c.1)) &&
  i.copies.all (fun c => decide (c.1 < 64) && decide (c.2.1 < 8)) &&
  i.vgas.all (fun v => decide (v.1 < 16)) && i.waiting.all (fun d => decide (d.1 < 16)) && i.downWait.all (fun d => decide (d.1 < 16))

/-- What an image's contents need of a part, whatever its header says: the same amounts as in a header (R360). -/
def SavedImage.uses (i : SavedImage) : ImageHeader :=
  State.imageHeader { blocks := i.blocks, cohorts := SMap.tidy i.cohorts,
                      clusters := (List.range 16).map (fun c => (c, { vga := (i.vgas.filter (fun v => v.1 == c)).map (·.2) })) }

/-- The limits of the FJ8820-A0 (R360). -/
def ImageHeader.within (h : ImageHeader) : Bool :=
  h.ncore ≤ 64 && h.nslot ≤ 64 && h.gfile ≤ 2 ^ 20 && h.nfile ≤ 256 * 1024 && h.aspb ≤ 4096 * 1024 && h.wbfb ≤ 2048 * 1024 &&
  h.ntile ≤ 24 && h.nqueue ≤ 32

/-- The capacity check of a restore (R360, R361). An image with MAGIC 0 is the empty one, all zeros (R357), whose VERSION is not
judged (log 94). Contents that need more than the part has fail it as a header that says so does (log 117). -/
def SavedImage.restorable (i : SavedImage) : Bool :=
  let h := i.header
  h.within && (h.magic == 0 || (h.magic == 0x56534852#32 && h.version == 1)) && !i.badTag && i.fitsPart && i.uses.within

def codeRestorecap : Nat := 48

/-- A VF fails its restore (R361, R394). -/
def State.failVf (s : State) (v : Nat) : State :=
  let s := s.updVf v (fun x => { x with state := .failed })
  (s.postRecord v { code := codeRestorecap, cls := 4 }).logEvent { plainEntry logRestoreCap noDie codeRestorecap with vf := v }

/-- The next VF is chosen and restored; one that fails its check is passed over (R356, R357). -/
def State.startNext (s : State) (a : Nat) : Nat → State
  | 0 => { s with curVf := none, stopping := false, sliceCnt := 0 }
  | n + 1 =>
    match s.nextVf a with
    | none => { s with curVf := none, stopping := false, sliceCnt := 0 }
    | some b =>
      let i := s.imageOf b
      if i.restorable then
        let s := { s with curVf := some b, lastVf := b, stopping := false, sliceCnt := 0 }
        (s.loadImage i).updVf b (fun x => { x with state := .running, image := none })
      else (s.failVf b).startNext a n

/-- SLICE_SWITCH (R357): once the drain is over the outgoing VF is saved and the next one restored. With no VF current, the
first one that qualifies is taken. The stores of a die without clocks keep their state, so nothing is saved or restored meanwhile
(R385; log 118). -/
def execSliceSwitch (s : State) : Host.Outcome State Fault Refusal :=
  .next (if !(s.clocked 0 && s.clocked 1) then s
  else match s.curVf with
  | none => s.startNext s.lastVf 64
  | some a =>
    if !s.stopping then s
    else
      let s := s.settleAllErrors
      if s.drained then (s.flushKilled.saveVf a).startNext a 64 else s)

/-! ### VRST and QUANTUM (R326, R331, R356, R359, R363, R367, R374, R392) -/

/-- A VF after a VRST: queues as RST leaves them, the rotating start and the fault ring's indices at 0, a new key. -/
def Vf.vrst (v : Vf) (key : Nat) : Vf :=
  { v with queues := v.queues.mapVals (fun _ q => { q.reset with flight := [] }), start := 0, fqhead := 0, fqtail := 0,
           state := .idle, records := [], seq := 1, key := key, sliceClk := 0, tokPaid := 0, gpass := 0, gfail := 0,
           launches := 0, parks := 0, kills := 0, image := none, swapped := [] }

/-- VRST (R359): it ends the VF's slice, if that is current, and discards all that the VF has, on a die without clocks too (log
118). -/
def execVrst (vf : Nat) (s : State) : Host.Outcome State Fault Refusal :=
  .next (if !s.released then s
  else
    let s := if s.curVf = some vf then { s.clearChip with curVf := none, stopping := false, sliceCnt := 0 } else s
    let s := { s with launches := s.launches.filter (fun l => l.2.vf != vf), nextKey := s.nextKey + 1 }
    s.updVf vf (fun v => v.vrst (s.nextKey - 1)))

/-- QUANTUM_WRITE (R356, R367): ignored while the save area is too small, refused above 2^24. -/
def execQuantumWrite (vf : Nat) (value : W32) (s : State) : Host.Outcome State Fault Refusal :=
  .next (if !s.released then s
  else s.updVf vf (fun v =>
    if (value != 0 && v.savesz.toNat < saveMin) || 2 ^ 24 < value.toNat then v else { v with quantum := value }))

end Sys2Proof.Machine
end

