-- ==== Sys2Proof/Machine/Extension.lean ====
section
/-! DEFINITION. The meet extensions in device memory (spec/02_execution_model.md R23, R29; spec/14_host_interface.md R334;
spec/15_faults_context.md R364; R388). The spec gives an extension's place and size and not where in it an entry stands, so the
model keeps the entries with their lanes, makes the accesses, and leaves the bytes open (log 57). -/

namespace Sys2Proof.Machine

/-- The size of a cohort's extension (R29). -/
def extSize : Nat := 7168

/-- The entries of a lane that stand in the extension, newest first (R29). -/
def Lane.deep (x : Lane) : List W32 := x.meets.take (x.depth - 8)

/-- The address of a slot's extension (R334). -/
def Launch.extAddr (l : Launch) (slot : Nat) : W64 := l.ctx + BitVec.ofNat 64 (extSize * slot)

/-- The pieces of a slot's extension, for the launch of the block whose cohort holds the slot. -/
def State.extPieces (s : State) (l : Launch) (slot : Nat) (acc : Access) : Except (W64 × XlatErr) (List (Nat × Nat × Nat)) :=
  s.xlatRange [] l.vf (l.extAddr slot) acc (piecesOf (l.extAddr slot).toNat extSize)

/-- The first poisoned line of some pieces. -/
def State.poisonIn (s : State) (ps : List (Nat × Nat × Nat)) : Option Nat :=
  (ps.flatMap (fun p => (List.range (p.2.2 / 64 + 2)).map (fun i => (p.1 + min (64 * i) (p.2.2 - 1)) / 64))).find? (fun l =>
    s.poisoned (64 * l))

/-- One access to a slot's extension. A page that fails translation stops the launch (R334); what is written there is open; a
poisoned line that is read kills the block (R388). -/
def State.extTouch (s : State) (slot : Nat) (acc : Access) : State :=
  match s.cohort slot with
  | none => s
  | some co =>
    match s.block co.blk with
    | none => s
    | some b =>
      match s.launch b.launch with
      | none => s
      | some l =>
        match s.extPieces l slot acc with
        | .error (va, e) => s.engineFault b.launch b.node va e acc
        | .ok ps =>
          if acc = .write then ps.foldl (fun s p => s.scramble p.1 p.2.2) s
          else
            match s.poisonIn ps with
            | some line => s.meetPoison co.blk slot line
            | none => s

/-- The access to a slot's extension that a change of its cohort's entries makes: a write when entries have come, else a read. -/
def State.extAccess (s : State) (slot : Nat) (old : Cohort) : State :=
  match s.cohort slot with
  | none => s
  | some co =>
    if co.blk != old.blk || lanes32.all (fun i => (co.lane i).deep == (old.lane i).deep) then s
    else
      s.extTouch slot (if lanes32.any (fun i => decide ((old.lane i).deep.length < (co.lane i).deep.length)) then .write
        else .read)

/-- The accesses for several cohorts, which stood as given before. -/
def State.extAccesses (s : State) (old : List (Nat × Cohort)) : State := old.foldl (fun s p => s.extAccess p.1 p.2) s

/-- A word of an extension that something other than the part's own accesses has written: by the step counter, the lane and the
entry. -/
def freeEntry (tick l n : Nat) : W32 := BitVec.ofNat 32 (leNat ((List.range 4).map (fun i => Config.freeByte tick (224 * l + 4 * n + i))))

/-- A cohort whose extension another agent has written to: its entries are what now stands there. -/
def Cohort.reloaded (co : Cohort) (tick : Nat) : Cohort :=
  { co with lanes := co.lanes.mapIdx (fun l x =>
      { x with meets := (List.range x.deep.length).map (freeEntry tick l) ++ x.meets.drop x.deep.length }) }

/-- Before a cohort in serial mode goes on: bytes listed in its extension are another agent's, for the part's own are left
open. -/
def State.extReload (s : State) (slot : Nat) : State :=
  match s.cohort slot with
  | none => s
  | some co =>
    if !co.serial then s
    else
      match ((s.block co.blk).bind (fun b => s.launch b.launch)).map (fun l => s.extPieces l slot .read) with
      | some (.ok ps) =>
        if s.mem.any (fun c => ps.any (fun p => decide (p.1 ≤ c.1 ∧ c.1 < p.1 + p.2.2))) then
          ps.foldl (fun s p => s.scramble p.1 p.2.2) (s.setCohort slot (co.reloaded s.tick))
        else s
      | _ => s

end Sys2Proof.Machine
end

