-- ==== Sys2Proof/Machine/Swap.lean ====
section
/-! DEFINITION. SWAP mode (spec/02_execution_model.md R48; spec/15_faults_context.md R362 to R364). -/

namespace Sys2Proof.Machine

/-! ### The size of a block record (R362 to R364) -/

/-- The bytes of a cohort record (R363); a record of the swap pool carries the meet extension of a deep cohort (R364). -/
def Cohort.recordBytes (co : Cohort) (n : Nat) : Nat :=
  let names := co.g + n
  let extra := co.vregs.foldl (fun acc p =>
    if p.1 < co.g || (256 ≤ p.1 && p.1 < 256 + n) then
      acc + (match p.2 with
        | .u _ => 0
        | .a _ _ => 4
        | .g _ => 124)
    else acc) 0
  roundUp (2624 + 64 * cdiv names 256 + 4 * names + extra) 64 + (if co.serial then 7168 else 0)

/-- The bytes of a block record with its cohorts (R362), the record that stands for a cohort which has released its slot among them
(log 26). -/
def State.recordBytes (s : State) (bi : Nat) (b : Block) : Nat :=
  256 + (if b.table.isSome then 2048 else 0) + roundUp (80 * b.bufLines) 64 + roundUp b.aspBound 64 + roundUp b.wbfSize 64 +
  65536 * b.k + releasedRecord * (b.slots.filter (·.isNone)).length +
  (s.blockCohorts bi).foldl (fun acc p => acc + p.2.recordBytes b.n) 0

/-! ### Units (R48) -/

/-- The blocks that leave and return as one: a gang, or the block alone. -/
def State.unitOf (s : State) (bi : Nat) (b : Block) : List (Nat × Block) :=
  if b.gang.isSome && !b.alone then s.blocks.filter (fun p => p.2.gang == b.gang && !p.2.ended) else [(bi, b)]

/-- The state without some blocks, their copies and their queue records. -/
def State.without (s : State) (u : List (Nat × Block)) : State :=
  let mine (bi : Nat) : Bool := u.any (fun q => q.1 == bi)
  { s with blocks := s.blocks.filter (fun p => !mine p.1),
           cohorts := s.cohorts.filter (fun p => !mine p.2.blk),
           cores := s.cores.mapVals (fun _ c => { c with chans := c.chans.mapVals (fun _ q => q.filter (fun k => !mine k.blk)) }),
           clusters := s.clusters.mapVals (fun _ c => { c with vga := c.vga.filter (fun v => !mine v.blk) }) }

/-- What a swapped-out block needs of a core: the cohorts that still hold their slots, and what it has been granted. -/
def SwapRec.needs (r : SwapRec) : Needs :=
  { ncoh := r.cohorts.length,
    slices := r.cohorts.foldl (fun acc c => acc + c.2.g * ((List.range 4).filter (fun i => c.2.slices.getLsbD i)).length) 0,
    narrow := r.block.n * r.cohorts.length, tiles := r.block.k, asp := r.block.aspSize, wbf := r.block.wbfSize }

/-! ### Returning (R48, R364) -/

/-- The slots of the cohorts that return: cohort `k` on quarter (q0 + k) mod 4 (R17). -/
def State.pickSlotsFor (s : State) (core : Nat) (cohids : List Nat) : Option (List (Nat × Nat)) :=
  let q0 := firstQuarter (fun q => (s.freeSlots core q).length)
  cohids.foldl (fun acc k => acc.bind (fun l =>
    ((s.freeSlots core ((q0 + k) % 4)).find? (fun x => !l.any (fun p => p.2 == x))).map (fun x => l ++ [(k, x)]))) (some [])

/-- Whether a record is one of a block that some core could hold: a record that software has overwritten may be none, and no core
admits it (log 117). -/
def SwapRec.sound (r : SwapRec) : Bool :=
  r.block.sound && r.cohorts.all (fun c => decide (c.1 < r.block.slots.length) && decide (c.2.g ≤ 256)) && r.copies.all (fun c => decide (c.1 < 8))

/-- A block returns to a core (R48): the core has what the block holds, and a free slot on the quarter of each of its cohorts, which
they take with their meet extensions (R17, R364), and its copies and queue records come with it. Its unfinished VGAs stand behind
those already posted on its new cluster (DESIGN CHOICE, log 108). -/
def State.enter (s : State) (core : Nat) (r : SwapRec) : Option State :=
  match s.rooms core r.needs, s.pickSlotsFor core (r.cohorts.map (·.1)) with
  | some (asp, wbf), some slots =>
    let cl := clusterOf core
    if !r.sound || 32 < (s.cluster cl).vga.length + r.vgas.length then none
    else
      let at_ (k : Nat) : Nat := ((slots.find? (fun p => p.1 == k)).map (·.2)).getD 0
      let b := { r.block with core := core, aspBase := asp, wbfBase := wbf, since := s.frontClk,
                              slots := (List.range r.block.slots.length).map (fun k => (slots.find? (fun p => p.1 == k)).map (·.2)) }
      let s := s.setBlock r.blk b
      let s := r.cohorts.foldl (fun s c => (s.setCohort (at_ c.1) c.2).extAccess (at_ c.1)
        { c.2 with lanes := c.2.lanes.map (fun x => { x with meets := [] }) }) s
      let s := s.updCore core (fun c => { c with asp := putCells c.asp asp r.asp, wbf := putCells c.wbf wbf r.wbf })
      let s := r.copies.foldl (fun s c => s.setChan core c.1 ((s.core core).chan c.1 ++ [{ c.2 with slot := at_ c.2.slot }])) s
      let s := s.updCluster cl (fun c => { c with vga := c.vga ++ r.vgas.map (fun v => { v with slot := at_ v.slot }), emptyInt := false, used := true })
      some (s.updVf r.block.vf (fun v => { v with swapped := v.swapped.filter (fun x => x.blk != r.blk) }))
  | _, _ => none

/-- A unit returns whole, or not at all: a gang's members to cores 0 to 3 of the cluster. -/
def State.enterAll (s : State) (core : Nat) : List SwapRec → Option State
  | [] => some s
  | r :: rest =>
    let c := match r.block.member with
      | some m => if r.block.alone then core else core / 4 * 4 + m
      | none => core
    match s.enter c r with
    | none => none
    | some s => s.enterAll core rest

/-- The units that are swapped out of a VF, oldest first: records that left as one. -/
def swapUnits (l : List SwapRec) : List (List SwapRec) :=
  (sortBy (fun r => r.order) l).foldl (fun acc r =>
    match acc.getLast? with
    | some u => if (u.map (·.order)).contains r.order then acc.dropLast ++ [u ++ [r]] else acc ++ [[r]]
    | none => [[r]]) []

/-- A unit returns to a core that admits it, once that is under no reverse bias (R382). A relaunched gang member keeps to the cores
of its member number (R75). -/
def State.returnTo (s : State) (core : Nat) (u : List SwapRec) : Option State :=
  match u with
  | [] => none
  | r :: _ =>
    if r.block.alone && core % 4 != r.block.member.getD 0 then none
    else if (s.cluster (clusterOf core)).bias == .reverse then none
    else s.enterAll core u

/-- What waits for admission in a launch, with when it began to wait and the state in which it has been admitted to one of some
cores; what must go on waiting is left out: of the units that are swapped out, all but the one that has waited longest (R48). -/
def State.admissible (s : State) (lid : Nat) (l : Launch) (cores : List Nat) : List (Nat × State) :=
  let heads := s.clusters.filterMap (fun c =>
    match c.2.waiting with
    | d :: rest => if d.launch == lid && s.clocked (clusterDie c.1) then (s.placeHead c.1 d rest l).map (fun t => (d.order, t)) else none
    | [] => none)
  let search := (s.findSearch l [] l.search).bind (fun x => (s.placeSearch lid l).map (fun t => (x.1.order, t)))
  let units := ((swapUnits (s.vf l.vf).swapped).take 1).filterMap (fun u =>
    if u.all (fun r => r.block.launch == lid) then
      (cores.findSome? (fun c => s.returnTo c u)).map (fun t => ((u.head?.map (·.order)).getD 0, t))
    else none)
  sortBy (·.1) (heads ++ search.toList ++ units)

/-! ### Leaving (R48) -/

/-- Whether a block is eligible to leave: it has not ended, and no barrier object of it shows an inbound count (R48, R364). Its objects are
those that an instruction has named, a BAR.WAIT that still holds among them (log 51); an error that it has met is settled first
(R388). -/
def State.mayLeave (s : State) (b : Block) : Bool :=
  !b.killed && !b.ending && !b.ended && b.ecc.isNone && b.objs.all (fun o => (s.bar b o).inn == 0) &&
  (s.allWaits.all (fun x => x.2.2.kind != .barrier || x.2.2.need < objName b 0 || objName b 0 + b.aspBound ≤ x.2.2.need ||
    (s.bar b (x.2.2.need - objName b 0)).inn == 0))

/-- Whether a block's own operations are over, as at a time slice: its INBOX copy, its copies but those that have stopped and those
behind such a one, its matrix passes and its reductions (R48, R357, R364). -/
def State.ownDrained (s : State) (bi : Nat) (b : Block) : Bool :=
  b.inboxDone && (s.core b.core).chans.all (fun q => q.2.all (fun k => k.blk != bi) || (q.2.head?.map (·.stopped)).getD true) &&
  (s.blockCohorts bi).all (fun c => c.2.ocMat.isEmpty && c.2.ocRed.isEmpty)

/-- What could be admitted, were some blocks away, of what cannot be admitted now: the place that a waiting block of a launch finds on
a core that they leave (R48). -/
def State.madeRoom (s kept : State) (lid : Nat) (l : Launch) (u : List (Nat × Block)) : Option (Nat × State) :=
  let now := (kept.admissible lid l (List.range 64)).map (·.1)
  (s.admissible lid l (u.map (fun p => p.2.core))).find? (fun x => !now.contains x.1)

/-- Whether the records of a unit fit in the free part of its VF's swap pool (R364). -/
def State.poolHolds (s : State) (vf : Nat) (u : List (Nat × Block)) : Bool :=
  let used := (s.vf vf).swapped.foldl (fun acc r => acc + r.bytes) 0
  let more := u.foldl (fun acc p => acc + s.recordBytes p.1 p.2) 0
  saveMin + used + more ≤ (s.vf vf).saveSize

/-- Whether a unit is to be swapped out for a launch, if it is the one that has been resident longest: it has been resident for the
quantum, it is eligible, its records fit in the pool, and a waiting block would be admitted in its place. Whether its own operations
are over does not matter yet. The front-end clocks of a residency go on while a slice of another VF runs (log 96). -/
def State.swappable (s : State) (lid : Nat) (l : Launch) (u : List (Nat × Block)) : Bool :=
  u.all (fun p => p.2.launch == lid && p.2.since + 1024 * l.swapq ≤ s.frontClk && s.mayLeave p.2) && s.poolHolds l.vf u &&
  ((s.without u).madeRoom s lid l u).isSome

/-- The record of a block that leaves (R364); its boost claim ends (R305). -/
def State.swapRec (s : State) (bi : Nat) (b : Block) (order : Nat) : SwapRec :=
  let slots := (s.blockCohorts bi).map (·.1)
  { blk := bi, block := b.atRest, cohorts := (s.blockCohorts bi).map (fun c => (c.2.cohid, c.2)),
    asp := cutCells (s.core b.core).asp b.aspBase b.aspBound, wbf := cutCells (s.core b.core).wbf b.wbfBase b.wbfSize,
    copies := (s.allCopies.filter (fun c => c.2.2.blk == bi)).map (fun c => (c.2.1, { c.2.2 with slot := ((s.cohort c.2.2.slot).map (·.cohid)).getD 0 })),
    vgas := (s.cluster (clusterOf b.core)).vga.filterMap (fun v =>
      if slots.contains v.slot then some { v with slot := ((s.cohort v.slot).map (·.cohid)).getD 0 } else none),
    bytes := s.recordBytes bi b, order := order }

/-- A block leaves its core. -/
def State.leave (s : State) (order : Nat) (p : Nat × Block) : State :=
  let r := s.swapRec p.1 p.2 order
  let s := (s.blockCohorts p.1).foldl (fun s c => s.leaveWaves c.1) s
  (s.without [p]).updVf p.2.vf (fun v => { v with swapped := v.swapped ++ [r] })

/-- The meet extensions of the deep cohorts of some blocks are read, for their records (R364): a page that fails stops the launch
(R334), a poisoned line is met by the block (R388). -/
def State.readExts (s : State) (u : List (Nat × Block)) : State :=
  (u.flatMap (fun p => (s.blockCohorts p.1).filter (fun c => c.2.serial))).foldl (fun s c => s.extTouch c.1 .read) s

/-- Whether the unit of a block is the one to swap out (R48): the mode is set, and no block that has been resident longer is to be
swapped out before it. -/
def State.swapsOut (s : State) (b : Block) (l : Launch) (u : List (Nat × Block)) : Bool :=
  let older := s.blocks.any (fun p => p.2.launch == b.launch && p.2.since < b.since && s.swappable b.launch l (s.unitOf p.1 p.2))
  l.swap && s.engineRuns l && !older && s.swappable b.launch l u

/-- The blocks of a unit stopped, or let go on. -/
def State.setLeaving (s : State) (u : List (Nat × Block)) (x : Bool) : State :=
  u.foldl (fun s p => s.updBlock p.1 (fun b => { b with leaving := x })) s

/-- SWAP_OUT (R48, R364): the unit of the block that has been resident longest stops, as at a time slice; once its own operations are
over its records go to the swap pool, and the waiting block is admitted in its place. A unit that has stopped and is no longer the
one to swap out goes on (log 51). -/
def execSwapOut (blk : Nat) (s : State) : Host.Outcome State Fault Refusal :=
  .next (match s.block blk with
  | none => s
  | some b =>
    match s.launch b.launch with
    | none => s
    | some l =>
      let kept := s
      let s := s.syncPool b.vf
      let u := s.unitOf blk b
      if !s.swapsOut b l u then (if b.leaving then kept.setLeaving u false else kept)
      else if !u.all (fun p => s.ownDrained p.1 p.2) then
        (if b.leaving then kept else (kept.stopBlocks (fun i => u.any (fun p => p.1 == i))).setLeaving u true)
      else
        let t := s.readExts u
        if ((t.launch b.launch).bind (·.stop)).isSome || u.any (fun p => ((t.block p.1).bind (·.ecc)).isSome) then
          { t with vfs := kept.vfs.put b.vf { t.vf b.vf with swapped := (kept.vf b.vf).swapped } }
        else
        let (n, s1) := (t.stopBlocks (fun i => u.any (fun p => p.1 == i))).fresh
        let s1 := u.foldl (fun s p => match s.block p.1 with
          | some b => s.leave n (p.1, b)
          | none => s) s1
        match (s1.madeRoom s b.launch l u).filter (fun x => x.1 != n) with
        | none => kept
        | some x => x.2.writePool b.vf)

/-- Whether a block of a unit's launch that began to wait before the unit left can be admitted (R48). -/
def State.swapEarlier (s : State) (u : List SwapRec) : Bool :=
  let order := (u.head?.map (·.order)).getD 0
  let lid := (u.head?.map (fun r => r.block.launch)).getD 0
  match s.launch lid with
  | some l => (s.admissible lid l []).any (fun x => x.1 < order)
  | none => false

/-- SWAP_IN (R48, R364): the block that has waited longest returns to a core that admits it, unless a block of its launch that
began to wait before it can be admitted. -/
def execSwapIn (vf core : Nat) (s : State) : Host.Outcome State Fault Refusal :=
  .next (if s.curVf != some vf || s.stopping then s
  else
    let kept := s
    let s := s.syncPool vf
    match swapUnits (s.vf vf).swapped with
    | [] => kept
    | u :: _ =>
      if s.swapEarlier u then kept else ((s.returnTo core u).map (fun t => t.writePool vf)).getD kept)

/-! ### Bias (R382) -/

/-- A cluster whose reverse bias is removed. -/
def State.unbiased (s : State) (cl : Nat) : State := s.updCluster cl (fun c => { c with bias := .none })

/-- Whether the dispatch that a cluster's agent has waiting would be made on its cores, were its bias removed (R59, R382). -/
def State.headAwaits (s : State) (cl : Nat) : Bool :=
  match (s.cluster cl).waiting with
  | [] => false
  | d :: rest =>
    match s.launch d.launch with
    | none => false
    | some l => s.engineRuns l && l.stop.isNone && s.clocked (clusterDie cl) && ((s.unbiased cl).placeHead cl d rest l).isSome

/-- Whether a search of a launch has come to a core of a cluster, which would take its block, were its bias removed (R75, R77, R382). -/
def State.searchAwaits (s : State) (cl : Nat) : Bool :=
  s.launches.any (fun p => s.engineRuns p.2 && p.2.stop.isNone && p.2.search.any (fun d =>
    !s.swappedFirst p.2 d && s.clocked (clusterDie d.taker) &&
      (((s.unbiased cl).placeNow d.taker (s.searchOrder d) (p.2.dispatchNeeds d)).any (fun l => l.any (fun x => clusterOf x.1 == cl)))))

/-- Whether the unit that has been swapped out longest waits for a cluster's bias: no core takes it as the biases stand, and the first
that would, were its cluster's removed, is the cluster's (R48, R382). -/
def State.returnAwaits (s : State) (cl : Nat) : Bool :=
  match s.curVf with
  | none => false
  | some v =>
    match swapUnits (s.vf v).swapped with
    | [] => false
    | u :: _ =>
      !s.stopping && !s.swapEarlier u && (List.range 64).all (fun c => (s.returnTo c u).isNone) &&
        ((List.range 64).find? (fun c => ((s.unbiased (clusterOf c)).returnTo c u).isSome)).any (fun c => clusterOf c == cl)

/-- Whether an admission to a cluster waits for its bias (R382): a cohort would become resident there, were it removed. -/
def State.biasAwaited (s : State) (cl : Nat) : Bool := s.headAwaits cl || s.searchAwaits cl || s.returnAwaits cl

/-- BIAS_SETTLE (R382): a bias change settles, and a step up that has waited for it takes place; a reverse bias that an
admission waits for is removed. A die without clocks takes no step (R385). -/
def execBiasSettle (cluster : Nat) (s : State) : Host.Outcome State Fault Refusal :=
  .next (if !s.clocked (clusterDie cluster) then s
  else
    let c := s.cluster cluster
    let lift := c.bias == .reverse && s.biasAwaited cluster
    let s := s.setCluster cluster { c.risen with settled := true, bias := if lift then .none else c.bias }
    s.updDie (clusterDie cluster) (fun d => { d with poolBoost := d.poolBoost || 0 < c.rising }))

end Sys2Proof.Machine
end

