-- ==== Sys2Proof/Machine/Firmware.lean ====
section
/-! DEFINITION. Grotto: images and their check, boot, updates and recovery, keys, attestation (spec/16_firmware_boot.md R366
to R375). -/

namespace Sys2Proof.Machine

/-! ### Images (R368, R369) -/

/-- The set bits of the fuse row SVNF. -/
def svnBits (x : BitVec 64) : Nat := ((List.range 64).filter (fun i => x.getLsbD i)).length

/-- The payload length of an image. -/
def imgPlen (im : List Byte) : Nat := fld im 0x0C 4
/-- The security version of an image. -/
def imgSvn (im : List Byte) : Nat := fld im 0x08 4
/-- The bytes both signatures cover. -/
def imgSigned (im : List Byte) : List Byte := im.take (0x240 + imgPlen im)
/-- The entry offset within the payload. -/
def imgEntry (im : List Byte) : Nat := fld im 0x10 4
/-- The payload. -/
def imgPayload (im : List Byte) : List Byte := (im.drop 0x240).take (imgPlen im)

/-- The first check of R369 that an image fails; none for a valid image. Fuses that have not been written refuse every
image. An image too short for its layout fails the first check, and bytes beyond the layout are no part of it (DESIGN CHOICE, log
102). No check limits SVN to the 64 of R368 (DESIGN CHOICE, log 116). RSAKEY and RSASIG are numbers, little-endian as R368 says of all
fields; SLHKEY and SLHSIG are byte strings (DEDUCED, log 132). -/
def imageFails (svnf : BitVec 64) (im : List Byte) : Option Nat :=
  let plen := imgPlen im
  let cut (o n : Nat) : List Byte := (im.drop o).take n
  let key := cut 0x80 384
  let slh := cut 0x200 64
  if fld im 0 4 != 0x57464852 || !zeroIn im [(0x14, 0x80), (0x230, 0x240)] || plen < 4 || 229376 < plen || plen % 4 != 0 ||
      fld im 0x10 4 % 4 != 0 || plen ≤ fld im 0x10 4 || im.length < 0x240 + plen + 384 + 16224 then some 1
  else
    match Config.fuseKeys with
    | none => some 2
    | some (rkh, skh) =>
      if sha384 key != rkh || sha384 slh != skh then some 2
      else if imgSvn im < svnBits svnf then some 3
      else if !rsaVerify (leNat key) (imgSigned im) (leNat (cut (0x240 + plen) 384)) then some 4
      else if !slhVerify (slh.take 48) (imgSigned im) (cut (0x3C0 + plen) 16224) then some 5
      else none

/-- SVNF with bits set up to a security version (R370). -/
def svnRaise (x : BitVec 64) (n : Nat) : BitVec 64 := if svnBits x < n then BitVec.ofNat 64 (2 ^ n - 1) ||| x else x

/-! ### Reset and boot (R370, R373, R374, R394) -/

/-- What a reset leaves: flash with its log, the fuses, memory that is not the part's own, and the model's own counters. -/
def State.afterReset (s : State) : State :=
  { mem := s.mem.filter (fun c => !inHbm c.1), msix := s.msix, nextId := s.nextId, nextKey := s.nextKey, nextAge := s.nextAge,
    agenda := s.agenda, tick := s.tick,
    grotto := { flash := s.grotto.flash, flashLog := s.grotto.flashLog, svnf := s.grotto.svnf,
                logseq := (s.grotto.flashLog.head?.map (·.seq)).getD 0 } }

/-- The size of TCM (R366). -/
def tcmSize : Nat := 256 * 1024

/-- The Lumak ports as step 5 of R370 trains them (R339): a port trains on 0 to 8 lanes, and on 0 it has no link. -/
def trainedPorts (tick : Nat) : SMap Port :=
  (List.range 12).map (fun p =>
    let n := (Config.grottoWord tick (32 + p)).toNat % 9
    (p, { trained := n != 0, lanes := n }))

/-- TCM with bytes from offset 0 on, and nothing else (R368, R370). -/
def tcmOf (bs : List Byte) : List Host.Cell := (((bs.take tcmSize).mapIdx (fun i b => (i, b))).filter (fun c => c.2 != 0))

/-- The registers x1 to x31 of Grotto's core before its firmware has set them, and as the ROM leaves them: open. -/
def grottoRegs (tick : Nat) : List W32 := (List.range 31).map (fun i => Config.grottoWord tick (1 + i))

/-- Steps 1 to 5 of R370 on the image in flash: it stands in TCM and in the verification buffer whether it passes or not, and
a valid one runs from ENTRY. -/
def State.boot (s : State) : State :=
  let s := s.afterReset
  let im := s.grotto.flash
  let s := s.updGrotto (fun g => { g with tcm := tcmOf (imgPayload im), buffer := im })
  let s := match imageFails s.grotto.svnf im with
    | some _ => s.updGrotto (fun g => { g with mbstate := .recovery })
    | none =>
      let s := s.updGrotto (fun g =>
        { g with mbstate := .ready, pc := BitVec.ofNat 32 (imgEntry im), regs := grottoRegs s.tick, ropSvn := imgSvn im, svnf := svnRaise g.svnf (imgSvn im),
                 meas := [(1, sha384 Config.romImage), (2, sha384 (imgSigned im))] })
      { s with released := true, nextKey := s.nextKey + 64, ports := trainedPorts s.tick,
               vfs := (List.range 64).map (fun v => (v, { key := s.nextKey + v })) }
  s.logEvent (plainEntry logBoot noDie 0)

/-- COLD_RESET (R370, R394): new log entries go to flash first. -/
def execColdReset (s : State) : Host.Outcome State Fault Refusal := .next s.flushLog.boot

/-- WARM_RESET (R370): all five steps again. -/
def execWarmReset (s : State) : Host.Outcome State Fault Refusal := .next s.flushLog.boot

/-! ### Updates and recovery (R371 to R373) -/

def rsOk : Nat := 0
def rsBusy : Nat := 1
def rsBadcmd : Nat := 2
def rsBadimage : Nat := 3
def rsRollback : Nat := 4
def rsFlash : Nat := 5

/-- A command's RESULT. -/
def State.mbResult (s : State) (r : Nat) : State := s.updGrotto (fun g => { g with result := r })

/-- The staged image: ARG1 bytes of HBM at ARG0, under the keys of their granules' owners (R323, R372); from that very offset also
where ARG0 is no multiple of 4 KiB (DESIGN CHOICE, log 114). -/
def State.staged (s : State) : List Byte :=
  let base := s.grotto.arg0.toNat
  (List.range s.grotto.arg1.toNat).map (fun i =>
    match s.granules.look ((base + i) / 2 ^ 30) with
    | some v => s.physByte (s.vf v).key (base + i)
    | none => 0)

/-- The image in the recovery window. -/
def State.window (s : State) : List Byte := bufRead s.grotto.rwin 0 s.grotto.arg1.toNat

/-- The size of flash (R366). -/
def flashSize : Nat := 512 * 1024

/-- Why an image is not installed; none when it passes step 2 of R372. One longer than flash is BADIMAGE before any check of R369
(DESIGN CHOICE, log 115). -/
def State.refuseImage (s : State) (im : List Byte) : Option Nat :=
  if flashSize < im.length then some rsBadimage
  else
    match imageFails s.grotto.svnf im with
    | none => none
    | some 3 => some rsRollback
    | some _ => some rsBadimage

/-- What flash holds of an image after a write of it that may have failed: bytes that pass the checks of R369 are that image
whole, for no other image is left once the erasing has begun (R366, R372). -/
def writtenOf (svnf : BitVec 64) (im fl : List Byte) : List Byte := if (imageFails svnf fl).isNone && fl != im then [] else fl

/-- A command while MBSTATE is BOOT or UPDATING changes nothing but RESULT (R371). -/
def State.mbBusy (s : State) : Bool := s.grotto.mbstate == .boot || s.grotto.mbstate == .updating

/-- An UPDATE or a RECOVER begins (R372, R373): step 1 has the image in Grotto's own buffer. -/
def State.startUpdate (s : State) (im : List Byte) (recover : Bool) : State :=
  s.updGrotto (fun g => { g with mbstate := .updating, buffer := im, update := some (.check, recover) })

/-- It completes (R371, R373, R394): RESULT is written, then UPDATING is left; a RECOVER that is OK resets the device. -/
def State.finishUpdate (s : State) (recover : Bool) (r : Nat) : State :=
  let s := (s.mbResult r).logEvent (plainEntry logUpdate noDie r)
  let s := s.updGrotto (fun g => { g with update := none, mbstate := if recover then .recovery else .ready })
  if recover && r = rsOk then s.flushLog.boot else s

/-- The next of the steps 2 to 4 of R372: the check, which begins the erasing of flash; then the end of the write, read back
and checked again. -/
def State.grottoStep (s : State) : State :=
  let g := s.grotto
  match g.update with
  | none => s
  | some (.check, recover) =>
    match s.refuseImage g.buffer with
    | some r => s.finishUpdate recover r
    | none =>
      s.updGrotto (fun g =>
        { g with update := some (.write, recover), flash := writtenOf g.svnf g.buffer (Config.flashTorn s.tick) })
  | some (.write, recover) =>
    let fl := writtenOf g.svnf g.buffer (Config.flashWritten g.buffer s.tick)
    (s.updGrotto (fun g => { g with flash := fl })).finishUpdate recover
      (if (imageFails g.svnf fl).isSome then rsFlash else rsOk)

/-- UPDATE (R372): begun by the firmware, which copies the staged image. -/
def execUpdate (s : State) : Host.Outcome State Fault Refusal :=
  .next (if s.mbBusy then s.mbResult rsBusy
  else if s.grotto.mbstate = .ready then s.startUpdate s.staged false
  else s.mbResult rsBadcmd)

/-- RECOVER (R373): begun by the recovery loader on the window. -/
def execRecover (s : State) : Host.Outcome State Fault Refusal :=
  .next (if s.mbBusy then s.mbResult rsBusy
  else if s.grotto.mbstate = .recovery then s.startUpdate s.window true
  else s.mbResult rsBadcmd)

/-- POWER_LOSS (R372): all but flash and fuses is lost. In step 3 of R372 it can leave flash torn, with no valid image; the
next boot then enters RECOVERY. -/
def execPowerLoss (flashTorn : Bool) (s : State) : Host.Outcome State Fault Refusal :=
  let s' := s.afterReset
  let torn := Config.flashTorn s.tick
  .next (match s.grotto.update with
  | some (.write, _) =>
    if flashTorn then
      s'.updGrotto (fun g => { g with flash := if (imageFails g.svnf torn).isSome then torn else [] })
    else s'
  | _ => s')

/-! ### Attestation (R374, R375) -/

/-- The number of a request, for the responder. -/
def SpdmRequest.number : SpdmRequest → Nat
  | .getVersion => 0
  | .getCapabilities => 1
  | .negotiateAlgorithms => 2
  | .getDigests => 3
  | .getCertificate => 4
  | .challenge => 5
  | .getMeasurements => 6
  | .slhsig => 7

/-- Whether the recovery loader answers (R373). -/
def Grotto.recovering (g : Grotto) : Bool := g.mbstate == .recovery || (g.update.map (·.2)).getD false

/-- Measurement 2: 48 zero bytes in RECOVERY. -/
def Grotto.meas2 (g : Grotto) : List Byte := if g.recovering then List.replicate 48 0 else g.meas.get 2 []

/-- The five measurements (R375). -/
def Grotto.measurements (g : Grotto) : List (List Byte) :=
  [sha384 Config.romImage, g.meas2, bytesLE 4 g.ropSvn ++ bytesLE 8 g.svnf.toNat,
   Config.fuseConfig ++ (match Config.fuseKeys with
    | some (r, k) => r ++ k
    | none => []), Config.debugState]

/-- The private keys of SLH-DSA that a measurement 2 gives (R374). -/
def slhIdentity (m : List Byte) : SlhSecret :=
  let k := Config.slhIdentity m
  ⟨k.1, k.2.1, k.2.2⟩

/-- The certificate chain, which names the firmware's measurement and holds the public halves of the identity keys it gives (R374).
In RECOVERY, where no step 5 has derived keys, they are those of a measurement of 48 zero bytes (DESIGN CHOICE, log 130). -/
def Grotto.chain (g : Grotto) : List Byte := Config.certChain g.meas2 (Config.rsaIdentity g.meas2).1 (slhIdentity g.meas2).publicKey

/-- The bytes that stand for an algorithm among the parts of a response. -/
def SpdmAlgorithm.code : SpdmAlgorithm → List Byte
  | .rsapss3072 => [0]
  | .sha384 => [1]

/-- The measurements that an index of GET_MEASUREMENTS asks for: one, or all for 0xFF; 0 asks only how many there are; another index
has no answer but an error (SPDM 1.3, log 133). -/
def Grotto.asked (g : Grotto) (index : Nat) : Option (List (List Byte)) :=
  if index = 0xFF then some g.measurements
  else if index ≤ 5 then some ((g.measurements.take index).drop (index - 1))
  else none

/-- What a request does to the transcripts before it is answered (SPDM 1.3, log 133): GET_VERSION restarts all of them; any request
but GET_MEASUREMENTS ends a run of measurements; and GET_MEASUREMENTS drops what no challenge has covered. -/
def Grotto.hears (g : Grotto) (q : SpdmRequest) : Grotto :=
  match q with
  | .getVersion => { g with vca := [], certs := [], measured := [] }
  | .getMeasurements => { g with certs := [] }
  | _ => { g with measured := [] }

/-- The transcript that stands before a signed exchange: of a CHALLENGE version, capabilities and algorithms, digests and certificate;
of GET_MEASUREMENTS version, capabilities and algorithms, and the measurements so far. -/
def Grotto.before (g : Grotto) (q : SpdmRequest) : List Byte := g.vca ++ (if q = .challenge then g.certs else g.measured)

/-- The transcripts after an exchange; a signed answer restarts its own. -/
def Grotto.heard (g : Grotto) (q : SpdmRequest) (said : List Byte) (signed : Bool) : Grotto :=
  match q with
  | .getVersion | .getCapabilities | .negotiateAlgorithms => { g with vca := g.vca ++ said }
  | .getDigests | .getCertificate => { g with certs := g.certs ++ said }
  | .challenge => { g with certs := [] }
  | .getMeasurements => { g with measured := if signed then [] else g.measured ++ said }
  | .slhsig => g

/-- The bytes of a text. -/
def asciiBytes (s : String) : List Byte := s.toList.map (fun c => BitVec.ofNat 8 c.toNat)

/-- What SPDM 1.3 has a responder sign: its version four times, and the context of the signature in the last of 36 bytes, before the
hash (log 133). -/
def spdmSigned (q : SpdmRequest) (hash : List Byte) : List Byte :=
  let context := asciiBytes (if q = .challenge then "responder-challenge_auth signing" else "responder-measurements signing")
  (List.replicate 4 (asciiBytes "dmtf-spdm-v1.3.*")).flatten ++ List.replicate (36 - context.length) 0 ++ context ++ hash

/-- Random bytes of Grotto (R366). -/
def randomBytes (tick n : Nat) : List Byte := (List.range n).map (Config.randomByte tick)

/-- The signature of the RSA identity key over a transcript hash, and that of the SLH-DSA key over the same hash (R375). -/
def Grotto.signRsa (g : Grotto) (tick : Nat) (q : SpdmRequest) (hash : List Byte) : List Byte :=
  let k := Config.rsaIdentity g.meas2
  bytesBE 384 (rsaSign k.1 k.2 (spdmSigned q hash) (randomBytes tick 48))
def Grotto.signSlh (g : Grotto) (tick : Nat) (hash : List Byte) : List Byte := (slhIdentity g.meas2).sign hash (randomBytes tick 24)

/-- A request is answered, and it and its answer join the transcript that is theirs. The answer's bytes hold what it carries; a
CHALLENGE's hold the chain's digest and the measurements (log 59). A signed response covers the hash of its transcript, and SLHSIG
returns the other signature over the hash that the last signed response covered (R375); before any, over that of the transcript of
version, capabilities and algorithms (DESIGN CHOICE, log 59). -/
def State.spdm (s : State) (q : SpdmRequest) (operands : List Nat) (index : Nat) (signed : Bool) : State :=
  s.updGrotto (fun g =>
    if g.mbstate == .boot then g
    else
      let g := g.hears q
      match if q = .getMeasurements then g.asked index else some [] with
      | none =>
        { g with responses := { req := q, body := Config.spdmBody q.number operands s.tick [], error := true } :: g.responses }
      | some measurements =>
        let algorithms := if q = .negotiateAlgorithms then [SpdmAlgorithm.rsapss3072, .sha384] else []
        let chain := if q = .getCertificate then some g.chain else none
        let digest := if q = .getDigests then some (sha384 g.chain) else none
        let body := Config.spdmBody q.number operands s.tick
          (if q = .challenge then [[], [], [sha384 g.chain], g.measurements]
           else [algorithms.map SpdmAlgorithm.code, chain.toList, digest.toList, measurements])
        let said := Config.spdmRequest q.number operands ++ body
        let hash := sha384 (g.before q ++ said)
        let r : SpdmResponse :=
          { req := q, body := body, algorithms := algorithms, chain := chain, digest := digest, measurements := measurements,
            total := if q = .getMeasurements && index = 0 then some 5 else none,
            rsa := if signed then some (g.signRsa s.tick q hash) else none,
            slh := if q = .slhsig then some (g.signSlh s.tick (g.signedHash.getD (sha384 g.vca))) else none }
        { g.heard q said signed with signedHash := if signed then some hash else g.signedHash, responses := r :: g.responses })

def execGetVersion (s : State) : Host.Outcome State Fault Refusal := .next (s.spdm .getVersion [] 0 false)
def execGetCapabilities (s : State) : Host.Outcome State Fault Refusal := .next (s.spdm .getCapabilities [] 0 false)
def execNegotiateAlgorithms (s : State) : Host.Outcome State Fault Refusal := .next (s.spdm .negotiateAlgorithms [] 0 false)
def execGetDigests (s : State) : Host.Outcome State Fault Refusal := .next (s.spdm .getDigests [] 0 false)
def execGetCertificate (s : State) : Host.Outcome State Fault Refusal := .next (s.spdm .getCertificate [] 0 false)
def execChallenge (nonce : Nat) (s : State) : Host.Outcome State Fault Refusal := .next (s.spdm .challenge [nonce] 0 true)
/-- GET_MEASUREMENTS: the request's index stands in bits 7:0 of its operand, whether it asks for a signature in bit 8, and its nonce
above. -/
def execGetMeasurements (request : Nat) (s : State) : Host.Outcome State Fault Refusal :=
  .next (s.spdm .getMeasurements [request] (request % 256) (request / 256 % 2 == 1))
def execSlhsig (s : State) : Host.Outcome State Fault Refusal := .next (s.spdm .slhsig [] 0 false)

end Sys2Proof.Machine
end

