-- ==== Sys2Proof/Machine/GrottoCore.lean ====
section
/-! DEFINITION. Grotto's core (spec/16_firmware_boot.md R366, R370): an in-order RV32IMC core that runs the image's payload from
TCM. R366 names the instruction set and the TCM; the meanings of its instructions are those of RV32I, M and C (PRESUMED, log 74).
The spec gives the core no address but TCM's, so what a load returns from elsewhere is open, and a trap goes to an open
address. -/

namespace Sys2Proof.Machine

/-- The operations of RV32I and M on two words. -/
inductive RvAlu where
  | add | sub | sll | slt | sltu | xor | srl | sra | or | and | mul | mulh | mulhsu | mulhu | div | divu | rem | remu
  deriving DecidableEq, Repr, Inhabited

/-- Instructions of RV32IMC; a compressed one is the full one it stands for. -/
inductive RvInstr where
  | lui (rd : Nat) (imm : W32)
  | auipc (rd : Nat) (imm : W32)
  | jal (rd : Nat) (off : W32)
  | jalr (rd rs : Nat) (imm : W32)
  | branch (f rs rt : Nat) (off : W32)
  | load (f rd rs : Nat) (imm : W32)
  | store (f rs rt : Nat) (imm : W32)
  | opImm (a : RvAlu) (rd rs : Nat) (imm : W32)
  | op (a : RvAlu) (rd rs rt : Nat)
  | fence
  | other     -- ECALL, EBREAK, or no instruction of the set
  deriving DecidableEq, Repr, Inhabited

/-- The value of an operation. -/
def RvAlu.eval (a : RvAlu) (x y : W32) : W32 :=
  let sh := y.toNat % 32
  let high (p : Int) : W32 := BitVec.ofInt 32 (p / 2 ^ 32)
  match a with
  | .add => x + y
  | .sub => x - y
  | .sll => x <<< sh
  | .slt => if x.toInt < y.toInt then 1 else 0
  | .sltu => if x.toNat < y.toNat then 1 else 0
  | .xor => x ^^^ y
  | .srl => x >>> sh
  | .sra => x.sshiftRight sh
  | .or => x ||| y
  | .and => x &&& y
  | .mul => x * y
  | .mulh => high (x.toInt * y.toInt)
  | .mulhsu => high (x.toInt * (y.toNat : Int))
  | .mulhu => high ((x.toNat : Int) * (y.toNat : Int))
  | .div => if y = 0 then BitVec.allOnes 32 else x.sdiv y
  | .divu => if y = 0 then BitVec.allOnes 32 else x / y
  | .rem => if y = 0 then x else x.srem y
  | .remu => if y = 0 then x else x % y

/-! ### Decoding -/

/-- Bits `lo` to `lo + n - 1` of a word, moved to place `at_`. -/
def rvBits (w lo n at_ : Nat) : Nat := w / 2 ^ lo % 2 ^ n * 2 ^ at_

/-- A signed number of `n` bits as a word. -/
def rvSigned (n x : Nat) : W32 := BitVec.ofInt 32 (sext x n)

/-- The operation of a register form by funct7 and funct3. -/
def rvOp (f7 f3 : Nat) : Option RvAlu :=
  match f7 with
  | 0 => [RvAlu.add, .sll, .slt, .sltu, .xor, .srl, .or, .and][f3]?
  | 1 => [RvAlu.mul, .mulh, .mulhsu, .mulhu, .div, .divu, .rem, .remu][f3]?
  | 32 => match f3 with
    | 0 => some .sub
    | 5 => some .sra
    | _ => none
  | _ => none

/-- A 32-bit instruction. -/
def rvWide (w : Nat) : RvInstr :=
  let rd := rvBits w 7 5 0
  let f3 := rvBits w 12 3 0
  let rs := rvBits w 15 5 0
  let rt := rvBits w 20 5 0
  let f7 := rvBits w 25 7 0
  let immI := rvSigned 12 (rvBits w 20 12 0)
  let immU := BitVec.ofNat 32 (rvBits w 12 20 12)
  match w % 128 with
  | 0x37 => .lui rd immU
  | 0x17 => .auipc rd immU
  | 0x6F => .jal rd (rvSigned 21 (rvBits w 21 10 1 + rvBits w 20 1 11 + rvBits w 12 8 12 + rvBits w 31 1 20))
  | 0x67 => if f3 = 0 then .jalr rd rs immI else .other
  | 0x63 =>
    if f3 = 2 || f3 = 3 then .other
    else .branch f3 rs rt (rvSigned 13 (rvBits w 8 4 1 + rvBits w 25 6 5 + rvBits w 7 1 11 + rvBits w 31 1 12))
  | 0x03 => if f3 = 3 || 5 < f3 then .other else .load f3 rd rs immI
  | 0x23 => if 2 < f3 then .other else .store f3 rs rt (rvSigned 12 (rd + rvBits w 25 7 5))
  | 0x13 =>
    if f3 = 1 || f3 = 5 then
      if f7 = 0 || (f7 = 32 && f3 = 5) then
        match rvOp f7 f3 with
        | some a => .opImm a rd rs (BitVec.ofNat 32 rt)
        | none => .other
      else .other
    else
      match rvOp 0 f3 with
      | some a => .opImm a rd rs immI
      | none => .other
  | 0x33 =>
    match rvOp f7 f3 with
    | some a => .op a rd rs rt
    | none => .other
  | 0x0F => if f3 = 0 || f3 = 1 then .fence else .other
  | _ => .other

/-- A 16-bit instruction, as the instruction it stands for. -/
def rvShort (h : Nat) : RvInstr :=
  let r := rvBits h 7 5 0
  let q := rvBits h 2 5 0
  let rp := 8 + rvBits h 7 3 0
  let qp := 8 + rvBits h 2 3 0
  let imm6 := rvSigned 6 (q + rvBits h 12 1 5)
  let word := BitVec.ofNat 32 (rvBits h 6 1 2 + rvBits h 10 3 3 + rvBits h 5 1 6)
  let jump := rvSigned 12 (rvBits h 3 3 1 + rvBits h 11 1 4 + rvBits h 2 1 5 + rvBits h 7 1 6 + rvBits h 6 1 7 + rvBits h 9 2 8 +
    rvBits h 8 1 10 + rvBits h 12 1 11)
  let near := rvSigned 9 (rvBits h 3 2 1 + rvBits h 10 2 3 + rvBits h 2 1 5 + rvBits h 5 2 6 + rvBits h 12 1 8)
  match h % 4, h / 2 ^ 13 % 8 with
  | 0, 0 =>
    let n := rvBits h 6 1 2 + rvBits h 5 1 3 + rvBits h 11 2 4 + rvBits h 7 4 6
    if n = 0 then .other else .opImm .add qp 2 (BitVec.ofNat 32 n)
  | 0, 2 => .load 2 qp rp word
  | 0, 6 => .store 2 rp qp word
  | 1, 0 => .opImm .add r r imm6
  | 1, 1 => .jal 1 jump
  | 1, 2 => .opImm .add r 0 imm6
  | 1, 3 =>
    if r = 2 then
      let n := rvBits h 6 1 4 + rvBits h 2 1 5 + rvBits h 5 1 6 + rvBits h 3 2 7 + rvBits h 12 1 9
      if n = 0 then .other else .opImm .add 2 2 (rvSigned 10 n)
    else if imm6 = 0 then .other
    else .lui r (imm6 <<< 12)
  | 1, 4 =>
    match h / 2 ^ 10 % 4 with
    | 0 => if h / 2 ^ 12 % 2 = 1 then .other else .opImm .srl rp rp (BitVec.ofNat 32 q)
    | 1 => if h / 2 ^ 12 % 2 = 1 then .other else .opImm .sra rp rp (BitVec.ofNat 32 q)
    | 2 => .opImm .and rp rp imm6
    | _ =>
      if h / 2 ^ 12 % 2 = 1 then .other
      else
        match h / 2 ^ 5 % 4 with
        | 0 => .op .sub rp rp qp
        | 1 => .op .xor rp rp qp
        | 2 => .op .or rp rp qp
        | _ => .op .and rp rp qp
  | 1, 5 => .jal 0 jump
  | 1, 6 => .branch 0 rp 0 near
  | 1, 7 => .branch 1 rp 0 near
  | 2, 0 => if h / 2 ^ 12 % 2 = 1 then .other else .opImm .sll r r (BitVec.ofNat 32 q)
  | 2, 2 =>
    if r = 0 then .other
    else .load 2 r 2 (BitVec.ofNat 32 (rvBits h 4 3 2 + rvBits h 12 1 5 + rvBits h 2 2 6))
  | 2, 4 =>
    if h / 2 ^ 12 % 2 = 0 then
      if q ≠ 0 then .op .add r 0 q else if r = 0 then .other else .jalr 0 r 0
    else if q ≠ 0 then .op .add r r q
    else if r = 0 then .other
    else .jalr 1 r 0
  | 2, 6 => .store 2 2 q (BitVec.ofNat 32 (rvBits h 9 4 2 + rvBits h 7 2 6))
  | _, _ => .other

/-! ### Execution -/

/-- A register; x0 reads 0. -/
def Grotto.x (g : Grotto) (n : Nat) : W32 := if n = 0 then 0 else g.regs.getD (n - 1) 0

/-- A register written; x0 takes nothing. -/
def Grotto.setX (g : Grotto) (n : Nat) (v : W32) : Grotto := if n = 0 then g else { g with regs := g.regs.set (n - 1) v }

/-- Bytes that the core loads from an address: TCM's, or open ones from elsewhere. -/
def Grotto.loadNat (g : Grotto) (tick a n : Nat) : Nat :=
  if a + n ≤ tcmSize then leNat (bufRead g.tcm a n) else (Config.grottoWord tick 44).toNat % 2 ^ (8 * n)

/-- A branch's condition. -/
def rvTaken (f : Nat) (x y : W32) : Bool :=
  match f with
  | 0 => x == y
  | 1 => x != y
  | 4 => decide (x.toInt < y.toInt)
  | 5 => decide (y.toInt ≤ x.toInt)
  | 6 => decide (x.toNat < y.toNat)
  | _ => decide (y.toNat ≤ x.toNat)

/-- One instruction carried out; `next` is where the one after it stands. -/
def Grotto.run (g : Grotto) (tick : Nat) (i : RvInstr) (next : W32) : Grotto :=
  let go (g : Grotto) : Grotto := { g with pc := next }
  match i with
  | .lui rd imm => go (g.setX rd imm)
  | .auipc rd imm => go (g.setX rd (g.pc + imm))
  | .jal rd off => { g.setX rd next with pc := g.pc + off }
  | .jalr rd rs imm => { g.setX rd next with pc := (g.x rs + imm) &&& ~~~1#32 }
  | .branch f rs rt off => if rvTaken f (g.x rs) (g.x rt) then { g with pc := g.pc + off } else go g
  | .load f rd rs imm =>
    let n := 2 ^ (f % 4)
    let v := g.loadNat tick (g.x rs + imm).toNat n
    go (g.setX rd (if f < 4 then rvSigned (8 * n) v else BitVec.ofNat 32 v))
  | .store f rs rt imm =>
    let a := (g.x rs + imm).toNat
    go (if a + 2 ^ f ≤ tcmSize then { g with tcm := bufWrite g.tcm a (bytesLE (2 ^ f) (g.x rt).toNat) } else g)
  | .opImm a rd rs imm => go (g.setX rd (a.eval (g.x rs) imm))
  | .op a rd rs rt => go (g.setX rd (a.eval (g.x rs) (g.x rt)))
  | .fence => go g
  | .other => { g with pc := Config.grottoWord tick 0 }

/-- The instruction at the program counter and its length; what stands outside TCM is open. -/
def Grotto.fetch (g : Grotto) : RvInstr × Nat :=
  let a := g.pc.toNat
  let h := leNat (bufRead g.tcm a 2)
  if tcmSize < a + 2 || a % 2 != 0 then (.other, 2)
  else if h % 4 != 3 then (rvShort h, 2)
  else if tcmSize < a + 4 then (.other, 4)
  else (rvWide (leNat (bufRead g.tcm a 4)), 4)

/-- One instruction of Grotto's core: of the firmware in TCM, or, during a boot and in RECOVERY, of the ROM, which leaves its
program counter and registers as the spec does not say. -/
def State.grottoCore (s : State) : State :=
  s.updGrotto (fun g =>
    if g.mbstate == .boot || g.recovering then { g with pc := Config.grottoWord s.tick 0, regs := grottoRegs s.tick }
    else g.run s.tick g.fetch.1 (g.pc + BitVec.ofNat 32 g.fetch.2))

end Sys2Proof.Machine
end

