-- ==== Sys2Proof/Machine/Ras.lean ====
section
/-! DEFINITION. Errors of the stores (spec/18_reliability_telemetry.md R388 to R394). -/

namespace Sys2Proof.Machine

/-! ### The events (R388) -/

/-- Bytes of a buffer zeroed: what is not listed reads 0. -/
def zeroCells (m : List Host.Cell) (base n : Nat) : List Host.Cell := m.filter (fun c => !(base ≤ c.1 && c.1 < base + n))

/-- The next reader of a line meets an error in it (R388): a read of a block kills it, a host read is answered with poison, a
walker's read faults its walk, for the line is poisoned. -/
def State.readerError (s : State) (cls line : Nat) : EccReader → State
  | .cohort slot => s.readError cls slot line
  | .host => { s.noteUe (lineDie line) cls 0xFF 0xFFFFFFFF#32 (BitVec.ofNat 64 (64 * line)) with answer := none }
  | .walker => (s.noteUe (lineDie line) cls 0xFF 0xFFFFFFFF#32 (BitVec.ofNat 64 (64 * line))).markPoison line

/-- Whether an error lies in a store of a die that has no clocks, or is met by a read of such a die: the die keeps all its state, and
nothing there reads (R385; log 118). -/
def State.siteStands (s : State) : EccSite → Bool
  | .hbmRead slot _ | .l2Dirty (.cohort slot) _ | .meetExt slot _ => !s.clocked (dieOf (coreOf slot))
  | .general core _ _ | .narrow core _ _ | .asp core _ | .wbf core _ | .acs core _ _ | .tlb core _ => !s.clocked (dieOf core)
  | .clusterTlb cluster _ => !s.clocked (clusterDie cluster)
  | .dieTlb die _ | .ringSlot die _ => !s.clocked die
  | .hbmHostRead _ | .hbmWalk _ | .l2Clean _ _ | .l2Dirty _ _ | .tcm _ => false

/-- ECC_UNCORRECTABLE (R388), counted and logged with the place in its store (R391, R394; log 89). An error in a meet extension in
flight kills the block that holds the cohort's slot (log 73). Grotto's TCM stays in use while the dies are in reset, and while a die
has no clocks (R385). -/
def execEccUncorrectable (site : EccSite) (s : State) : Host.Outcome State Fault Refusal :=
  let all : W32 := 0xFFFFFFFF#32
  let at_ (n : Nat) : W64 := BitVec.ofNat 64 n
  .next (match site with
  | .tcm off => (s.logEvent { plainEntry logUE noDie codeEcc with cls := 7, addr := at_ off }).flushLog.boot
  | site =>
  if !s.released || s.siteStands site then s
  else match site with
  | .hbmRead slot line => s.readError 0 slot line
  | .hbmHostRead addr => s.readerError 0 (addr / 64) .host
  | .hbmWalk line => s.readerError 0 line .walker
  | .l2Clean die line => s.noteUe die 1 0xFF all (at_ (64 * line))
  | .l2Dirty reader line => (s.markPoison line).readerError 1 line reader
  | .general core off slot => s.fileError core 2 off slot
  | .narrow core off slot => s.fileError core 3 off slot
  | .asp core off =>
    s.bufError core 4 off (fun b => (b.aspBase, b.aspSize)) (fun c => { c with asp := zeroCells c.asp (off / 4 * 4) 4 })
  | .wbf core off =>
    s.bufError core 5 off (fun b => (b.wbfBase, b.wbfSize)) (fun c => { c with wbf := zeroCells c.wbf (off / 16 * 16) 16 })
  | .acs core off blk => s.tileError core off blk
  | .tlb core entry =>
    (s.noteUe (dieOf core) 7 0xFF all (at_ entry)).updCore core (fun c => { c with tlb := c.tlb.eraseIdx entry })
  | .clusterTlb cluster entry =>
    (s.noteUe (clusterDie cluster) 7 0xFF all (at_ entry)).updCluster cluster (fun c => { c with tlb := c.tlb.eraseIdx entry })
  | .dieTlb die entry => (s.noteUe die 7 0xFF all (at_ entry)).updDie die (fun d => { d with tlb := d.tlb.eraseIdx entry })
  | .meetExt slot off =>
    match s.cohort slot with
    | none => s.noteUe (dieOf (coreOf slot)) 7 0xFF all (at_ off)
    | some co => s.blockErrorAt co.blk 7 (BitVec.ofNat 32 slot) (at_ off)
  | .ringSlot die slot =>
    (s.noteUe die 7 0xFF all (at_ slot)).updDie die (fun d =>
      { d with tokLost := d.tokLost + BitVec.ofNat 64 (d.slots.get slot 0), slots := d.slots.del slot })
  | .tcm _ => s)

/-- ECC_CORRECTABLE (R388, R391); one in a register file, an ASP, a WBF or an accumulator store of a die without clocks is not met (R385;
log 118). -/
def execEccCorrectable (die cls frame : Nat) (s : State) : Host.Outcome State Fault Refusal :=
  .next (if s.released && (cls < 2 || 6 < cls || s.clocked die) then s.noteCe die cls frame else s)

/-! ### Patrol scrub and CLR (R390, R391) -/

/-- The line at a place of a die's patrol: the lines whose home is the die, ascending. -/
def scrubLine (die n : Nat) : Nat := n / 4 * 8 + die * 4 + n % 4

/-- The lines a die is home to. -/
def scrubLines : Nat := hbmSize / 128

/-- PATROL_SCRUB (R390): the next line, SCRUBGAP front-end clocks after the one before it; whether it is clean, correctable or
uncorrectable is not the spec's to say. -/
def execPatrolScrub (die : Nat) (s : State) : Host.Outcome State Fault Refusal :=
  let d := s.die die
  .next (if !s.released || !d.scrubEn || d.scrubClk < d.scrubGap then s
  else
    let line := scrubLine die d.scrubPos
    let s := s.setDie die { d with scrubPos := (d.scrubPos + 1) % scrubLines, scrubClk := d.scrubClk - d.scrubGap }
    match Config.freeChoice s.tick % 3 with
    | 0 => s
    | 1 => s.noteCe die 0 (frameOf line)
    | _ => (s.markPoison line).noteUe die 0 0xFF 0xFFFFFFFF#32 (BitVec.ofNat 64 (64 * line)))

/-- CLR (R391): every counter of the block. -/
def execClr (die : Nat) (s : State) : Host.Outcome State Fault Refusal :=
  .next (if !s.released then s else s.updDie die (fun d => { d with ce := [], ue := [], kills := 0, relaunch := 0 }))

end Sys2Proof.Machine
end

