-- ==== Sys2Proof/Machine/Reads.lean ====
section
/-! DEFINITION. Reads of registers by the host and the PF driver (spec/14_host_interface.md R324, R337, R339;
spec/15_faults_context.md R348; spec/16_firmware_boot.md R371; spec/17_power_thermal.md R376, R381, R386, R387;
spec/18_reliability_telemetry.md R391 to R394). A block is given as its 32-bit words, by offset; a word that is not listed
reads 0. -/

namespace Sys2Proof.Machine

/-- The low and the high word of a 64-bit register. -/
def lowWord (v : W64) : Nat := v.toNat % 2 ^ 32
def highWord (v : W64) : Nat := v.toNat / 2 ^ 32

/-- A queue's registers (R324). RST reads 0. -/
def Queue.word (q : Queue) : Nat → Nat
  | 0x00 => lowWord q.qbase
  | 0x04 => highWord q.qbase
  | 0x08 => 2 ^ 8 * bit q.en + q.log2sz
  | 0x0C => q.qrd
  | 0x10 => q.qwr
  | 0x14 => 2 ^ 31 * bit q.stop + q.code
  | 0x18 => q.eoff.toNat
  | _ => 0

/-- A VF's BAR0 (R324): a notify word and every other offset read 0. -/
def State.vfWord (s : State) (vf off : Nat) : Nat := if off < 4096 then ((s.vf vf).queue (off / 64)).word (off % 64) else 0

/-- The slice states as STATE codes them (R348). -/
def VfState.code : VfState → Nat
  | .idle => 0
  | .running => 1
  | .saved => 2
  | .failed => 3

/-- The PF's block of a VF (R348). VRST reads 0. -/
def Vf.word (v : Vf) : Nat → Nat
  | 0x00 => lowWord v.s1root
  | 0x04 => highWord v.s1root
  | 0x08 => lowWord v.s2root
  | 0x0C => highWord v.s2root
  | 0x10 => lowWord v.fqbase
  | 0x14 => highWord v.fqbase
  | 0x18 => 2 ^ 31 * bit v.fqen + 2 ^ 30 * bit v.ovf + v.fqlog2
  | 0x1C => v.fqvec
  | 0x20 => v.fqhead.toNat
  | 0x24 => v.fqtail.toNat
  | 0x28 => 2 ^ 31 * bit v.busy + 2 ^ 16 * v.cmdslot + v.op
  | 0x2C => v.cmdst
  | 0x30 => lowWord v.invaddr
  | 0x34 => highWord v.invaddr
  | 0x38 => lowWord v.invsize
  | 0x3C => highWord v.invsize
  | 0x40 => lowWord v.savebase
  | 0x44 => highWord v.savebase
  | 0x48 => lowWord v.savesz
  | 0x4C => highWord v.savesz
  | 0x50 => v.quantum.toNat
  | 0x54 => v.state.code
  | _ => 0

/-- The usage block of a VF (R392). -/
def Vf.usageWord (v : Vf) : Nat → Nat
  | 0x00 => lowWord v.sliceClk
  | 0x04 => highWord v.sliceClk
  | 0x08 => lowWord v.tokPaid
  | 0x0C => highWord v.tokPaid
  | 0x10 => lowWord v.gpass
  | 0x14 => highWord v.gpass
  | 0x18 => lowWord v.gfail
  | 0x1C => highWord v.gfail
  | 0x20 => v.launches.toNat
  | 0x24 => v.parks.toNat
  | 0x28 => v.kills.toNat
  | _ => 0

/-- MBSTATE's codes (R371). -/
def MbState.code : MbState → Nat
  | .boot => 0
  | .ready => 1
  | .recovery => 2
  | .updating => 3

/-- The mailbox with its window (R371). -/
def Grotto.word (g : Grotto) (off : Nat) : Nat :=
  match off with
  | 0x00 => 2 ^ 30 * g.mbstate.code + g.result
  | 0x04 => g.cmd
  | 0x08 => lowWord g.arg0
  | 0x0C => highWord g.arg0
  | 0x10 => g.arg1.toNat
  | _ => if 0x40 ≤ off then leNat (bufRead g.rwin (off - 0x40) 4) else 0

/-- BIAS's codes (R381). -/
def Bias.code : Bias → Nat
  | .none => 0
  | .forward => 1
  | .reverse => 2

/-- CLSTAT (R381). -/
def State.clstat (s : State) (cluster : Nat) : Nat :=
  let c := s.cluster cluster
  2 ^ 6 * c.bias.code + 2 ^ 4 * c.step + 2 ^ 2 * s.claim cluster + 2 * bit c.holding + bit c.falling

/-- CLSLOPE (R386). -/
def Cluster.clslope (c : Cluster) : Nat := 2 ^ 8 * c.wgap + c.wsize

/-- A power block (R376). -/
def State.powerWord (s : State) (die off : Nat) : Nat :=
  let d := s.die die
  match off with
  | 0x00 => d.rate
  | 0x04 => 2 ^ 16 * d.temg + 2 ^ 8 * d.tthr + d.tboost
  | 0x08 => 2 ^ 8 * d.tmax + d.tstate.code
  | 0x0C => bit d.refused
  | 0x10 => lowWord d.energy
  | 0x14 => d.latch.toNat
  | 0x18 => lowWord d.tokPaid
  | 0x1C => highWord d.tokPaid
  | 0x20 => lowWord d.tokLost
  | 0x24 => highWord d.tokLost
  | 0x28 => d.emgCnt.toNat
  | _ =>
    if off < 0x40 || 0x80 ≤ off then 0
    else if off % 8 = 0 then (s.cluster (8 * die + (off - 0x40) / 8)).clslope
    else s.clstat (8 * die + (off - 0x40) / 8)

/-- A Lumak block (R337, R339). RETRAIN reads 0. -/
def Port.word (p : Port) : Nat → Nat
  | 0x04 => 2 ^ 31 * bit p.loutEn
  | 0x08 => p.linLim % 4 * 2 ^ 30 + p.linBase
  | 0x0C => 2 ^ 31 * bit p.linEn + 2 ^ 16 * p.linVf + p.linLim / 4
  | 0x10 => p.replays.toNat
  | 0x14 => 2 ^ 8 * bit p.trained + 2 ^ 4 * p.lanes
  | _ => 0

/-- A RAS block (R391). CLR reads 0. -/
def Die.rasWord (d : Die) (off : Nat) : Nat :=
  match off with
  | 0x40 => 2 ^ 30 * bit d.scrubEn + d.scrubGap
  | 0x44 => d.cethr
  | 0x48 => lowWord d.kills
  | 0x4C => highWord d.kills
  | 0x50 => lowWord d.relaunch
  | 0x54 => highWord d.relaunch
  | _ => if 0x40 ≤ off then 0 else ((if off % 8 = 0 then d.ce else d.ue).get (off / 8) 0).toNat

/-- The 32 bytes of an entry of the event log (R394). -/
def LogEntry.bytes (e : LogEntry) : List Byte :=
  bytesLE 4 e.seq.toNat ++ bytesLE 4 e.time.toNat ++ bytesLE 4 (e.kind + 2 ^ 8 * e.die + 2 ^ 16 * e.cls + 2 ^ 24 * e.vf) ++
  bytesLE 4 0 ++ bytesLE 4 e.slot.toNat ++ bytesLE 4 e.detail.toNat ++ bytesLE 8 e.addr.toNat

/-- The event log in SRAM, by offset from its first place (R394): entry SEQ stands at place SEQ mod 1,024. What a place holds
to which nothing has been written since Grotto started is open. -/
def State.logWord (s : State) (off : Nat) : Nat :=
  match s.grotto.sram.find? (fun e => e.seq.toNat % 1024 == off / 32) with
  | some e => leNat ((e.bytes.drop (off % 32)).take 4)
  | none => leNat ((List.range 4).map (fun i => Config.freeByte s.tick (off + i)))

/-- The word of the granule owner table at an offset (R323): the spec gives neither its place nor its layout. -/
def State.granuleWord (s : State) (off : Nat) : Nat :=
  match Config.granuleAt off, Config.granuleAt (off - 4) with
  | some g, _ => lowWord (Config.granuleEntry (s.granules.look g))
  | none, some g => if 4 ≤ off then highWord (Config.granuleEntry (s.granules.look g)) else 0
  | none, none => 0

/-- The PF's BAR0. -/
def State.pfWord (s : State) (off : Nat) : Nat :=
  if 0x300000 ≤ off && off < 0x300040 + flashSize then s.grotto.word (off - 0x300000)
  else if 0x200000 ≤ off && off < 0x204000 then (s.vf ((off - 0x200000) / 0x100)).word (off % 0x100)
  else if 0x3C0000 ≤ off && off < 0x3C2000 then s.powerWord ((off - 0x3C0000) / 0x1000) (off % 0x1000)
  else if 0x3D0000 ≤ off && off < 0x3D0180 then (s.port ((off - 0x3D0000) / 0x20)).word (off % 0x20)
  else if 0x400000 ≤ off && off < 0x402000 then (s.die ((off - 0x400000) / 0x1000)).rasWord (off % 0x1000)
  else if 0x404000 ≤ off && off < 0x405000 then (s.vf ((off - 0x404000) / 0x40)).usageWord (off % 0x40)
  else if off = 0x407FF8 then s.grotto.logseq.toNat
  else if 0x408000 ≤ off && off < 0x410000 then s.logWord (off - 0x408000)
  else s.granuleWord off

/-- The bytes that a read of some words gives. -/
def wordBytes (word : Nat → Nat) (off width : Nat) : List Byte :=
  (List.range width).map (fun i => BitVec.ofNat 8 (word ((off + i) / 4 * 4) / 2 ^ (8 * ((off + i) % 4))))

/-- Whether a read of the PF takes in a word. -/
def coversWord (off width word : Nat) : Bool := decide (word < off + width) && decide (off < word + 4)

/-- A PF read of a range with the words of a die's energy in it (R387): ENERGYLO first, and not while Grotto holds the latch. -/
def State.energyRead (s : State) (die off width : Nat) : State :=
  if (s.die die).latchHeld then s
  else
    let s := if coversWord off width (0x3C0010 + 0x1000 * die) then s.sampleEnergy die else s
    { s with answer := some (wordBytes s.pfWord off width) }

/-- A read of the PF's BAR0, or of a VF's (R393): all of its bytes are taken at one point. Before the dies leave reset only the
mailbox answers (R373). -/
def State.registerRead (s : State) (pf : Bool) (vf off width : Nat) : State :=
  let energy (die : Nat) : Bool :=
    coversWord off width (0x3C0010 + 0x1000 * die) || coversWord off width (0x3C0014 + 0x1000 * die)
  if pf && 0x300000 ≤ off && off < 0x300040 + flashSize then { s with answer := some (wordBytes s.pfWord off width) }
  else if !s.released then { s with answer := none }
  else if !pf then { s with answer := some (wordBytes (s.vfWord vf) off width) }
  else if energy 0 then s.energyRead 0 off width
  else if energy 1 then s.energyRead 1 off width
  else { s with answer := some (wordBytes s.pfWord off width) }

end Sys2Proof.Machine
end

