-- ==== Sys2Proof/Machine/Registers.lean ====
section
/-! DEFINITION. Writes of the host and of the PF driver to registers (spec/14_host_interface.md R324, R331, R337, R339;
spec/15_faults_context.md R348, R349; spec/16_firmware_boot.md R371; spec/17_power_thermal.md R376; R391). A write that has a
behaviour of its own (a command, a reset, a posted field) has it here too. -/

namespace Sys2Proof.Machine

/-- A write of a whole register of a VF's BAR0 (R324, R331). -/
def State.vfRegister (s : State) (vf off : Nat) (value : W64) : State :=
  let q := off / 64
  let v := value.toNat
  if 4096 ≤ off then s
  else if off % 64 = 0 then
    s.updQueue vf q (fun x => if x.en then x else { x with qbase := BitVec.ofNat 64 (v / 4096 * 4096) })
  else if off % 64 = 8 then
    let s := s.updQueue vf q (fun x =>
      { x with en := v / 2 ^ 8 % 2 = 1, log2sz := if x.en then x.log2sz else max 12 (min 26 (v % 32)) })
    if v / 2 ^ 16 % 2 = 1 then s.updQueue vf q (fun x => if x.flight.isEmpty then x.reset else { x with rst := true }) else s
  else s

/-- The answer of a command that is not one (R349). -/
def State.outcome (s : State) : Host.Outcome State Fault Refusal → State
  | .next t => t
  | _ => s

/-- A write of SLOT and OP starts a command (R348, R349). -/
def State.vfCommand (s : State) (vf v : Nat) : State :=
  let slot := v / 2 ^ 16 % 2 ^ 12
  let op := v % 16
  let s := s.updVf vf (fun x => { x with cmdslot := slot, op := op })
  if v / 2 ^ 28 % 8 != 0 || v / 2 ^ 4 % 2 ^ 12 != 0 then s.answerCmd vf cmdBad
  else
    match op with
    | 1 => s.outcome (execRetry vf slot s)
    | 2 => s.outcome (execSkip vf slot s)
    | 3 => s.outcome (execKillblk vf slot s)
    | 4 => s.outcome (execKilllaunch vf slot s)
    | 5 => s.outcome (execInval vf s)
    | 6 => s.outcome (execInvall vf s)
    | _ => s.answerCmd vf cmdBad

/-- A write of a whole register of the PF's block of a VF (R348). -/
def State.pfVfRegister (s : State) (vf off : Nat) (value : W64) : State :=
  let v := value.toNat
  match off with
  | 0x00 => s.updVf vf (fun x => { x with s1root := value })
  | 0x08 => s.updVf vf (fun x => { x with s2root := value })
  | 0x10 => s.updVf vf (fun x => { x with fqbase := value })
  | 0x18 => s.updVf vf (fun x =>
      { x with fqen := v / 2 ^ 31 % 2 = 1, ovf := x.ovf && v / 2 ^ 30 % 2 = 0, fqlog2 := max 12 (min 20 (v % 32)) })
  | 0x1C => s.updVf vf (fun x => { x with fqvec := v % 64 })
  | 0x24 => s.updVf vf (fun x => { x with fqtail := value.setWidth 32 })
  | 0x28 => if (s.vf vf).busy then s else s.vfCommand vf v
  | 0x30 => s.updVf vf (fun x => { x with invaddr := value })
  | 0x38 => s.updVf vf (fun x => { x with invsize := value })
  | 0x40 => s.updVf vf (fun x => { x with savebase := value })
  | 0x48 => s.updVf vf (fun x => { x with savesz := value })
  | 0x50 => s.outcome (execQuantumWrite vf (value.setWidth 32) s)
  | 0x54 => if v / 2 ^ 31 % 2 = 1 then s.outcome (execVrst vf s) else s
  | _ => s

/-- A write to the mailbox (R371). -/
def State.mailbox (s : State) (off : Nat) (value : W64) : State :=
  let v := value.toNat
  match off with
  | 0x04 =>
    let c := v % 16
    if s.mbBusy then s.mbResult rsBusy
    else
      let s := s.updGrotto (fun g => { g with cmd := c })
      if c = 1 then s.outcome (execUpdate s)
      else if c = 2 then s.outcome (execRecover s)
      else s.mbResult rsBadcmd
  | 0x08 => s.updGrotto (fun g => { g with arg0 := value })
  | 0x10 => s.updGrotto (fun g => { g with arg1 := value.setWidth 32 })
  | _ =>
    if 0x40 ≤ off && off + 8 ≤ 0x40 + flashSize && s.grotto.mbstate == .recovery then
      s.updGrotto (fun g => { g with rwin := bufWrite g.rwin (off - 0x40) (bytesOf64 value) })
    else s

/-- A write to a power block (R376). -/
def State.powerRegister (s : State) (die off : Nat) (value : W64) : State :=
  if off = 0x0C then (if value.toNat % 2 = 1 then s.updDie die (fun d => { d with refused := false }) else s)
  else if off = 0 || off = 4 || (0x40 ≤ off && off < 0x80 && off % 8 = 0) then
    s.outcome (execPowerPost false die off (value.setWidth 32) s)
  else s

/-- A write to a Lumak block (R337, R339). -/
def State.lumakRegister (s : State) (port off : Nat) (value : W64) : State :=
  let v := value.toNat
  match off with
  | 0x00 => s.updPort port (fun p => { p with loutEn := v / 2 ^ 63 % 2 = 1 })
  | 0x08 => s.updPort port (fun p =>
      { p with linEn := v / 2 ^ 63 % 2 = 1, linVf := v / 2 ^ 48 % 64, linLim := v / 2 ^ 30 % 2 ^ 18, linBase := v % 2 ^ 18 })
  | 0x10 => if v / 2 ^ 63 % 2 = 1 then s.outcome (execRetrain port s) else s
  | _ => s

/-- A write to a RAS block (R391). -/
def State.rasRegister (s : State) (die off : Nat) (value : W64) : State :=
  if off = 0x40 then
    let s := if value.toNat / 2 ^ 31 % 2 = 1 then s.outcome (execClr die s) else s
    s.outcome (execPowerPost true die off (value.setWidth 32) s)
  else if off = 0x44 then s.outcome (execPowerPost true die off (value.setWidth 32) s)
  else s

/-- A write of a whole register of the PF's BAR0. -/
def State.pfRegister (s : State) (off : Nat) (value : W64) : State :=
  if 0x300000 ≤ off && off < 0x300040 + flashSize then s.mailbox (off - 0x300000) value
  else if !s.released then s
  else if 0x200000 ≤ off && off < 0x204000 then s.pfVfRegister ((off - 0x200000) / 0x100) (off % 0x100) value
  else if 0x3C0000 ≤ off && off < 0x3C2000 then s.powerRegister ((off - 0x3C0000) / 0x1000) (off % 0x1000) value
  else if 0x3D0000 ≤ off && off < 0x3D0180 then s.lumakRegister ((off - 0x3D0000) / 0x20) (off % 0x20) value
  else if 0x400000 ≤ off && off < 0x402000 then s.rasRegister ((off - 0x400000) / 0x1000) (off % 0x1000) value
  else
    match Config.granuleAt off with
    | some g => if g < 384 then { s with granules := match Config.granuleOwner value with
        | some v => s.granules.put g (v % 64)
        | none => s.granules.del g } else s
    | none => s

/-- REGISTER_WRITE. -/
def execRegisterWrite (pf : Bool) (vf off : Nat) (value : W64) (s : State) : Host.Outcome State Fault Refusal :=
  .next (if pf then s.pfRegister off value
  else if !s.released then s
  else if 0x10000 ≤ off && off < 0x50000 && off % 0x1000 = 0 then
    s.outcome (execNotify vf ((off - 0x10000) / 0x1000) (value.setWidth 32) s)
  else s.vfRegister vf off value)

end Sys2Proof.Machine
end

