-- ==== Sys2Proof/Machine/Collectives.lean ====
section
/-! DEFINITION. What the core does on its own between issues: issue aging (R21), join releases (R25), the moves of REGROUP and
REGROUP.RESTORE (R33, R34), and ALLOCREG's deadlock rule (R40). -/

namespace Sys2Proof.Machine

/-- The cohorts of a core run: its die has clocks and the slice has not ended (R357, R370, R385). -/
def State.coreRuns (s : State) (core : Nat) : Bool := s.clocked (dieOf core) && !s.stopping

/-- A ready cohort that has not issued for 1,024 clocks of its quarter is chosen first, in the order in which cohorts reach this
state (R21). -/
def State.ageIssue (s : State) (slot : Nat) : State :=
  match s.cohort slot with
  | none => s
  | some co =>
    if 1024 ≤ co.idle && co.aged.isNone && s.coreRuns (coreOf slot) then
      let (n, s) := s.fresh
      s.setCohort slot { co with aged := some n }
    else s

/-- ISSUE_AGING (R21). -/
def execIssueAging (slot : Nat) (s : State) : Host.Outcome State Fault Refusal := .next (s.ageIssue slot)

/-- Once every non-exited member of a join is held, all are released together (R25, R26). -/
def State.releaseJoin (s : State) (slot n : Nat) : State :=
  match s.cohort slot with
  | none => s
  | some co =>
    if co.joinDue n && co.park.isNone && s.coreRuns (coreOf slot) then s.setCohort slot (co.release n) else s

/-- JOIN_RELEASE (R25), with the access to the meet extension where it pops entries that stand there (R29, R334). -/
def execJoinRelease (slot n : Nat) (s : State) : Host.Outcome State Fault Refusal :=
  .next ((s.releaseJoin slot n).extAccesses (s.cohorts.filter (fun p => p.1 == slot)))

/-! ### Regrouping (R33, R34) -/

/-- A lane position of a block. -/
structure Seat where
  slot  : Nat
  cohid : Nat
  lane  : Nat
  deriving DecidableEq, Repr, Inhabited

/-- The lane positions of a block in slices that still hold their registers, in rising (COHID, LANEID) (R33: Q). -/
def State.seats (s : State) (b : Block) : List Seat :=
  (List.range b.slots.length).flatMap (fun k =>
    match (b.slots.getD k none).bind (fun sl => (s.cohort sl).map (fun co => (sl, co))) with
    | some (sl, co) =>
      (lanes32.filter (fun l => co.slices.getLsbD (l / 8))).map (fun l => { slot := sl, cohid := k, lane := l })
    | none => [])

/-- The lane at a position. -/
def State.laneOf (s : State) (x : Seat) : Lane := ((s.cohort x.slot).map (fun co => co.lane x.lane)).getD {}

/-- Whether a position holds a lane that has not exited. -/
def State.occupied (s : State) (x : Seat) : Bool := ((s.cohort x.slot).map (fun co => co.live.has x.lane)).getD false

/-- A register of a position's lane. -/
def State.regAt (s : State) (x : Seat) (r : Nat) : W32 := ((s.cohort x.slot).map (fun co => (co.v r).at x.lane)).getD 0

/-- A predicate of a position's lane. -/
def State.predAt (s : State) (x : Seat) (n : Nat) : Bool := ((s.cohort x.slot).map (fun co => (co.p n).has x.lane)).getD false

/-- The moves of a REGROUP, destination first: the lanes in rising (key, TID) to the positions in order (R33). -/
def State.regroupMoves (s : State) (b : Block) (c : Collective) : List (Seat × Seat) :=
  let q := s.seats b
  q.zip (sortLex (fun x => [(s.regAt x c.key).toNat, (s.laneOf x).tid]) (q.filter s.occupied))

/-- The moves of a REGROUP.RESTORE: every lane to its launch position (R34). -/
def State.restoreMoves (s : State) (b : Block) : List (Seat × Seat) :=
  ((s.seats b).filter s.occupied).filterMap (fun x =>
    let t := (s.laneOf x).tid
    (b.slots.getD (t / 32) none).map (fun sl => ({ slot := sl, cohid := t / 32, lane := t % 32 }, x)))

/-- The position whose lane moves to a lane of a slot. -/
def comesFrom (moves : List (Seat × Seat)) (slot l : Nat) : Option Seat :=
  (moves.find? (fun m => m.1.slot == slot && m.1.lane == l)).map (·.2)

/-- A cohort after the lanes have moved (R33): V0 to V(G-1), P1 to P95, PC, MR and the meet stack go with the lane; narrow
registers, tiles, descriptors, counters and joins stay. A position that no lane moved to is empty. -/
def State.regrouped (s : State) (moves : List (Seat × Seat)) (c : Collective) (slot : Nat) (co : Cohort) : Cohort :=
  let src := lanes32.map (comesFrom moves slot)
  let at_ (l : Nat) : Option Seat := src.getD l none
  let filled := maskOf (fun l => (at_ l).isSome)
  let lanes := lanes32.map (fun l =>
    match at_ l with
    | some x => { s.laneOf x with pc := c.next, waitj := none }
    | none => co.lane l)
  let reg (r : Nat) : VVal := VVal.ofFn (fun l =>
    match at_ l with
    | some x => s.regAt x r
    | none => (co.v r).at l)
  let pred (n : Nat) : Mask := maskOf (fun l =>
    match at_ l with
    | some x => s.predAt x n
    | none => (co.p n).has l)
  let co := (List.range co.g).foldl (fun acc r => acc.setV r (reg r)) co
  let co := (List.range 95).foldl (fun acc i => acc.setP (i + 1) (BitVec.allOnes 32) (pred (i + 1))) co
  { co with lanes := lanes, exited := ~~~ filled, absent := co.absent &&& ~~~ filled, vacant := filled = 0,
            hmode := co.hmode && filled != 0, hlanes := if co.hmode then filled else 0,
            curMask := BitVec.allOnes 32, curCount := 0, elected := [], waits := [] }

/-- The regrouping table after the moves: cohort and LANEID by TID (R33). -/
def State.regroupTable (s : State) (b : Block) (moves : List (Seat × Seat)) : List Nat :=
  (List.range b.nlanes).map (fun t =>
    match moves.find? (fun m => (s.laneOf m.2).tid == t) with
    | some m => m.1.cohid * 32 + m.1.lane
    | none => t)

/-- A cohort still waits at a collective: it has not parked or left for a handler meanwhile (R32, R299). -/
def Cohort.waitsAt (co : Cohort) (c : Collective) : Bool :=
  co.park.isNone && ((co.waitAt c.offset).map (fun r => r.kind == .collective)).getD false

/-- The collective of a block whose cohorts have all arrived and wait, with their four counters at zero and no report of the
Aster engine still to be raised (R32, R33, R299). -/
def State.collReady (s : State) (bi : Nat) (restore : Bool) : Option (Block × Collective) := do
  let b ← s.block bi
  let c ← b.coll
  if c.restore == restore && !b.killed && s.coreRuns b.core &&
      (s.livingCohorts bi).all (fun p => c.arrived.contains p.2.cohid && p.2.waitsAt c) &&
      (s.blockCohorts bi).all (fun p => p.2.idleEngines && p.2.vglimit.isEmpty) then some (b, c)
  else none

/-- REGROUP_MOVE (R33). -/
def execRegroupMove (blk : Nat) (s : State) : Host.Outcome State Fault Refusal :=
  match s.collReady blk false with
  | none => .next s
  | some (b, c) =>
    let moves := s.regroupMoves b c
    let t := { s with
      cohorts := s.cohorts.mapVals (fun k co => if co.blk = blk then s.regrouped moves c k co else co),
      blocks := s.blocks.put blk { b with coll := none, table := some (s.regroupTable b moves) } }
    .next (t.extAccesses (s.blockCohorts blk))

/-- REGROUP_RESTORE_MOVE (R34): the lanes go home, the table is cleared, and slices whose lanes have all exited return their
registers. -/
def execRegroupRestoreMove (blk : Nat) (s : State) : Host.Outcome State Fault Refusal :=
  match s.collReady blk true with
  | none => .next s
  | some (b, c) =>
    let moves := s.restoreMoves b
    let t := { s with
      cohorts := s.cohorts.mapVals (fun k co =>
        if co.blk = blk then { (s.regrouped moves c k co).freeSlices false with vacant := false } else co),
      blocks := s.blocks.put blk { b with coll := none, table := none } }
    .next (t.extAccesses (s.blockCohorts blk))

/-! ### The deadlock rule of ALLOCREG (R40) -/

/-- The wait of a cohort in ALLOCREG; one that has a VGLIMIT to raise before its next issue waits for nothing (R194, R299). -/
def Cohort.inAllocreg (co : Cohort) : Option WaitRec :=
  if co.vglimit.isEmpty then co.liveWaits.find? (fun r => r.kind == .registers) else none

/-- The cohort that the deadlock rule chooses: every resident cohort of the core that is not vacant waits in ALLOCREG, no
request fits, and it is the highest COHID of the youngest block. -/
def State.allocChosen (s : State) (core : Nat) : Option (Nat × Cohort × WaitRec) :=
  let cs := (s.coreCohorts core).filter (fun p => !p.2.vacant)
  let ws := cs.filterMap (fun p => p.2.inAllocreg.map (fun r => (p.1, p.2, r)))
  let age (x : Nat × Cohort × WaitRec) : Nat := ((s.block x.2.1.blk).map (·.age)).getD 0
  if ws.length = cs.length && ws.all (fun x => s.slicePool core < x.2.2.need) then
    (sortLex (fun x => [age x, x.2.1.cohid]) ws).getLast?
  else none

/-- The fields of a word, as an extended word (R175). -/
def wordFields : RawWord → ExtWord
  | .base _ w => w.toExt
  | .ext _ w => w

/-- ALLOCREG_DEADLOCK (R40): the chosen ALLOCREG completes with Pd := false and its allocation unchanged. -/
def execAllocregDeadlock (core : Nat) (s : State) : Host.Outcome State Fault Refusal :=
  match (if s.coreRuns core then s.allocChosen core else none) with
  | none => .next s
  | some (slot, co, r) =>
    match (s.block co.blk).bind (fun b => (s.kernelOf b).map (fun k => (b, k))) with
    | none => .next s
    | some (b, k) =>
      match s.fetchAt core b.vf k.code k.csize r.pc with
      | .ok bs =>
        match rawWord bs with
        | some w => .next ((s.setCohort slot (co.setP (wordFields w).d.toNat co.live 0)).advance slot co.live r.pc
            (r.pc + BitVec.ofNat 32 w.size) [])
        | none => .next s
      | _ => .next s

end Sys2Proof.Machine
end

