-- ==== Sys2Proof/Machine/Dispatch.lean ====
section
/-! DEFINITION. The meaning of each instruction: one arm for each constructor. -/

namespace Sys2Proof.Machine

def exec (i : Instr) (s : State) : Host.Outcome State Fault Refusal :=
  match i with
  | .mov w => Sys2Proof.Machine.execMov w s
  | .movExt w => Sys2Proof.Machine.execMovExt w s
  | .movl w => Sys2Proof.Machine.execMovl w s
  | .movlExt w => Sys2Proof.Machine.execMovlExt w s
  | .gets w => Sys2Proof.Machine.execGets w s
  | .getsExt w => Sys2Proof.Machine.execGetsExt w s
  | .sets w => Sys2Proof.Machine.execSets w s
  | .setsExt w => Sys2Proof.Machine.execSetsExt w s
  | .sel w => Sys2Proof.Machine.execSel w s
  | .laneof w => Sys2Proof.Machine.execLaneof w s
  | .laneofExt w => Sys2Proof.Machine.execLaneofExt w s
  | .nop w => Sys2Proof.Machine.execNop w s
  | .nopExt w => Sys2Proof.Machine.execNopExt w s
  | .bra w => Sys2Proof.Machine.execBra w s
  | .braExt w => Sys2Proof.Machine.execBraExt w s
  | .brx w => Sys2Proof.Machine.execBrx w s
  | .brxExt w => Sys2Proof.Machine.execBrxExt w s
  | .call w => Sys2Proof.Machine.execCall w s
  | .callExt w => Sys2Proof.Machine.execCallExt w s
  | .callx w => Sys2Proof.Machine.execCallx w s
  | .callxExt w => Sys2Proof.Machine.execCallxExt w s
  | .ret w => Sys2Proof.Machine.execRet w s
  | .retExt w => Sys2Proof.Machine.execRetExt w s
  | .meet w => Sys2Proof.Machine.execMeet w s
  | .meetExt w => Sys2Proof.Machine.execMeetExt w s
  | .waitj w => Sys2Proof.Machine.execWaitj w s
  | .waitjExt w => Sys2Proof.Machine.execWaitjExt w s
  | .exit w => Sys2Proof.Machine.execExit w s
  | .exitExt w => Sys2Proof.Machine.execExitExt w s
  | .trap w => Sys2Proof.Machine.execTrap w s
  | .trapExt w => Sys2Proof.Machine.execTrapExt w s
  | .bkpt w => Sys2Proof.Machine.execBkpt w s
  | .bkptExt w => Sys2Proof.Machine.execBkptExt w s
  | .xret w => Sys2Proof.Machine.execXret w s
  | .xretExt w => Sys2Proof.Machine.execXretExt w s
  | .iadd w => Sys2Proof.Machine.execIadd w s
  | .iaddExt w => Sys2Proof.Machine.execIaddExt w s
  | .isub w => Sys2Proof.Machine.execIsub w s
  | .isubExt w => Sys2Proof.Machine.execIsubExt w s
  | .imul w => Sys2Proof.Machine.execImul w s
  | .imulExt w => Sys2Proof.Machine.execImulExt w s
  | .imulh w => Sys2Proof.Machine.execImulh w s
  | .imulhExt w => Sys2Proof.Machine.execImulhExt w s
  | .imad w => Sys2Proof.Machine.execImad w s
  | .idiv w => Sys2Proof.Machine.execIdiv w s
  | .idivExt w => Sys2Proof.Machine.execIdivExt w s
  | .irem w => Sys2Proof.Machine.execIrem w s
  | .iremExt w => Sys2Proof.Machine.execIremExt w s
  | .imin w => Sys2Proof.Machine.execImin w s
  | .iminExt w => Sys2Proof.Machine.execIminExt w s
  | .imax w => Sys2Proof.Machine.execImax w s
  | .imaxExt w => Sys2Proof.Machine.execImaxExt w s
  | .iabs w => Sys2Proof.Machine.execIabs w s
  | .iabsExt w => Sys2Proof.Machine.execIabsExt w s
  | .ineg w => Sys2Proof.Machine.execIneg w s
  | .inegExt w => Sys2Proof.Machine.execInegExt w s
  | .iadd64 w => Sys2Proof.Machine.execIadd64 w s
  | .iadd64Ext w => Sys2Proof.Machine.execIadd64Ext w s
  | .imad64 w => Sys2Proof.Machine.execImad64 w s
  | .lea w => Sys2Proof.Machine.execLea w s
  | .leaExt w => Sys2Proof.Machine.execLeaExt w s
  | .lea64 w => Sys2Proof.Machine.execLea64 w s
  | .lea64Ext w => Sys2Proof.Machine.execLea64Ext w s
  | .and w => Sys2Proof.Machine.execAnd w s
  | .andExt w => Sys2Proof.Machine.execAndExt w s
  | .or w => Sys2Proof.Machine.execOr w s
  | .orExt w => Sys2Proof.Machine.execOrExt w s
  | .xor w => Sys2Proof.Machine.execXor w s
  | .xorExt w => Sys2Proof.Machine.execXorExt w s
  | .not w => Sys2Proof.Machine.execNot w s
  | .notExt w => Sys2Proof.Machine.execNotExt w s
  | .andn w => Sys2Proof.Machine.execAndn w s
  | .andnExt w => Sys2Proof.Machine.execAndnExt w s
  | .shl w => Sys2Proof.Machine.execShl w s
  | .shlExt w => Sys2Proof.Machine.execShlExt w s
  | .shr w => Sys2Proof.Machine.execShr w s
  | .shrExt w => Sys2Proof.Machine.execShrExt w s
  | .sar w => Sys2Proof.Machine.execSar w s
  | .sarExt w => Sys2Proof.Machine.execSarExt w s
  | .rot w => Sys2Proof.Machine.execRot w s
  | .rotExt w => Sys2Proof.Machine.execRotExt w s
  | .popc w => Sys2Proof.Machine.execPopc w s
  | .popcExt w => Sys2Proof.Machine.execPopcExt w s
  | .clz w => Sys2Proof.Machine.execClz w s
  | .clzExt w => Sys2Proof.Machine.execClzExt w s
  | .ctz w => Sys2Proof.Machine.execCtz w s
  | .ctzExt w => Sys2Proof.Machine.execCtzExt w s
  | .brev w => Sys2Proof.Machine.execBrev w s
  | .brevExt w => Sys2Proof.Machine.execBrevExt w s
  | .bfe w => Sys2Proof.Machine.execBfe w s
  | .bfi w => Sys2Proof.Machine.execBfi w s
  | .permb w => Sys2Proof.Machine.execPermb w s
  | .iset w => Sys2Proof.Machine.execIset w s
  | .isetExt w => Sys2Proof.Machine.execIsetExt w s
  | .fset w => Sys2Proof.Machine.execFset w s
  | .fsetExt w => Sys2Proof.Machine.execFsetExt w s
  | .fcls w => Sys2Proof.Machine.execFcls w s
  | .pand w => Sys2Proof.Machine.execPand w s
  | .pandExt w => Sys2Proof.Machine.execPandExt w s
  | .por w => Sys2Proof.Machine.execPor w s
  | .porExt w => Sys2Proof.Machine.execPorExt w s
  | .pxor w => Sys2Proof.Machine.execPxor w s
  | .pxorExt w => Sys2Proof.Machine.execPxorExt w s
  | .pnot w => Sys2Proof.Machine.execPnot w s
  | .pnotExt w => Sys2Proof.Machine.execPnotExt w s
  | .ptov w => Sys2Proof.Machine.execPtov w s
  | .ptovExt w => Sys2Proof.Machine.execPtovExt w s
  | .vtop w => Sys2Proof.Machine.execVtop w s
  | .vtopExt w => Sys2Proof.Machine.execVtopExt w s
  | .lxchIdx w => Sys2Proof.Machine.execLxchIdx w s
  | .lxchIdxExt w => Sys2Proof.Machine.execLxchIdxExt w s
  | .lxchUp w => Sys2Proof.Machine.execLxchUp w s
  | .lxchUpExt w => Sys2Proof.Machine.execLxchUpExt w s
  | .lxchDown w => Sys2Proof.Machine.execLxchDown w s
  | .lxchDownExt w => Sys2Proof.Machine.execLxchDownExt w s
  | .lxchXor w => Sys2Proof.Machine.execLxchXor w s
  | .lxchXorExt w => Sys2Proof.Machine.execLxchXorExt w s
  | .bcast w => Sys2Proof.Machine.execBcast w s
  | .bcastExt w => Sys2Proof.Machine.execBcastExt w s
  | .voteAll w => Sys2Proof.Machine.execVoteAll w s
  | .voteAllExt w => Sys2Proof.Machine.execVoteAllExt w s
  | .voteAny w => Sys2Proof.Machine.execVoteAny w s
  | .voteAnyExt w => Sys2Proof.Machine.execVoteAnyExt w s
  | .voteBal w => Sys2Proof.Machine.execVoteBal w s
  | .voteBalExt w => Sys2Proof.Machine.execVoteBalExt w s
  | .matchLanes w => Sys2Proof.Machine.execMatchLanes w s
  | .matchLanesExt w => Sys2Proof.Machine.execMatchLanesExt w s
  | .lcomp w => Sys2Proof.Machine.execLcomp w s
  | .lcompExt w => Sys2Proof.Machine.execLcompExt w s
  | .regroup w => Sys2Proof.Machine.execRegroup w s
  | .regroupExt w => Sys2Proof.Machine.execRegroupExt w s
  | .regroupRestore w => Sys2Proof.Machine.execRegroupRestore w s
  | .regroupRestoreExt w => Sys2Proof.Machine.execRegroupRestoreExt w s
  | .fadd w => Sys2Proof.Machine.execFadd w s
  | .faddExt w => Sys2Proof.Machine.execFaddExt w s
  | .fsub w => Sys2Proof.Machine.execFsub w s
  | .fsubExt w => Sys2Proof.Machine.execFsubExt w s
  | .fmul w => Sys2Proof.Machine.execFmul w s
  | .fmulExt w => Sys2Proof.Machine.execFmulExt w s
  | .ffma w => Sys2Proof.Machine.execFfma w s
  | .fmin w => Sys2Proof.Machine.execFmin w s
  | .fminExt w => Sys2Proof.Machine.execFminExt w s
  | .fmax w => Sys2Proof.Machine.execFmax w s
  | .fmaxExt w => Sys2Proof.Machine.execFmaxExt w s
  | .fabs w => Sys2Proof.Machine.execFabs w s
  | .fabsExt w => Sys2Proof.Machine.execFabsExt w s
  | .fneg w => Sys2Proof.Machine.execFneg w s
  | .fnegExt w => Sys2Proof.Machine.execFnegExt w s
  | .frnd w => Sys2Proof.Machine.execFrnd w s
  | .frndExt w => Sys2Proof.Machine.execFrndExt w s
  | .fdiv w => Sys2Proof.Machine.execFdiv w s
  | .fdivExt w => Sys2Proof.Machine.execFdivExt w s
  | .fsqrt w => Sys2Proof.Machine.execFsqrt w s
  | .fsqrtExt w => Sys2Proof.Machine.execFsqrtExt w s
  | .frcp w => Sys2Proof.Machine.execFrcp w s
  | .frcpExt w => Sys2Proof.Machine.execFrcpExt w s
  | .frsq w => Sys2Proof.Machine.execFrsq w s
  | .frsqExt w => Sys2Proof.Machine.execFrsqExt w s
  | .setfp w => Sys2Proof.Machine.execSetfp w s
  | .setfpExt w => Sys2Proof.Machine.execSetfpExt w s
  | .fex2 w => Sys2Proof.Machine.execFex2 w s
  | .fex2Ext w => Sys2Proof.Machine.execFex2Ext w s
  | .flg2 w => Sys2Proof.Machine.execFlg2 w s
  | .flg2Ext w => Sys2Proof.Machine.execFlg2Ext w s
  | .fsin w => Sys2Proof.Machine.execFsin w s
  | .fsinExt w => Sys2Proof.Machine.execFsinExt w s
  | .fcos w => Sys2Proof.Machine.execFcos w s
  | .fcosExt w => Sys2Proof.Machine.execFcosExt w s
  | .ftanh w => Sys2Proof.Machine.execFtanh w s
  | .ftanhExt w => Sys2Proof.Machine.execFtanhExt w s
  | .phadd w => Sys2Proof.Machine.execPhadd w s
  | .phaddExt w => Sys2Proof.Machine.execPhaddExt w s
  | .phmul w => Sys2Proof.Machine.execPhmul w s
  | .phmulExt w => Sys2Proof.Machine.execPhmulExt w s
  | .phfma w => Sys2Proof.Machine.execPhfma w s
  | .pbadd w => Sys2Proof.Machine.execPbadd w s
  | .pbaddExt w => Sys2Proof.Machine.execPbaddExt w s
  | .pbmul w => Sys2Proof.Machine.execPbmul w s
  | .pbmulExt w => Sys2Proof.Machine.execPbmulExt w s
  | .pbfma w => Sys2Proof.Machine.execPbfma w s
  | .cvt w => Sys2Proof.Machine.execCvt w s
  | .qnt w => Sys2Proof.Machine.execQnt w s
  | .dqnt w => Sys2Proof.Machine.execDqnt w s
  | .pk6 w => Sys2Proof.Machine.execPk6 w s
  | .pk6Ext w => Sys2Proof.Machine.execPk6Ext w s
  | .upk6 w => Sys2Proof.Machine.execUpk6 w s
  | .upk6Ext w => Sys2Proof.Machine.execUpk6Ext w s
  | .pkb w => Sys2Proof.Machine.execPkb w s
  | .pkbExt w => Sys2Proof.Machine.execPkbExt w s
  | .upkb w => Sys2Proof.Machine.execUpkb w s
  | .upkbExt w => Sys2Proof.Machine.execUpkbExt w s
  | .ld w => Sys2Proof.Machine.execLd w s
  | .ldExt w => Sys2Proof.Machine.execLdExt w s
  | .st w => Sys2Proof.Machine.execSt w s
  | .stExt w => Sys2Proof.Machine.execStExt w s
  | .ldq w => Sys2Proof.Machine.execLdq w s
  | .lds w => Sys2Proof.Machine.execLds w s
  | .ldsExt w => Sys2Proof.Machine.execLdsExt w s
  | .sts w => Sys2Proof.Machine.execSts w s
  | .stsExt w => Sys2Proof.Machine.execStsExt w s
  | .ldsPeer w => Sys2Proof.Machine.execLdsPeer w s
  | .stsPeer w => Sys2Proof.Machine.execStsPeer w s
  | .ldw w => Sys2Proof.Machine.execLdw w s
  | .ldwExt w => Sys2Proof.Machine.execLdwExt w s
  | .atomAdd w => Sys2Proof.Machine.execAtomAdd w s
  | .atomAddExt w => Sys2Proof.Machine.execAtomAddExt w s
  | .atomFadd w => Sys2Proof.Machine.execAtomFadd w s
  | .atomFaddExt w => Sys2Proof.Machine.execAtomFaddExt w s
  | .atomMin w => Sys2Proof.Machine.execAtomMin w s
  | .atomMinExt w => Sys2Proof.Machine.execAtomMinExt w s
  | .atomMax w => Sys2Proof.Machine.execAtomMax w s
  | .atomMaxExt w => Sys2Proof.Machine.execAtomMaxExt w s
  | .atomAnd w => Sys2Proof.Machine.execAtomAnd w s
  | .atomAndExt w => Sys2Proof.Machine.execAtomAndExt w s
  | .atomOr w => Sys2Proof.Machine.execAtomOr w s
  | .atomOrExt w => Sys2Proof.Machine.execAtomOrExt w s
  | .atomXor w => Sys2Proof.Machine.execAtomXor w s
  | .atomXorExt w => Sys2Proof.Machine.execAtomXorExt w s
  | .atomXchg w => Sys2Proof.Machine.execAtomXchg w s
  | .atomXchgExt w => Sys2Proof.Machine.execAtomXchgExt w s
  | .atomCas w => Sys2Proof.Machine.execAtomCas w s
  | .redAdd w => Sys2Proof.Machine.execRedAdd w s
  | .redAddExt w => Sys2Proof.Machine.execRedAddExt w s
  | .redFadd w => Sys2Proof.Machine.execRedFadd w s
  | .redFaddExt w => Sys2Proof.Machine.execRedFaddExt w s
  | .redMin w => Sys2Proof.Machine.execRedMin w s
  | .redMinExt w => Sys2Proof.Machine.execRedMinExt w s
  | .redMax w => Sys2Proof.Machine.execRedMax w s
  | .redMaxExt w => Sys2Proof.Machine.execRedMaxExt w s
  | .redAnd w => Sys2Proof.Machine.execRedAnd w s
  | .redAndExt w => Sys2Proof.Machine.execRedAndExt w s
  | .redOr w => Sys2Proof.Machine.execRedOr w s
  | .redOrExt w => Sys2Proof.Machine.execRedOrExt w s
  | .redXor w => Sys2Proof.Machine.execRedXor w s
  | .redXorExt w => Sys2Proof.Machine.execRedXorExt w s
  | .fenceCoh w => Sys2Proof.Machine.execFenceCoh w s
  | .fenceCohExt w => Sys2Proof.Machine.execFenceCohExt w s
  | .fenceBlk w => Sys2Proof.Machine.execFenceBlk w s
  | .fenceBlkExt w => Sys2Proof.Machine.execFenceBlkExt w s
  | .fenceCore w => Sys2Proof.Machine.execFenceCore w s
  | .fenceCoreExt w => Sys2Proof.Machine.execFenceCoreExt w s
  | .fenceClu w => Sys2Proof.Machine.execFenceClu w s
  | .fenceCluExt w => Sys2Proof.Machine.execFenceCluExt w s
  | .fenceDie w => Sys2Proof.Machine.execFenceDie w s
  | .fenceDieExt w => Sys2Proof.Machine.execFenceDieExt w s
  | .fenceDev w => Sys2Proof.Machine.execFenceDev w s
  | .fenceDevExt w => Sys2Proof.Machine.execFenceDevExt w s
  | .fenceSys w => Sys2Proof.Machine.execFenceSys w s
  | .fenceSysExt w => Sys2Proof.Machine.execFenceSysExt w s
  | .barInit w => Sys2Proof.Machine.execBarInit w s
  | .barInitExt w => Sys2Proof.Machine.execBarInitExt w s
  | .barArr w => Sys2Proof.Machine.execBarArr w s
  | .barArrExt w => Sys2Proof.Machine.execBarArrExt w s
  | .barWait w => Sys2Proof.Machine.execBarWait w s
  | .barWaitExt w => Sys2Proof.Machine.execBarWaitExt w s
  | .barXin w => Sys2Proof.Machine.execBarXin w s
  | .barXinExt w => Sys2Proof.Machine.execBarXinExt w s
  | .barXout w => Sys2Proof.Machine.execBarXout w s
  | .barXoutExt w => Sys2Proof.Machine.execBarXoutExt w s
  | .cpy w => Sys2Proof.Machine.execCpy w s
  | .cpym w => Sys2Proof.Machine.execCpym w s
  | .cpyo w => Sys2Proof.Machine.execCpyo w s
  | .cpyp w => Sys2Proof.Machine.execCpyp w s
  | .waitoc w => Sys2Proof.Machine.execWaitoc w s
  | .waitocExt w => Sys2Proof.Machine.execWaitocExt w s
  | .rdwp w => Sys2Proof.Machine.execRdwp w s
  | .rdwpExt w => Sys2Proof.Machine.execRdwpExt w s
  | .waitwp w => Sys2Proof.Machine.execWaitwp w s
  | .waitwpExt w => Sys2Proof.Machine.execWaitwpExt w s
  | .txb w => Sys2Proof.Machine.execTxb w s
  | .txbExt w => Sys2Proof.Machine.execTxbExt w s
  | .txc w => Sys2Proof.Machine.execTxc w s
  | .txcExt w => Sys2Proof.Machine.execTxcExt w s
  | .txa w => Sys2Proof.Machine.execTxa w s
  | .txaExt w => Sys2Proof.Machine.execTxaExt w s
  | .txw w => Sys2Proof.Machine.execTxw w s
  | .txwExt w => Sys2Proof.Machine.execTxwExt w s
  | .gchk w => Sys2Proof.Machine.execGchk w s
  | .gchkExt w => Sys2Proof.Machine.execGchkExt w s
  | .dset w => Sys2Proof.Machine.execDset w s
  | .dsetExt w => Sys2Proof.Machine.execDsetExt w s
  | .dget w => Sys2Proof.Machine.execDget w s
  | .dgetExt w => Sys2Proof.Machine.execDgetExt w s
  | .tzero w => Sys2Proof.Machine.execTzero w s
  | .tzeroExt w => Sys2Proof.Machine.execTzeroExt w s
  | .trd w => Sys2Proof.Machine.execTrd w s
  | .trdExt w => Sys2Proof.Machine.execTrdExt w s
  | .twr w => Sys2Proof.Machine.execTwr w s
  | .twrExt w => Sys2Proof.Machine.execTwrExt w s
  | .tcvt w => Sys2Proof.Machine.execTcvt w s
  | .mmaE4m3 w => Sys2Proof.Machine.execMmaE4m3 w s
  | .mmaE5m2 w => Sys2Proof.Machine.execMmaE5m2 w s
  | .mmaI8 w => Sys2Proof.Machine.execMmaI8 w s
  | .mmaBf16 w => Sys2Proof.Machine.execMmaBf16 w s
  | .mmaQ4a w => Sys2Proof.Machine.execMmaQ4a w s
  | .mmag w => Sys2Proof.Machine.execMmag w s
  | .mmas w => Sys2Proof.Machine.execMmas w s
  | .cmpr w => Sys2Proof.Machine.execCmpr w s
  | .mvt w => Sys2Proof.Machine.execMvt w s
  | .vga w => Sys2Proof.Machine.execVga w s
  | .nres w => Sys2Proof.Machine.execNres w s
  | .nresExt w => Sys2Proof.Machine.execNresExt w s
  | .allocreg w => Sys2Proof.Machine.execAllocreg w s
  | .allocregExt w => Sys2Proof.Machine.execAllocregExt w s
  | .freereg w => Sys2Proof.Machine.execFreereg w s
  | .freeregExt w => Sys2Proof.Machine.execFreeregExt w s
  | .wallet w => Sys2Proof.Machine.execWallet w s
  | .walletExt w => Sys2Proof.Machine.execWalletExt w s
  | .boost w => Sys2Proof.Machine.execBoost w s
  | .boostExt w => Sys2Proof.Machine.execBoostExt w s
  | .permits w => Sys2Proof.Machine.execPermits w s
  | .permitsExt w => Sys2Proof.Machine.execPermitsExt w s
  | .cycle w => Sys2Proof.Machine.execCycle w s
  | .cycleExt w => Sys2Proof.Machine.execCycleExt w s
  | .hint opc w => Sys2Proof.Machine.execHint opc w s
  | .hintExt opc w => Sys2Proof.Machine.execHintExt opc w s
  | .issueAging slot => Sys2Proof.Machine.execIssueAging slot s
  | .joinRelease slot n => Sys2Proof.Machine.execJoinRelease slot n s
  | .regroupMove blk => Sys2Proof.Machine.execRegroupMove blk s
  | .regroupRestoreMove blk => Sys2Proof.Machine.execRegroupRestoreMove blk s
  | .cohortSlotRelease slot => Sys2Proof.Machine.execCohortSlotRelease slot s
  | .allocregDeadlock core => Sys2Proof.Machine.execAllocregDeadlock core s
  | .priceLineAging slot => Sys2Proof.Machine.execPriceLineAging slot s
  | .tokenInject die => Sys2Proof.Machine.execTokenInject die s
  | .ringStation die station => Sys2Proof.Machine.execRingStation die station s
  | .tokenWithdraw die => Sys2Proof.Machine.execTokenWithdraw die s
  | .walletStarved core => Sys2Proof.Machine.execWalletStarved core s
  | .matrixPassGrant cluster => Sys2Proof.Machine.execMatrixPassGrant cluster s
  | .matrixRequestAging cluster op => Sys2Proof.Machine.execMatrixRequestAging cluster op s
  | .matrixPassWrite cluster op => Sys2Proof.Machine.execMatrixPassWrite cluster op s
  | .cmprComplete cluster op => Sys2Proof.Machine.execCmprComplete cluster op s
  | .swapOut blk => Sys2Proof.Machine.execSwapOut blk s
  | .swapIn vf core => Sys2Proof.Machine.execSwapIn vf core s
  | .take cluster launch => Sys2Proof.Machine.execTake cluster launch s
  | .downTake cluster launch => Sys2Proof.Machine.execDownTake cluster launch s
  | .steal cluster launch => Sys2Proof.Machine.execSteal cluster launch s
  | .leapfrog cluster launch victim => Sys2Proof.Machine.execLeapfrog cluster launch victim s
  | .blockDispatch cluster => Sys2Proof.Machine.execBlockDispatch cluster s
  | .inboxCopy blk => Sys2Proof.Machine.execInboxCopy blk s
  | .placementSearch launch => Sys2Proof.Machine.execPlacementSearch launch s
  | .phaseTurn launch => Sys2Proof.Machine.execPhaseTurn launch s
  | .copyStart core ch => Sys2Proof.Machine.execCopyStart core ch s
  | .copySourceReadDone core ch => Sys2Proof.Machine.execCopySourceReadDone core ch s
  | .copyComplete core ch => Sys2Proof.Machine.execCopyComplete core ch s
  | .copyFault core ch => Sys2Proof.Machine.execCopyFault core ch s
  | .barrierWave cluster => Sys2Proof.Machine.execBarrierWave cluster s
  | .redApply req => Sys2Proof.Machine.execRedApply req s
  | .vgaComplete cluster => Sys2Proof.Machine.execVgaComplete cluster s
  | .txConflict slot => Sys2Proof.Machine.execTxConflict slot s
  | .faultRecordPost vf => Sys2Proof.Machine.execFaultRecordPost vf s
  | .notify vf q value => Sys2Proof.Machine.execNotify vf q value s
  | .queueFetch => Sys2Proof.Machine.execQueueFetch s
  | .pad vf q => Sys2Proof.Machine.execPad vf q s
  | .launch vf q => Sys2Proof.Machine.execLaunch vf q s
  | .launchStart launch => Sys2Proof.Machine.execLaunchStart launch s
  | .waitmem vf q => Sys2Proof.Machine.execWaitmem vf q s
  | .waitmemPoll vf q => Sys2Proof.Machine.execWaitmemPoll vf q s
  | .signalmem vf q => Sys2Proof.Machine.execSignalmem vf q s
  | .fence vf q => Sys2Proof.Machine.execFence vf q s
  | .qctlIntr vf q => Sys2Proof.Machine.execQctlIntr vf q s
  | .qctlStop vf q => Sys2Proof.Machine.execQctlStop vf q s
  | .queueReset vf q => Sys2Proof.Machine.execQueueReset vf q s
  | .registerWrite pf vf off value => Sys2Proof.Machine.execRegisterWrite pf vf off value s
  | .hostMemAccess addr acc => Sys2Proof.Machine.execHostMemAccess addr acc s
  | .lumakInbound port addr acc => Sys2Proof.Machine.execLumakInbound port addr acc s
  | .flitReplay port ok => Sys2Proof.Machine.execFlitReplay port ok s
  | .linkDrop port => Sys2Proof.Machine.execLinkDrop port s
  | .retrain port => Sys2Proof.Machine.execRetrain port s
  | .retry vf slot => Sys2Proof.Machine.execRetry vf slot s
  | .skip vf slot => Sys2Proof.Machine.execSkip vf slot s
  | .killblk vf slot => Sys2Proof.Machine.execKillblk vf slot s
  | .killlaunch vf slot => Sys2Proof.Machine.execKilllaunch vf slot s
  | .inval vf => Sys2Proof.Machine.execInval vf s
  | .invall vf => Sys2Proof.Machine.execInvall vf s
  | .vrst vf => Sys2Proof.Machine.execVrst vf s
  | .quantumWrite vf value => Sys2Proof.Machine.execQuantumWrite vf value s
  | .pageWalk core va acc => Sys2Proof.Machine.execPageWalk core va acc s
  | .sliceEnd => Sys2Proof.Machine.execSliceEnd s
  | .sliceSwitch => Sys2Proof.Machine.execSliceSwitch s
  | .eccUncorrectable site => Sys2Proof.Machine.execEccUncorrectable site s
  | .eccCorrectable die cls frame => Sys2Proof.Machine.execEccCorrectable die cls frame s
  | .patrolScrub die => Sys2Proof.Machine.execPatrolScrub die s
  | .clr die => Sys2Proof.Machine.execClr die s
  | .logFlush => Sys2Proof.Machine.execLogFlush s
  | .coldReset => Sys2Proof.Machine.execColdReset s
  | .warmReset => Sys2Proof.Machine.execWarmReset s
  | .update => Sys2Proof.Machine.execUpdate s
  | .recover => Sys2Proof.Machine.execRecover s
  | .getVersion => Sys2Proof.Machine.execGetVersion s
  | .getCapabilities => Sys2Proof.Machine.execGetCapabilities s
  | .negotiateAlgorithms => Sys2Proof.Machine.execNegotiateAlgorithms s
  | .getDigests => Sys2Proof.Machine.execGetDigests s
  | .getCertificate => Sys2Proof.Machine.execGetCertificate s
  | .challenge nonce => Sys2Proof.Machine.execChallenge nonce s
  | .getMeasurements request => Sys2Proof.Machine.execGetMeasurements request s
  | .slhsig => Sys2Proof.Machine.execSlhsig s
  | .powerPost ras die off value => Sys2Proof.Machine.execPowerPost ras die off value s
  | .grottoApply => Sys2Proof.Machine.execGrottoApply s
  | .energyloRead die => Sys2Proof.Machine.execEnergyloRead die s
  | .poolBoundary die => Sys2Proof.Machine.execPoolBoundary die s
  | .clusterBoundary cluster => Sys2Proof.Machine.execClusterBoundary cluster s
  | .biasSettle cluster => Sys2Proof.Machine.execBiasSettle cluster s
  | .thermalSample die tmax => Sys2Proof.Machine.execThermalSample die tmax s
  | .copyDeliver core ch n => Sys2Proof.Machine.execCopyDeliver core ch n s
  | .illegalEncoding => Sys2Proof.Machine.execIllegalEncoding s
  | .fetchFault why => Sys2Proof.Machine.execFetchFault why s
  | .linkTrained port lanes => Sys2Proof.Machine.execLinkTrained port lanes s
  | .powerLoss flashTorn => Sys2Proof.Machine.execPowerLoss flashTorn s

end Sys2Proof.Machine
end

