-- ==== Sys2Proof/Machine/Runs.lean ====
section
/-! DEFINITION. Running the bytes of an instruction: what the decoder reads, executed. The constructors' tables of Forms have no
compiled code, so a table of meanings by opcode, proved equal to them, stands in when the model is run. -/

namespace Sys2Proof.Machine

/-- The outcome of an instruction. -/
abbrev Res := Host.Outcome State Fault Refusal

/-- The instruction a word is, executed; a word that is no instruction of any row raises ILLEGAL (R190). -/
noncomputable def runWord (r : RawWord) (s : State) : Res :=
  match r.refusal with
  | some _ => exec .illegalEncoding s
  | none =>
    match r.instr with
    | some i => exec i s
    | none => exec .illegalEncoding s

/-- The meanings of the base rows 00 to 0F. -/
def baseRuns0 : List (Nat × (BaseWord → State → Res)) :=
  [(0x01, execMov),
   (0x02, execMovl),
   (0x03, execGets),
   (0x04, execSets),
   (0x06, execLaneof),
   (0x07, execNop)]

theorem baseRuns0_eq : baseRuns0 = (Instr.baseRows0).map (fun p => (p.1, fun w s => exec (p.2 w) s)) := rfl

/-- The meanings of the base rows 10 to 1F. -/
def baseRuns1 : List (Nat × (BaseWord → State → Res)) :=
  [(0x10, execBra),
   (0x11, execBrx),
   (0x12, execCall),
   (0x13, execCallx),
   (0x14, execRet),
   (0x15, execMeet),
   (0x16, execWaitj),
   (0x17, execExit),
   (0x18, execTrap),
   (0x19, execBkpt),
   (0x1A, execXret)]

theorem baseRuns1_eq : baseRuns1 = (Instr.baseRows1).map (fun p => (p.1, fun w s => exec (p.2 w) s)) := rfl

/-- The meanings of the base rows 20 to 2F. -/
def baseRuns2 : List (Nat × (BaseWord → State → Res)) :=
  [(0x20, execIadd),
   (0x21, execIsub),
   (0x22, execImul),
   (0x23, execImulh),
   (0x25, execIdiv),
   (0x26, execIrem),
   (0x27, execImin),
   (0x28, execImax),
   (0x29, execIabs),
   (0x2A, execIneg),
   (0x2B, execIadd64),
   (0x2D, execLea),
   (0x2E, execLea64)]

theorem baseRuns2_eq : baseRuns2 = (Instr.baseRows2).map (fun p => (p.1, fun w s => exec (p.2 w) s)) := rfl

/-- The meanings of the base rows 30 to 3F. -/
def baseRuns3 : List (Nat × (BaseWord → State → Res)) :=
  [(0x30, execAnd),
   (0x31, execOr),
   (0x32, execXor),
   (0x33, execNot),
   (0x34, execAndn),
   (0x35, execShl),
   (0x36, execShr),
   (0x37, execSar),
   (0x38, execRot),
   (0x39, execPopc),
   (0x3A, execClz),
   (0x3B, execCtz),
   (0x3C, execBrev)]

theorem baseRuns3_eq : baseRuns3 = (Instr.baseRows3).map (fun p => (p.1, fun w s => exec (p.2 w) s)) := rfl

/-- The meanings of the base rows 40 to 4F. -/
def baseRuns4 : List (Nat × (BaseWord → State → Res)) :=
  [(0x40, execIset),
   (0x41, execFset),
   (0x43, execPand),
   (0x44, execPor),
   (0x45, execPxor),
   (0x46, execPnot),
   (0x47, execPtov),
   (0x48, execVtop)]

theorem baseRuns4_eq : baseRuns4 = (Instr.baseRows4).map (fun p => (p.1, fun w s => exec (p.2 w) s)) := rfl

/-- The meanings of the base rows 50 to 5F. -/
def baseRuns5 : List (Nat × (BaseWord → State → Res)) :=
  [(0x50, execLxchIdx),
   (0x51, execLxchUp),
   (0x52, execLxchDown),
   (0x53, execLxchXor),
   (0x54, execBcast),
   (0x55, execVoteAll),
   (0x56, execVoteAny),
   (0x57, execVoteBal),
   (0x58, execMatchLanes),
   (0x59, execLcomp),
   (0x5A, execRegroup),
   (0x5B, execRegroupRestore)]

theorem baseRuns5_eq : baseRuns5 = (Instr.baseRows5).map (fun p => (p.1, fun w s => exec (p.2 w) s)) := rfl

/-- The meanings of the base rows 60 to 6F. -/
def baseRuns6 : List (Nat × (BaseWord → State → Res)) :=
  [(0x60, execFadd),
   (0x61, execFsub),
   (0x62, execFmul),
   (0x64, execFmin),
   (0x65, execFmax),
   (0x66, execFabs),
   (0x67, execFneg),
   (0x68, execFrnd),
   (0x69, execFdiv),
   (0x6A, execFsqrt),
   (0x6B, execFrcp),
   (0x6C, execFrsq),
   (0x6D, execSetfp)]

theorem baseRuns6_eq : baseRuns6 = (Instr.baseRows6).map (fun p => (p.1, fun w s => exec (p.2 w) s)) := rfl

/-- The meanings of the base rows 70 to 7F. -/
def baseRuns7 : List (Nat × (BaseWord → State → Res)) :=
  [(0x70, execFex2),
   (0x71, execFlg2),
   (0x72, execFsin),
   (0x73, execFcos),
   (0x74, execFtanh),
   (0x75, execPhadd),
   (0x76, execPhmul),
   (0x78, execPbadd),
   (0x79, execPbmul)]

theorem baseRuns7_eq : baseRuns7 = (Instr.baseRows7).map (fun p => (p.1, fun w s => exec (p.2 w) s)) := rfl

/-- The meanings of the base rows 80 to 8F. -/
def baseRuns8 : List (Nat × (BaseWord → State → Res)) :=
  [(0x83, execPk6),
   (0x84, execUpk6),
   (0x85, execPkb),
   (0x86, execUpkb)]

theorem baseRuns8_eq : baseRuns8 = (Instr.baseRows8).map (fun p => (p.1, fun w s => exec (p.2 w) s)) := rfl

/-- The meanings of the base rows 90 to 9F. -/
def baseRuns9 : List (Nat × (BaseWord → State → Res)) :=
  [(0x90, execLd),
   (0x91, execSt),
   (0x93, execLds),
   (0x94, execSts),
   (0x97, execLdw)]

theorem baseRuns9_eq : baseRuns9 = (Instr.baseRows9).map (fun p => (p.1, fun w s => exec (p.2 w) s)) := rfl

/-- The meanings of the base rows A0 to AF. -/
def baseRunsA : List (Nat × (BaseWord → State → Res)) :=
  [(0xA0, execAtomAdd),
   (0xA1, execAtomFadd),
   (0xA2, execAtomMin),
   (0xA3, execAtomMax),
   (0xA4, execAtomAnd),
   (0xA5, execAtomOr),
   (0xA6, execAtomXor),
   (0xA7, execAtomXchg)]

theorem baseRunsA_eq : baseRunsA = (Instr.baseRowsA).map (fun p => (p.1, fun w s => exec (p.2 w) s)) := rfl

/-- The meanings of the base rows B0 to BF. -/
def baseRunsB : List (Nat × (BaseWord → State → Res)) :=
  [(0xB0, execRedAdd),
   (0xB1, execRedFadd),
   (0xB2, execRedMin),
   (0xB3, execRedMax),
   (0xB4, execRedAnd),
   (0xB5, execRedOr),
   (0xB6, execRedXor)]

theorem baseRunsB_eq : baseRunsB = (Instr.baseRowsB).map (fun p => (p.1, fun w s => exec (p.2 w) s)) := rfl

/-- The meanings of the base rows C0 to CF. -/
def baseRunsC : List (Nat × (BaseWord → State → Res)) :=
  [(0xC0, execFenceCoh),
   (0xC1, execFenceBlk),
   (0xC2, execFenceCore),
   (0xC3, execFenceClu),
   (0xC4, execFenceDie),
   (0xC5, execFenceDev),
   (0xC6, execFenceSys),
   (0xC8, execBarInit),
   (0xC9, execBarArr),
   (0xCA, execBarWait),
   (0xCB, execBarXin),
   (0xCC, execBarXout)]

theorem baseRunsC_eq : baseRunsC = (Instr.baseRowsC).map (fun p => (p.1, fun w s => exec (p.2 w) s)) := rfl

/-- The meanings of the base rows D0 to DF. -/
def baseRunsD : List (Nat × (BaseWord → State → Res)) :=
  [(0xD4, execWaitoc),
   (0xD5, execRdwp),
   (0xD6, execWaitwp),
   (0xD8, execTxb),
   (0xD9, execTxc),
   (0xDA, execTxa),
   (0xDB, execTxw),
   (0xDC, execGchk)]

theorem baseRunsD_eq : baseRunsD = (Instr.baseRowsD).map (fun p => (p.1, fun w s => exec (p.2 w) s)) := rfl

/-- The meanings of the base rows E0 to EF. -/
def baseRunsE : List (Nat × (BaseWord → State → Res)) :=
  [(0xE0, execDset),
   (0xE1, execDget),
   (0xE2, execTzero),
   (0xE3, execTrd),
   (0xE4, execTwr)]

theorem baseRunsE_eq : baseRunsE = (Instr.baseRowsE).map (fun p => (p.1, fun w s => exec (p.2 w) s)) := rfl

/-- The meanings of the base rows F0 to FF. -/
def baseRunsF : List (Nat × (BaseWord → State → Res)) :=
  [(0xF2, execNres),
   (0xF3, execAllocreg),
   (0xF4, execFreereg),
   (0xF5, execWallet),
   (0xF6, execBoost),
   (0xF7, execPermits),
   (0xF8, execCycle)]

theorem baseRunsF_eq : baseRunsF = (Instr.baseRowsF).map (fun p => (p.1, fun w s => exec (p.2 w) s)) := rfl

/-- The meanings of the base rows of a row of the opcode map. -/
def baseRuns : Nat → List (Nat × (BaseWord → State → Res))
  | 0 => baseRuns0
  | 1 => baseRuns1
  | 2 => baseRuns2
  | 3 => baseRuns3
  | 4 => baseRuns4
  | 5 => baseRuns5
  | 6 => baseRuns6
  | 7 => baseRuns7
  | 8 => baseRuns8
  | 9 => baseRuns9
  | 10 => baseRunsA
  | 11 => baseRunsB
  | 12 => baseRunsC
  | 13 => baseRunsD
  | 14 => baseRunsE
  | 15 => baseRunsF
  | _ => []

theorem baseRuns_eq (n : Nat) : baseRuns n = (Instr.baseRows n).map (fun p => (p.1, fun w s => exec (p.2 w) s)) := by
  unfold baseRuns
  split <;> first | exact baseRuns0_eq | exact baseRuns1_eq | exact baseRuns2_eq | exact baseRuns3_eq | exact baseRuns4_eq | exact baseRuns5_eq | exact baseRuns6_eq | exact baseRuns7_eq | exact baseRuns8_eq | exact baseRuns9_eq | exact baseRunsA_eq | exact baseRunsB_eq | exact baseRunsC_eq | exact baseRunsD_eq | exact baseRunsE_eq | exact baseRunsF_eq | (unfold Instr.baseRows; split <;> first | contradiction | rfl)

/-- The meanings of the ext rows 00 to 0F. -/
def extRuns0 : List (Nat × (ExtWord → State → Res)) :=
  [(0x01, execMovExt),
   (0x02, execMovlExt),
   (0x03, execGetsExt),
   (0x04, execSetsExt),
   (0x05, execSel),
   (0x06, execLaneofExt),
   (0x07, execNopExt)]

theorem extRuns0_eq : extRuns0 = (Instr.extRows0).map (fun p => (p.1, fun w s => exec (p.2 w) s)) := rfl

/-- The meanings of the ext rows 10 to 1F. -/
def extRuns1 : List (Nat × (ExtWord → State → Res)) :=
  [(0x10, execBraExt),
   (0x11, execBrxExt),
   (0x12, execCallExt),
   (0x13, execCallxExt),
   (0x14, execRetExt),
   (0x15, execMeetExt),
   (0x16, execWaitjExt),
   (0x17, execExitExt),
   (0x18, execTrapExt),
   (0x19, execBkptExt),
   (0x1A, execXretExt)]

theorem extRuns1_eq : extRuns1 = (Instr.extRows1).map (fun p => (p.1, fun w s => exec (p.2 w) s)) := rfl

/-- The meanings of the ext rows 20 to 2F. -/
def extRuns2 : List (Nat × (ExtWord → State → Res)) :=
  [(0x20, execIaddExt),
   (0x21, execIsubExt),
   (0x22, execImulExt),
   (0x23, execImulhExt),
   (0x24, execImad),
   (0x25, execIdivExt),
   (0x26, execIremExt),
   (0x27, execIminExt),
   (0x28, execImaxExt),
   (0x29, execIabsExt),
   (0x2A, execInegExt),
   (0x2B, execIadd64Ext),
   (0x2C, execImad64),
   (0x2D, execLeaExt),
   (0x2E, execLea64Ext)]

theorem extRuns2_eq : extRuns2 = (Instr.extRows2).map (fun p => (p.1, fun w s => exec (p.2 w) s)) := rfl

/-- The meanings of the ext rows 30 to 3F. -/
def extRuns3 : List (Nat × (ExtWord → State → Res)) :=
  [(0x30, execAndExt),
   (0x31, execOrExt),
   (0x32, execXorExt),
   (0x33, execNotExt),
   (0x34, execAndnExt),
   (0x35, execShlExt),
   (0x36, execShrExt),
   (0x37, execSarExt),
   (0x38, execRotExt),
   (0x39, execPopcExt),
   (0x3A, execClzExt),
   (0x3B, execCtzExt),
   (0x3C, execBrevExt),
   (0x3D, execBfe),
   (0x3E, execBfi),
   (0x3F, execPermb)]

theorem extRuns3_eq : extRuns3 = (Instr.extRows3).map (fun p => (p.1, fun w s => exec (p.2 w) s)) := rfl

/-- The meanings of the ext rows 40 to 4F. -/
def extRuns4 : List (Nat × (ExtWord → State → Res)) :=
  [(0x40, execIsetExt),
   (0x41, execFsetExt),
   (0x42, execFcls),
   (0x43, execPandExt),
   (0x44, execPorExt),
   (0x45, execPxorExt),
   (0x46, execPnotExt),
   (0x47, execPtovExt),
   (0x48, execVtopExt)]

theorem extRuns4_eq : extRuns4 = (Instr.extRows4).map (fun p => (p.1, fun w s => exec (p.2 w) s)) := rfl

/-- The meanings of the ext rows 50 to 5F. -/
def extRuns5 : List (Nat × (ExtWord → State → Res)) :=
  [(0x50, execLxchIdxExt),
   (0x51, execLxchUpExt),
   (0x52, execLxchDownExt),
   (0x53, execLxchXorExt),
   (0x54, execBcastExt),
   (0x55, execVoteAllExt),
   (0x56, execVoteAnyExt),
   (0x57, execVoteBalExt),
   (0x58, execMatchLanesExt),
   (0x59, execLcompExt),
   (0x5A, execRegroupExt),
   (0x5B, execRegroupRestoreExt)]

theorem extRuns5_eq : extRuns5 = (Instr.extRows5).map (fun p => (p.1, fun w s => exec (p.2 w) s)) := rfl

/-- The meanings of the ext rows 60 to 6F. -/
def extRuns6 : List (Nat × (ExtWord → State → Res)) :=
  [(0x60, execFaddExt),
   (0x61, execFsubExt),
   (0x62, execFmulExt),
   (0x63, execFfma),
   (0x64, execFminExt),
   (0x65, execFmaxExt),
   (0x66, execFabsExt),
   (0x67, execFnegExt),
   (0x68, execFrndExt),
   (0x69, execFdivExt),
   (0x6A, execFsqrtExt),
   (0x6B, execFrcpExt),
   (0x6C, execFrsqExt),
   (0x6D, execSetfpExt)]

theorem extRuns6_eq : extRuns6 = (Instr.extRows6).map (fun p => (p.1, fun w s => exec (p.2 w) s)) := rfl

/-- The meanings of the ext rows 70 to 7F. -/
def extRuns7 : List (Nat × (ExtWord → State → Res)) :=
  [(0x70, execFex2Ext),
   (0x71, execFlg2Ext),
   (0x72, execFsinExt),
   (0x73, execFcosExt),
   (0x74, execFtanhExt),
   (0x75, execPhaddExt),
   (0x76, execPhmulExt),
   (0x77, execPhfma),
   (0x78, execPbaddExt),
   (0x79, execPbmulExt),
   (0x7A, execPbfma)]

theorem extRuns7_eq : extRuns7 = (Instr.extRows7).map (fun p => (p.1, fun w s => exec (p.2 w) s)) := rfl

/-- The meanings of the ext rows 80 to 8F. -/
def extRuns8 : List (Nat × (ExtWord → State → Res)) :=
  [(0x80, execCvt),
   (0x81, execQnt),
   (0x82, execDqnt),
   (0x83, execPk6Ext),
   (0x84, execUpk6Ext),
   (0x85, execPkbExt),
   (0x86, execUpkbExt)]

theorem extRuns8_eq : extRuns8 = (Instr.extRows8).map (fun p => (p.1, fun w s => exec (p.2 w) s)) := rfl

/-- The meanings of the ext rows 90 to 9F. -/
def extRuns9 : List (Nat × (ExtWord → State → Res)) :=
  [(0x90, execLdExt),
   (0x91, execStExt),
   (0x92, execLdq),
   (0x93, execLdsExt),
   (0x94, execStsExt),
   (0x95, execLdsPeer),
   (0x96, execStsPeer),
   (0x97, execLdwExt)]

theorem extRuns9_eq : extRuns9 = (Instr.extRows9).map (fun p => (p.1, fun w s => exec (p.2 w) s)) := rfl

/-- The meanings of the ext rows A0 to AF. -/
def extRunsA : List (Nat × (ExtWord → State → Res)) :=
  [(0xA0, execAtomAddExt),
   (0xA1, execAtomFaddExt),
   (0xA2, execAtomMinExt),
   (0xA3, execAtomMaxExt),
   (0xA4, execAtomAndExt),
   (0xA5, execAtomOrExt),
   (0xA6, execAtomXorExt),
   (0xA7, execAtomXchgExt),
   (0xA8, execAtomCas)]

theorem extRunsA_eq : extRunsA = (Instr.extRowsA).map (fun p => (p.1, fun w s => exec (p.2 w) s)) := rfl

/-- The meanings of the ext rows B0 to BF. -/
def extRunsB : List (Nat × (ExtWord → State → Res)) :=
  [(0xB0, execRedAddExt),
   (0xB1, execRedFaddExt),
   (0xB2, execRedMinExt),
   (0xB3, execRedMaxExt),
   (0xB4, execRedAndExt),
   (0xB5, execRedOrExt),
   (0xB6, execRedXorExt)]

theorem extRunsB_eq : extRunsB = (Instr.extRowsB).map (fun p => (p.1, fun w s => exec (p.2 w) s)) := rfl

/-- The meanings of the ext rows C0 to CF. -/
def extRunsC : List (Nat × (ExtWord → State → Res)) :=
  [(0xC0, execFenceCohExt),
   (0xC1, execFenceBlkExt),
   (0xC2, execFenceCoreExt),
   (0xC3, execFenceCluExt),
   (0xC4, execFenceDieExt),
   (0xC5, execFenceDevExt),
   (0xC6, execFenceSysExt),
   (0xC8, execBarInitExt),
   (0xC9, execBarArrExt),
   (0xCA, execBarWaitExt),
   (0xCB, execBarXinExt),
   (0xCC, execBarXoutExt)]

theorem extRunsC_eq : extRunsC = (Instr.extRowsC).map (fun p => (p.1, fun w s => exec (p.2 w) s)) := rfl

/-- The meanings of the ext rows D0 to DF. -/
def extRunsD : List (Nat × (ExtWord → State → Res)) :=
  [(0xD0, execCpy),
   (0xD1, execCpym),
   (0xD2, execCpyo),
   (0xD3, execCpyp),
   (0xD4, execWaitocExt),
   (0xD5, execRdwpExt),
   (0xD6, execWaitwpExt),
   (0xD8, execTxbExt),
   (0xD9, execTxcExt),
   (0xDA, execTxaExt),
   (0xDB, execTxwExt),
   (0xDC, execGchkExt)]

theorem extRunsD_eq : extRunsD = (Instr.extRowsD).map (fun p => (p.1, fun w s => exec (p.2 w) s)) := rfl

/-- The meanings of the ext rows E0 to EF. -/
def extRunsE : List (Nat × (ExtWord → State → Res)) :=
  [(0xE0, execDsetExt),
   (0xE1, execDgetExt),
   (0xE2, execTzeroExt),
   (0xE3, execTrdExt),
   (0xE4, execTwrExt),
   (0xE5, execTcvt),
   (0xE8, execMmaE4m3),
   (0xE9, execMmaE5m2),
   (0xEA, execMmaI8),
   (0xEB, execMmaBf16),
   (0xEC, execMmaQ4a),
   (0xED, execMmag),
   (0xEE, execMmas),
   (0xEF, execCmpr)]

theorem extRunsE_eq : extRunsE = (Instr.extRowsE).map (fun p => (p.1, fun w s => exec (p.2 w) s)) := rfl

/-- The meanings of the ext rows F0 to FF. -/
def extRunsF : List (Nat × (ExtWord → State → Res)) :=
  [(0xF0, execMvt),
   (0xF1, execVga),
   (0xF2, execNresExt),
   (0xF3, execAllocregExt),
   (0xF4, execFreeregExt),
   (0xF5, execWalletExt),
   (0xF6, execBoostExt),
   (0xF7, execPermitsExt),
   (0xF8, execCycleExt)]

theorem extRunsF_eq : extRunsF = (Instr.extRowsF).map (fun p => (p.1, fun w s => exec (p.2 w) s)) := rfl

/-- The meanings of the ext rows of a row of the opcode map. -/
def extRuns : Nat → List (Nat × (ExtWord → State → Res))
  | 0 => extRuns0
  | 1 => extRuns1
  | 2 => extRuns2
  | 3 => extRuns3
  | 4 => extRuns4
  | 5 => extRuns5
  | 6 => extRuns6
  | 7 => extRuns7
  | 8 => extRuns8
  | 9 => extRuns9
  | 10 => extRunsA
  | 11 => extRunsB
  | 12 => extRunsC
  | 13 => extRunsD
  | 14 => extRunsE
  | 15 => extRunsF
  | _ => []

theorem extRuns_eq (n : Nat) : extRuns n = (Instr.extRows n).map (fun p => (p.1, fun w s => exec (p.2 w) s)) := by
  unfold extRuns
  split <;> first | exact extRuns0_eq | exact extRuns1_eq | exact extRuns2_eq | exact extRuns3_eq | exact extRuns4_eq | exact extRuns5_eq | exact extRuns6_eq | exact extRuns7_eq | exact extRuns8_eq | exact extRuns9_eq | exact extRunsA_eq | exact extRunsB_eq | exact extRunsC_eq | exact extRunsD_eq | exact extRunsE_eq | exact extRunsF_eq | (unfold Instr.extRows; split <;> first | contradiction | rfl)

theorem lookup_map {α β : Type} (f : α → β) (k : Nat) (l : List (Nat × α)) :
    lookup k (l.map (fun p => (p.1, f p.2))) = (lookup k l).map f := by
  induction l with
  | nil => rfl
  | cons p l ih => simp only [List.map, lookup]; split <;> simp_all

/-- The same by the tables of meanings. -/
def runWordC (r : RawWord) (s : State) : Res :=
  match r.refusal with
  | some _ => execIllegalEncoding s
  | none =>
    match r with
    | .base opc w =>
      if isHint opc.toNat then execHint opc w s
      else
        match lookup opc.toNat (baseRuns (opc.toNat / 16)) with
        | some f => f w s
        | none => execIllegalEncoding s
    | .ext opc w =>
      if isHint opc.toNat then execHintExt opc w s
      else
        match lookup opc.toNat (extRuns (opc.toNat / 16)) with
        | some f => f w s
        | none => execIllegalEncoding s

@[csimp] theorem runWord_eq : @runWord = @runWordC := by
  funext r s
  unfold runWord runWordC
  cases r.refusal with
  | some e => rfl
  | none =>
    cases r with
    | base opc w =>
      simp only [RawWord.instr, Instr.ofBase, baseRuns_eq, lookup_map (fun (f : BaseWord → Instr) w s => exec (f w) s)]
      by_cases h : isHint opc.toNat
      · simp only [h, if_true]; rfl
      · simp only [h]
        cases lookup opc.toNat (Instr.baseRows (opc.toNat / 16)) <;> rfl
    | ext opc w =>
      simp only [RawWord.instr, Instr.ofExt, extRuns_eq, lookup_map (fun (f : ExtWord → Instr) w s => exec (f w) s)]
      by_cases h : isHint opc.toNat
      · simp only [h, if_true]; rfl
      · simp only [h]
        cases lookup opc.toNat (Instr.extRows (opc.toNat / 16)) <;> rfl

/-- The bytes of an instruction executed. -/
def runBytes (bs : List Byte) (s : State) : Res :=
  match rawWord bs with
  | none => exec .illegalEncoding s
  | some r => runWord r s

/-- What the decoder reads is what runs. -/
theorem runBytes_decode (bs : List Byte) (s : State) :
    runBytes bs s = match decode bs with
      | .ok i _ => exec i s
      | .refused _ => exec .illegalEncoding s := by
  unfold runBytes decode
  cases rawWord bs with
  | none => rfl
  | some r =>
    simp only [runWord]
    cases r.refusal with
    | some e => rfl
    | none => cases r.instr <;> rfl

end Sys2Proof.Machine
end

