-- ==== Sys2Proof/Machine/Schedule.lean ====
section
/-! DEFINITION. One clock of a quarter (R20 to R22, R24, R29): what falls due before it, which cohorts may issue and in which
order, which PC-group of a cohort is tried first, and the issue of one instruction. -/

namespace Sys2Proof.Machine

/-! ### The instruction at the cursor -/

/-- One issue by the PC-group at the cursor: the instruction is fetched (R172), decoded and executed. -/
def State.issueHere (s : State) : Res :=
  match s.issuer with
  | none => .fault .noIssuer
  | some i =>
    match s.fetch i with
    | .pastEnd => exec (.fetchFault .pastEnd) s
    | .fault _ _ => exec (.fetchFault .translation) s
    | .ok bs => runBytes bs s

/-! ### Candidates -/

/-- Whether a cohort may be considered for issue: its block runs and is not to be swapped out, and it is not parked (R18, R48, R61,
R75, R76, R346, R388). -/
def State.mayIssue (s : State) (co : Cohort) : Bool :=
  co.park.isNone && !co.vacant &&
  match s.block co.blk with
  | some b => b.inboxDone && !b.killed && !b.ending && !b.leaving && b.ecc.isNone
  | none => false

/-- The cohorts of a quarter that may be considered, first choice first (R20, R21). -/
def State.candidates (s : State) (core q : Nat) : List Nat :=
  let cs := (s.coreCohorts core).filter (fun p => quarterOf p.1 == q && s.mayIssue p.2)
  (sortLex (fun p => match p.2.aged with
    | some n => [0, n]
    | none => 1 :: s.rank p.2) cs).map (·.1)

/-! ### What falls due -/

/-- The join that a lane held at its MR belongs to, if any (R24). -/
def Cohort.joined (co : Cohort) (l : Nat) (mr : W32) : Bool :=
  (List.range 8).any (fun n => (co.j n).1.has l && (co.j n).2 == mr)

/-- A lane at its MR that belongs to no join is released alone (R24). -/
def Cohort.settleLane (co : Cohort) (l : Nat) : Nat → Lane → Lane
  | 0, x => x
  | n + 1, x => if x.waitj.isNone && x.pc == x.mr && !co.joined l x.mr then co.settleLane l n x.pop else x

/-- An election is over once its first lane can no longer go on (R31). -/
def Cohort.endElection (co : Cohort) : Cohort :=
  { co with elected := co.elected.filter (fun e =>
      co.live.has e.1 && (co.lane e.1).waitj.isNone && (co.lane e.1).pc != (co.lane e.1).mr) }

/-- The lanes of a cohort that are released alone (R24). -/
def Cohort.settle (co : Cohort) : Cohort := co.mapLanes co.live (fun l x => co.settleLane l (x.depth + 1) x)

/-- A cohort's releases before a clock of its quarter (R24, R25), and its place among those first in turn (R21). -/
def State.settleCohort (s : State) (slot : Nat) : State :=
  match s.cohort slot with
  | none => s
  | some co =>
    if co.park.isSome then s
    else
      let s := s.setCohort slot co.endElection.settle
      ((List.range 8).foldl (fun s n => s.releaseJoin slot n) s).ageIssue slot

/-- The cohorts of a quarter. -/
def State.quarterCohorts (s : State) (core q : Nat) : List (Nat × Cohort) := (s.coreCohorts core).filter (fun p => quarterOf p.1 == q)

/-- What falls due before a clock of a quarter. -/
def State.prepare (s : State) (core q : Nat) : State :=
  let s := s.settleErrors core
  let s := (s.coreCohorts core).foldl (fun s p => s.promote p.1) s
  (s.quarterCohorts core q).foldl (fun s p => (s.extReload p.1).settleCohort p.1) s

/-! ### One clock of a quarter -/

/-- The choice of a PC-group (R22, R29, R31): the count goes on with the group of the last choice; the entry into serial mode
begins it anew. -/
def Cohort.chooses (co : Cohort) (g : Mask) : Cohort :=
  { co with curMask := g,
            curCount := if g.has co.curLane && (co.serially || !co.serial) then co.curCount + 1 else 1,
            serially := co.serial,
            elected := co.elected.filter (fun e => g &&& e.2 = 0) }

/-- The choice that stood in a cohort put back. -/
def Cohort.choosesAs (co old : Cohort) : Cohort :=
  { co with curMask := old.curMask, curCount := old.curCount, serially := old.serially, elected := old.elected }

/-- The PC-group chosen and the cursor set. -/
def State.choose (s : State) (slot : Nat) (g : Mask) : State :=
  { s.updCohort slot (fun co => co.chooses g) with cur := { slot := slot, group := g } }

/-- A try of a PC-group. -/
def State.tryGroup (s : State) (slot : Nat) (g : Mask) : Res :=
  match s.cohort slot with
  | none => .next s
  | some co =>
    match co.vglimit with
    | x :: rest =>
      let t := (s.updCohort slot (fun co => { co with vglimit := rest })).raiseVglimit slot co (BitVec.ofNat 64 x) g
      .next ({ t with cur := { slot := slot } }.mark false)
    | [] => (s.choose slot g).issueHere

/-- Tries of a cohort's PC-groups until one issues; one that only waits leaves the cohort's choice as it was. -/
def State.tryCohort (s : State) (slot : Nat) (old : Cohort) : List Mask → Res
  | [] => .next (s.mark true)
  | g :: gs =>
    match s.tryGroup slot g with
    | .next t =>
      if t.cur.waited then (t.updCohort slot (fun co => co.choosesAs old)).tryCohort slot old gs else .next t
    | r => r

/-- A cohort's turn: whether some group of it issues stands in the cursor. -/
def State.turn (s : State) (slot : Nat) (switch : Bool) : Res :=
  match s.cohort slot with
  | none => .next (s.mark true)
  | some co => s.tryCohort slot co (co.groupOrder switch)

/-- The cohorts of a quarter in order: the first that is ready issues; those after it that are ready have waited a clock more,
and those that are not have begun to wait (R20, R21). -/
def State.serve (s : State) (switch : Bool) (done : Bool) : List Nat → Res
  | [] => .next s
  | slot :: rest =>
    match s.turn slot switch with
    | .next t =>
      if t.cur.waited then (t.updCohort slot (fun co => { co with idle := 0 })).serve switch done rest
      else if done then (s.updCohort slot (fun co => { co with idle := co.idle + 1 })).serve switch true rest
      else (t.updCohort slot (fun co => { co with idle := 0, aged := none })).serve switch true rest
    | .fault f => if done then s.serve switch true rest else .fault f
    | .refused r => if done then s.serve switch true rest else .refused r

/-- What follows a clock: the accesses to the meet extensions of cohorts that stood as given before it (R29, R334). -/
def closeClock (old : List (Nat × Cohort)) : Res → Res
  | .next t => .next (t.extAccesses old)
  | r => r

/-- One clock of a quarter. -/
def State.quarterClock (s : State) (core q : Nat) (switch : Bool) : Res :=
  if !s.coreRuns core then .next s
  else
    let t := s.prepare core q
    closeClock (s.quarterCohorts core q) (t.serve switch false (t.candidates core q))

/-! ### The other actions -/

/-- A row that an agent other than a quarter carries out; ILLEGAL_ENCODING and FETCH_FAULT happen only at an issue. -/
def Instr.agentStep (i : Instr) : Bool :=
  i.isEvent && i.wellFormed &&
  match i with
  | .illegalEncoding => false
  | .fetchFault _ => false
  | _ => true

/-- One clock of a core (R307). -/
def State.coreTick (s : State) (core : Nat) : State :=
  if core < 64 && s.clocked (dieOf core) then s.updCore core (fun c => { c with cycle := c.cycle + 1 }) else s

/-- One front-end clock: the slice's count and SLICECLK run while a slice is current, its cohorts are not stopped and no die is
in EMERGENCY (R356, R385, R392). -/
def State.frontTick (s : State) : State :=
  if !s.released then s
  else
    let s := { s with frontClk := s.frontClk + 1 }
    let s := [0, 1].foldl (fun s die => s.updDie die (fun d => if d.scrubEn then { d with scrubClk := d.scrubClk + 1 } else d)) s
    match s.curVf with
    | none => s
    | some v =>
      if s.stopping || !s.clocked 0 || !s.clocked 1 then s
      else { s with sliceCnt := s.sliceCnt + 1 }.updVf v (fun x => { x with sliceClk := satInc x.sliceClk })

/-- A microsecond of Grotto's time (R394). -/
def State.grottoTick (s : State) : State := s.updGrotto (fun g => { g with time := g.time + 1 })

/-- What the machine does next: the head of its agenda, or a free action. -/
def State.nextAction (s : State) : Action × State :=
  match s.agenda with
  | a :: rest => (a, { s with agenda := rest, tick := s.tick + 1 })
  | [] => (Config.freeAction s.tick, { s with tick := s.tick + 1 })

/-- An action carried out, where it names a unit of the part (R1). -/
def State.runAction (s : State) : Action → Res
  | .quarter core q switch => if core < 64 && q < 4 then s.quarterClock core q switch else .next s
  | .event i => if Instr.agentStep i then exec i s else .next s
  | .aster cluster n => .next (if cluster < 16 then s.asterRead cluster n else s)
  | .coreClock core => .next (s.coreTick core)
  | .frontClock => .next s.frontTick
  | .grottoClock => .next s.grottoTick
  | .registerRead pf vf off width => .next (s.registerRead pf vf off width)
  | .hostStore addr bs => .next (s.hostStore addr bs)
  | .hostFence => .next s
  | .peerStore port off bs => .next (s.peerStore port off bs)
  | .grottoStep => .next s.grottoStep
  | .grottoCore => .next s.grottoCore
  | .grottoEnergy die high => .next (if die < 2 then s.grottoEnergy die high else s)

/-! ### An instruction placed where the next step fetches it -/

/-- The launch, the block and the cohort that fetch at code address 0: VF 0, core 0, slot 0, 32 lanes, every register file at
its largest for one block. -/
def fetchKernel : KernelEntry :=
  { code := 0, csize := 20, gregs := 256, narrow := 1280, tiles := 24, aspb := 0, wbfb := 0, handler := 0xFFFFFFFF#32 }
def fetchLaunch : Launch :=
  { vf := 0, queue := 0, tag := 0, prio := 0, swapq := 0, crec := 0, lrec := 0, off := 0, started := true, nnodes := 1,
    kernels := [(0, fetchKernel)] }
def fetchBlock : Block :=
  { vf := 0, launch := 0, node := 0, phase := .up, kernel := 0, prio := 0, age := 0, core := 0, nlanes := 32,
    slots := [some 0], n := 1280, k := 24, aspBase := 0, aspSize := 1024, aspBound := 1024, wbfBase := 0, wbfSize := 4096,
    wbfBound := 4096, bufLines := 0, inboxDone := true }
def fetchCohort : Cohort := Cohort.fresh 0 0 32 256

/-- The bytes stored at address 0 with everything that a fetch there needs: VF 0 current, a translation of its first page with
all permissions, the cohort in slot 0, and a clock of its quarter as the next action. -/
def State.placeCode (s : State) (bs : List Byte) : State :=
  let s := s.physBytes (s.vf 0).key 0 bs
  let s := s.updCore 0 (fun c =>
    { c with tlb := { vf := 0, page := 0, size := 4096, ipa := 0, phys := 0, p1 := 7, p2 := 7, fattr := 0, s1 := 4096 } :: c.tlb })
  let s := s.updDie 0 (fun d => { d with tstate := .normal })
  { s with
    released := true, stopping := false, curVf := some 0,
    launches := s.launches.put 0 fetchLaunch,
    blocks := s.blocks.put 0 fetchBlock,
    cohorts := SMap.put (s.cohorts.filter (fun p => !(coreOf p.1 == 0 && quarterOf p.1 == 0))) 0 fetchCohort,
    nextId := max s.nextId 1, nextAge := max s.nextAge 1,
    agenda := .quarter 0 0 false :: s.agenda,
    cur := { slot := 0, group := BitVec.allOnes 32 } }

end Sys2Proof.Machine
end

