-- ==== Sys2Proof/Machine/Step.lean ====
section
/-! DEFINITION. One step of the machine: the next action of its agenda, or a free one, carried out. -/

namespace Sys2Proof.Machine

/-- One step. -/
def step (s : State) : Host.Outcome State Fault Refusal :=
  let (a, t) := s.nextAction
  t.runAction a

/-- An instruction whose bits are `w`, numbered from word 0, stored where the next step fetches. -/
def State.withFetchWord (s : State) (nbits w : Nat) : State := s.placeCode (bytesLE 20 (w % 2 ^ nbits))

end Sys2Proof.Machine
end

