-- ==== Sys2Proof/Laws/PerInstr.lean ====
section
/-! SUPPORT. The statements made per instruction. The family Size: an instruction's bytes are as many as its size (R170). -/

open Sys2Proof

/-- The encoder writes as many bytes as the instruction's size; a row without a word has none. -/
def Sys2Proof.Laws.Size.Statement (i : Instr) : Prop := (encode i).length = i.size

theorem Sys2Proof.Laws.litBytes_length (v : Option W64) : (litBytes v).length = if v.isSome then 8 else 0 := by
  cases v <;> rfl

theorem Sys2Proof.Laws.encodeBase_length (o : BitVec 8) (w : BaseWord) :
    (encodeBase o w).length = if w.lit.isSome then 12 else 4 := by
  simp only [encodeBase, List.length_append, Sys2Proof.Laws.litBytes_length]
  split <;> rfl

theorem Sys2Proof.Laws.encodeExt_length (o : BitVec 8) (w : ExtWord) :
    (encodeExt o w).length = if w.lit.isSome then 20 else 12 := by
  simp only [encodeExt, List.length_append, Sys2Proof.Laws.litBytes_length]
  split <;> rfl

theorem Sys2Proof.Laws.Size.all (i : Instr) : Laws.Size.Statement i := by
  unfold Laws.Size.Statement encode Instr.size
  cases i.word with
  | none => rfl
  | some x => cases x <;> simp [Laws.encodeBase_length, Laws.encodeExt_length]

theorem Sys2Proof.Laws.Size.illegalEncoding : Laws.Size.Statement .illegalEncoding := Laws.Size.all _
theorem Sys2Proof.Laws.Size.fetchFault (why : FetchFault) : Laws.Size.Statement (.fetchFault why) := Laws.Size.all _
theorem Sys2Proof.Laws.Size.mov (w : BaseWord) : Laws.Size.Statement (.mov w) := Laws.Size.all _
theorem Sys2Proof.Laws.Size.movExt (w : ExtWord) : Laws.Size.Statement (.movExt w) := Laws.Size.all _
theorem Sys2Proof.Laws.Size.movl (w : BaseWord) : Laws.Size.Statement (.movl w) := Laws.Size.all _
theorem Sys2Proof.Laws.Size.movlExt (w : ExtWord) : Laws.Size.Statement (.movlExt w) := Laws.Size.all _
theorem Sys2Proof.Laws.Size.gets (w : BaseWord) : Laws.Size.Statement (.gets w) := Laws.Size.all _
theorem Sys2Proof.Laws.Size.getsExt (w : ExtWord) : Laws.Size.Statement (.getsExt w) := Laws.Size.all _
theorem Sys2Proof.Laws.Size.sets (w : BaseWord) : Laws.Size.Statement (.sets w) := Laws.Size.all _
theorem Sys2Proof.Laws.Size.setsExt (w : ExtWord) : Laws.Size.Statement (.setsExt w) := Laws.Size.all _
theorem Sys2Proof.Laws.Size.sel (w : ExtWord) : Laws.Size.Statement (.sel w) := Laws.Size.all _
theorem Sys2Proof.Laws.Size.laneof (w : BaseWord) : Laws.Size.Statement (.laneof w) := Laws.Size.all _
theorem Sys2Proof.Laws.Size.laneofExt (w : ExtWord) : Laws.Size.Statement (.laneofExt w) := Laws.Size.all _
theorem Sys2Proof.Laws.Size.nop (w : BaseWord) : Laws.Size.Statement (.nop w) := Laws.Size.all _
theorem Sys2Proof.Laws.Size.nopExt (w : ExtWord) : Laws.Size.Statement (.nopExt w) := Laws.Size.all _
theorem Sys2Proof.Laws.Size.bra (w : BaseWord) : Laws.Size.Statement (.bra w) := Laws.Size.all _
theorem Sys2Proof.Laws.Size.braExt (w : ExtWord) : Laws.Size.Statement (.braExt w) := Laws.Size.all _
theorem Sys2Proof.Laws.Size.brx (w : BaseWord) : Laws.Size.Statement (.brx w) := Laws.Size.all _
theorem Sys2Proof.Laws.Size.brxExt (w : ExtWord) : Laws.Size.Statement (.brxExt w) := Laws.Size.all _
theorem Sys2Proof.Laws.Size.call (w : BaseWord) : Laws.Size.Statement (.call w) := Laws.Size.all _
theorem Sys2Proof.Laws.Size.callExt (w : ExtWord) : Laws.Size.Statement (.callExt w) := Laws.Size.all _
theorem Sys2Proof.Laws.Size.callx (w : BaseWord) : Laws.Size.Statement (.callx w) := Laws.Size.all _
theorem Sys2Proof.Laws.Size.callxExt (w : ExtWord) : Laws.Size.Statement (.callxExt w) := Laws.Size.all _
theorem Sys2Proof.Laws.Size.ret (w : BaseWord) : Laws.Size.Statement (.ret w) := Laws.Size.all _
theorem Sys2Proof.Laws.Size.retExt (w : ExtWord) : Laws.Size.Statement (.retExt w) := Laws.Size.all _
theorem Sys2Proof.Laws.Size.meet (w : BaseWord) : Laws.Size.Statement (.meet w) := Laws.Size.all _
theorem Sys2Proof.Laws.Size.meetExt (w : ExtWord) : Laws.Size.Statement (.meetExt w) := Laws.Size.all _
theorem Sys2Proof.Laws.Size.waitj (w : BaseWord) : Laws.Size.Statement (.waitj w) := Laws.Size.all _
theorem Sys2Proof.Laws.Size.waitjExt (w : ExtWord) : Laws.Size.Statement (.waitjExt w) := Laws.Size.all _
theorem Sys2Proof.Laws.Size.exit (w : BaseWord) : Laws.Size.Statement (.exit w) := Laws.Size.all _
theorem Sys2Proof.Laws.Size.exitExt (w : ExtWord) : Laws.Size.Statement (.exitExt w) := Laws.Size.all _
theorem Sys2Proof.Laws.Size.trap (w : BaseWord) : Laws.Size.Statement (.trap w) := Laws.Size.all _
theorem Sys2Proof.Laws.Size.trapExt (w : ExtWord) : Laws.Size.Statement (.trapExt w) := Laws.Size.all _
theorem Sys2Proof.Laws.Size.bkpt (w : BaseWord) : Laws.Size.Statement (.bkpt w) := Laws.Size.all _
theorem Sys2Proof.Laws.Size.bkptExt (w : ExtWord) : Laws.Size.Statement (.bkptExt w) := Laws.Size.all _
theorem Sys2Proof.Laws.Size.xret (w : BaseWord) : Laws.Size.Statement (.xret w) := Laws.Size.all _
theorem Sys2Proof.Laws.Size.xretExt (w : ExtWord) : Laws.Size.Statement (.xretExt w) := Laws.Size.all _
theorem Sys2Proof.Laws.Size.iadd (w : BaseWord) : Laws.Size.Statement (.iadd w) := Laws.Size.all _
theorem Sys2Proof.Laws.Size.iaddExt (w : ExtWord) : Laws.Size.Statement (.iaddExt w) := Laws.Size.all _
theorem Sys2Proof.Laws.Size.isub (w : BaseWord) : Laws.Size.Statement (.isub w) := Laws.Size.all _
theorem Sys2Proof.Laws.Size.isubExt (w : ExtWord) : Laws.Size.Statement (.isubExt w) := Laws.Size.all _
theorem Sys2Proof.Laws.Size.imul (w : BaseWord) : Laws.Size.Statement (.imul w) := Laws.Size.all _
theorem Sys2Proof.Laws.Size.imulExt (w : ExtWord) : Laws.Size.Statement (.imulExt w) := Laws.Size.all _
theorem Sys2Proof.Laws.Size.imulh (w : BaseWord) : Laws.Size.Statement (.imulh w) := Laws.Size.all _
theorem Sys2Proof.Laws.Size.imulhExt (w : ExtWord) : Laws.Size.Statement (.imulhExt w) := Laws.Size.all _
theorem Sys2Proof.Laws.Size.imad (w : ExtWord) : Laws.Size.Statement (.imad w) := Laws.Size.all _
theorem Sys2Proof.Laws.Size.idiv (w : BaseWord) : Laws.Size.Statement (.idiv w) := Laws.Size.all _
theorem Sys2Proof.Laws.Size.idivExt (w : ExtWord) : Laws.Size.Statement (.idivExt w) := Laws.Size.all _
theorem Sys2Proof.Laws.Size.irem (w : BaseWord) : Laws.Size.Statement (.irem w) := Laws.Size.all _
theorem Sys2Proof.Laws.Size.iremExt (w : ExtWord) : Laws.Size.Statement (.iremExt w) := Laws.Size.all _
theorem Sys2Proof.Laws.Size.imin (w : BaseWord) : Laws.Size.Statement (.imin w) := Laws.Size.all _
theorem Sys2Proof.Laws.Size.iminExt (w : ExtWord) : Laws.Size.Statement (.iminExt w) := Laws.Size.all _
theorem Sys2Proof.Laws.Size.imax (w : BaseWord) : Laws.Size.Statement (.imax w) := Laws.Size.all _
theorem Sys2Proof.Laws.Size.imaxExt (w : ExtWord) : Laws.Size.Statement (.imaxExt w) := Laws.Size.all _
theorem Sys2Proof.Laws.Size.iabs (w : BaseWord) : Laws.Size.Statement (.iabs w) := Laws.Size.all _
theorem Sys2Proof.Laws.Size.iabsExt (w : ExtWord) : Laws.Size.Statement (.iabsExt w) := Laws.Size.all _
theorem Sys2Proof.Laws.Size.ineg (w : BaseWord) : Laws.Size.Statement (.ineg w) := Laws.Size.all _
theorem Sys2Proof.Laws.Size.inegExt (w : ExtWord) : Laws.Size.Statement (.inegExt w) := Laws.Size.all _
theorem Sys2Proof.Laws.Size.iadd64 (w : BaseWord) : Laws.Size.Statement (.iadd64 w) := Laws.Size.all _
theorem Sys2Proof.Laws.Size.iadd64Ext (w : ExtWord) : Laws.Size.Statement (.iadd64Ext w) := Laws.Size.all _
theorem Sys2Proof.Laws.Size.imad64 (w : ExtWord) : Laws.Size.Statement (.imad64 w) := Laws.Size.all _
theorem Sys2Proof.Laws.Size.lea (w : BaseWord) : Laws.Size.Statement (.lea w) := Laws.Size.all _
theorem Sys2Proof.Laws.Size.leaExt (w : ExtWord) : Laws.Size.Statement (.leaExt w) := Laws.Size.all _
theorem Sys2Proof.Laws.Size.lea64 (w : BaseWord) : Laws.Size.Statement (.lea64 w) := Laws.Size.all _
theorem Sys2Proof.Laws.Size.lea64Ext (w : ExtWord) : Laws.Size.Statement (.lea64Ext w) := Laws.Size.all _
theorem Sys2Proof.Laws.Size.and (w : BaseWord) : Laws.Size.Statement (.and w) := Laws.Size.all _
theorem Sys2Proof.Laws.Size.andExt (w : ExtWord) : Laws.Size.Statement (.andExt w) := Laws.Size.all _
theorem Sys2Proof.Laws.Size.or (w : BaseWord) : Laws.Size.Statement (.or w) := Laws.Size.all _
theorem Sys2Proof.Laws.Size.orExt (w : ExtWord) : Laws.Size.Statement (.orExt w) := Laws.Size.all _
theorem Sys2Proof.Laws.Size.xor (w : BaseWord) : Laws.Size.Statement (.xor w) := Laws.Size.all _
theorem Sys2Proof.Laws.Size.xorExt (w : ExtWord) : Laws.Size.Statement (.xorExt w) := Laws.Size.all _
theorem Sys2Proof.Laws.Size.not (w : BaseWord) : Laws.Size.Statement (.not w) := Laws.Size.all _
theorem Sys2Proof.Laws.Size.notExt (w : ExtWord) : Laws.Size.Statement (.notExt w) := Laws.Size.all _
theorem Sys2Proof.Laws.Size.andn (w : BaseWord) : Laws.Size.Statement (.andn w) := Laws.Size.all _
theorem Sys2Proof.Laws.Size.andnExt (w : ExtWord) : Laws.Size.Statement (.andnExt w) := Laws.Size.all _
theorem Sys2Proof.Laws.Size.shl (w : BaseWord) : Laws.Size.Statement (.shl w) := Laws.Size.all _
theorem Sys2Proof.Laws.Size.shlExt (w : ExtWord) : Laws.Size.Statement (.shlExt w) := Laws.Size.all _
theorem Sys2Proof.Laws.Size.shr (w : BaseWord) : Laws.Size.Statement (.shr w) := Laws.Size.all _
theorem Sys2Proof.Laws.Size.shrExt (w : ExtWord) : Laws.Size.Statement (.shrExt w) := Laws.Size.all _
theorem Sys2Proof.Laws.Size.sar (w : BaseWord) : Laws.Size.Statement (.sar w) := Laws.Size.all _
theorem Sys2Proof.Laws.Size.sarExt (w : ExtWord) : Laws.Size.Statement (.sarExt w) := Laws.Size.all _
theorem Sys2Proof.Laws.Size.rot (w : BaseWord) : Laws.Size.Statement (.rot w) := Laws.Size.all _
theorem Sys2Proof.Laws.Size.rotExt (w : ExtWord) : Laws.Size.Statement (.rotExt w) := Laws.Size.all _
theorem Sys2Proof.Laws.Size.popc (w : BaseWord) : Laws.Size.Statement (.popc w) := Laws.Size.all _
theorem Sys2Proof.Laws.Size.popcExt (w : ExtWord) : Laws.Size.Statement (.popcExt w) := Laws.Size.all _
theorem Sys2Proof.Laws.Size.clz (w : BaseWord) : Laws.Size.Statement (.clz w) := Laws.Size.all _
theorem Sys2Proof.Laws.Size.clzExt (w : ExtWord) : Laws.Size.Statement (.clzExt w) := Laws.Size.all _
theorem Sys2Proof.Laws.Size.ctz (w : BaseWord) : Laws.Size.Statement (.ctz w) := Laws.Size.all _
theorem Sys2Proof.Laws.Size.ctzExt (w : ExtWord) : Laws.Size.Statement (.ctzExt w) := Laws.Size.all _
theorem Sys2Proof.Laws.Size.brev (w : BaseWord) : Laws.Size.Statement (.brev w) := Laws.Size.all _
theorem Sys2Proof.Laws.Size.brevExt (w : ExtWord) : Laws.Size.Statement (.brevExt w) := Laws.Size.all _
theorem Sys2Proof.Laws.Size.bfe (w : ExtWord) : Laws.Size.Statement (.bfe w) := Laws.Size.all _
theorem Sys2Proof.Laws.Size.bfi (w : ExtWord) : Laws.Size.Statement (.bfi w) := Laws.Size.all _
theorem Sys2Proof.Laws.Size.permb (w : ExtWord) : Laws.Size.Statement (.permb w) := Laws.Size.all _
theorem Sys2Proof.Laws.Size.iset (w : BaseWord) : Laws.Size.Statement (.iset w) := Laws.Size.all _
theorem Sys2Proof.Laws.Size.isetExt (w : ExtWord) : Laws.Size.Statement (.isetExt w) := Laws.Size.all _
theorem Sys2Proof.Laws.Size.fset (w : BaseWord) : Laws.Size.Statement (.fset w) := Laws.Size.all _
theorem Sys2Proof.Laws.Size.fsetExt (w : ExtWord) : Laws.Size.Statement (.fsetExt w) := Laws.Size.all _
theorem Sys2Proof.Laws.Size.fcls (w : ExtWord) : Laws.Size.Statement (.fcls w) := Laws.Size.all _
theorem Sys2Proof.Laws.Size.pand (w : BaseWord) : Laws.Size.Statement (.pand w) := Laws.Size.all _
theorem Sys2Proof.Laws.Size.pandExt (w : ExtWord) : Laws.Size.Statement (.pandExt w) := Laws.Size.all _
theorem Sys2Proof.Laws.Size.por (w : BaseWord) : Laws.Size.Statement (.por w) := Laws.Size.all _
theorem Sys2Proof.Laws.Size.porExt (w : ExtWord) : Laws.Size.Statement (.porExt w) := Laws.Size.all _
theorem Sys2Proof.Laws.Size.pxor (w : BaseWord) : Laws.Size.Statement (.pxor w) := Laws.Size.all _
theorem Sys2Proof.Laws.Size.pxorExt (w : ExtWord) : Laws.Size.Statement (.pxorExt w) := Laws.Size.all _
theorem Sys2Proof.Laws.Size.pnot (w : BaseWord) : Laws.Size.Statement (.pnot w) := Laws.Size.all _
theorem Sys2Proof.Laws.Size.pnotExt (w : ExtWord) : Laws.Size.Statement (.pnotExt w) := Laws.Size.all _
theorem Sys2Proof.Laws.Size.ptov (w : BaseWord) : Laws.Size.Statement (.ptov w) := Laws.Size.all _
theorem Sys2Proof.Laws.Size.ptovExt (w : ExtWord) : Laws.Size.Statement (.ptovExt w) := Laws.Size.all _
theorem Sys2Proof.Laws.Size.vtop (w : BaseWord) : Laws.Size.Statement (.vtop w) := Laws.Size.all _
theorem Sys2Proof.Laws.Size.vtopExt (w : ExtWord) : Laws.Size.Statement (.vtopExt w) := Laws.Size.all _
theorem Sys2Proof.Laws.Size.lxchIdx (w : BaseWord) : Laws.Size.Statement (.lxchIdx w) := Laws.Size.all _
theorem Sys2Proof.Laws.Size.lxchIdxExt (w : ExtWord) : Laws.Size.Statement (.lxchIdxExt w) := Laws.Size.all _
theorem Sys2Proof.Laws.Size.lxchUp (w : BaseWord) : Laws.Size.Statement (.lxchUp w) := Laws.Size.all _
theorem Sys2Proof.Laws.Size.lxchUpExt (w : ExtWord) : Laws.Size.Statement (.lxchUpExt w) := Laws.Size.all _
theorem Sys2Proof.Laws.Size.lxchDown (w : BaseWord) : Laws.Size.Statement (.lxchDown w) := Laws.Size.all _
theorem Sys2Proof.Laws.Size.lxchDownExt (w : ExtWord) : Laws.Size.Statement (.lxchDownExt w) := Laws.Size.all _
theorem Sys2Proof.Laws.Size.lxchXor (w : BaseWord) : Laws.Size.Statement (.lxchXor w) := Laws.Size.all _
theorem Sys2Proof.Laws.Size.lxchXorExt (w : ExtWord) : Laws.Size.Statement (.lxchXorExt w) := Laws.Size.all _
theorem Sys2Proof.Laws.Size.bcast (w : BaseWord) : Laws.Size.Statement (.bcast w) := Laws.Size.all _
theorem Sys2Proof.Laws.Size.bcastExt (w : ExtWord) : Laws.Size.Statement (.bcastExt w) := Laws.Size.all _
theorem Sys2Proof.Laws.Size.voteAll (w : BaseWord) : Laws.Size.Statement (.voteAll w) := Laws.Size.all _
theorem Sys2Proof.Laws.Size.voteAllExt (w : ExtWord) : Laws.Size.Statement (.voteAllExt w) := Laws.Size.all _
theorem Sys2Proof.Laws.Size.voteAny (w : BaseWord) : Laws.Size.Statement (.voteAny w) := Laws.Size.all _
theorem Sys2Proof.Laws.Size.voteAnyExt (w : ExtWord) : Laws.Size.Statement (.voteAnyExt w) := Laws.Size.all _
theorem Sys2Proof.Laws.Size.voteBal (w : BaseWord) : Laws.Size.Statement (.voteBal w) := Laws.Size.all _
theorem Sys2Proof.Laws.Size.voteBalExt (w : ExtWord) : Laws.Size.Statement (.voteBalExt w) := Laws.Size.all _
theorem Sys2Proof.Laws.Size.matchLanes (w : BaseWord) : Laws.Size.Statement (.matchLanes w) := Laws.Size.all _
theorem Sys2Proof.Laws.Size.matchLanesExt (w : ExtWord) : Laws.Size.Statement (.matchLanesExt w) := Laws.Size.all _
theorem Sys2Proof.Laws.Size.lcomp (w : BaseWord) : Laws.Size.Statement (.lcomp w) := Laws.Size.all _
theorem Sys2Proof.Laws.Size.lcompExt (w : ExtWord) : Laws.Size.Statement (.lcompExt w) := Laws.Size.all _
theorem Sys2Proof.Laws.Size.regroup (w : BaseWord) : Laws.Size.Statement (.regroup w) := Laws.Size.all _
theorem Sys2Proof.Laws.Size.regroupExt (w : ExtWord) : Laws.Size.Statement (.regroupExt w) := Laws.Size.all _
theorem Sys2Proof.Laws.Size.regroupRestore (w : BaseWord) : Laws.Size.Statement (.regroupRestore w) := Laws.Size.all _
theorem Sys2Proof.Laws.Size.regroupRestoreExt (w : ExtWord) : Laws.Size.Statement (.regroupRestoreExt w) := Laws.Size.all _
theorem Sys2Proof.Laws.Size.fadd (w : BaseWord) : Laws.Size.Statement (.fadd w) := Laws.Size.all _
theorem Sys2Proof.Laws.Size.faddExt (w : ExtWord) : Laws.Size.Statement (.faddExt w) := Laws.Size.all _
theorem Sys2Proof.Laws.Size.fsub (w : BaseWord) : Laws.Size.Statement (.fsub w) := Laws.Size.all _
theorem Sys2Proof.Laws.Size.fsubExt (w : ExtWord) : Laws.Size.Statement (.fsubExt w) := Laws.Size.all _
theorem Sys2Proof.Laws.Size.fmul (w : BaseWord) : Laws.Size.Statement (.fmul w) := Laws.Size.all _
theorem Sys2Proof.Laws.Size.fmulExt (w : ExtWord) : Laws.Size.Statement (.fmulExt w) := Laws.Size.all _
theorem Sys2Proof.Laws.Size.ffma (w : ExtWord) : Laws.Size.Statement (.ffma w) := Laws.Size.all _
theorem Sys2Proof.Laws.Size.fmin (w : BaseWord) : Laws.Size.Statement (.fmin w) := Laws.Size.all _
theorem Sys2Proof.Laws.Size.fminExt (w : ExtWord) : Laws.Size.Statement (.fminExt w) := Laws.Size.all _
theorem Sys2Proof.Laws.Size.fmax (w : BaseWord) : Laws.Size.Statement (.fmax w) := Laws.Size.all _
theorem Sys2Proof.Laws.Size.fmaxExt (w : ExtWord) : Laws.Size.Statement (.fmaxExt w) := Laws.Size.all _
theorem Sys2Proof.Laws.Size.fabs (w : BaseWord) : Laws.Size.Statement (.fabs w) := Laws.Size.all _
theorem Sys2Proof.Laws.Size.fabsExt (w : ExtWord) : Laws.Size.Statement (.fabsExt w) := Laws.Size.all _
theorem Sys2Proof.Laws.Size.fneg (w : BaseWord) : Laws.Size.Statement (.fneg w) := Laws.Size.all _
theorem Sys2Proof.Laws.Size.fnegExt (w : ExtWord) : Laws.Size.Statement (.fnegExt w) := Laws.Size.all _
theorem Sys2Proof.Laws.Size.frnd (w : BaseWord) : Laws.Size.Statement (.frnd w) := Laws.Size.all _
theorem Sys2Proof.Laws.Size.frndExt (w : ExtWord) : Laws.Size.Statement (.frndExt w) := Laws.Size.all _
theorem Sys2Proof.Laws.Size.fdiv (w : BaseWord) : Laws.Size.Statement (.fdiv w) := Laws.Size.all _
theorem Sys2Proof.Laws.Size.fdivExt (w : ExtWord) : Laws.Size.Statement (.fdivExt w) := Laws.Size.all _
theorem Sys2Proof.Laws.Size.fsqrt (w : BaseWord) : Laws.Size.Statement (.fsqrt w) := Laws.Size.all _
theorem Sys2Proof.Laws.Size.fsqrtExt (w : ExtWord) : Laws.Size.Statement (.fsqrtExt w) := Laws.Size.all _
theorem Sys2Proof.Laws.Size.frcp (w : BaseWord) : Laws.Size.Statement (.frcp w) := Laws.Size.all _
theorem Sys2Proof.Laws.Size.frcpExt (w : ExtWord) : Laws.Size.Statement (.frcpExt w) := Laws.Size.all _
theorem Sys2Proof.Laws.Size.frsq (w : BaseWord) : Laws.Size.Statement (.frsq w) := Laws.Size.all _
theorem Sys2Proof.Laws.Size.frsqExt (w : ExtWord) : Laws.Size.Statement (.frsqExt w) := Laws.Size.all _
theorem Sys2Proof.Laws.Size.setfp (w : BaseWord) : Laws.Size.Statement (.setfp w) := Laws.Size.all _
theorem Sys2Proof.Laws.Size.setfpExt (w : ExtWord) : Laws.Size.Statement (.setfpExt w) := Laws.Size.all _
theorem Sys2Proof.Laws.Size.fex2 (w : BaseWord) : Laws.Size.Statement (.fex2 w) := Laws.Size.all _
theorem Sys2Proof.Laws.Size.fex2Ext (w : ExtWord) : Laws.Size.Statement (.fex2Ext w) := Laws.Size.all _
theorem Sys2Proof.Laws.Size.flg2 (w : BaseWord) : Laws.Size.Statement (.flg2 w) := Laws.Size.all _
theorem Sys2Proof.Laws.Size.flg2Ext (w : ExtWord) : Laws.Size.Statement (.flg2Ext w) := Laws.Size.all _
theorem Sys2Proof.Laws.Size.fsin (w : BaseWord) : Laws.Size.Statement (.fsin w) := Laws.Size.all _
theorem Sys2Proof.Laws.Size.fsinExt (w : ExtWord) : Laws.Size.Statement (.fsinExt w) := Laws.Size.all _
theorem Sys2Proof.Laws.Size.fcos (w : BaseWord) : Laws.Size.Statement (.fcos w) := Laws.Size.all _
theorem Sys2Proof.Laws.Size.fcosExt (w : ExtWord) : Laws.Size.Statement (.fcosExt w) := Laws.Size.all _
theorem Sys2Proof.Laws.Size.ftanh (w : BaseWord) : Laws.Size.Statement (.ftanh w) := Laws.Size.all _
theorem Sys2Proof.Laws.Size.ftanhExt (w : ExtWord) : Laws.Size.Statement (.ftanhExt w) := Laws.Size.all _
theorem Sys2Proof.Laws.Size.phadd (w : BaseWord) : Laws.Size.Statement (.phadd w) := Laws.Size.all _
theorem Sys2Proof.Laws.Size.phaddExt (w : ExtWord) : Laws.Size.Statement (.phaddExt w) := Laws.Size.all _
theorem Sys2Proof.Laws.Size.phmul (w : BaseWord) : Laws.Size.Statement (.phmul w) := Laws.Size.all _
theorem Sys2Proof.Laws.Size.phmulExt (w : ExtWord) : Laws.Size.Statement (.phmulExt w) := Laws.Size.all _
theorem Sys2Proof.Laws.Size.phfma (w : ExtWord) : Laws.Size.Statement (.phfma w) := Laws.Size.all _
theorem Sys2Proof.Laws.Size.pbadd (w : BaseWord) : Laws.Size.Statement (.pbadd w) := Laws.Size.all _
theorem Sys2Proof.Laws.Size.pbaddExt (w : ExtWord) : Laws.Size.Statement (.pbaddExt w) := Laws.Size.all _
theorem Sys2Proof.Laws.Size.pbmul (w : BaseWord) : Laws.Size.Statement (.pbmul w) := Laws.Size.all _
theorem Sys2Proof.Laws.Size.pbmulExt (w : ExtWord) : Laws.Size.Statement (.pbmulExt w) := Laws.Size.all _
theorem Sys2Proof.Laws.Size.pbfma (w : ExtWord) : Laws.Size.Statement (.pbfma w) := Laws.Size.all _
theorem Sys2Proof.Laws.Size.cvt (w : ExtWord) : Laws.Size.Statement (.cvt w) := Laws.Size.all _
theorem Sys2Proof.Laws.Size.qnt (w : ExtWord) : Laws.Size.Statement (.qnt w) := Laws.Size.all _
theorem Sys2Proof.Laws.Size.dqnt (w : ExtWord) : Laws.Size.Statement (.dqnt w) := Laws.Size.all _
theorem Sys2Proof.Laws.Size.pk6 (w : BaseWord) : Laws.Size.Statement (.pk6 w) := Laws.Size.all _
theorem Sys2Proof.Laws.Size.pk6Ext (w : ExtWord) : Laws.Size.Statement (.pk6Ext w) := Laws.Size.all _
theorem Sys2Proof.Laws.Size.upk6 (w : BaseWord) : Laws.Size.Statement (.upk6 w) := Laws.Size.all _
theorem Sys2Proof.Laws.Size.upk6Ext (w : ExtWord) : Laws.Size.Statement (.upk6Ext w) := Laws.Size.all _
theorem Sys2Proof.Laws.Size.pkb (w : BaseWord) : Laws.Size.Statement (.pkb w) := Laws.Size.all _
theorem Sys2Proof.Laws.Size.pkbExt (w : ExtWord) : Laws.Size.Statement (.pkbExt w) := Laws.Size.all _
theorem Sys2Proof.Laws.Size.upkb (w : BaseWord) : Laws.Size.Statement (.upkb w) := Laws.Size.all _
theorem Sys2Proof.Laws.Size.upkbExt (w : ExtWord) : Laws.Size.Statement (.upkbExt w) := Laws.Size.all _
theorem Sys2Proof.Laws.Size.ld (w : BaseWord) : Laws.Size.Statement (.ld w) := Laws.Size.all _
theorem Sys2Proof.Laws.Size.ldExt (w : ExtWord) : Laws.Size.Statement (.ldExt w) := Laws.Size.all _
theorem Sys2Proof.Laws.Size.st (w : BaseWord) : Laws.Size.Statement (.st w) := Laws.Size.all _
theorem Sys2Proof.Laws.Size.stExt (w : ExtWord) : Laws.Size.Statement (.stExt w) := Laws.Size.all _
theorem Sys2Proof.Laws.Size.ldq (w : ExtWord) : Laws.Size.Statement (.ldq w) := Laws.Size.all _
theorem Sys2Proof.Laws.Size.lds (w : BaseWord) : Laws.Size.Statement (.lds w) := Laws.Size.all _
theorem Sys2Proof.Laws.Size.ldsExt (w : ExtWord) : Laws.Size.Statement (.ldsExt w) := Laws.Size.all _
theorem Sys2Proof.Laws.Size.sts (w : BaseWord) : Laws.Size.Statement (.sts w) := Laws.Size.all _
theorem Sys2Proof.Laws.Size.stsExt (w : ExtWord) : Laws.Size.Statement (.stsExt w) := Laws.Size.all _
theorem Sys2Proof.Laws.Size.ldsPeer (w : ExtWord) : Laws.Size.Statement (.ldsPeer w) := Laws.Size.all _
theorem Sys2Proof.Laws.Size.stsPeer (w : ExtWord) : Laws.Size.Statement (.stsPeer w) := Laws.Size.all _
theorem Sys2Proof.Laws.Size.ldw (w : BaseWord) : Laws.Size.Statement (.ldw w) := Laws.Size.all _
theorem Sys2Proof.Laws.Size.ldwExt (w : ExtWord) : Laws.Size.Statement (.ldwExt w) := Laws.Size.all _
theorem Sys2Proof.Laws.Size.atomAdd (w : BaseWord) : Laws.Size.Statement (.atomAdd w) := Laws.Size.all _
theorem Sys2Proof.Laws.Size.atomAddExt (w : ExtWord) : Laws.Size.Statement (.atomAddExt w) := Laws.Size.all _
theorem Sys2Proof.Laws.Size.atomFadd (w : BaseWord) : Laws.Size.Statement (.atomFadd w) := Laws.Size.all _
theorem Sys2Proof.Laws.Size.atomFaddExt (w : ExtWord) : Laws.Size.Statement (.atomFaddExt w) := Laws.Size.all _
theorem Sys2Proof.Laws.Size.atomMin (w : BaseWord) : Laws.Size.Statement (.atomMin w) := Laws.Size.all _
theorem Sys2Proof.Laws.Size.atomMinExt (w : ExtWord) : Laws.Size.Statement (.atomMinExt w) := Laws.Size.all _
theorem Sys2Proof.Laws.Size.atomMax (w : BaseWord) : Laws.Size.Statement (.atomMax w) := Laws.Size.all _
theorem Sys2Proof.Laws.Size.atomMaxExt (w : ExtWord) : Laws.Size.Statement (.atomMaxExt w) := Laws.Size.all _
theorem Sys2Proof.Laws.Size.atomAnd (w : BaseWord) : Laws.Size.Statement (.atomAnd w) := Laws.Size.all _
theorem Sys2Proof.Laws.Size.atomAndExt (w : ExtWord) : Laws.Size.Statement (.atomAndExt w) := Laws.Size.all _
theorem Sys2Proof.Laws.Size.atomOr (w : BaseWord) : Laws.Size.Statement (.atomOr w) := Laws.Size.all _
theorem Sys2Proof.Laws.Size.atomOrExt (w : ExtWord) : Laws.Size.Statement (.atomOrExt w) := Laws.Size.all _
theorem Sys2Proof.Laws.Size.atomXor (w : BaseWord) : Laws.Size.Statement (.atomXor w) := Laws.Size.all _
theorem Sys2Proof.Laws.Size.atomXorExt (w : ExtWord) : Laws.Size.Statement (.atomXorExt w) := Laws.Size.all _
theorem Sys2Proof.Laws.Size.atomXchg (w : BaseWord) : Laws.Size.Statement (.atomXchg w) := Laws.Size.all _
theorem Sys2Proof.Laws.Size.atomXchgExt (w : ExtWord) : Laws.Size.Statement (.atomXchgExt w) := Laws.Size.all _
theorem Sys2Proof.Laws.Size.atomCas (w : ExtWord) : Laws.Size.Statement (.atomCas w) := Laws.Size.all _
theorem Sys2Proof.Laws.Size.redAdd (w : BaseWord) : Laws.Size.Statement (.redAdd w) := Laws.Size.all _
theorem Sys2Proof.Laws.Size.redAddExt (w : ExtWord) : Laws.Size.Statement (.redAddExt w) := Laws.Size.all _
theorem Sys2Proof.Laws.Size.redFadd (w : BaseWord) : Laws.Size.Statement (.redFadd w) := Laws.Size.all _
theorem Sys2Proof.Laws.Size.redFaddExt (w : ExtWord) : Laws.Size.Statement (.redFaddExt w) := Laws.Size.all _
theorem Sys2Proof.Laws.Size.redMin (w : BaseWord) : Laws.Size.Statement (.redMin w) := Laws.Size.all _
theorem Sys2Proof.Laws.Size.redMinExt (w : ExtWord) : Laws.Size.Statement (.redMinExt w) := Laws.Size.all _
theorem Sys2Proof.Laws.Size.redMax (w : BaseWord) : Laws.Size.Statement (.redMax w) := Laws.Size.all _
theorem Sys2Proof.Laws.Size.redMaxExt (w : ExtWord) : Laws.Size.Statement (.redMaxExt w) := Laws.Size.all _
theorem Sys2Proof.Laws.Size.redAnd (w : BaseWord) : Laws.Size.Statement (.redAnd w) := Laws.Size.all _
theorem Sys2Proof.Laws.Size.redAndExt (w : ExtWord) : Laws.Size.Statement (.redAndExt w) := Laws.Size.all _
theorem Sys2Proof.Laws.Size.redOr (w : BaseWord) : Laws.Size.Statement (.redOr w) := Laws.Size.all _
theorem Sys2Proof.Laws.Size.redOrExt (w : ExtWord) : Laws.Size.Statement (.redOrExt w) := Laws.Size.all _
theorem Sys2Proof.Laws.Size.redXor (w : BaseWord) : Laws.Size.Statement (.redXor w) := Laws.Size.all _
theorem Sys2Proof.Laws.Size.redXorExt (w : ExtWord) : Laws.Size.Statement (.redXorExt w) := Laws.Size.all _
theorem Sys2Proof.Laws.Size.fenceCoh (w : BaseWord) : Laws.Size.Statement (.fenceCoh w) := Laws.Size.all _
theorem Sys2Proof.Laws.Size.fenceCohExt (w : ExtWord) : Laws.Size.Statement (.fenceCohExt w) := Laws.Size.all _
theorem Sys2Proof.Laws.Size.fenceBlk (w : BaseWord) : Laws.Size.Statement (.fenceBlk w) := Laws.Size.all _
theorem Sys2Proof.Laws.Size.fenceBlkExt (w : ExtWord) : Laws.Size.Statement (.fenceBlkExt w) := Laws.Size.all _
theorem Sys2Proof.Laws.Size.fenceCore (w : BaseWord) : Laws.Size.Statement (.fenceCore w) := Laws.Size.all _
theorem Sys2Proof.Laws.Size.fenceCoreExt (w : ExtWord) : Laws.Size.Statement (.fenceCoreExt w) := Laws.Size.all _
theorem Sys2Proof.Laws.Size.fenceClu (w : BaseWord) : Laws.Size.Statement (.fenceClu w) := Laws.Size.all _
theorem Sys2Proof.Laws.Size.fenceCluExt (w : ExtWord) : Laws.Size.Statement (.fenceCluExt w) := Laws.Size.all _
theorem Sys2Proof.Laws.Size.fenceDie (w : BaseWord) : Laws.Size.Statement (.fenceDie w) := Laws.Size.all _
theorem Sys2Proof.Laws.Size.fenceDieExt (w : ExtWord) : Laws.Size.Statement (.fenceDieExt w) := Laws.Size.all _
theorem Sys2Proof.Laws.Size.fenceDev (w : BaseWord) : Laws.Size.Statement (.fenceDev w) := Laws.Size.all _
theorem Sys2Proof.Laws.Size.fenceDevExt (w : ExtWord) : Laws.Size.Statement (.fenceDevExt w) := Laws.Size.all _
theorem Sys2Proof.Laws.Size.fenceSys (w : BaseWord) : Laws.Size.Statement (.fenceSys w) := Laws.Size.all _
theorem Sys2Proof.Laws.Size.fenceSysExt (w : ExtWord) : Laws.Size.Statement (.fenceSysExt w) := Laws.Size.all _
theorem Sys2Proof.Laws.Size.barInit (w : BaseWord) : Laws.Size.Statement (.barInit w) := Laws.Size.all _
theorem Sys2Proof.Laws.Size.barInitExt (w : ExtWord) : Laws.Size.Statement (.barInitExt w) := Laws.Size.all _
theorem Sys2Proof.Laws.Size.barArr (w : BaseWord) : Laws.Size.Statement (.barArr w) := Laws.Size.all _
theorem Sys2Proof.Laws.Size.barArrExt (w : ExtWord) : Laws.Size.Statement (.barArrExt w) := Laws.Size.all _
theorem Sys2Proof.Laws.Size.barWait (w : BaseWord) : Laws.Size.Statement (.barWait w) := Laws.Size.all _
theorem Sys2Proof.Laws.Size.barWaitExt (w : ExtWord) : Laws.Size.Statement (.barWaitExt w) := Laws.Size.all _
theorem Sys2Proof.Laws.Size.barXin (w : BaseWord) : Laws.Size.Statement (.barXin w) := Laws.Size.all _
theorem Sys2Proof.Laws.Size.barXinExt (w : ExtWord) : Laws.Size.Statement (.barXinExt w) := Laws.Size.all _
theorem Sys2Proof.Laws.Size.barXout (w : BaseWord) : Laws.Size.Statement (.barXout w) := Laws.Size.all _
theorem Sys2Proof.Laws.Size.barXoutExt (w : ExtWord) : Laws.Size.Statement (.barXoutExt w) := Laws.Size.all _
theorem Sys2Proof.Laws.Size.cpy (w : ExtWord) : Laws.Size.Statement (.cpy w) := Laws.Size.all _
theorem Sys2Proof.Laws.Size.cpym (w : ExtWord) : Laws.Size.Statement (.cpym w) := Laws.Size.all _
theorem Sys2Proof.Laws.Size.cpyo (w : ExtWord) : Laws.Size.Statement (.cpyo w) := Laws.Size.all _
theorem Sys2Proof.Laws.Size.cpyp (w : ExtWord) : Laws.Size.Statement (.cpyp w) := Laws.Size.all _
theorem Sys2Proof.Laws.Size.waitoc (w : BaseWord) : Laws.Size.Statement (.waitoc w) := Laws.Size.all _
theorem Sys2Proof.Laws.Size.waitocExt (w : ExtWord) : Laws.Size.Statement (.waitocExt w) := Laws.Size.all _
theorem Sys2Proof.Laws.Size.rdwp (w : BaseWord) : Laws.Size.Statement (.rdwp w) := Laws.Size.all _
theorem Sys2Proof.Laws.Size.rdwpExt (w : ExtWord) : Laws.Size.Statement (.rdwpExt w) := Laws.Size.all _
theorem Sys2Proof.Laws.Size.waitwp (w : BaseWord) : Laws.Size.Statement (.waitwp w) := Laws.Size.all _
theorem Sys2Proof.Laws.Size.waitwpExt (w : ExtWord) : Laws.Size.Statement (.waitwpExt w) := Laws.Size.all _
theorem Sys2Proof.Laws.Size.txb (w : BaseWord) : Laws.Size.Statement (.txb w) := Laws.Size.all _
theorem Sys2Proof.Laws.Size.txbExt (w : ExtWord) : Laws.Size.Statement (.txbExt w) := Laws.Size.all _
theorem Sys2Proof.Laws.Size.txc (w : BaseWord) : Laws.Size.Statement (.txc w) := Laws.Size.all _
theorem Sys2Proof.Laws.Size.txcExt (w : ExtWord) : Laws.Size.Statement (.txcExt w) := Laws.Size.all _
theorem Sys2Proof.Laws.Size.txa (w : BaseWord) : Laws.Size.Statement (.txa w) := Laws.Size.all _
theorem Sys2Proof.Laws.Size.txaExt (w : ExtWord) : Laws.Size.Statement (.txaExt w) := Laws.Size.all _
theorem Sys2Proof.Laws.Size.txw (w : BaseWord) : Laws.Size.Statement (.txw w) := Laws.Size.all _
theorem Sys2Proof.Laws.Size.txwExt (w : ExtWord) : Laws.Size.Statement (.txwExt w) := Laws.Size.all _
theorem Sys2Proof.Laws.Size.gchk (w : BaseWord) : Laws.Size.Statement (.gchk w) := Laws.Size.all _
theorem Sys2Proof.Laws.Size.gchkExt (w : ExtWord) : Laws.Size.Statement (.gchkExt w) := Laws.Size.all _
theorem Sys2Proof.Laws.Size.dset (w : BaseWord) : Laws.Size.Statement (.dset w) := Laws.Size.all _
theorem Sys2Proof.Laws.Size.dsetExt (w : ExtWord) : Laws.Size.Statement (.dsetExt w) := Laws.Size.all _
theorem Sys2Proof.Laws.Size.dget (w : BaseWord) : Laws.Size.Statement (.dget w) := Laws.Size.all _
theorem Sys2Proof.Laws.Size.dgetExt (w : ExtWord) : Laws.Size.Statement (.dgetExt w) := Laws.Size.all _
theorem Sys2Proof.Laws.Size.tzero (w : BaseWord) : Laws.Size.Statement (.tzero w) := Laws.Size.all _
theorem Sys2Proof.Laws.Size.tzeroExt (w : ExtWord) : Laws.Size.Statement (.tzeroExt w) := Laws.Size.all _
theorem Sys2Proof.Laws.Size.trd (w : BaseWord) : Laws.Size.Statement (.trd w) := Laws.Size.all _
theorem Sys2Proof.Laws.Size.trdExt (w : ExtWord) : Laws.Size.Statement (.trdExt w) := Laws.Size.all _
theorem Sys2Proof.Laws.Size.twr (w : BaseWord) : Laws.Size.Statement (.twr w) := Laws.Size.all _
theorem Sys2Proof.Laws.Size.twrExt (w : ExtWord) : Laws.Size.Statement (.twrExt w) := Laws.Size.all _
theorem Sys2Proof.Laws.Size.tcvt (w : ExtWord) : Laws.Size.Statement (.tcvt w) := Laws.Size.all _
theorem Sys2Proof.Laws.Size.mmaE4m3 (w : ExtWord) : Laws.Size.Statement (.mmaE4m3 w) := Laws.Size.all _
theorem Sys2Proof.Laws.Size.mmaE5m2 (w : ExtWord) : Laws.Size.Statement (.mmaE5m2 w) := Laws.Size.all _
theorem Sys2Proof.Laws.Size.mmaI8 (w : ExtWord) : Laws.Size.Statement (.mmaI8 w) := Laws.Size.all _
theorem Sys2Proof.Laws.Size.mmaBf16 (w : ExtWord) : Laws.Size.Statement (.mmaBf16 w) := Laws.Size.all _
theorem Sys2Proof.Laws.Size.mmaQ4a (w : ExtWord) : Laws.Size.Statement (.mmaQ4a w) := Laws.Size.all _
theorem Sys2Proof.Laws.Size.mmag (w : ExtWord) : Laws.Size.Statement (.mmag w) := Laws.Size.all _
theorem Sys2Proof.Laws.Size.mmas (w : ExtWord) : Laws.Size.Statement (.mmas w) := Laws.Size.all _
theorem Sys2Proof.Laws.Size.cmpr (w : ExtWord) : Laws.Size.Statement (.cmpr w) := Laws.Size.all _
theorem Sys2Proof.Laws.Size.mvt (w : ExtWord) : Laws.Size.Statement (.mvt w) := Laws.Size.all _
theorem Sys2Proof.Laws.Size.vga (w : ExtWord) : Laws.Size.Statement (.vga w) := Laws.Size.all _
theorem Sys2Proof.Laws.Size.nres (w : BaseWord) : Laws.Size.Statement (.nres w) := Laws.Size.all _
theorem Sys2Proof.Laws.Size.nresExt (w : ExtWord) : Laws.Size.Statement (.nresExt w) := Laws.Size.all _
theorem Sys2Proof.Laws.Size.allocreg (w : BaseWord) : Laws.Size.Statement (.allocreg w) := Laws.Size.all _
theorem Sys2Proof.Laws.Size.allocregExt (w : ExtWord) : Laws.Size.Statement (.allocregExt w) := Laws.Size.all _
theorem Sys2Proof.Laws.Size.freereg (w : BaseWord) : Laws.Size.Statement (.freereg w) := Laws.Size.all _
theorem Sys2Proof.Laws.Size.freeregExt (w : ExtWord) : Laws.Size.Statement (.freeregExt w) := Laws.Size.all _
theorem Sys2Proof.Laws.Size.wallet (w : BaseWord) : Laws.Size.Statement (.wallet w) := Laws.Size.all _
theorem Sys2Proof.Laws.Size.walletExt (w : ExtWord) : Laws.Size.Statement (.walletExt w) := Laws.Size.all _
theorem Sys2Proof.Laws.Size.boost (w : BaseWord) : Laws.Size.Statement (.boost w) := Laws.Size.all _
theorem Sys2Proof.Laws.Size.boostExt (w : ExtWord) : Laws.Size.Statement (.boostExt w) := Laws.Size.all _
theorem Sys2Proof.Laws.Size.permits (w : BaseWord) : Laws.Size.Statement (.permits w) := Laws.Size.all _
theorem Sys2Proof.Laws.Size.permitsExt (w : ExtWord) : Laws.Size.Statement (.permitsExt w) := Laws.Size.all _
theorem Sys2Proof.Laws.Size.cycle (w : BaseWord) : Laws.Size.Statement (.cycle w) := Laws.Size.all _
theorem Sys2Proof.Laws.Size.cycleExt (w : ExtWord) : Laws.Size.Statement (.cycleExt w) := Laws.Size.all _
theorem Sys2Proof.Laws.Size.hint (opc : BitVec 8) (w : BaseWord) : Laws.Size.Statement (.hint opc w) := Laws.Size.all _
theorem Sys2Proof.Laws.Size.hintExt (opc : BitVec 8) (w : ExtWord) : Laws.Size.Statement (.hintExt opc w) := Laws.Size.all _
theorem Sys2Proof.Laws.Size.issueAging (slot : Nat) : Laws.Size.Statement (.issueAging slot) := Laws.Size.all _
theorem Sys2Proof.Laws.Size.joinRelease (slot n : Nat) : Laws.Size.Statement (.joinRelease slot n) := Laws.Size.all _
theorem Sys2Proof.Laws.Size.regroupMove (blk : Nat) : Laws.Size.Statement (.regroupMove blk) := Laws.Size.all _
theorem Sys2Proof.Laws.Size.regroupRestoreMove (blk : Nat) : Laws.Size.Statement (.regroupRestoreMove blk) := Laws.Size.all _
theorem Sys2Proof.Laws.Size.cohortSlotRelease (slot : Nat) : Laws.Size.Statement (.cohortSlotRelease slot) := Laws.Size.all _
theorem Sys2Proof.Laws.Size.allocregDeadlock (core : Nat) : Laws.Size.Statement (.allocregDeadlock core) := Laws.Size.all _
theorem Sys2Proof.Laws.Size.priceLineAging (slot : Nat) : Laws.Size.Statement (.priceLineAging slot) := Laws.Size.all _
theorem Sys2Proof.Laws.Size.tokenInject (die : Nat) : Laws.Size.Statement (.tokenInject die) := Laws.Size.all _
theorem Sys2Proof.Laws.Size.ringStation (die station : Nat) : Laws.Size.Statement (.ringStation die station) := Laws.Size.all _
theorem Sys2Proof.Laws.Size.tokenWithdraw (die : Nat) : Laws.Size.Statement (.tokenWithdraw die) := Laws.Size.all _
theorem Sys2Proof.Laws.Size.walletStarved (core : Nat) : Laws.Size.Statement (.walletStarved core) := Laws.Size.all _
theorem Sys2Proof.Laws.Size.matrixPassGrant (cluster : Nat) : Laws.Size.Statement (.matrixPassGrant cluster) := Laws.Size.all _
theorem Sys2Proof.Laws.Size.matrixRequestAging (cluster op : Nat) : Laws.Size.Statement (.matrixRequestAging cluster op) := Laws.Size.all _
theorem Sys2Proof.Laws.Size.matrixPassWrite (cluster op : Nat) : Laws.Size.Statement (.matrixPassWrite cluster op) := Laws.Size.all _
theorem Sys2Proof.Laws.Size.cmprComplete (cluster op : Nat) : Laws.Size.Statement (.cmprComplete cluster op) := Laws.Size.all _
theorem Sys2Proof.Laws.Size.swapOut (blk : Nat) : Laws.Size.Statement (.swapOut blk) := Laws.Size.all _
theorem Sys2Proof.Laws.Size.swapIn (vf core : Nat) : Laws.Size.Statement (.swapIn vf core) := Laws.Size.all _
theorem Sys2Proof.Laws.Size.take (cluster launch : Nat) : Laws.Size.Statement (.take cluster launch) := Laws.Size.all _
theorem Sys2Proof.Laws.Size.downTake (cluster launch : Nat) : Laws.Size.Statement (.downTake cluster launch) := Laws.Size.all _
theorem Sys2Proof.Laws.Size.steal (cluster launch : Nat) : Laws.Size.Statement (.steal cluster launch) := Laws.Size.all _
theorem Sys2Proof.Laws.Size.leapfrog (cluster launch victim : Nat) : Laws.Size.Statement (.leapfrog cluster launch victim) := Laws.Size.all _
theorem Sys2Proof.Laws.Size.blockDispatch (cluster : Nat) : Laws.Size.Statement (.blockDispatch cluster) := Laws.Size.all _
theorem Sys2Proof.Laws.Size.inboxCopy (blk : Nat) : Laws.Size.Statement (.inboxCopy blk) := Laws.Size.all _
theorem Sys2Proof.Laws.Size.placementSearch (launch : Nat) : Laws.Size.Statement (.placementSearch launch) := Laws.Size.all _
theorem Sys2Proof.Laws.Size.phaseTurn (launch : Nat) : Laws.Size.Statement (.phaseTurn launch) := Laws.Size.all _
theorem Sys2Proof.Laws.Size.copyStart (core ch : Nat) : Laws.Size.Statement (.copyStart core ch) := Laws.Size.all _
theorem Sys2Proof.Laws.Size.copySourceReadDone (core ch : Nat) : Laws.Size.Statement (.copySourceReadDone core ch) := Laws.Size.all _
theorem Sys2Proof.Laws.Size.copyComplete (core ch : Nat) : Laws.Size.Statement (.copyComplete core ch) := Laws.Size.all _
theorem Sys2Proof.Laws.Size.copyFault (core ch : Nat) : Laws.Size.Statement (.copyFault core ch) := Laws.Size.all _
theorem Sys2Proof.Laws.Size.barrierWave (cluster : Nat) : Laws.Size.Statement (.barrierWave cluster) := Laws.Size.all _
theorem Sys2Proof.Laws.Size.redApply (req : Nat) : Laws.Size.Statement (.redApply req) := Laws.Size.all _
theorem Sys2Proof.Laws.Size.vgaComplete (cluster : Nat) : Laws.Size.Statement (.vgaComplete cluster) := Laws.Size.all _
theorem Sys2Proof.Laws.Size.txConflict (slot : Nat) : Laws.Size.Statement (.txConflict slot) := Laws.Size.all _
theorem Sys2Proof.Laws.Size.faultRecordPost (vf : Nat) : Laws.Size.Statement (.faultRecordPost vf) := Laws.Size.all _
theorem Sys2Proof.Laws.Size.notify (vf q : Nat) (value : W32) : Laws.Size.Statement (.notify vf q value) := Laws.Size.all _
theorem Sys2Proof.Laws.Size.queueFetch : Laws.Size.Statement .queueFetch := Laws.Size.all _
theorem Sys2Proof.Laws.Size.pad (vf q : Nat) : Laws.Size.Statement (.pad vf q) := Laws.Size.all _
theorem Sys2Proof.Laws.Size.launch (vf q : Nat) : Laws.Size.Statement (.launch vf q) := Laws.Size.all _
theorem Sys2Proof.Laws.Size.launchStart (launch : Nat) : Laws.Size.Statement (.launchStart launch) := Laws.Size.all _
theorem Sys2Proof.Laws.Size.waitmem (vf q : Nat) : Laws.Size.Statement (.waitmem vf q) := Laws.Size.all _
theorem Sys2Proof.Laws.Size.waitmemPoll (vf q : Nat) : Laws.Size.Statement (.waitmemPoll vf q) := Laws.Size.all _
theorem Sys2Proof.Laws.Size.signalmem (vf q : Nat) : Laws.Size.Statement (.signalmem vf q) := Laws.Size.all _
theorem Sys2Proof.Laws.Size.fence (vf q : Nat) : Laws.Size.Statement (.fence vf q) := Laws.Size.all _
theorem Sys2Proof.Laws.Size.qctlIntr (vf q : Nat) : Laws.Size.Statement (.qctlIntr vf q) := Laws.Size.all _
theorem Sys2Proof.Laws.Size.qctlStop (vf q : Nat) : Laws.Size.Statement (.qctlStop vf q) := Laws.Size.all _
theorem Sys2Proof.Laws.Size.queueReset (vf q : Nat) : Laws.Size.Statement (.queueReset vf q) := Laws.Size.all _
theorem Sys2Proof.Laws.Size.registerWrite (pf : Bool) (vf off : Nat) (value : W64) : Laws.Size.Statement (.registerWrite pf vf off value) := Laws.Size.all _
theorem Sys2Proof.Laws.Size.hostMemAccess (addr : Nat) (acc : BusAccess) : Laws.Size.Statement (.hostMemAccess addr acc) := Laws.Size.all _
theorem Sys2Proof.Laws.Size.lumakInbound (port addr : Nat) (acc : BusAccess) : Laws.Size.Statement (.lumakInbound port addr acc) := Laws.Size.all _
theorem Sys2Proof.Laws.Size.flitReplay (port : Nat) (ok : Bool) : Laws.Size.Statement (.flitReplay port ok) := Laws.Size.all _
theorem Sys2Proof.Laws.Size.linkDrop (port : Nat) : Laws.Size.Statement (.linkDrop port) := Laws.Size.all _
theorem Sys2Proof.Laws.Size.retrain (port : Nat) : Laws.Size.Statement (.retrain port) := Laws.Size.all _
theorem Sys2Proof.Laws.Size.retry (vf slot : Nat) : Laws.Size.Statement (.retry vf slot) := Laws.Size.all _
theorem Sys2Proof.Laws.Size.skip (vf slot : Nat) : Laws.Size.Statement (.skip vf slot) := Laws.Size.all _
theorem Sys2Proof.Laws.Size.killblk (vf slot : Nat) : Laws.Size.Statement (.killblk vf slot) := Laws.Size.all _
theorem Sys2Proof.Laws.Size.killlaunch (vf slot : Nat) : Laws.Size.Statement (.killlaunch vf slot) := Laws.Size.all _
theorem Sys2Proof.Laws.Size.inval (vf : Nat) : Laws.Size.Statement (.inval vf) := Laws.Size.all _
theorem Sys2Proof.Laws.Size.invall (vf : Nat) : Laws.Size.Statement (.invall vf) := Laws.Size.all _
theorem Sys2Proof.Laws.Size.vrst (vf : Nat) : Laws.Size.Statement (.vrst vf) := Laws.Size.all _
theorem Sys2Proof.Laws.Size.quantumWrite (vf : Nat) (value : W32) : Laws.Size.Statement (.quantumWrite vf value) := Laws.Size.all _
theorem Sys2Proof.Laws.Size.pageWalk (core : Nat) (va : W64) (acc : Access) : Laws.Size.Statement (.pageWalk core va acc) := Laws.Size.all _
theorem Sys2Proof.Laws.Size.sliceEnd : Laws.Size.Statement .sliceEnd := Laws.Size.all _
theorem Sys2Proof.Laws.Size.sliceSwitch : Laws.Size.Statement .sliceSwitch := Laws.Size.all _
theorem Sys2Proof.Laws.Size.eccUncorrectable (site : EccSite) : Laws.Size.Statement (.eccUncorrectable site) := Laws.Size.all _
theorem Sys2Proof.Laws.Size.eccCorrectable (die cls frame : Nat) : Laws.Size.Statement (.eccCorrectable die cls frame) := Laws.Size.all _
theorem Sys2Proof.Laws.Size.patrolScrub (die : Nat) : Laws.Size.Statement (.patrolScrub die) := Laws.Size.all _
theorem Sys2Proof.Laws.Size.clr (die : Nat) : Laws.Size.Statement (.clr die) := Laws.Size.all _
theorem Sys2Proof.Laws.Size.logFlush : Laws.Size.Statement .logFlush := Laws.Size.all _
theorem Sys2Proof.Laws.Size.coldReset : Laws.Size.Statement .coldReset := Laws.Size.all _
theorem Sys2Proof.Laws.Size.warmReset : Laws.Size.Statement .warmReset := Laws.Size.all _
theorem Sys2Proof.Laws.Size.update : Laws.Size.Statement .update := Laws.Size.all _
theorem Sys2Proof.Laws.Size.recover : Laws.Size.Statement .recover := Laws.Size.all _
theorem Sys2Proof.Laws.Size.getVersion : Laws.Size.Statement .getVersion := Laws.Size.all _
theorem Sys2Proof.Laws.Size.getCapabilities : Laws.Size.Statement .getCapabilities := Laws.Size.all _
theorem Sys2Proof.Laws.Size.negotiateAlgorithms : Laws.Size.Statement .negotiateAlgorithms := Laws.Size.all _
theorem Sys2Proof.Laws.Size.getDigests : Laws.Size.Statement .getDigests := Laws.Size.all _
theorem Sys2Proof.Laws.Size.getCertificate : Laws.Size.Statement .getCertificate := Laws.Size.all _
theorem Sys2Proof.Laws.Size.challenge (nonce : Nat) : Laws.Size.Statement (.challenge nonce) := Laws.Size.all _
theorem Sys2Proof.Laws.Size.getMeasurements (request : Nat) : Laws.Size.Statement (.getMeasurements request) := Laws.Size.all _
theorem Sys2Proof.Laws.Size.slhsig : Laws.Size.Statement .slhsig := Laws.Size.all _
theorem Sys2Proof.Laws.Size.powerPost (ras : Bool) (die off : Nat) (value : W32) : Laws.Size.Statement (.powerPost ras die off value) := Laws.Size.all _
theorem Sys2Proof.Laws.Size.grottoApply : Laws.Size.Statement .grottoApply := Laws.Size.all _
theorem Sys2Proof.Laws.Size.energyloRead (die : Nat) : Laws.Size.Statement (.energyloRead die) := Laws.Size.all _
theorem Sys2Proof.Laws.Size.poolBoundary (die : Nat) : Laws.Size.Statement (.poolBoundary die) := Laws.Size.all _
theorem Sys2Proof.Laws.Size.clusterBoundary (cluster : Nat) : Laws.Size.Statement (.clusterBoundary cluster) := Laws.Size.all _
theorem Sys2Proof.Laws.Size.biasSettle (cluster : Nat) : Laws.Size.Statement (.biasSettle cluster) := Laws.Size.all _
theorem Sys2Proof.Laws.Size.thermalSample (die tmax : Nat) : Laws.Size.Statement (.thermalSample die tmax) := Laws.Size.all _
theorem Sys2Proof.Laws.Size.copyDeliver (core ch n : Nat) : Laws.Size.Statement (.copyDeliver core ch n) := Laws.Size.all _
theorem Sys2Proof.Laws.Size.linkTrained (port lanes : Nat) : Laws.Size.Statement (.linkTrained port lanes) := Laws.Size.all _
theorem Sys2Proof.Laws.Size.powerLoss (flashTorn : Bool) : Laws.Size.Statement (.powerLoss flashTorn) := Laws.Size.all _
end

