-- ==== Sys2Proof/Machine/Ordering.lean ====
section
/-! DEFINITION. The memory model (spec/05_memory_model.md R113 to R130, with the acts of spec/02_execution_model.md R25, R28, R33,
R34, spec/03_tree_sweeps.md R67 to R69, R78, spec/04_memory_spaces.md R101, R107, R108, spec/14_host_interface.md R336, R338): events,
agents and scopes, the relations of R116, the synchronisation of R118 and R119, happens-before, and the axioms of R121 and R129. An
execution lists its acts in the order in which they happened, and every relation but rf, co and the order of the fences is read off
them. The machine's step keeps one coherent store (log 3), so its own runs are a part of what these axioms allow; claims about the
outcomes that the part allows are stated over executions. `Machine/Events.lean` and `Machine/EngineEvents.lean` say which acts and
events a step of the machine is, `Machine/Outcomes.lean` which executions and outcomes a program has. -/

namespace Sys2Proof.Machine

/-! ### Scopes and agents (R2, R113, R114) -/

/-- Scopes, narrowest first (R2, R114). -/
inductive MemScope where
  | lane | coh | blk | core | clu | die | dev | sys
  deriving DecidableEq, Repr, Inhabited

/-- A scope's place, narrowest first. -/
def MemScope.rank : MemScope → Nat
  | .lane => 0 | .coh => 1 | .blk => 2 | .core => 3 | .clu => 4 | .die => 5 | .dev => 6 | .sys => 7

/-- A location (R113): a byte of device memory, of a block's ASP or WBF allocation, or an element of a tile of a block. -/
inductive MemLoc where
  | device (pa : Nat)
  | asp (blk off : Nat)
  | wbf (blk off : Nat)
  | tile (blk elem : Nat)
  deriving DecidableEq, Repr, Inhabited

/-- Whether a location is on the chip: ASP, WBF or tile (R116). -/
def MemLoc.onChip : MemLoc → Bool
  | .device _ => false
  | _ => true

/-- The receiver of a copy's write: a block's ASP or WBF, or device memory, at one place (R99, R100). -/
def MemLoc.receiver : MemLoc → Option Nat
  | .device _ => none
  | .asp blk _ | .wbf blk _ | .tile blk _ => some blk

/-- The agents of R113. A lane is named by its block and TID, which it keeps when REGROUP or a swap moves it; a Lumak peer by its
port and a lane of it (R338). The front end is the agent of completion records and of SIGNALMEM (R329, R336). -/
inductive MemAgent where
  | lane (blk tid : Nat)
  | copy (core ch : Nat)
  | matrix (cluster : Nat)
  | aster (cluster : Nat)
  | reduction (die part : Nat)
  | helictite (cluster : Nat)
  | frontEnd
  | host
  | peer (port lane : Nat)
  deriving DecidableEq, Repr, Inhabited

/-- Whether an agent is a lane. -/
def MemAgent.isLane : MemAgent → Bool
  | .lane _ _ => true
  | _ => false

/-- Whether an agent is one of the tree engine's. -/
def MemAgent.ofTree : MemAgent → Bool
  | .helictite _ => true
  | _ => false

/-- Whether the events of an agent are in program order: a lane's, on this part or on a peer (R116, R338). -/
def MemAgent.inOrder : MemAgent → Bool
  | .lane _ _ | .peer _ _ => true
  | _ => false

/-- Whether an agent is the engine of an operation of a class (R113, R125): its copy channel, a matrix engine, an Aster engine, a
reduction unit. -/
def MemAgent.serves (a : MemAgent) (cls ch : Nat) : Bool :=
  match a with
  | .copy _ c => cls == 0 && c == ch
  | .matrix _ => cls == 1
  | .aster _ => cls == 2
  | .reduction _ _ => cls == 3
  | _ => false

/-- Whether an agent reaches a device address through a port (R337): a lane in the aperture of a port, a lane of a peer in HBM. What
the lane of a peer does in the peer's own memory goes through none. -/
def MemAgent.throughPort (a : MemAgent) (pa : Nat) : Bool :=
  match a with
  | .lane _ _ => decide (2 ≤ pa / 2 ^ 48) && decide (pa / 2 ^ 48 < 14)
  | .peer _ _ => decide (pa / 2 ^ 48 = 0)
  | _ => false

/-- Who makes an event, where it then stands, and the block it belongs or acts for. -/
structure MemWho where
  agent  : MemAgent
  core   : Nat := 0               -- a lane's core
  cohort : Nat := 0               -- a lane's cohort in its block
  blk    : Option Nat := none     -- a lane's block, or the block that an engine acts for
  deriving DecidableEq, Repr, Inhabited

/-- The cohort of a lane. -/
def MemWho.cohortOf (w : MemWho) : Option (Option Nat × Nat) := if w.agent.isLane then some (w.blk, w.cohort) else none

/-- The core of a lane or a copy channel. -/
def MemWho.coreOf (w : MemWho) : Option Nat :=
  match w.agent with
  | .lane _ _ => some w.core
  | .copy c _ => some c
  | _ => none

/-- The cluster of a lane, a copy channel, a matrix engine or an Aster engine. -/
def MemWho.clusterOf (w : MemWho) : Option Nat :=
  match w.agent with
  | .lane _ _ => some (w.core / 4)
  | .copy c _ => some (c / 4)
  | .matrix k | .aster k => some k
  | _ => none

/-- The die an agent stands on. -/
def MemWho.dieOf (w : MemWho) : Option Nat :=
  match w.agent with
  | .lane _ _ => some (w.core / 32)
  | .copy c _ => some (c / 32)
  | .matrix k | .aster k | .helictite k => some (k / 8)
  | .reduction d _ => some d
  | .frontEnd | .host | .peer _ _ => none

/-- Two places that exist and are one. -/
def samePlace {α : Type} [DecidableEq α] (x y : Option α) : Bool := x.isSome && x == y

/-- The narrowest scope at which `a` covers `b` (R2, R114, R130): the agent itself, its cohort, its block with the engines that
act for it, its core, its cluster, its die, the device, the system. -/
def MemWho.reach (a b : MemWho) : MemScope :=
  if a.agent = b.agent then .lane
  else if samePlace a.cohortOf b.cohortOf then .coh
  else if samePlace a.blk b.blk then .blk
  else if samePlace a.coreOf b.coreOf then .core
  else if samePlace a.clusterOf b.clusterOf then .clu
  else if samePlace a.dieOf b.dieOf then .die
  else if a.dieOf.isSome && b.dieOf.isSome then .dev
  else .sys

/-- Whether an operation made by `a` at a scope covers `b`: a scope includes every narrower one (R2). -/
def MemScope.covers (sc : MemScope) (a b : MemWho) : Bool := decide ((a.reach b).rank ≤ sc.rank)

/-! ### Acts (R115 to R119, R124 to R129, and the table of synchronisers) -/

/-- Registers through which a value can pass: V registers, predicates, descriptors, and system registers by number (R186). -/
inductive RegName where
  | v (n : Nat)
  | p (n : Nat)
  | d (n : Nat)
  | s (n : Nat)
  deriving DecidableEq, Repr, Inhabited

/-- Whether a register is one for all lanes of a cohort: the narrow names, descriptors and system registers (R131). The others
are a lane's own and move with it (R33). -/
def RegName.wide : RegName → Bool
  | .v n => decide (256 ≤ n)
  | .p _ => false
  | .d _ | .s _ => true

/-- Registers written, and the registers that what is written is computed from. -/
structure Flow where
  sets  : List RegName
  uses  : List RegName := []
  keep  : List Nat := []          -- the TIDs of active lanes in which nothing is written (R139)
  every : Bool := false           -- written in every lane of the cohort, active or not (R81)
  deriving DecidableEq, Repr, Inhabited

/-- What an act is for the order of events. -/
inductive ActKind where
  /-- an issue that makes no order beyond its own accesses -/
  | issue
  /-- an issue of a FENCE -/
  | fence (scope : MemScope)
  /-- an issue that posts an asynchronous operation of a class (R125): 0 COPY on a channel, 1 MAT, 2 VGA, 3 RED; the operation by
  its name -/
  | post (cls ch op : Nat)
  /-- a WAITOC that has ended with `left` operations of the class outstanding (R126) -/
  | waitoc (cls n left : Nat)
  /-- an issue of a ST to a transaction buffer, by its name there (R76, R80) -/
  | buffered (store : Nat)
  /-- TRD, TWR, TZERO or TCVT, and the tiles it names (R127) -/
  | tile (tiles : List Nat)
  /-- RDWP or WAITWP: the channel, and how many destination bytes of the cohort's newest copy lie below the pointer observed (R101) -/
  | pointer (ch done : Nat)
  /-- the release of the active lanes from a join or a WAITJ (R25, R26, R28) -/
  | join
  /-- the move of a REGROUP or REGROUP.RESTORE: the active lanes are the block's (R33, R34) -/
  | regroup
  /-- a BAR.INIT of an object, which begins its phases anew (R106) -/
  | init (obj : Nat)
  /-- an arrival at an object, through a peer window or not (R106, R108) -/
  | arrive (obj : Nat) (peer : Bool)
  /-- a copy's decrement of an object of the act's block: the operation, whether of IN, and whether the copy uses a peer window (R107) -/
  | decrement (obj op : Nat) (inn peer : Bool)
  /-- the opening of an object that ends the phase in which GEN was `gen` (R108) -/
  | opening (obj gen : Nat)
  /-- a cohort goes on from BAR.WAIT with Vg = `gen` (R106, R108) -/
  | passed (obj gen : Nat) (peer : Bool)
  /-- an NRES that acts: the hand-off of a node (R67) -/
  | nres (node : Nat)
  /-- the end of a block, with its node, whose hand-off it makes (R69) -/
  | blockEnd (node : Nat)
  /-- the start of a block that receives the hand-offs of some nodes (R69) -/
  | blockStart (nodes : List Nat)
  /-- the end of the up phase of a launch (R68) -/
  | turn
  /-- the commit of a transaction or a guard (R78, R129) -/
  | commit
  /-- a store fence of the host (R336) -/
  | storeFence
  /-- a store to a notify word that the front end accepts (R325, R336) -/
  | notify (vf q : Nat)
  /-- the start of the act's launch from a queue (R329, R336) -/
  | launched (vf q : Nat)
  /-- the completion record of the act's launch (R335, R336) -/
  | completed (vf q : Nat)
  /-- a SIGNALMEM or a FENCE packet (R329, R336) -/
  | signal (vf q : Nat)
  deriving DecidableEq, Repr, Inhabited

/-- An act: an issue by a PC-group of a cohort, or one of the machine's own that orders events. -/
structure Act where
  kind   : ActKind := .issue
  launch : Nat := 0
  blk    : Nat := 0
  cohort : Nat := 0
  active : List Nat := []           -- the TIDs of its active lanes
  group  : List Nat := []           -- the TIDs of the PC-group that issues
  groups : List (List Nat) := []    -- the TIDs of the cohort's PC-groups at the issue (R22)
  uses   : List RegName := []       -- registers from which an active lane's address, written value or branch target comes
  cond   : List RegName := []       -- the guard, which every lane of the group reads
  flows  : List Flow := []          -- what it writes to registers, and from which: from none where nothing is carried on (R117)
  branch : Bool := false            -- its condition or target is taken from what it reads (R116)
  deriving DecidableEq, Repr, Inhabited

/-- The registers an act writes. -/
def Act.sets (a : Act) : List RegName := a.flows.flatMap (·.sets)

/-- The registers that a flow writes for a lane of the cohort: an inactive one shares the registers that are one for all lanes. -/
def Flow.setsFor (f : Flow) (active : Bool) (tid : Nat) : List RegName :=
  if active && f.keep.contains tid then [] else if active || f.every then f.sets else f.sets.filter RegName.wide

/-- The registers that an act's writes to them leave of those a lane had, and those the act computes from them (R116, R117). -/
def Act.pass (a : Act) (active : Bool) (tid : Nat) (regs : List RegName) : List RegName :=
  a.flows.flatMap (fun f =>
    if f.uses.any (fun r => (active || r.wide) && regs.contains r) then f.setsFor active tid else []) ++
    regs.filter (fun r => !a.flows.any (fun f => (f.setsFor active tid).contains r))

/-! ### Events (R113, R115) -/

/-- The kinds of events (R113). -/
inductive MemKind where
  | read | write | rmw | fence
  deriving DecidableEq, Repr, Inhabited

/-- An event: `act` is the act that makes it, or that posted the operation it belongs to. An access without an ordering is
plain. The values read and written stand beside the locations. -/
structure MemEvent where
  who   : MemWho
  kind  : MemKind
  act   : Nat
  bytes : List MemLoc := []
  rd    : List Nat := []          -- values read, in the order of `bytes`
  wr    : List Nat := []          -- values written
  acq   : Bool := false
  rel   : Bool := false
  scope : MemScope := .dev
  atom  : Bool := false           -- made by an ATOM
  whole : Bool := false           -- single-copy-atomic (R86)
  place : Nat := 0                -- a copy's: the destination byte it delivers, counted from 0 (R101)
  store : Option Nat := none      -- a commit's: the ST that buffered what it writes, by its name in the buffer (R129)
  deriving DecidableEq, Repr, Inhabited

def MemEvent.reads (e : MemEvent) : Bool := e.kind == .read || e.kind == .rmw
def MemEvent.writes (e : MemEvent) : Bool := e.kind == .write || e.kind == .rmw
/-- A plain write ends a release sequence (R115, R118). -/
def MemEvent.plainWrite (e : MemEvent) : Bool := e.kind == .write && !e.rel
/-- A plain read (R118), which a plain ATOM makes too. -/
def MemEvent.plainRead (e : MemEvent) : Bool := e.reads && !e.acq && !e.rel

/-- A value an event reads or writes at a location. -/
def valueAt (l : List MemLoc) (v : List Nat) (b : MemLoc) : Option Nat := ((l.zip v).find? (fun p => p.1 == b)).map (·.2)

/-- An execution: its acts in the order in which they happened, its events, and what a run decides: rf, co and the order of the
fences. Events are named by their place in `ev`. A read that `rf` does not name at a location takes the initial value there. -/
structure Execution where
  acts   : List Act := []
  ev     : List MemEvent
  init   : List (MemLoc × Nat) := []        -- initial values; a location that is not listed holds 0
  rf     : List (MemLoc × Nat × Nat) := []  -- location, write, read
  co     : List (MemLoc × Nat × Nat) := []  -- location, earlier write, later write
  fences : List (Nat × Nat) := []           -- the total order of the fence events (R118)
  deriving DecidableEq, Repr, Inhabited

namespace Execution

/-- The event of a name, and an act. -/
def at_ (x : Execution) (i : Nat) : MemEvent := x.ev.getD i { who := { agent := .host }, kind := .fence, act := 0 }
def actAt (x : Execution) (k : Nat) : Act := x.acts.getD k {}

/-- The agent and the act of an event. -/
def agentOf (x : Execution) (i : Nat) : MemAgent := (x.at_ i).who.agent
def actOf (x : Execution) (i : Nat) : Nat := (x.at_ i).act

/-- An event is a lane's, of a block, whose TID is in a list. -/
def laneIn (x : Execution) (i blk : Nat) (tids : List Nat) : Prop := ∃ t, t ∈ tids ∧ x.agentOf i = .lane blk t

/-! ### Relations (R116, R117) -/

/-- po (R116, R338): events of one lane whose instructions were issued in this order. -/
def po (x : Execution) (i j : Nat) : Prop :=
  i < x.ev.length ∧ j < x.ev.length ∧ (x.agentOf i).inOrder = true ∧ x.agentOf i = x.agentOf j ∧ x.actOf i < x.actOf j

/-- The host's own order of its accesses (R336; PRESUMED, log 98): what follows an acquiring load, what precedes a releasing store,
and what a store fence parts. -/
def hostOrder (x : Execution) (i j : Nat) : Prop :=
  i < x.ev.length ∧ j < x.ev.length ∧ x.agentOf i = .host ∧ x.agentOf j = .host ∧ x.actOf i < x.actOf j ∧
    ((x.at_ i).acq = true ∨ (x.at_ j).rel = true ∨ ∃ k, x.actOf i < k ∧ k < x.actOf j ∧ (x.actAt k).kind = .storeFence)

/-- The registers that carry a value on through an act, for a lane: an act in which the lane is active reads and writes its
registers, another act of its cohort the registers that all lanes share, and a move leaves it the registers that move with it. -/
def carry (blk tid : Nat) (regs : List RegName) (a : Act) : List RegName :=
  if a.blk != blk then regs
  else if a.kind == .regroup then (if a.active.contains tid then regs.filter (fun r => !r.wide) else regs)
  else if a.active.contains tid then a.pass true tid regs
  else if a.groups.any (·.contains tid) then a.pass false tid regs
  else regs

/-- The registers that, when act `k` comes, hold for a lane something computed from what act `i` returned to it. -/
def carried (x : Execution) (blk tid i k : Nat) : List RegName :=
  ((x.acts.drop (i + 1)).take (k - (i + 1))).foldl (carry blk tid) (x.actAt i).sets

/-- Whether an act reads, for a lane, something computed from what an earlier act returned to it. -/
def usesFrom (x : Execution) (blk tid i k : Nat) : Bool := (x.actAt k).uses.any (x.carried blk tid i k).contains

/-- Whether an act is a branch that takes its condition, in a lane of its group, or its target, in an active one, from what an
earlier act returned (R116). -/
def branchesFrom (x : Execution) (blk tid i k : Nat) : Bool :=
  (x.actAt k).branch && (x.actAt k).blk == blk &&
    (((x.actAt k).group.contains tid && (x.actAt k).cond.any (x.carried blk tid i k).contains) ||
      ((x.actAt k).active.contains tid && x.usesFrom blk tid i k))

/-- An act is a FENCE instruction. -/
def fenceAct (x : Execution) (k : Nat) : Prop := ∃ sc, (x.actAt k).kind = .fence sc

/-- The act that computes an event's address and value: of a commit's write the ST that buffered it, else the act that makes it. -/
def originOf (x : Execution) (j : Nat) : Nat :=
  match (x.at_ j).store with
  | some n => x.acts.findIdx (fun a => a.kind == .buffered n)
  | none => x.actOf j

/-- dep (R116, R117): the address or the written value is computed from what the read returned; or a branch between took its
condition or target from it and the later event writes; or a FENCE instruction stands between, in any of its active lanes. -/
inductive Dep (x : Execution) : Nat → Nat → Prop where
  | data {i j blk tid : Nat} : x.po i j → (x.at_ i).reads = true → x.agentOf i = .lane blk tid → (x.at_ j).kind ≠ .fence →
      x.actOf i < x.originOf j → x.usesFrom blk tid (x.actOf i) (x.originOf j) = true → Dep x i j
  | control {i j k blk tid : Nat} : x.po i j → (x.at_ i).reads = true → x.agentOf i = .lane blk tid → (x.at_ j).writes = true →
      x.actOf i < k → k < x.actOf j → x.branchesFrom blk tid (x.actOf i) k = true → Dep x i j
  | fence {i j f g : Nat} : (x.at_ i).reads = true → (x.at_ f).kind = .fence → (x.at_ g).kind = .fence → x.actOf f = x.actOf g →
      x.po i f → x.po g j → (x.at_ j).kind ≠ .fence → Dep x i j

/-- Two lanes of a cohort belonged to one PC-group at every issue of the cohort from one act to another (R116). -/
def together (x : Execution) (blk cohort a b i k : Nat) : Prop :=
  ∀ m, i ≤ m → m ≤ k → (x.actAt m).blk = blk → (x.actAt m).cohort = cohort → (x.actAt m).groups ≠ [] →
    ∃ g ∈ (x.actAt m).groups, a ∈ g ∧ b ∈ g

/-- Whether an event is an ASP, WBF or tile event. -/
def onChip (x : Execution) (i : Nat) : Bool := !(x.at_ i).bytes.isEmpty && (x.at_ i).bytes.all MemLoc.onChip

/-- xl from an event to an act of its cohort, by way of a lane (R116). -/
def xlTo (x : Execution) (i blk b k : Nat) : Prop :=
  ∃ a, x.agentOf i = .lane blk a ∧ x.onChip i = true ∧ x.actOf i < k ∧ (x.actAt (x.actOf i)).cohort = (x.actAt k).cohort ∧
    x.together blk (x.actAt k).cohort a b (x.actOf i) k

/-- xl (R116, R123): ASP, WBF and tile events of lanes issued together. -/
def xl (x : Execution) (i j : Nat) : Prop :=
  i < x.ev.length ∧ j < x.ev.length ∧ ∃ blk b, x.agentOf j = .lane blk b ∧ x.onChip j = true ∧ x.xlTo i blk b (x.actOf j)

/-- rf between events: at some location. -/
def readsFrom (x : Execution) (w r : Nat) : Prop := ∃ b, (b, w, r) ∈ x.rf

/-- co between events: at some location. -/
def before (x : Execution) (w v : Nat) : Prop := ∃ b, (b, w, v) ∈ x.co

/-- fr (R116): the read takes a value that the write comes after; the initial value comes before every write. -/
def fromRead (x : Execution) (r w : Nat) : Prop :=
  ∃ b, b ∈ (x.at_ r).bytes ∧ (x.at_ r).reads = true ∧ b ∈ (x.at_ w).bytes ∧ (x.at_ w).writes = true ∧ w < x.ev.length ∧
    r < x.ev.length ∧ r ≠ w ∧ ((∀ v, (b, v, r) ∉ x.rf) ∨ ∃ v, (b, v, r) ∈ x.rf ∧ (b, v, w) ∈ x.co)

/-- eco (R116): the transitive closure of rf, co and fr. -/
inductive Eco (x : Execution) : Nat → Nat → Prop where
  | rf {i j : Nat} : x.readsFrom i j → Eco x i j
  | co {i j : Nat} : x.before i j → Eco x i j
  | fr {i j : Nat} : x.fromRead i j → Eco x i j
  | trans {i j k : Nat} : Eco x i j → Eco x j k → Eco x i k

/-! ### Synchronisation (R118) -/

/-- A write of a commit, which is a device-scope release (R129). -/
def committed (x : Execution) (w : Nat) : Bool := (x.at_ w).writes && (x.actAt (x.actOf w)).kind == .commit

/-- The release sequence of a write at a location (R118): the write, and every read-modify-write after it with no plain write
between. -/
def inSequence (x : Execution) (b : MemLoc) (w v : Nat) : Prop :=
  v = w ∨ ((b, w, v) ∈ x.co ∧ (x.at_ v).kind = .rmw ∧
    ∀ u, (b, w, u) ∈ x.co → (b, u, v) ∈ x.co → (x.at_ u).plainWrite = false)

/-- A release (R118, R129): the event an edge starts at, and its write. -/
def release (x : Execution) (s w : Nat) : Prop :=
  (x.at_ w).writes = true ∧
    ((s = w ∧ ((x.at_ w).rel = true ∨ x.committed w = true)) ∨ ((x.at_ s).kind = .fence ∧ x.po s w))

/-- An acquire (R118): the event an edge ends at, and its read. -/
def acquire (x : Execution) (t r : Nat) : Prop :=
  (x.at_ r).reads = true ∧ ((t = r ∧ (x.at_ r).acq = true) ∨ ((x.at_ t).kind = .fence ∧ x.po r t))

/-- A read takes a value from a write's release sequence. -/
def takesFrom (x : Execution) (w r : Nat) : Prop := ∃ b v, x.inSequence b w v ∧ (b, v, r) ∈ x.rf

/-- The scope of an event covers another's agent. -/
def coversEvent (x : Execution) (i j : Nat) : Bool := (x.at_ i).scope.covers (x.at_ i).who (x.at_ j).who

/-- Mutually in scope (R114). -/
def inScope (x : Execution) (i j : Nat) : Prop := x.coversEvent i j = true ∧ x.coversEvent j i = true

/-- The acts of a cohort that post operations of a class, after an act and before another (R125). -/
def postsBetween (x : Execution) (blk cohort cls i k : Nat) : List Nat :=
  (List.range x.acts.length).filter (fun m => decide (i < m ∧ m < k) && (x.actAt m).blk == blk && (x.actAt m).cohort == cohort &&
    (match (x.actAt m).kind with
     | .post c _ _ => c == cls
     | _ => false))

/-- An engine's event of an operation. -/
def engineOf (x : Execution) (i o : Nat) : Prop := i < x.ev.length ∧ x.actOf i = o ∧ (x.agentOf i).isLane = false

/-- An act is of the cohort of another. -/
def sameCohort (x : Execution) (o k : Nat) : Prop := (x.actAt o).blk = (x.actAt k).blk ∧ (x.actAt o).cohort = (x.actAt k).cohort

/-- An event was made before another, by their acts and, within one act, in the order in which they are listed. -/
def comesBefore (x : Execution) (i j : Nat) : Prop := x.actOf i < x.actOf j ∨ (x.actOf i = x.actOf j ∧ i < j)

/-- An event of a lane of an act, before it. -/
def beforeAct (x : Execution) (i k : Nat) : Prop :=
  i < x.ev.length ∧ x.laneIn i (x.actAt k).blk (x.actAt k).active ∧ x.actOf i < k

/-- An act after another posts an operation, or is an NRES, whose hand-off an agent makes (R67, R124). -/
def postAfter (x : Execution) (o k : Nat) : Prop :=
  k < o ∧ (x.actAt o).blk = (x.actAt k).blk ∧ ((∃ cls ch op, (x.actAt o).kind = .post cls ch op) ∨ ∃ node, (x.actAt o).kind = .nres node)

/-- An event of a lane of an act, after it, or of an operation that such a lane has posted since (R124), or of a hand-off that it has
asked for (R67). -/
def afterAct (x : Execution) (j k : Nat) : Prop :=
  j < x.ev.length ∧ k < x.actOf j ∧ (x.laneIn j (x.actAt k).blk (x.actAt k).active ∨
    ((x.agentOf j).isLane = false ∧ x.postAfter (x.actOf j) k ∧ ∃ t ∈ (x.actAt k).active, t ∈ (x.actAt (x.actOf j)).active))

/-- An event of a lane of an act's cohort. -/
def laneOfCohort (x : Execution) (i k : Nat) : Prop :=
  i < x.ev.length ∧ (x.agentOf i).isLane = true ∧ (x.at_ i).who.blk = some (x.actAt k).blk ∧ (x.at_ i).who.cohort = (x.actAt k).cohort

/-- An event of the cohort of an act, before it. -/
def beforeCohort (x : Execution) (i k : Nat) : Prop := x.laneOfCohort i k ∧ x.actOf i < k

/-- An event of the cohort of an act, after it, or of an operation or a hand-off that the cohort has posted since (R67, R124). -/
def afterCohort (x : Execution) (j k : Nat) : Prop :=
  j < x.ev.length ∧ k < x.actOf j ∧
    (x.laneOfCohort j k ∨ ((x.agentOf j).isLane = false ∧ x.postAfter (x.actOf j) k ∧ x.sameCohort (x.actOf j) k))

/-- An event of an act's block, of a lane or of an engine that acts for it. -/
def ofBlock (x : Execution) (i k : Nat) : Prop := i < x.ev.length ∧ (x.at_ i).who.blk = some (x.actAt k).blk

/-- An event of the start of a block, of its input, or of the block after it. -/
def startsWith (x : Execution) (j k : Nat) : Prop := x.engineOf j k ∨ (x.ofBlock j k ∧ k < x.actOf j)

/-- Two accesses of the tree engine's agents to a location, of which one writes, in their order: the agents' accesses to the stacks
and the results are made one at a time, atomically and at device scope (R58), and an INBOX copy ends before its frame is popped (R61,
R66), so that a later push at its height comes after it. -/
def agentOrder (x : Execution) (i j : Nat) : Prop :=
  i < x.ev.length ∧ j < x.ev.length ∧ (x.agentOf i).ofTree = true ∧ (x.agentOf j).ofTree = true ∧
    ((x.at_ i).writes = true ∨ (x.at_ j).writes = true) ∧ x.comesBefore i j ∧ ∃ b, b ∈ (x.at_ i).bytes ∧ b ∈ (x.at_ j).bytes

/-- An event of a launch's blocks, or of the agents that serve it. -/
def ofLaunch (x : Execution) (i launch : Nat) : Prop :=
  i < x.ev.length ∧ ((x.at_ i).who.blk.isSome = true ∨ (x.agentOf i).ofTree = true) ∧ (x.actAt (x.actOf i)).launch = launch

/-- Two accesses of one lane through one port to one 64-byte line of the part at its other end, in program order: that part performs
them in it (R338). -/
def portOrder (x : Execution) (i j : Nat) : Prop :=
  x.po i j ∧ ∃ a b, .device a ∈ (x.at_ i).bytes ∧ .device b ∈ (x.at_ j).bytes ∧ (x.agentOf i).throughPort a = true ∧ a / 64 = b / 64

/-- What takes a value in with a read: its acquire, what depends on it, and a later access of the lane to the same line of a peer. -/
def follows (x : Execution) (r j : Nat) : Prop :=
  x.acquire j r ∨ ((x.at_ r).plainRead = true ∧ x.Dep r j) ∨ x.portOrder r j

/-- An act comes in the phase of an object that an opening ends: after every earlier opening and BAR.INIT of it (R106, R108). -/
def inPhase (x : Execution) (a o obj : Nat) : Prop :=
  a < o ∧ ∀ m, a < m → m < o → (x.actAt m).kind ≠ .init obj ∧ ∀ g, (x.actAt m).kind ≠ .opening obj g

/-- An opening of an object lets a cohort go on from BAR.WAIT: the last one that ended the phase of the cohort's Vg (R108). -/
def lets (x : Execution) (o k obj : Nat) : Prop :=
  o < k ∧ ∃ g p, (x.actAt o).kind = .opening obj g ∧ (x.actAt k).kind = .passed obj g p ∧ ∀ m, o < m → m < k → (x.actAt m).kind ≠ .opening obj g

/-- Anything of the phase that an opening ends used a peer window: an arrival, a waiter or a counted copy (R108). -/
def wideOpening (x : Execution) (o obj : Nat) : Prop :=
  (∃ a, x.inPhase a o obj ∧ ((x.actAt a).kind = .arrive obj true ∨ ∃ op inn, (x.actAt a).kind = .decrement obj op inn true)) ∨
  ∃ k g, x.lets o k obj ∧ (x.actAt k).kind = .passed obj g true

/-- An event of an operation that a counted copy releases: of a decrement of IN, what the copy reads and what it writes in that
receiver; of a decrement of OUT, what it reads (R107; DEDUCED, log 99). -/
def countedEvent (x : Execution) (i d : Nat) (inn : Bool) : Prop :=
  (x.at_ i).kind = .read ∨ (inn = true ∧ ∀ b ∈ (x.at_ i).bytes, ∃ off, b = .asp (x.actAt d).blk off ∨ b = .wbf (x.actAt d).blk off)

/-- What an act gathers for its active lanes: the events that come before all that they do after it. -/
inductive Gathers (x : Execution) : Nat → Nat → Prop where
  /-- R28: a join's release, for every lane it gathers. -/
  | join {i k : Nat} : (x.actAt k).kind = .join → x.beforeAct i k → Gathers x i k
  /-- R33, R34: the move of a block's lanes. -/
  | regroup {i k : Nat} : (x.actAt k).kind = .regroup → x.beforeAct i k → Gathers x i k
  /-- R101: an observation of a write pointer, and the newest copy's writes below it. -/
  | pointer {i o k ch done op : Nat} : (x.actAt o).kind = .post 0 ch op → (x.actAt k).kind = .pointer ch done →
      o < k → x.sameCohort o k → x.engineOf i o → (x.at_ i).writes = true →
      (∀ m, o < m → m < k → x.sameCohort m k → ∀ p, (x.actAt m).kind ≠ .post 0 ch p) → (x.at_ i).place < done → Gathers x i k
  /-- R126: the operations that have left the counter when a WAITOC ends. -/
  | waitoc {i o k cls n left ch op : Nat} : (x.actAt k).kind = .waitoc cls n left → (x.actAt o).kind = .post cls ch op →
      o < k → x.sameCohort o k → left ≤ (x.postsBetween (x.actAt k).blk (x.actAt k).cohort cls o k).length → x.engineOf i o → Gathers x i k

/-- What a cohort that goes on from a BAR.WAIT has been let go by: the events that come before all that it does after it. -/
inductive Released (x : Execution) : Nat → Nat → Prop where
  /-- R108: an arrival of a phase and a cohort that its opening releases, in one block or through a peer window. -/
  | opening {i a o k obj : Nat} {p : Bool} : (x.actAt a).kind = .arrive obj p → x.inPhase a o obj → x.lets o k obj →
      (x.wideOpening o obj ∨ (x.actAt a).blk = (x.actAt k).blk) → x.beforeCohort i a → Released x i k
  /-- R107, R108: a copy counted in the phase. -/
  | counted {i m d o k obj op cls ch : Nat} {inn p : Bool} : (x.actAt d).kind = .decrement obj op inn p → x.inPhase d o obj →
      x.lets o k obj → (x.wideOpening o obj ∨ (x.actAt d).blk = (x.actAt k).blk) → (x.actAt m).kind = .post cls ch op → m < d →
      x.engineOf i m → x.countedEvent i d inn → Released x i k

/-- What an NRES hands off (R67): the issuing cohort's earlier accesses, what its lanes have gathered and what a barrier has released it
by, and what the hand-off itself copies. -/
def handedOff (x : Execution) (i a : Nat) : Prop :=
  x.beforeCohort i a ∨ x.engineOf i a ∨
    ∃ k, k < a ∧ ((x.Gathers i k ∧ (x.actAt k).blk = (x.actAt a).blk ∧ ∃ t ∈ (x.actAt k).active, t ∈ (x.actAt a).active) ∨
      (x.Released i k ∧ x.sameCohort k a))

/-- The edges of the named synchronisers (R118, and the table after R130). -/
inductive Named (x : Execution) : Nat → Nat → Prop where
  /-- R28, R33, R34, R101, R126: what an act gathers for its lanes. -/
  | gathers {i j k : Nat} : x.Gathers i k → x.afterAct j k → Named x i j
  /-- R107, R108: what an opening releases a cohort by. -/
  | released {i j k : Nat} : x.Released i k → x.afterCohort j k → Named x i j
  /-- R124: the events of an operation come after those that stand before its issue. -/
  | post {i j o cls ch op : Nat} : (x.actAt o).kind = .post cls ch op → x.engineOf j o →
      (x.beforeAct i o ∨ (i < x.ev.length ∧ ∃ b ∈ (x.actAt o).active, x.xlTo i (x.actAt o).blk b o)) → Named x i j
  /-- R127: the matrix operations posted earlier by the cohort on a tile that the instruction names. -/
  | tile {i j o k t e e' ch op : Nat} {ts : List Nat} : (x.actAt k).kind = .tile ts → (x.actAt o).kind = .post 1 ch op →
      o < k → x.sameCohort o k → t ∈ ts → x.engineOf i o → .tile (x.actAt k).blk e ∈ (x.at_ i).bytes → e / 16384 = t →
      j < x.ev.length → x.actOf j = k → .tile (x.actAt k).blk e' ∈ (x.at_ j).bytes → Named x i j
  /-- R61, R66, R67: what a hand-off copies is read and written after what stands before it, in the issuing cohort for an NRES and in
  the block for its end; and a block issues after its input has been copied. -/
  | nresCopy {i j a node : Nat} : (x.actAt a).kind = .nres node → x.beforeCohort i a → x.engineOf j a → Named x i j
  | endCopy {i j a node : Nat} : (x.actAt a).kind = .blockEnd node → x.ofBlock i a → x.actOf i < a → x.engineOf j a → Named x i j
  | input {i j k : Nat} {ns : List Nat} : (x.actAt k).kind = .blockStart ns → x.engineOf i k → x.ofBlock j k → k < x.actOf j → Named x i j
  /-- R58, R61, R66, R70: an agent finds what the agents before it have put there, and nothing of those after it. -/
  | agents {i j : Nat} : x.agentOrder i j → Named x i j
  /-- R67, R69: what an NRES hands off, and the blocks that receive it. -/
  | nres {i j a k node : Nat} {ns : List Nat} : (x.actAt a).kind = .nres node → (x.actAt k).kind = .blockStart ns → node ∈ ns →
      (x.actAt a).launch = (x.actAt k).launch → a < k → x.handedOff i a → x.startsWith j k → Named x i j
  /-- R69: the end of a block, and the blocks that receive its hand-off. -/
  | blockEnd {i j a k node : Nat} {ns : List Nat} : (x.actAt a).kind = .blockEnd node → (x.actAt k).kind = .blockStart ns → node ∈ ns →
      (x.actAt a).launch = (x.actAt k).launch → a < k → x.ofBlock i a → x.actOf i ≤ a → x.startsWith j k → Named x i j
  /-- R68: the end of the up phase, and what starts after it. -/
  | turn {i j k : Nat} : (x.actAt k).kind = .turn → x.ofLaunch i (x.actAt k).launch → x.ofLaunch j (x.actAt k).launch → x.actOf i < k →
      k < x.actOf j → Named x i j
  /-- R129: a commit releases what stands before it in the committing lanes. -/
  | commit {i w : Nat} : x.committed w = true → x.beforeAct i (x.actOf w) → Named x i w
  /-- R336: a store of the host before the fence that precedes a notify, and every block of a launch that the notify covers: one
  that its queue starts afterwards. -/
  | notify {i j f n k vf q : Nat} : x.agentOf i = .host → i < x.ev.length → x.actOf i < f → (x.actAt f).kind = .storeFence → f < n →
      (x.actAt n).kind = .notify vf q → n < k → (x.actAt k).kind = .launched vf q → x.ofLaunch j (x.actAt k).launch → k < x.actOf j → Named x i j
  /-- R335, R336: the blocks of a launch, and the rest of its completion record, before DONE. -/
  | completion {i w k vf q : Nat} : (x.actAt k).kind = .completed vf q → w < x.ev.length → x.actOf w = k → (x.at_ w).rel = true →
      ((x.ofLaunch i (x.actAt k).launch ∧ x.actOf i < k) ∨ (i < x.ev.length ∧ x.actOf i = k ∧ (x.at_ i).rel = false)) → Named x i w
  /-- R336: a SIGNALMEM or FENCE packet releases the effects of the queue's earlier packets: launches, completion records and
  signals; for the front end's own later writes and the launches that the queue starts later. -/
  | signal {i j k vf q : Nat} : (x.actAt k).kind = .signal vf q →
      ((∃ m, m < k ∧ (x.actAt m).kind = .launched vf q ∧ x.ofLaunch i (x.actAt m).launch ∧ x.actOf i < k) ∨
        (i < x.ev.length ∧ x.agentOf i = .frontEnd ∧ x.actOf i < k ∧
          ((x.actAt (x.actOf i)).kind = .completed vf q ∨ (x.actAt (x.actOf i)).kind = .signal vf q))) →
      ((j < x.ev.length ∧ x.agentOf j = .frontEnd ∧ k ≤ x.actOf j) ∨
        ∃ m, k < m ∧ (x.actAt m).kind = .launched vf q ∧ x.ofLaunch j (x.actAt m).launch ∧ m < x.actOf j) → Named x i j

/-- sw (R118). -/
inductive Sw (x : Execution) : Nat → Nat → Prop where
  | releaseAcquire {s w r t : Nat} : x.release s w → x.acquire t r → x.takesFrom w r → x.inScope s t → Sw x s t
  | dependency {s w r j : Nat} : x.release s w → (x.at_ r).plainRead = true → x.takesFrom w r → x.coversEvent s r = true →
      x.Dep r j → Sw x s j
  | fence {i j : Nat} : (i, j) ∈ x.fences → (x.actOf i = x.actOf j ∨ x.inScope i j) → Sw x i j
  /-- A FENCE instruction orders its active lanes' earlier accesses before their later ones: whatever the order of its own fence
  events, each of them comes after what any of its lanes has made before, and before what any of them makes later. -/
  | fenceIn {i f g : Nat} : (x.at_ f).kind = .fence → (x.at_ g).kind = .fence → x.actOf f = x.actOf g → x.po i f → g < x.ev.length → Sw x i g
  | fenceOut {f g j : Nat} : (x.at_ f).kind = .fence → (x.at_ g).kind = .fence → x.actOf f = x.actOf g → x.po g j → f < x.ev.length → Sw x f j
  /-- R338: what a lane does through a port in one line of the peer is seen in its order, and sees in its order what a system-scope
  release or such a lane has made. -/
  | port {i w r j : Nat} : x.portOrder i w → x.takesFrom w r → x.follows r j → Sw x i j
  | portRead {s w r j : Nat} : x.release s w → (x.at_ s).scope = .sys → x.takesFrom w r → x.portOrder r j → Sw x s j
  | named {i j : Nat} : x.Named i j → Sw x i j

/-! ### Promotion and happens-before (R119, R120) -/

/-- A release at core scope or narrower by a lane of a core (R119). -/
def nearRelease (x : Execution) (c s w : Nat) : Prop :=
  x.release s w ∧ (x.at_ s).scope.rank ≤ MemScope.core.rank ∧ (x.agentOf s).isLane = true ∧ (x.at_ s).who.core = c

/-- A remote acquire (R119): an ATOM that acquires at device or system scope, on a core other than `c`. -/
def remoteAcquire (x : Execution) (c a : Nat) : Prop :=
  (x.at_ a).atom = true ∧ (x.at_ a).acq = true ∧ MemScope.dev.rank ≤ (x.at_ a).scope.rank ∧ (x.at_ a).who.core ≠ c

/-- hb (R119, R120): the smallest transitive relation with po, xl, sw and prom, and the host's own order. -/
inductive Hb (x : Execution) : Nat → Nat → Prop where
  | po {i j : Nat} : x.po i j → Hb x i j
  | host {i j : Nat} : x.hostOrder i j → Hb x i j
  | xl {i j : Nat} : x.xl i j → Hb x i j
  | sw {i j : Nat} : Sw x i j → Hb x i j
  | prom {c s w a : Nat} : x.nearRelease c s w → x.remoteAcquire c a → x.takesFrom w a → Hb x s a
  | promEarlier {c s w e v a : Nat} : x.nearRelease c s w → x.remoteAcquire c a → x.takesFrom w a →
      x.nearRelease c e v → Hb x e s → Hb x e a
  | trans {i j k : Nat} : Hb x i j → Hb x j k → Hb x i k

/-- dep and rf together. -/
inductive DepRf (x : Execution) : Nat → Nat → Prop where
  | dep {i j : Nat} : x.Dep i j → DepRf x i j
  | rf {i j : Nat} : x.readsFrom i j → DepRf x i j
  | trans {i j k : Nat} : DepRf x i j → DepRf x j k → DepRf x i k

/-! ### Axioms (R121, R129) -/

/-- Causality (R121). -/
def causality (x : Execution) : Prop := (∀ i, ¬ Hb x i i) ∧ ∀ i j, Hb x i j → ¬ Eco x j i

/-- Atomicity (R121): no write lies between what a read-modify-write reads from and its own write, which comes after it in co. -/
def atomicity (x : Execution) : Prop :=
  (∀ b m, (x.at_ m).kind = .rmw → b ∈ (x.at_ m).bytes → ∀ u, (b, u, m) ∈ x.co →
    ∃ v, (b, v, m) ∈ x.rf ∧ (v = u ∨ (b, u, v) ∈ x.co)) ∧
  ∀ b m v, (x.at_ m).kind = .rmw → (b, v, m) ∈ x.rf → (b, v, m) ∈ x.co

/-- No thin air (R121). -/
def noThinAir (x : Execution) : Prop := ∀ i, ¬ DepRf x i i

/-- How many locations of an access a write covers. -/
def covered (x : Execution) (r w : Nat) : Nat := ((x.at_ r).bytes.filter (fun b => (x.at_ w).bytes.contains b)).length

/-- A read sees at least a write at a location: the write itself, or one after it in co. -/
def seesAtLeast (x : Execution) (b : MemLoc) (w r : Nat) : Prop := ∃ v, (b, v, r) ∈ x.rf ∧ (v = w ∨ (b, w, v) ∈ x.co)

/-- Single-copy atomicity (R86, R111, R112): of a write that is one access, a read that is one access sees all of the bytes that both
name, or at all of them what came before; and of two writes that are one access each, one comes before the other at all of them. -/
def untorn (x : Execution) : Prop :=
  (∀ v w b c, (x.at_ v).whole = true → (x.at_ w).whole = true → (b, v, w) ∈ x.co → c ∈ (x.at_ v).bytes → c ∈ (x.at_ w).bytes →
    (c, v, w) ∈ x.co) ∧
  ∀ r w b c, (x.at_ r).whole = true → (x.at_ r).reads = true → (x.at_ w).whole = true → (x.at_ w).writes = true →
    b ∈ (x.at_ r).bytes → b ∈ (x.at_ w).bytes → c ∈ (x.at_ r).bytes → c ∈ (x.at_ w).bytes → x.seesAtLeast b w r → x.seesAtLeast c w r

/-- Single copy (R121): all bytes from one write, or from writes of which none is overwritten by a write that covers fewer
of the access's bytes; and R86's own atomicity. A write counts as overwritten at a byte that the access takes from it (log 56). -/
def singleCopy (x : Execution) : Prop :=
  (∀ r, (x.at_ r).whole = true → (x.at_ r).reads = true →
    (∀ b c v w, (b, v, r) ∈ x.rf → (c, w, r) ∈ x.rf → v = w) ∨
    ∀ b v u, (b, v, r) ∈ x.rf → (b, v, u) ∈ x.co → x.covered r v ≤ x.covered r u) ∧ x.untorn

/-- Two writes of one commit. -/
def oneCommit (x : Execution) (u v : Nat) : Prop := x.committed u = true ∧ x.committed v = true ∧ x.actOf u = x.actOf v

/-- Commit (R129): a read that sees a transaction's write, or a later one, is followed only by reads that see every write of
the transaction; and its writes enter co at one point: no other write, no other commit, and no two writes that hb orders come
both before and after it. -/
def commit (x : Execution) : Prop :=
  (∀ w b r, x.committed w = true → x.seesAtLeast b w r → ∀ q, Hb x r q → (x.at_ q).reads = true →
    ∀ u, x.oneCommit u w → ∀ c ∈ (x.at_ u).bytes, c ∈ (x.at_ q).bytes → x.seesAtLeast c u q) ∧
  ∀ u v w w' b c, x.oneCommit u v → (w = w' ∨ x.oneCommit w w' ∨ Hb x w' w) → (b, w, u) ∈ x.co → (c, v, w') ∈ x.co → x.oneCommit u w

/-- The destination byte of a copy, counted from 0, that a write of it delivers at a location. -/
def placeOf (x : Execution) (w : Nat) (b : MemLoc) : Nat := (x.at_ w).place + (x.at_ w).bytes.idxOf b

/-- A copy delivers at `b`, by its write `v`, a lower destination byte than at `c`, by its write `w`, to one receiver (R100). -/
def delivered (x : Execution) (v w : Nat) (b c : MemLoc) : Prop :=
  v < x.ev.length ∧ w < x.ev.length ∧ x.actOf v = x.actOf w ∧ x.agentOf v = x.agentOf w ∧ (∃ core ch, x.agentOf v = .copy core ch) ∧
    (x.at_ v).kind = .write ∧ (x.at_ w).kind = .write ∧ b ∈ (x.at_ v).bytes ∧ c ∈ (x.at_ w).bytes ∧ x.placeOf v b < x.placeOf w c ∧
    b.receiver = c.receiver

/-- Delivery (R100, R338): a read that sees a copy's write of a byte, or a later one, is followed only by accesses that come after the
copy's writes of lower destination bytes; and so is what a single-copy-atomic read sees itself. -/
def delivery (x : Execution) : Prop :=
  ∀ v w b c r, x.delivered v w b c → x.seesAtLeast c w r → ∀ q, (Hb x r q ∨ (q = r ∧ (x.at_ r).whole = true)) → b ∈ (x.at_ q).bytes →
    ((x.at_ q).reads = true → x.seesAtLeast b v q) ∧ ((x.at_ q).writes = true → (b, q, v) ∉ x.co)

/-! ### Which executions there are (R116, R118, R122) -/

/-- The value of a location in a write, and before every write. -/
def written (x : Execution) (w : Nat) (b : MemLoc) : Option Nat := valueAt (x.at_ w).bytes (x.at_ w).wr b
def initial (x : Execution) (b : MemLoc) : Nat := ((x.init.find? (fun p => p.1 == b)).map (·.2)).getD 0

/-- A read returns what it reads from: the write's value, or the initial one. -/
def valued (x : Execution) : Prop :=
  ∀ r b v, (x.at_ r).reads = true → b ∈ (x.at_ r).bytes → valueAt (x.at_ r).bytes (x.at_ r).rd b = some v →
    (∃ w, (b, w, r) ∈ x.rf ∧ x.written w b = some v) ∨ ((∀ w, (b, w, r) ∉ x.rf) ∧ v = x.initial b)

/-- An event belongs to its act: a lane's to an act of its block and cohort in which it is active, a buffered store's to the commit of
its block, an engine's to the act that posted its operation, for the block of which it acts; a FENCE has one fence event for each
active lane, at its scope (R113, R129, R265). -/
def placed (x : Execution) : Prop :=
  (∀ i blk t, i < x.ev.length → x.agentOf i = .lane blk t →
    x.actOf i < x.acts.length ∧ (x.actAt (x.actOf i)).blk = blk ∧ (x.at_ i).who.blk = some blk ∧
    (x.committed i = false → t ∈ (x.actAt (x.actOf i)).active ∧ (x.at_ i).who.cohort = (x.actAt (x.actOf i)).cohort)) ∧
  (∀ i cls ch op, i < x.ev.length → (x.agentOf i).isLane = false → (x.actAt (x.actOf i)).kind = .post cls ch op →
    (x.agentOf i).serves cls ch = true ∧ (x.at_ i).who.blk = some (x.actAt (x.actOf i)).blk) ∧
  (∀ i, i < x.ev.length → (x.at_ i).kind = .fence → (x.actAt (x.actOf i)).kind = .fence (x.at_ i).scope) ∧
  (∀ k sc, (x.actAt k).kind = .fence sc → ∀ t ∈ (x.actAt k).active,
    ∃ i, i < x.ev.length ∧ x.actOf i = k ∧ x.agentOf i = .lane (x.actAt k).blk t ∧ (x.at_ i).kind = .fence) ∧
  (∀ k cls n left, (x.actAt k).kind = .waitoc cls n left → left ≤ n) ∧
  ∀ w, x.committed w = true → (x.at_ w).scope = .dev

/-- Two events of one instruction at a location, the first one's lane before the second's in ascending LANEID, the order in which
an act's active lanes are listed. -/
def ascending (x : Execution) (b : MemLoc) (v w : Nat) : Prop :=
  v < x.ev.length ∧ w < x.ev.length ∧ x.actOf v = x.actOf w ∧ b ∈ (x.at_ v).bytes ∧ b ∈ (x.at_ w).bytes ∧
    (x.actAt (x.actOf v)).kind ≠ .commit ∧ ∃ blk t u, x.agentOf v = .lane blk t ∧ x.agentOf w = .lane blk u ∧
      (x.actAt (x.actOf v)).active.idxOf t < (x.actAt (x.actOf v)).active.idxOf u

/-- The order among the lanes of one instruction (R122): their writes to a location lie in co in ascending LANEID; and of an ATOM,
whose operations apply one at a time in that order, each sees those of the lanes before it and none of a lane after it, also where
a compare-and-swap finds another value and writes nothing: what one lane has seen the lanes after it see too. -/
def laneOrder (x : Execution) : Prop :=
  ∀ b v w, x.ascending b v w →
    ((x.at_ v).writes = true → (x.at_ w).writes = true → (b, v, w) ∈ x.co) ∧
    ((x.at_ v).atom = true → (x.at_ w).atom = true →
      ((x.at_ v).writes = true → x.seesAtLeast b v w) ∧ ((x.at_ w).writes = true → ¬ x.seesAtLeast b w v) ∧
        ∀ u, x.seesAtLeast b u v → x.seesAtLeast b u w)

/-- The form of an execution: rf names a write of the location for a read of it, once; co is a total order of each location's
writes; the fence order is a total order that hb agrees with (R116, R118). -/
def formed (x : Execution) : Prop :=
  (∀ b w r, (b, w, r) ∈ x.rf → w < x.ev.length ∧ r < x.ev.length ∧ (x.at_ w).writes = true ∧ (x.at_ r).reads = true ∧
    b ∈ (x.at_ w).bytes ∧ b ∈ (x.at_ r).bytes) ∧
  (∀ b v w r, (b, v, r) ∈ x.rf → (b, w, r) ∈ x.rf → v = w) ∧
  (∀ b v w, (b, v, w) ∈ x.co → v < x.ev.length ∧ w < x.ev.length ∧ (x.at_ v).writes = true ∧ (x.at_ w).writes = true ∧
    b ∈ (x.at_ v).bytes ∧ b ∈ (x.at_ w).bytes) ∧
  (∀ b u v w, (b, u, v) ∈ x.co → (b, v, w) ∈ x.co → (b, u, w) ∈ x.co) ∧
  (∀ b v, (b, v, v) ∉ x.co) ∧
  (∀ b v w, v < x.ev.length → w < x.ev.length → (x.at_ v).writes = true → (x.at_ w).writes = true → b ∈ (x.at_ v).bytes →
    b ∈ (x.at_ w).bytes → v ≠ w → (b, v, w) ∈ x.co ∨ (b, w, v) ∈ x.co) ∧
  (∀ i j, (i, j) ∈ x.fences → (x.at_ i).kind = .fence ∧ (x.at_ j).kind = .fence ∧ ¬ Hb x j i) ∧
  (∀ i j k, (i, j) ∈ x.fences → (j, k) ∈ x.fences → (i, k) ∈ x.fences) ∧
  ∀ i j, i < x.ev.length → j < x.ev.length → (x.at_ i).kind = .fence → (x.at_ j).kind = .fence → i ≠ j →
    (i, j) ∈ x.fences ∨ (j, i) ∈ x.fences

/-- An execution that the part allows (R121). -/
def allowed (x : Execution) : Prop :=
  x.formed ∧ x.placed ∧ x.laneOrder ∧ x.valued ∧ x.causality ∧ x.atomicity ∧ x.noThinAir ∧ x.singleCopy ∧ x.commit ∧ x.delivery

end Execution

end Sys2Proof.Machine
end

