-- ==== Sys2Proof/Machine/Events.lean ====
section
/-! DEFINITION. The instruction that a clock of a quarter issues, and the act and the lane events that it contributes to an
execution (spec/05_memory_model.md R113 to R117, R122, R127, R129; spec/11_isa_memory_sync.md R257, R265, R266). The events of an
asynchronous operation belong to its engine (R113) and stand in `Machine/EngineEvents.lean`. -/

namespace Sys2Proof.Machine

/-! ### What a clock issues (R20, R192) -/

/-- The state in which the instruction of a clock issues, from the states before and after the clock; none where no group issues. -/
def State.issuing (s t : State) : Option State :=
  match s.nextAction with
  | (.quarter core q _, s) =>
    let p := s.prepare core q
    if core < 64 && q < 4 && s.coreRuns core && !(p.candidates core q).isEmpty && !t.cur.waited then
      some (p.choose t.cur.slot t.cur.group)
    else none
  | _ => none

/-- The cell of a word, with the word in the extended form. -/
def wordCell : RawWord → Option (Cell × ExtWord)
  | .base opc w => (cellOf opc.toNat).map (fun c => (c, w.toExt))
  | .ext opc w => (cellOf opc.toNat).map (fun c => (c, w))

/-- What the description of the instruction at the cursor sees; none where the bytes there are no instruction, or a hint. -/
def State.envHere (p : State) (i : Issuer) : Option Env :=
  match p.fetch i with
  | .ok bs => do
    let r ← rawWord bs
    let (c, w) ← if r.refusal.isSome then none else wordCell r
    return envOf p i.slot i.co i.blk c w ((c.ty w).getD .b32) i.group r.size
  | _ => none

/-! ### Scopes and orderings (R114, R115, R183) -/

/-- The scope of an access by the SCOPE field; 0 is the device scope that an ordering without a scope takes (R115, R183). -/
def scopeOf : Nat → MemScope
  | 1 => .coh | 2 => .blk | 3 => .core | 4 => .clu | 5 => .die | 7 => .sys
  | _ => .dev

/-- The scope of a FENCE cell (R114, R265). -/
def fenceScope : Nat → MemScope
  | 0xC0 => .coh | 0xC1 => .blk | 0xC2 => .core | 0xC3 => .clu | 0xC4 => .die | 0xC5 => .dev
  | _ => .sys

/-- A word asks for an acquire, or for a release (R183). -/
def Env.acquires (e : Env) : Bool := e.w.ord == 1 || e.w.ord == 3
def Env.releases (e : Env) : Bool := e.w.ord == 2 || e.w.ord == 3

/-- The cells that are FENCEs, ATOMs, REDs and BARs (R254). -/
def isFence (opc : Nat) : Bool := 0xC0 ≤ opc && opc ≤ 0xC6
def isAtom (opc : Nat) : Bool := 0xA0 ≤ opc && opc ≤ 0xA8
def isRed (opc : Nat) : Bool := 0xB0 ≤ opc && opc ≤ 0xB6
def isBar (opc : Nat) : Bool := 0xC8 ≤ opc && opc ≤ 0xCC

/-! ### Registers (R116, R117) -/

/-- The registers a field names. -/
def Env.regsOfField (e : Env) (f : Kind × Nat) : List RegName :=
  match f.1 with
  | .p => if f.2 = 0 then [] else [.p f.2]
  | .dsc => [.d f.2]
  | .sreg => [.s f.2]
  | k => match e.runOf k with
    | some (n, _) => if f.2 = zv then [] else (List.range n).map (fun i => .v (f.2 + i))
    | none => []

/-- The registers that the destination field names, and those that the source fields name. -/
def Env.dests (e : Env) : List RegName := e.regsOfField (e.cell.d, e.w.d.toNat)
def Env.sources (e : Env) : List RegName := e.fields.tail.flatMap e.regsOfField

/-- The system registers an instruction reads or writes beside its fields, by their numbers (R186). -/
def sFpctl : RegName := .s 20
def sXpc : RegName := .s 21
def sResid : RegName := .s 26
def trapRegs : List RegName := [.s 22, .s 23, .s 24]

/-- A result that is computed from no source: it comes from memory, from another lane, from an engine or from the instruction's
place (R117). -/
def fromElsewhere (opc : Nat) : Bool :=
  opc == 0x06 || opc == 0x12 || opc == 0x13 || (0x50 ≤ opc && opc ≤ 0x59) || (0x90 ≤ opc && opc ≤ 0x97) || isAtom opc || opc == 0xC9 ||
    opc == 0xE3 || opc == 0xEF || opc == 0xF1 || opc == 0xF5 || opc == 0xF6

/-- The pairs of types between which CVT can set a flag, by the Flags column of R247: float to integer always; float to float and
integer to float where a value of the source may have no encoding; integer to integer only under .sat, and where a value of the
source may lie outside the destination's range. -/
def cvtSetsFlags (d s : Ty) (sat : Bool) : Bool :=
  match s.isFloat, d.isFloat with
  | true, true => !((fmtOf s).eb ≤ (fmtOf d).eb && (fmtOf s).mb ≤ (fmtOf d).mb)
  | true, false => true
  | false, true => (fmtOf d).mb + 1 < (if s.signed then s.bits - 1 else s.bits)
  | false, false => sat && !((tyRange d).1 ≤ (tyRange s).1 && (tyRange s).2 ≤ (tyRange d).2)

/-- An instruction that may set a sticky flag (R162, R236): a saturating integer operation, a floating-point operation that rounds
or judges, a conversion that can set one, or MVT. FMIN, FMAX and FSET set none (R238, R242). -/
def Env.sticky (e : Env) : Bool :=
  let o := e.cell.opc
  ((0x20 ≤ o && o ≤ 0x24) && e.w.satField) || (0x60 ≤ o && o ≤ 0x63) || (0x68 ≤ o && o ≤ 0x6C) ||
    (0x70 ≤ o && o ≤ 0x7A) || o == 0x81 || o == 0x82 || o == 0xF0 ||
    (o == 0x80 && cvtSetsFlags (e.w.dty.getD .i32) (e.w.sty.getD .i32) e.w.satField)

/-- A BCAST that writes nothing: its source is general and the lane it names is not active (R220). -/
def Env.keepsDest (e : Env) : Bool := e.cell.opc == 0x54 && e.va.isG && !e.act.has ((e.vb.at 0).toNat % 32)

/-- The source lane of a lane of an LXCH, by its cell (R219). -/
def lxchSource (opc l b : Nat) : Nat :=
  match opc with
  | 0x50 => lxchIdx l b
  | 0x51 => lxchUp l b
  | 0x52 => lxchDown l b
  | _ => lxchXor l b

/-- The lanes in which an LXCH writes nothing: those whose source lane is not active, where the source is general (R139, R219). -/
def Env.keptLanes (e : Env) : List Nat :=
  if 0x50 ≤ e.cell.opc && e.cell.opc ≤ 0x53 && e.va.isG then
    (e.lanes.filter (fun l => !e.act.has (lxchSource e.cell.opc l (e.vb.at l).toNat))).map (fun l => (e.co.lane l).tid)
  else []

/-- What an instruction that completes writes to registers, and from which (R116). A sticky flag carries a value on in FPCTL, which
is one register here: log 100. -/
def Env.flows (e : Env) : List Flow :=
  let src := e.sources
  let field : Flow := { sets := if e.keepsDest then [] else e.dests, keep := e.keptLanes, uses :=
    (if fromElsewhere e.cell.opc then []
     else if e.cell.opc = 0x6D then sFpctl :: src
     else if e.cell.opc = 0xF0 then e.regsOfField (e.cell.a, e.w.a.toNat)
     else src) }
  let flags : List Flow := if e.sticky || e.cell.opc = 0x6D then [{ sets := [sFpctl], uses := sFpctl :: src }] else []
  let resid : List Flow := if e.cell.opc = 0xDC then [{ sets := [sResid], uses := sResid :: src }] else []
  let zeroed : List Flow :=
    if e.cell.opc = 0xF3 then [{ sets := e.impliedNames.flatMap (fun p => (List.range p.2).map (fun i => .v (p.1 + i))) }] else []
  field :: flags ++ resid ++ zeroed

/-- The branches, the return from a handler among them, whose target is XPC (R116, R343). -/
def Env.isBranch (e : Env) : Bool := (0x10 ≤ e.cell.opc && e.cell.opc ≤ 0x14) || e.cell.opc == 0x1A

/-! ### Locations (R113) -/

/-- The locations of bytes of an ASP allocation, of a WBF allocation, and of elements of a tile. -/
def aspLocs (blk off n : Nat) : List MemLoc := (List.range n).map (fun i => .asp blk (off + i))
def wbfLocs (blk off n : Nat) : List MemLoc := (List.range n).map (fun i => .wbf blk (off + i))
def tileLocs (blk t off n : Nat) : List MemLoc := (List.range n).map (fun i => .tile blk (16384 * t + off + i))
def deviceLocs (pa n : Nat) : List MemLoc := (List.range n).map (fun i => .device (pa + i))

/-- The bytes an access of a lane reaches in device memory, with their virtual addresses; none where it does not translate. -/
def Env.reached (e : Env) (acc : Access) (va : W64) (n : Nat) : List (Nat × MemLoc) :=
  match e.s.translate (e.s.coreTlbs e.core) e.blk.vf va acc with
  | .ok x => (List.range n).map (fun i => (va.toNat + i, .device (x.pa + i)))
  | .error _ => []

/-- The bytes a read takes from memory: those that no buffered store covers (R76, R80). -/
def Env.memoryLocs (e : Env) (va : W64) (n : Nat) : List MemLoc :=
  ((e.reached .read va n).filter (fun p => !(e.buffered && (e.blk.buf.look p.1).isSome))).map (·.2)

/-- The locations a peer address names (R95). -/
def Env.peerLocs (e : Env) (l n : Nat) : List MemLoc :=
  match e.peerBlock (e.va.at l) with
  | some (b, _) => aspLocs b (peerOffset (e.va.at l)) n
  | none => []

/-- The locations of the object of a BAR instruction (R105). -/
def Env.barLocs (e : Env) : List MemLoc := ((e.barTarget.1.map (fun b => aspLocs b.1 e.barTarget.2 16)).getD [])

/-- The kind and the locations of the events of a lane, one pair for each (R113). `hit` says whether an ATOM.CAS has found the value
it compares with; where it has not, it writes nothing (R263). What one instruction does as a whole, to a barrier object or to
a tile, is an event of its lowest active lane (log 103). -/
def Env.laneAccesses (e : Env) (l : Nat) (hit : Bool) : List (MemKind × List MemLoc) :=
  let n := e.ty.bytes
  let own (k : MemKind) (l : List MemLoc) := if l.isEmpty then [] else [(k, l)]
  let once (l' : List (MemKind × List MemLoc)) := if l = lowest e.act then l' else []
  match e.cell.opc with
  | 0x90 => own .read (e.memoryLocs (e.devAddr l) n)
  | 0x91 => if e.buffered then [] else own .write ((e.reached .write (e.devAddr l) n).map (·.2))
  | 0x92 => match e.ldqLane l with
    | .error _ => []
    | .ok q => own .read (e.memoryLocs (e.devAddr l) 1) ++ (match q.entry with
      | some (a, _) => own .read (e.memoryLocs a 4)
      | none => [])
  | 0x93 => own .read (aspLocs e.co.blk (e.va.at l).toNat n)
  | 0x94 => own .write (aspLocs e.co.blk (e.va.at l).toNat n)
  | 0x95 => own .read (e.peerLocs l n)
  | 0x96 => own .write (e.peerLocs l n)
  | 0x97 => own .read (wbfLocs e.co.blk (e.va.at l).toNat n)
  | 0xE2 => once [(.write, tileLocs e.co.blk e.w.d.toNat 0 16384)]
  | 0xE3 => own .read (tileLocs e.co.blk e.w.a.toNat ((e.vb.at 0).toNat + l) 1)
  | 0xE4 => own .write (tileLocs e.co.blk e.w.d.toNat ((e.vb.at 0).toNat + l) 1)
  | 0xE5 => once [(.read, tileLocs e.co.blk e.w.a.toNat 0 16384), (.write, tileLocs e.co.blk e.w.d.toNat 0 16384)]
  | 0xF0 =>
    let es := if e.w.moda.getLsbD 8 then 2 else 4
    (List.range (e.w.mdim * e.w.ndim)).map (fun i => (.read, wbfLocs e.co.blk ((e.vb.at l).toNat + i * es) es))
  | o =>
    if isAtom o then own (if hit then .rmw else .read) ((e.reached .rmw (e.devAddr l) n).map (·.2))
    else if isFence o then [(.fence, [])]
    else if isBar o then once (own .rmw e.barLocs)
    else []

/-! ### Events -/

/-- A lane of the issuing cohort. -/
def Env.who (e : Env) (l : Nat) : MemWho :=
  { agent := .lane e.co.blk (e.co.lane l).tid, core := e.core, cohort := e.co.cohid, blk := some e.co.blk }

/-- The event of a lane's access. A word carries its ordering on it (R115): an acquire on what reads, a release on what writes. An
access to device memory is single-copy-atomic (R86), and so is a BAR instruction's one update of its object (R257). -/
def Env.laneEvent (e : Env) (k l : Nat) (a : MemKind × List MemLoc) : MemEvent :=
  { who := e.who l, kind := a.1, act := k, bytes := a.2,
    acq := e.acquires && (a.1 == .read || a.1 == .rmw),
    rel := e.releases && (a.1 == .write || a.1 == .rmw),
    scope := if a.1 == .fence then fenceScope e.cell.opc else scopeOf e.w.scope,
    atom := isAtom e.cell.opc,
    whole := a.2.any (fun b => !b.onChip) || isBar e.cell.opc }

/-- The events of an active lane of act `k`. -/
def Env.laneEvents (e : Env) (k l : Nat) (hit : Bool) : List MemEvent :=
  (e.laneAccesses l (e.cell.opc != 0xA8 || hit)).map (e.laneEvent k l)

/-- The lane of a block that has buffered a store. -/
def bufWho (blk core : Nat) (w : BufBy) : MemWho := { agent := .lane blk w.tid, core := core, cohort := w.cohort, blk := some blk }

/-- The writes of a commit (R78, R113, R129): of each ST that the buffer still holds bytes of, one write for each lane that made it, of
those bytes. Bytes of which no ST is known, such as those of a save image that another agent has written to, are the writes of
`rest`. -/
def commitEvents (s : State) (core : Nat) (b : Block) (rest : MemWho) (k : Nat) (acc : Access) : List MemEvent :=
  match s.commitXlat (s.coreTlbs core) b.vf acc b.buf with
  | .error _ => []
  | .ok l =>
    let bytes : List (Option BufBy × MemLoc) := List.zipWith (fun p x => (b.bufBy.look p.1, .device x.1)) b.buf l
    ((bytes.map (·.1)).eraseDups).map (fun w =>
      { who := (w.map (bufWho ((rest.blk).getD 0) core)).getD rest, kind := .write, act := k,
        bytes := (bytes.filter (fun x => x.1 == w)).map (·.2), whole := w.isSome, store := w.map (·.store) })

/-! ### What an issue comes to -/

/-- The TIDs of some lanes of a cohort, in ascending LANEID. -/
def Cohort.tids (co : Cohort) (m : Mask) : List Nat := (maskLanes m).map (fun l => (co.lane l).tid)

/-- The instruction has trapped or parked its cohort (R342, R346), or its block has met a poisoned line (R388). -/
def Issuer.broken (i : Issuer) (t : State) : Bool :=
  (match t.cohort i.slot with
   | some co => (co.hmode && !i.co.hmode) || co.park.any (fun r => !r.boundary)
   | none => false) || (t.block i.co.blk).any (fun b => b.ecc.isSome)

/-- The instruction's cohort has had its explicit transaction aborted. -/
def Issuer.aborted (i : Issuer) (t : State) (commits : Bool) : Bool :=
  i.co.tx.isSome && ((t.cohort i.slot).map (fun co => co.tx.isNone)).getD false && !commits

/-- An instruction commits its cohort's explicit transaction (R276). -/
def Env.commits (e : Env) (t : State) : Bool :=
  e.cell.opc == 0xD9 && e.co.tx.any (fun x => !x.conflict) && ((t.cohort e.slot).map (fun co => co.tx.isNone)).getD false

/-- The name of a barrier object: its block and its offset. -/
def objId (blk off : Nat) : Nat := blk * 2 ^ 32 + off

/-- The name of the operation of a class that the cohort in a slot has posted last. -/
def State.newestOp (t : State) (slot cls : Nat) : Nat := (((t.cohort slot).map (fun co => (co.oc cls).getLast?.map (·.id))).join).getD 0

/-- What an issue that completes in state `t` is for the order of events. -/
def Env.actKind (e : Env) (t : State) : ActKind :=
  let o := e.cell.opc
  let obj := objId ((e.barTarget.1.map (·.1)).getD 0) e.barTarget.2
  if e.act = 0 then .issue
  else if isFence o then .fence (fenceScope o)
  else if isRed o then .post 3 0 (t.newestOp e.slot 3)
  else if 0xD0 ≤ o && o ≤ 0xD3 then .post 0 e.w.d.toNat (t.newestOp e.slot 0)
  else if 0xE8 ≤ o && o ≤ 0xEF then .post 1 0 (t.newestOp e.slot 1)
  else if o = 0xF1 then .post 2 0 (t.newestOp e.slot 2)
  else if o = 0xD4 then .waitoc e.w.a.toNat e.w.b.toNat (e.co.ocCount e.w.a.toNat)
  else if o = 0x91 && e.buffered then .buffered e.s.tick
  else if 0xE2 ≤ o && o ≤ 0xE5 then .tile ((e.fields.filter (fun f => f.1 == .t)).map (·.2))
  else if o = 0xD5 || o = 0xD6 then .pointer e.w.a.toNat (((e.co.wptrs.look e.w.a.toNat).map (·.prog)).getD 0)
  else if o = 0xC8 then .init obj
  else if o = 0xC9 then .arrive obj e.w.peer
  else if o = 0xCA then .passed obj ((e.vb.at 0).toNat % 16) e.w.peer
  else if o = 0xF2 then (if e.blk.handed then .issue else .nres e.blk.node)
  else if e.commits t then .commit
  else .issue

/-- The act of an issue of which only its cohort and its group are known. -/
def Issuer.act (i : Issuer) : Act :=
  { launch := i.blk.launch, blk := i.co.blk, cohort := i.co.cohid, group := i.co.tids i.group, groups := i.co.groups.map i.co.tids }

/-- The act that an issue is, when it ends in state `t`. A trap leaves the handler registers behind, an abort its code in every
lane of the cohort (R81). -/
def issueAct (i : Issuer) (e : Option Env) (t : State) : Act :=
  let commits := (e.map (·.commits t)).getD false
  let code : List Flow := if i.aborted t commits then ((i.co.tx.map (fun x => { sets := [.v x.vd], every := true })).toList) else []
  match e with
  | none => { i.act with flows := code ++ [{ sets := sXpc :: trapRegs }] }
  | some e =>
    let cond : List RegName := if e.w.gp = 0 then [] else [.p e.w.gp.toNat]
    let uses := e.sources ++ (if e.cell.opc = 0x1A then [sXpc] else [])
    let act := { i.act with active := i.co.tids e.act, uses := uses, cond := cond }
    if i.broken t then { act with flows := code ++ [{ sets := [sXpc] }, { sets := trapRegs, uses := uses ++ cond }] }
    else { act with kind := e.actKind t, flows := e.flows ++ code, branch := e.isBranch }

/-- Whether an issue makes the events of its lanes: it has neither trapped nor parked, nor has it aborted its transaction. -/
def Env.makesEvents (e : Env) (i : Issuer) (t : State) : Bool := !i.broken t && !i.aborted t (e.commits t)

/-- The events of an issue that is act `k` and ends in state `t` (R113, R129): those of each active lane in ascending LANEID, `hit`
saying in which lanes a compare-and-swap has found its value; those of a commit are the lanes' that stored what it writes. -/
def Env.events (e : Env) (i : Issuer) (k : Nat) (hit : Nat → Bool) (t : State) : List MemEvent :=
  if e.commits t then commitEvents e.s e.core e.blk (e.who (lowest e.act)) k .rmw
  else if e.makesEvents i t then e.lanes.flatMap (fun l => e.laneEvents k l (hit l))
  else []

end Sys2Proof.Machine
end

