-- ==== Sys2Proof/Safety.lean ====
section
/-! DEFINITION. The words in which claims are stated: a step that goes on, the form of the stores that every step is to keep,
an instruction that has passed the checks that every instruction makes, and what the state after it has in common with the
state before. -/

namespace Sys2Proof

/-- What a row that stands for a word of a cell is issued as: its cell, its extended word (R175) and its size (R170). -/
def Instr.form (i : Instr) : Option (Cell × ExtWord × Nat) :=
  match i.word with
  | some (.base c w) => some (c, w.toExt, i.size)
  | some (.ext c w) => some (c, w, i.size)
  | _ => none

namespace Machine

/-! ### Steps and stores -/

/-- A step goes on. -/
def State.goesOn (s : State) : Prop := ∃ t, step s = .next t

/-- The stores of the part are in their canonical form. -/
def State.storesOk (s : State) : Prop :=
  Memory.wf s.mem = true ∧ ∀ c ∈ s.cores, bufWf c.2.asp = true ∧ bufWf c.2.wbf = true

/-! ### An instruction at issue (R192) -/

/-- What an instruction sees when the group at the cursor issues it. -/
def State.envFor (s : State) (i : Instr) : Option Env :=
  match i.form, s.issuer with
  | some (c, w, n), some x => some (envOf s x.slot x.co x.blk c w ((c.ty w).getD .b32) x.group n)
  | _, _ => none

/-- The instruction has passed steps 1 to 5 of R192 but its own: its encoding and its names are legal, some lane is active,
and the scoreboard does not hold it. -/
structure State.Passes (s : State) (i : Instr) (e : Env) : Prop where
  env    : s.envFor i = some e
  form   : i.WellFormed
  names  : e.namesOk = true
  active : e.act ≠ 0
  ready  : e.held = false

/-- The state in which an instruction completes that has made `t` of the state: the group goes on after it. -/
def Env.completes (e : Env) (t : State) : State := (t.advance e.slot e.group e.pc e.next []).mark false

/-- The state in which its lanes go to the offsets of `dst`, and the others of the group go on after it. -/
def Env.branches (e : Env) (t : State) (dst : List (Mask × W32)) : State :=
  (t.advance e.slot e.group e.pc e.next dst).mark false

/-- The state in which it raises a precise trap (R342). -/
def Env.traps (e : Env) (t : TrapInfo) : State := (e.s.takeTrap e.slot e.group e.pc t).mark false

/-! ### What stays as it was -/

/-- Nothing of the part changes but the issuing cohort, which becomes `co`. -/
structure Env.OnlyCohort (e : Env) (t : State) (co : Cohort) : Prop where
  here  : t.cohort e.slot = some co
  there : ∀ k, k ≠ e.slot → t.cohort k = e.s.cohort k
  part  : { t with cohorts := e.s.cohorts, cur := e.s.cur } = e.s
  bytes : ∀ key a, t.physByte key a = e.s.physByte key a

/-- The lanes of the group stand at the next instruction; nothing else of any lane changes. -/
def Env.MovedOn (e : Env) (co : Cohort) : Prop :=
  ∀ l < 32, co.lane l = if e.group.has l then { e.co.lane l with pc := e.next } else e.co.lane l

/-- Of the V registers only those of `ds` change, of the predicates only those of `ps`, and a lane that runs and is not active
keeps its contents of each (R199); FPCTL may gain sticky bits; every other register, counter and control of the cohort is as
before. -/
structure Env.RegisterFrame (e : Env) (t : State) (co : Cohort) (ds ps : List Nat) : Prop where
  only   : e.OnlyCohort t co
  lanes  : e.MovedOn co
  regs   : ∀ n, n ∉ ds → co.v n = e.co.v n
  vkeep  : ∀ n, ∀ l < 32, e.co.live.has l = true → e.act.has l = false → (co.v n).at l = (e.co.v n).at l
  preds  : ∀ n, n ∉ ps → co.p n = e.co.p n
  pkeep  : ∀ n l, e.act.has l = false → (co.p n).has l = (e.co.p n).has l
  sticky : e.co.fpctl &&& co.fpctl = e.co.fpctl ∧ (e.co.fpctl ^^^ co.fpctl) &&& ~~~ 0x3F#32 = 0
  other  : co = { e.co with lanes := co.lanes, waits := co.waits, vregs := co.vregs, preds := co.preds, fpctl := co.fpctl }

/-- The active lanes of the group have gone to `dst`, its other lanes on to the next instruction. Of the V registers only those
of `ds` change, in active lanes; beside them only the group the quarter goes on with, and the waits, of the cohort change. -/
structure Env.Jumps (e : Env) (t : State) (co : Cohort) (dst : Nat → W32) (ds : List Nat) : Prop where
  only  : e.OnlyCohort t co
  lanes : ∀ l < 32, co.lane l = if e.group.has l then { e.co.lane l with pc := if e.act.has l then dst l else e.next } else e.co.lane l
  regs  : ∀ n, n ∉ ds → co.v n = e.co.v n
  vkeep : ∀ n, ∀ l < 32, e.co.live.has l = true → e.act.has l = false → (co.v n).at l = (e.co.v n).at l
  other : co = { e.co with lanes := co.lanes, waits := co.waits, vregs := co.vregs, curMask := co.curMask, elected := co.elected }

/-- What an instruction that writes device memory leaves: the V registers of `ds` change in active lanes; the device physical
bytes outside `wrote` read as before under the cohort's key; of the other cohorts nothing changes but the conflict marks of
their open transactions. -/
structure Env.StoreFrame (e : Env) (t : State) (co : Cohort) (ds : List Nat) (wrote : Nat → Prop) : Prop where
  here  : t.cohort e.slot = some co
  lanes : e.MovedOn co
  regs  : ∀ n, n ∉ ds → co.v n = e.co.v n
  vkeep : ∀ n, ∀ l < 32, e.co.live.has l = true → e.act.has l = false → (co.v n).at l = (e.co.v n).at l
  other : co = { e.co with lanes := co.lanes, waits := co.waits, vregs := co.vregs }
  there : ∀ k x, k ≠ e.slot → e.s.cohort k = some x → ∃ y, t.cohort k = some y ∧ y = { x with tx := y.tx }
  bytes : ∀ a, ¬ wrote a → t.physByte e.key a = e.s.physByte e.key a
  rest  : { t with cohorts := e.s.cohorts, cur := e.s.cur, mem := e.s.mem, lineKeys := e.s.lineKeys } = e.s

/-- The destination D takes a result: it is ZV, or a general name, or the issue is full and the result not general (R132,
R137). -/
def Env.destTakes (e : Env) (uniform : Bool) : Prop :=
  e.w.d.toNat = zv ∨ e.w.d.toNat < 256 ∨ (e.full = true ∧ uniform = true)

/-- D is a narrow name. -/
def Env.narrow (e : Env) : Prop := 256 ≤ e.w.d.toNat ∧ e.w.d.toNat ≠ zv

/-! ### Integers and predicates by lane (R151, R196) -/

/-- The value an operand of a type has in a word: its low bits, signed or natural. -/
def asInt (t : Ty) (x : W32) : Int :=
  if t.signed then (x.setWidth t.bits).toInt else ((x.setWidth t.bits).toNat : Int)

/-- Wrap to a type, extended to the register's 32 bits. -/
def wrapTo (t : Ty) (x : Int) : W32 :=
  if t.signed then (BitVec.ofInt t.bits x).signExtend 32 else (BitVec.ofInt t.bits x).setWidth 32

/-- The least and the greatest value of a type. -/
def leastOf (t : Ty) : Int := if t.signed then -(2 ^ (t.bits - 1)) else 0
def greatestOf (t : Ty) : Int := if t.signed then 2 ^ (t.bits - 1) - 1 else 2 ^ t.bits - 1

/-- The exact result of an integer instruction (R206, R152), by major opcode. -/
def exactInt (opc : Nat) (t : Ty) (a b c : Int) : Int :=
  match opc with
  | 0x20 => a + b
  | 0x21 => a - b
  | 0x22 => a * b
  | 0x23 => (a * b) / 2 ^ 32
  | 0x24 => a * b + c
  | 0x25 => if b = 0 then (if t.signed then -1 else 2 ^ t.bits - 1) else a.tdiv b
  | 0x26 => if b = 0 then a else a - b * a.tdiv b
  | 0x27 => if a ≤ b then a else b
  | 0x28 => if a ≤ b then b else a
  | 0x29 => if a < 0 then -a else a
  | _ => -a

/-- The sources of a lane, and the values an integer instruction reads there. -/
def Env.ia (e : Env) (l : Nat) : Int := asInt e.ty (e.va.at l)
def Env.ib (e : Env) (l : Nat) : Int := asInt e.ty (e.vb.at l)
def Env.ic (e : Env) (l : Nat) : Int := asInt e.ty (e.vc.at l)

/-- The exact result of a lane. -/
def Env.exact (e : Env) (l : Nat) : Int := exactInt e.cell.opc e.ty (e.ia l) (e.ib l) (e.ic l)

/-- The lane's result lies outside its type under .sat. -/
def Env.clamps (e : Env) (l : Nat) : Prop :=
  e.w.satField = true ∧ (e.exact l < leastOf e.ty ∨ greatestOf e.ty < e.exact l)

/-- Every V register that a source field names is uniform; a literal is. -/
def Env.sourcesU (e : Env) : Bool :=
  (e.fields.drop 1).all (fun f => match e.runOf f.1 with
    | some (n, _) => f.2 == zv || (List.range n).all (fun i => (e.co.v (f.2 + i)).isU)
    | none => true)

/-- The word a logic or shift instruction writes (R210, R211). -/
def logicWord (opc : Nat) (a b : W32) : W32 :=
  match opc with
  | 0x30 => a &&& b
  | 0x31 => a ||| b
  | 0x32 => a ^^^ b
  | 0x33 => ~~~ a
  | 0x34 => a &&& ~~~ b
  | 0x35 => a <<< b.toNat
  | 0x36 => a >>> b.toNat
  | 0x37 => a.sshiftRight b.toNat
  | _ => (a <<< (b.toNat % 32)) ||| (a >>> ((32 - b.toNat % 32) % 32))

/-- Byte `k` of a word. -/
def byteOf (x : W32) (k : Nat) : Byte := x.extractLsb' (8 * k) 8

/-- What the word `r` that a bit-field instruction writes is, bit by bit (R212 to R215). -/
def BitFieldOk (opc : Nat) (t : Ty) (a b c r : W32) : Prop :=
  match opc with
  | 0x39 => r.toNat = (List.range 32).countP (fun i => a.getLsbD i)
  | 0x3A => r.toNat ≤ 32 ∧ (∀ i < 32, 32 ≤ i + r.toNat → a.getLsbD i = false) ∧
      (r.toNat < 32 → a.getLsbD (31 - r.toNat) = true)
  | 0x3B => r.toNat ≤ 32 ∧ (∀ i < 32, i < r.toNat → a.getLsbD i = false) ∧ (r.toNat < 32 → a.getLsbD r.toNat = true)
  | 0x3C => ∀ i < 32, r.getLsbD i = a.getLsbD (31 - i)
  | 0x3D =>
    let p := min (b.toNat % 256) 32
    let w := min (c.toNat % 256) (32 - p)
    ∀ i < 32, r.getLsbD i = if i < w then a.getLsbD (p + i) else t.signed && decide (0 < w) && a.getLsbD (p + w - 1)
  | 0x3E =>
    let p := min (c.toNat % 256) 32
    let w := min (c.toNat / 256 % 256) (32 - p)
    ∀ i < 32, r.getLsbD i = if p ≤ i ∧ i < p + w then a.getLsbD (i - p) else b.getLsbD i
  | _ => ∀ i < 4,
    let s := (byteOf c i).toNat
    let y := if s % 8 < 4 then byteOf a (s % 8) else byteOf b (s % 8 - 4)
    match s / 8 % 4 with
    | 0 => byteOf r i = y
    | 1 => byteOf r i = 0
    | 2 => byteOf r i = if y.getLsbD 7 then 0xFF#8 else 0
    | _ => ∀ k < 8, (byteOf r i).getLsbD k = y.getLsbD (7 - k)

/-- The integers ISET compares in a lane (R216). -/
def Env.cmpA (e : Env) (l : Nat) : Int :=
  if e.ty.bits = 64 then (if e.ty.signed then (e.a64 l).toInt else (e.a64 l).toNat) else e.ia l
def Env.cmpB (e : Env) (l : Nat) : Int :=
  if e.ty.bits = 64 then (if e.ty.signed then (e.b64 l).toInt else (e.b64 l).toNat) else e.ib l

/-- A condition of R182 on two values of an ordered type. -/
def condHolds {α : Type} [LT α] [LE α] (c : Nat) (a b : α) : Prop :=
  match c with
  | 0 => a = b
  | 1 => a ≠ b
  | 2 => a < b
  | 3 => a ≤ b
  | 4 => b < a
  | _ => b ≤ a

/-- What a predicate instruction sets in an active lane (R216 to R218, R222). -/
def Env.PredSpec (e : Env) (l : Nat) : Prop :=
  match e.cell.opc with
  | 0x40 => condHolds (e.w.sub.toNat % 16) (e.cmpA l) (e.cmpB l)
  | 0x43 => e.pa.has l = true ∧ e.pb.has l = true
  | 0x44 => e.pa.has l = true ∨ e.pb.has l = true
  | 0x45 => e.pa.has l ≠ e.pb.has l
  | 0x46 => e.pa.has l = false
  | 0x48 => e.va.at l ≠ 0
  | 0x55 => ∀ m < 32, e.act.has m = true → e.pa.has m = true
  | _ => ∃ m, m < 32 ∧ e.act.has m = true ∧ e.pa.has m = true

/-! ### Numbers as rationals (R149) -/

/-- The number a finite value stands for. -/
def XVal.rat : XVal → ℚ
  | .fin neg m e _ => (if neg then -1 else 1) * (m : ℚ) * (2 : ℚ) ^ e
  | _ => 0

/-- A finite value. -/
def XVal.isFin : XVal → Bool
  | .fin .. => true
  | _ => false

/-- The value of an FSET or FCLS operand in a lane (R150, R242). -/
def Env.fpA (e : Env) (l : Nat) : XVal := (fmtOf e.ty).value ((e.va.at l).toNat % 2 ^ (fmtOf e.ty).width)
def Env.fpB (e : Env) (l : Nat) : XVal := (fmtOf e.ty).value ((e.vb.at l).toNat % 2 ^ (fmtOf e.ty).width)

/-- The value stands for the real number `x`: it is `x`; or it is marked, `x` lies strictly between it and the next value of its
exponent, and it is either precise enough, or small enough, that no boundary of a rounding lies between the two. -/
def XVal.Stands (v : XVal) (x : ℝ) : Prop :=
  match v with
  | .fin n m e st =>
    if st = false then x = ((XVal.fin n m e false).rat : ℝ)
    else (x < 0 ↔ n = true) ∧ (m : ℝ) * (2 : ℝ) ^ e < |x| ∧ |x| < ((m : ℝ) + 1) * (2 : ℝ) ^ e ∧
      (2 ^ 40 ≤ m ∨ ((m : ℝ) + 1) * (2 : ℝ) ^ e ≤ (2 : ℝ) ^ (-160 : Int))
  | _ => False

/-- The largest finite number of a format, and the distance from the number before it. -/
def Fmt.largest (f : Fmt) : ℝ := ((f.value f.maxBits).rat : ℝ)
def Fmt.topStep (f : Fmt) : ℝ := f.largest - ((f.value (f.maxBits - 1)).rat : ℝ)

/-- A number overflows: rounded as if the exponent had no bound, its magnitude is above the largest finite one (R154, R155). -/
def Fmt.Overflows (f : Fmt) (rm : RMode) (neg : Bool) (x : ℝ) : Prop :=
  let away : Prop := f.largest < |x|
  let toward : Prop := f.largest + f.topStep ≤ |x|
  match rm with
  | .rne => f.largest + f.topStep / 2 < |x| ∨ (|x| = f.largest + f.topStep / 2 ∧ f.maxBits % 2 = 1)
  | .rtz => toward
  | .rup => if neg then toward else away
  | .rdn => if neg then away else toward

/-- The integer a mode rounds a number to (R157, R240, R249). -/
def RMode.Picks (rm : RMode) (x : ℚ) (n : Int) : Prop :=
  match rm with
  | .rne => |(n : ℚ) - x| ≤ 1 / 2 ∧ (|(n : ℚ) - x| = 1 / 2 → n % 2 = 0)
  | .rtz => |(n : ℚ)| ≤ |x| ∧ |x| < |(n : ℚ)| + 1 ∧ 0 ≤ (n : ℚ) * x
  | .rup => x ≤ n ∧ (n : ℚ) < x + 1
  | .rdn => (n : ℚ) ≤ x ∧ x < (n : ℚ) + 1

/-- What an integer of a type is in its register or pair (R151). -/
def placed (t : Ty) (x : Int) : Nat := if t.bits = 64 then (BitVec.ofInt 64 x).toNat else (wrapTo t x).toNat

/-! ### Moves and lane exchanges (R201, R202, R218 to R224) -/

/-- The lane an exchange reads (R219). -/
def Env.srcLane (e : Env) (l : Nat) : Nat :=
  let b := (e.vb.at l).toNat
  match e.cell.opc with
  | 0x50 => b % 32
  | 0x51 => if l < b then l else l - b
  | 0x52 => if 31 < l + b then l else l + b
  | _ => Nat.xor l (b % 32)

/-- What a move or a cross-lane instruction leaves in an active lane of its destination, `old` being what stood there. -/
def Env.MoveSpec (e : Env) (l : Nat) (old r : W32) : Prop :=
  match e.cell.opc with
  | 0x01 => r = e.va.at l
  | 0x02 => r = e.lit32
  | 0x05 => r = if e.pc'.has l then e.va.at l else e.vb.at l
  | 0x06 => (r.toNat < 32 ∧ e.act.has r.toNat = true ∧ e.pa.has r.toNat = true ∧
      ∀ m < r.toNat, ¬ (e.act.has m = true ∧ e.pa.has m = true)) ∨
      (r = 32#32 ∧ ∀ m < 32, ¬ (e.act.has m = true ∧ e.pa.has m = true))
  | 0x47 => r = if e.pa.has l then 1#32 else 0#32
  | 0x54 => r = if e.va.isG && !e.act.has ((e.vb.at l).toNat % 32) then old else e.va.at ((e.vb.at l).toNat % 32)
  | 0x57 => ∀ m < 32, r.getLsbD m = (e.act.has m && e.pa.has m)
  | 0x58 => ∀ m < 32, r.getLsbD m = (e.act.has m && e.va.at m == e.va.at l)
  | 0x59 =>
    let kept (m : Nat) : Bool := e.act.has m && e.pb.has m
    (∃ m < 32, kept m = true ∧ (List.range m).countP kept = l ∧ r = e.va.at m) ∨
      ((List.range 32).countP kept ≤ l ∧ r = 0)
  | _ => r = if e.act.has (e.srcLane l) || !e.va.isG then e.va.at (e.srcLane l) else old

/-- Whether a full issue of a move or a cross-lane instruction gives a result that is not general (R136). -/
def Env.moveU (e : Env) : Bool :=
  match e.cell.opc with
  | 0x01 => !e.va.isG
  | 0x02 | 0x06 | 0x54 | 0x57 => true
  | 0x50 | 0x51 | 0x52 | 0x53 => e.va.isU
  | _ => false

/-! ### Floating-point results (R235 to R253) -/

/-- The exact result of an arithmetic instruction, with the flags of the operation itself (R237, R241). -/
def exactFloat (opc : Nat) (rm : RMode) (a b c : XVal) : XRes :=
  match opc with
  | 0x60 => xadd rm a b
  | 0x61 => xadd rm a b.neg
  | 0x62 => xmul a b
  | 0x63 => xfma rm a b c
  | 0x69 => xdiv a b
  | 0x6A => xsqrt a
  | 0x6B => xrcp a
  | 0x6C => xrsq a
  | 0x70 => xex2 a
  | 0x71 => xlg2 a
  | 0x72 => xsin a
  | 0x73 => xcos a
  | _ => xtanh a

/-- The exact result of one element of a packed pair (R244). -/
def exactPacked (opc : Nat) (rm : RMode) (a b c : XVal) : XRes :=
  match opc with
  | 0x75 | 0x78 => xadd rm a b
  | 0x76 | 0x79 => xmul a b
  | _ => xfma rm a b c

/-- The result and the flags of a floating-point or packing instruction in a lane. -/
def Env.floatRes (e : Env) (l : Nat) : FRes :=
  let a := e.va.at l
  let b := e.vb.at l
  let c := e.vc.at l
  let pair (f : Fmt) : FRes :=
    let r (i : Nat) := rounded f e.rm e.w.satField false (exactPacked e.cell.opc e.rm (half f a i) (half f b i) (half f c i))
    { bits := (r 0).bits + 2 ^ 16 * (r 1).bits, fl := (r 0).fl ||| (r 1).fl }
  match e.cell.opc with
  | 0x68 => frndRes e.rm a
  | 0x75 | 0x76 | 0x77 => pair fmt16
  | 0x78 | 0x79 | 0x7A => pair fmtBf
  | 0x80 => convert (e.w.dty.getD .i32) (e.w.sty.getD .i32) e.rm e.w.satField e.w.nsField (e.cvtSrc (e.w.sty.getD .i32) l)
  | 0x81 => quantise (e.w.dty.getD .q8a) (e.w.sty.getD .f32) e.rm a.toNat b.toNat
  | 0x82 => rounded (fmtOf (e.w.dty.getD .f32)) e.rm e.w.satField false
      (dequant (scaleOf b.toNat) (a.toNat % 2 ^ qBits (e.w.sty.getD .q8a)) (zpOf (e.w.sty.getD .q8a) b.toNat))
  | opc => rounded fmt32 e.rm e.w.satField false (exactFloat opc e.rm (v32 a) (v32 b) (v32 c))

/-- Whether R163 counts a lane's result as non-finite. -/
def Env.nonFin (e : Env) (l : Nat) : Bool :=
  let bits := (e.floatRes l).bits
  match e.cell.opc with
  | 0x75 | 0x76 | 0x77 => nonFinite fmt16 (bits % 2 ^ 16) || nonFinite fmt16 (bits / 2 ^ 16)
  | 0x78 | 0x79 | 0x7A => nonFinite fmtBf (bits % 2 ^ 16) || nonFinite fmtBf (bits / 2 ^ 16)
  | 0x80 => (e.w.dty.getD .i32).isFloat && nonFinite (fmtOf (e.w.dty.getD .i32)) bits
  | 0x81 => false
  | 0x82 => nonFinite (fmtOf (e.w.dty.getD .f32)) bits
  | _ => nonFinite fmt32 bits

/-- TNF is set, and some active lane's result is non-finite (R163, R235). -/
def Env.NonFiniteTrap (e : Env) : Prop := tnf e.co.fpctl = true ∧ ∃ l < 32, e.act.has l = true ∧ e.nonFin l = true

/-- The result is a register pair. -/
def Env.pairResult (e : Env) : Bool := e.cell.opc == 0x80 && (e.w.dty.getD .i32).bits == 64

/-- Bits of a packing instruction (R251 to R253). -/
def PackSpec (opc : Nat) (sub : BitVec 10) (a b r : W32) : Prop :=
  match opc with
  | 0x83 => (∀ i < 24, r.getLsbD i = a.getLsbD (8 * (i / 6) + i % 6)) ∧ byteOf r 3 = 0
  | 0x84 => ∀ i < 32, r.getLsbD i = (decide (i % 8 < 6) && a.getLsbD (6 * (i / 8) + i % 8))
  | 0x85 => if sub.getLsbD 0 then r = b.extractLsb' 0 16 ++ a.extractLsb' 0 16
      else r = (0#16 ++ byteOf b 0 ++ byteOf a 0)
  | _ =>
    let y := byteOf a (sub.toNat % 4)
    r = if sub.getLsbD 2 then y.signExtend 32 else y.setWidth 32

/-- A value in the order of the numbers with the infinities; a NaN has no place in it. -/
def XVal.ext : XVal → WithBot (WithTop ℚ)
  | .nan => ⊥
  | .inf n => if n then ⊥ else ((⊤ : WithTop ℚ) : WithBot (WithTop ℚ))
  | .fin n m e st => (((XVal.fin n m e st).rat : WithTop ℚ) : WithBot (WithTop ℚ))

/-- The conditions of FSET in a lane (R242). -/
def Env.FsetHolds (e : Env) (l : Nat) : Prop :=
  let c := e.w.sub.toNat % 16
  let unordered : Prop := (e.fpA l).isNan = true ∨ (e.fpB l).isNan = true
  let rel (k : Nat) : Prop := condHolds k (e.fpA l).ext (e.fpB l).ext
  if c < 6 then ¬ unordered ∧ rel c else if c = 6 then ¬ unordered else if c = 7 then unordered else unordered ∨ rel (c - 8)

/-- The bit of FCLS's mask that a value of a format has (R243). -/
def classBit (f : Fmt) (x : XVal) : Nat :=
  match x with
  | .nan => 8
  | .inf n => if n then 0 else 7
  | .fin n m _ _ =>
    if m = 0 then (if n then 3 else 4)
    else if |x.rat| < (2 : ℚ) ^ f.emin then (if n then 2 else 5)
    else (if n then 1 else 6)

/-- What FMIN (`least`) or FMAX makes of two operands (R238). -/
def PickSpec (least : Bool) (a b r : W32) : Prop :=
  if (v32 a).isNan then (if (v32 b).isNan then r = 0x7FC00000#32 else r = b)
  else if (v32 b).isNan then r = a
  else
    (r = a ∨ r = b) ∧
    (if least then (v32 r).ext ≤ (v32 a).ext ∧ (v32 r).ext ≤ (v32 b).ext
     else (v32 a).ext ≤ (v32 r).ext ∧ (v32 b).ext ≤ (v32 r).ext) ∧
    ((v32 a).ext = (v32 b).ext → r.getLsbD 31 = if least then a.getLsbD 31 || b.getLsbD 31 else a.getLsbD 31 && b.getLsbD 31)

/-! ### Memory by lane (R84, R254 to R263) -/

/-- The word a load of a type places in register `k` of its destination, its bytes in ascending address (R5, R255). -/
def loadWord (t : Ty) (byte : Nat → Byte) (k : Nat) : W32 :=
  match t.bits with
  | 8 => if t.signed then (byte 0).signExtend 32 else (byte 0).setWidth 32
  | 16 => if t.signed then (byte 1 ++ byte 0).signExtend 32 else (byte 1 ++ byte 0).setWidth 32
  | _ => byte (4 * k + 3) ++ byte (4 * k + 2) ++ byte (4 * k + 1) ++ byte (4 * k)

/-- Byte `j` of the data a store takes from the register or run at `n` in a lane. -/
def dataByte (co : Cohort) (n l j : Nat) : Byte := if n = zv then 0 else byteOf ((co.v (n + j / 4)).at l) (j % 4)

/-- Every active lane's address is a multiple of the access's width (R84). -/
def Env.Aligned (e : Env) (addr : Nat → Nat) : Prop := ∀ l < 32, e.act.has l = true → addr l % e.ty.bytes = 0

/-- Every active lane's device address translates, to `x` (R256, R353). -/
def Env.Translates (e : Env) (acc : Access) (x : Nat → Xlat) : Prop :=
  ∀ l < 32, e.act.has l = true → e.s.translate (e.s.coreTlbs e.core) e.blk.vf (e.devAddr l) acc = .ok (x l)

/-- No active lane reads a poisoned line (R388). -/
def Env.Clean (e : Env) (x : Nat → Xlat) : Prop := ∀ l < 32, e.act.has l = true → e.s.poisoned (x l).pa = false

/-- The device physical byte `a` is one of the `n` bytes that an active lane's access takes. -/
def Env.Takes (e : Env) (x : Nat → Xlat) (n a : Nat) : Prop := ∃ l < 32, e.act.has l = true ∧ (x l).pa ≤ a ∧ a < (x l).pa + n

/-- No active lane above lane `l` takes byte `a`. -/
def Env.LastTo (e : Env) (addr : Nat → Nat) (n l a : Nat) : Prop :=
  ∀ k < 32, l < k → e.act.has k = true → a < addr k ∨ addr k + n ≤ a

/-- The accesses of two active lanes have no byte in common. -/
def Env.Apart (e : Env) (addr : Nat → Nat) (n : Nat) : Prop :=
  ∀ k < 32, ∀ l < 32, k ≠ l → e.act.has k = true → e.act.has l = true → addr k + n ≤ addr l ∨ addr l + n ≤ addr k

/-- The registers of a load's destination. -/
def Env.loadRegs (e : Env) : List Nat := (List.range (regsOf e.ty.bytes)).map (e.w.d.toNat + ·)

/-- The destination of a load takes a general result. -/
def Env.loadTakes (e : Env) : Prop := e.w.d.toNat = zv ∨ e.w.d.toNat < 256

/-- A BAR instruction's object operand passes its checks and names the object at `off` of the block `b`, numbered `bi` (R95,
R105, R266). -/
structure Env.BarReady (e : Env) (bi : Nat) (b : Block) (off : Nat) : Prop where
  uniform : e.va.isU = true
  aligned : (e.va.at 0).toNat % 16 = 0
  bound   : e.w.peer = false → (e.va.at 0).toNat + 16 ≤ e.blk.aspBound
  gang    : e.w.peer = true → e.blk.member.isSome = true ∧ e.peerBad (e.va.at 0) 16 = false
  target  : e.barTarget = (some (bi, b), off)
  there   : e.s.block bi = some b

/-- One step of a chain of fused multiply-adds in FP32 (R167). -/
def fmaF32X (a b : XVal) (acc : W32) : W32 := roundF32 (xfma .rne a b (v32 acc)).1

/-- The new value of an element, from the old one, the operand and the replacement (R110, R263), by major opcode of an atomic
or a reduction. -/
def updated (opc : Nat) (t : Ty) (old b c : Nat) : Nat :=
  match opc with
  | 0xA0 | 0xB0 => (old + b) % 2 ^ t.bits
  | 0xA1 | 0xB1 => (addF32 (BitVec.ofNat 32 old) (BitVec.ofNat 32 b)).toNat
  | 0xA2 | 0xB2 => if readInt t b < readInt t old then b else old
  | 0xA3 | 0xB3 => if readInt t old < readInt t b then b else old
  | 0xA4 | 0xB4 => old &&& b
  | 0xA5 | 0xB5 => old ||| b
  | 0xA6 | 0xB6 => old ^^^ b
  | 0xA7 => b
  | _ => if old = b then c else old

/-- The number in `n` bytes of device memory, as the cohort's VF reads it. -/
def State.number (s : State) (key pa n : Nat) : Nat := leNat ((List.range n).map (fun j => s.physByte key (pa + j)))

/-- The number in the data of a lane. -/
def Env.dataNumber (e : Env) (n l : Nat) : Nat := leNat ((List.range e.ty.bytes).map (dataByte e.co n l))

/-- The issue with another transaction in the cohort. -/
def Env.withTx (e : Env) (t : Option Tx) : Env := { e with co := { e.co with tx := t } }

/-- The price can be paid at once (R41, R42). -/
def Env.canPay (e : Env) (price : Nat) : Prop :=
  price = 0 ∨ (e.s.firstInLine e.slot e.co e.pc = true ∧ price ≤ (e.s.core e.core).wallet)

/-! ### Operands of the matrix engine (R289, R293, R294) -/

/-- The metadata byte of a group of a row of MMAS's A. -/
def MatOp.metaOf (m : MatOp) (i g : Nat) : Nat := metaByte (fun r l => m.mdata.getD (32 * r + l) 0) i g

/-- A dense position of a row takes part: for MMAS only those that the metadata keeps. -/
def MatOp.keeps (m : MatOp) (i x : Nat) : Bool := m.opc != 0xEE || Nat.testBit (m.metaOf i (x / 8)) (x % 8)

/-- The element of A at a dense position of a row: of MMAG from the operand latch, of MMAS at its place among those that are kept. -/
def State.aElem (s : State) (b : Block) (m : MatOp) (i x : Nat) : Nat :=
  let d := Dsc.of m.da
  let r := rowsA m.fmt (kTotal m.fmt m.passes) (m.opc == 0xEE) (m.opc == 0xED)
  let eb := elemBytes m.fmt
  if m.opc = 0xED then leNat ((m.latch.drop (i * r.len + x * eb)).take eb)
  else
    let y := if m.opc = 0xEE then 4 * (x / 8) + popByte (m.metaOf i (x / 8) % 2 ^ (x % 8)) else x
    leNat (s.dscRead b d (i * d.stride r + y * eb) eb)

/-- The element of B at a position along K and a column; of .q4a a nibble of the column's row, the low one first. -/
def State.bElem (s : State) (b : Block) (m : MatOp) (x j : Nat) : Nat :=
  let d := Dsc.of m.db
  let r := rowsB m.fmt (kTotal m.fmt m.passes) m.grp
  let eb := elemBytes m.fmt
  if m.fmt = .q4a then leNat (s.dscRead b d (j * d.stride r + x / 2) 1) / 16 ^ (x % 2) % 16
  else leNat (s.dscRead b d (x * d.stride r + j * eb) eb)

/-- The scale entry of a column's group of .q4a. -/
def State.scaleEntry (s : State) (b : Block) (m : MatOp) (j g : Nat) : Nat :=
  let k := kTotal m.fmt m.passes
  let d := Dsc.of m.db
  leNat (s.dscRead b d (128 * d.stride (rowsB m.fmt k m.grp) + 4 * (j * (k / groupOf m.grp) + g)) 4)

/-! ### Regrouping (R32 to R34) -/

/-- What REGROUP finds of a block: a table of cohorts that names each slot once (O5); the block's slots and its resident cohorts name
one another; every cohort has 32 lanes, at most 256 general registers, no lane deeper than its eight entries, and, where a lane lives,
the registers of its slice. -/
structure State.BlockOk (s : State) (bi : Nat) (b : Block) : Prop where
  here   : s.block bi = some b
  keys   : s.cohorts.wf = true
  seated : ∀ k sl, b.slots.getD k none = some sl → ∃ co, s.cohort sl = some co ∧ co.blk = bi ∧ co.cohid = k
  listed : ∀ sl co, s.cohort sl = some co → co.blk = bi → b.slots.getD co.cohid none = some sl
  shape  : ∀ sl co, s.cohort sl = some co → co.blk = bi → co.lanes.length = 32 ∧ co.g ≤ 256 ∧ ∀ l < 32,
    (co.lane l).depth ≤ 8 ∧ (co.live.has l = true → co.slices.getLsbD (l / 8) = true)

/-- A lane that has not exited stands at a position of a block. -/
def State.LivesAt (s : State) (bi : Nat) (x : Seat) : Prop :=
  ∃ co, s.cohort x.slot = some co ∧ co.blk = bi ∧ co.cohid = x.cohid ∧ x.lane < 32 ∧ co.live.has x.lane = true

/-- The lane that stood at position `x` of a block in `s` stands in `t` in lane `l` of slot `k`, at the offset `next`, with its MR,
meet stack and TID, V0 to V(G-1) and P1 to P95 (R33). -/
def State.Moved (s t : State) (x : Seat) (next : W32) (k l : Nat) : Prop :=
  ∃ co, t.cohort k = some co ∧ co.live.has l = true ∧ co.lane l = { s.laneOf x with pc := next, waitj := none } ∧
    (∀ r < co.g, (co.v r).at l = s.regAt x r) ∧ ∀ n, 1 ≤ n → n ≤ 95 → (co.p n).has l = s.predAt x n

/-- What a move leaves of a block's cohorts as it was: the joins, descriptors, FPCTL, allocation and narrow names stay with the
cohort; cohorts of other blocks, the other blocks and everything else of the part do not change (R33). -/
structure State.MoveFrame (s t : State) (bi : Nat) (b b' : Block) : Prop where
  block  : t.block bi = some b' ∧ b' = { b with coll := none, table := b'.table }
  blocks : ∀ k, k ≠ bi → t.block k = s.block k
  rest   : { t with cohorts := s.cohorts, blocks := s.blocks } = s
  others : ∀ k co, s.cohort k = some co → co.blk ≠ bi → t.cohort k = some co
  kept   : ∀ k co, s.cohort k = some co → co.blk = bi → ∃ co', t.cohort k = some co' ∧ co'.blk = bi ∧ co'.cohid = co.cohid ∧
    co'.joins = co.joins ∧ co'.descs = co.descs ∧ co'.fpctl = co.fpctl ∧ co'.g = co.g ∧ ∀ n, 256 ≤ n → co'.v n = co.v n

/-- What posting an operation changes of the issuing cohort, which becomes `co`: the counter of its class rises by one, the
group goes on, and no register or predicate changes (R125, R41). -/
structure Env.Posted (e : Env) (t : State) (co : Cohort) (cls : Nat) : Prop where
  here  : t.cohort e.slot = some co
  lanes : e.MovedOn co
  regs  : ∀ n, co.v n = e.co.v n
  preds : ∀ n, co.p n = e.co.p n
  count : co.ocCount cls = e.co.ocCount cls + 1
  mem   : ∀ key a, t.physByte key a = e.s.physByte key a

/-! ### Packets and launch records (R328, R330, R332 to R335) -/

/-- Every page that the `n` bytes at `va` touch translates for an access of the front end. -/
def State.Maps (s : State) (vf : Nat) (va : W64) (n : Nat) (acc : Access) : Prop :=
  ∀ k < n, k = 0 ∨ (va.toNat + k) % 4096 = 0 → ∃ x, s.translate [] vf (va + BitVec.ofNat 64 k) acc = .ok x

/-- The bytes `lo` to `hi` − 1 are zero. -/
def ZeroBytes (bs : List Byte) (lo hi : Nat) : Prop := ∀ k, lo ≤ k → k < hi → bs.getD k 0 = 0

/-- A packet whose reserved bits and bytes are zero and whose LEN and fields are within their limits (R328). -/
def PacketOk (bs : List Byte) : Prop :=
  let h := fld bs 0 8
  let kind := h % 256
  let len := h / 2 ^ 8 % 2 ^ 16
  h / 2 ^ 49 = 0 ∧ h / 2 ^ 24 % 2 ^ 8 = 0 ∧ 1 ≤ len ∧ (kind ≠ 0 → len = 1) ∧
  (kind = 1 → fld bs 8 8 % 64 = 0 ∧ fld bs 16 8 % 64 = 0 ∧ fld bs 24 1 ≤ 3 ∧ ZeroBytes bs 25 28 ∧ ZeroBytes bs 32 64) ∧
  (kind = 2 → fld bs 8 8 % 8 = 0 ∧ fld bs 32 1 ≤ 3 ∧ ZeroBytes bs 33 64) ∧
  (kind = 3 → fld bs 8 8 % 8 = 0 ∧ fld bs 24 1 ≤ 1 ∧ ZeroBytes bs 25 64) ∧
  (kind = 4 → ZeroBytes bs 8 64) ∧
  (kind = 5 → fld bs 8 1 ≤ 1 ∧ fld bs 12 4 ≤ 63 ∧ ZeroBytes bs 9 12 ∧ ZeroBytes bs 16 64)

/-- The addresses that a packet names translate: of a LAUNCH its record with the kernel table, and its completion record (R330). -/
def State.NamesMap (s : State) (vf : Nat) (bs : List Byte) : Prop :=
  let va (o : Nat) : W64 := BitVec.ofNat 64 (fld bs o 8)
  (fld bs 0 1 = 1 → ∃ r, s.vmRead [] vf (va 8) 0x80 = .ok r ∧
    s.Maps vf (va 8) (0x80 + 64 * min (fld r 0x48 4) 65536) .read ∧ s.Maps vf (va 16) 64 .write) ∧
  (fld bs 0 1 = 2 → s.Maps vf (va 8) 8 .read) ∧
  (fld bs 0 1 = 3 → s.Maps vf (va 8) 8 (if fld bs 24 1 = 1 then .rmw else .write))

/-- The 128 bytes `r` of a launch record keep the limits of R49 and R332, and the packet's SWAPQ its own (R328). -/
def RecordOk (l : Launch) (r : List Byte) : Prop :=
  let f := fld r
  f 0x0C 4 / 32 = 0 ∧ ZeroBytes r 0x29 0x2C ∧ ZeroBytes r 0x4C 0x50 ∧ ZeroBytes r 0x60 0x80 ∧
  f 0x0C 4 % 4 ≠ 3 ∧ f 0x18 8 % 4096 = 0 ∧ f 0x20 8 % 4096 = 0 ∧ 1 ≤ f 0x28 1 ∧ f 0x28 1 ≤ 255 ∧
  64 ≤ f 0x2C 4 ∧ f 0x2C 4 ≤ 65536 ∧ f 0x2C 4 % 64 = 0 ∧ f 0x16 2 ≤ 4096 ∧ f 0x16 2 % 4 = 0 ∧
  f 0x44 4 ≤ 262144 ∧ f 0x44 4 % 4096 = 0 ∧ 1 ≤ f 0x48 4 ∧ f 0x48 4 ≤ 65536 ∧ f 0x50 8 % 4096 = 0 ∧
  (f 0x0C 4 / 16 % 2 = 1 → 1 ≤ l.swapq) ∧
  (f 0x0C 4 / 4 % 2 = 0 → f 0 8 % 64 = 0 ∧ 1 ≤ f 8 4 ∧ f 8 4 ≤ 0xFFFFFFFE) ∧
  (f 0x0C 4 / 4 % 2 = 1 → 1 ≤ f 0x10 4 ∧ f 0x10 4 ≤ 16777215 ∧ 1 ≤ f 0x14 2 ∧ f 0x14 2 ≤ 1024)

/-- The kernel-table entries that the launch of a record can name (R335). -/
def MayName (r : List Byte) (k : Nat) : Prop :=
  if fld r 0x0C 4 / 4 % 2 = 0 then k < fld r 0x48 4
  else match fld r 0x0C 4 % 4 with
    | 0 => k = 0
    | 1 => k = 1
    | _ => k = 0 ∨ k = 1

/-- The 64 bytes of a kernel-table entry keep the limits of R131, R314 and R333. -/
def EntryOk (bs : List Byte) : Prop :=
  let f := fld bs
  ZeroBytes bs 17 20 ∧ ZeroBytes bs 32 64 ∧ f 0 8 % 4 = 0 ∧ 4 ≤ f 8 4 ∧ f 8 4 ≤ 16777216 ∧ f 8 4 % 4 = 0 ∧
  8 ≤ f 12 2 ∧ f 12 2 ≤ 256 ∧ f 12 2 % 8 = 0 ∧ f 14 2 ≤ 1280 ∧ f 14 2 % 8 = 0 ∧ f 16 1 ≤ 24 ∧
  f 20 4 ≤ 4194304 + 16 * 4096 ∧ f 24 4 ≤ 2097152 ∧ (f 28 4 = 0xFFFFFFFF ∨ (f 28 4 % 4 = 0 ∧ f 28 4 < f 8 4))

end Machine

end Sys2Proof
end

