-- ==== Sys2Proof/Certificates/Slice0/Obligations.lean ====
section
/-! DEFINITION. The statements about the model, for the provers. OBLIGATIONS.json gives each its kind, its tier and the rules
of spec/ it rests on. -/

open Sys2Proof Sys2Proof.Machine

/-! ### Words (spec/08_formats_opcode_map.md) -/

/-- O1. Words of the worked code image and of the table of sample words, in bytes from the lowest address, decode to the
instructions they stand for. -/
def Obligations.WrittenWordsDecode : Prop :=
  decode [0x0C, 0, 0, 0] = .ok (.gets { gn := false, gp := 0, d := 0, a := 0, b := 0, lit := none }) 4 ∧
  decode [0x80, 0x40, 0, 0] = .ok (.iadd { gn := false, gp := 0, d := 1, a := 0, b := 0, lit := none }) 4 ∧
  decode [0x42, 0x24, 0, 0, 0x4C, 0, 0, 0, 0, 0, 0, 0] =
    .ok (.bra { gn := true, gp := 1, d := 0, a := 0, b := 0, lit := some 0x4C }) 12 ∧
  decode [0x0B, 0, 0, 0, 0, 1, 0, 0, 0, 0, 0, 0, 0x10, 0, 0, 0, 0, 0, 0, 0] =
    .ok (.movlExt { fmt := 0, sub := 0, gn := false, gp := 0, moda := 0, a := 0, d := 256, modb := 0, ru := 0, c := 0, b := 0,
                    lit := some 0x10 }) 20 ∧
  decode [0x01, 0x01, 0x08, 0x70, 1, 0, 0, 0, 0, 1, 0, 0] =
    .ok (.isetExt { fmt := 7, sub := 2, gn := false, gp := 0, moda := 0, a := 0, d := 1, modb := 0, ru := 0, c := 0, b := 256,
                    lit := none }) 12 ∧
  decode [0xE4, 0x03, 0, 0] = .ok (.hint 0xF9 { gn := false, gp := 0, d := 0, a := 0, b := 0, lit := none }) 4 ∧
  decode [0, 0, 0, 0] = .refused .reservedCell ∧ decode [0x90, 0, 0, 0] = .refused .badLen ∧
  decode [0x01, 0, 0, 0, 0, 0, 0] = .refused .truncated

/-- O2. Decoding what the encoder writes of a well-formed instruction that has a word gives the instruction back, whatever bytes
follow it. The other direction: the bytes an instruction was decoded from are the bytes the encoder writes of it, so that no
bit of a word is dropped. -/
def Obligations.EncodingRoundTrips : Prop :=
  (∀ (i : Instr) (rest : List Byte), i.WellFormed → i.word ≠ none → decode (encode i ++ rest) = .ok i i.size) ∧
  (∀ (bs : List Byte) (i : Instr) (n : Nat), decode bs = .ok i n → i.size = n ∧ encode i = bs.take n)

/-- O3. A word of a reserved cell, and a word whose LEN its cell does not allow, is no instruction; when a group issues at one, it
raises ILLEGAL with PC at word 0 (R188, R190). That the lanes named are the whole group, whatever the guard, is the model's
reading (log 6, DEDUCED). The rows that stand for words that are no instruction: a reserved encoding, and a word past the code
size, raise ILLEGAL over the group with PC at word 0; a fetch that fails translation parks the cohort with PC at the
instruction (R172, R190, R353). -/
def Obligations.ReservedWordsTrap : Prop :=
  ((∀ (bs : List Byte) (r : RawWord) (opc : BitVec 8) (x : Bool) (lit : Bool), rawWord bs = some r →
     (match r with
      | .base o w => o = opc ∧ x = false ∧ lit = w.lit.isSome
      | .ext o w => o = opc ∧ x = true ∧ lit = w.lit.isSome) → isHint opc.toNat = false →
     (cellOf opc.toNat = none → decode bs = .refused .reservedCell) ∧
     (∀ c, cellOf opc.toNat = some c → c.lenOk x lit = false → decode bs = .refused .badLen)) ∧
   ∀ (s : State) (x : Issuer) (bs : List Byte) (why : DecodeRefusal), s.issuer = some x → s.fetch x = .ok bs →
     decode bs = .refused why →
     s.issueHere = .next ((s.takeTrap x.slot x.group x.pc { code := 1, mask := x.group }).mark false)) ∧
  (∀ (s : State) (x : Issuer), s.issuer = some x →
     let trapped := (s.takeTrap x.slot x.group x.pc { code := 1, mask := x.group }).mark false
     exec .illegalEncoding s = .next trapped ∧
     (s.fetch x = .pastEnd → exec (.fetchFault .pastEnd) s = .next trapped) ∧
     ∀ va err, s.fetch x = .fault va err →
       ∃ t co r, exec (.fetchFault .translation) s = .next t ∧ t.cohort x.slot = some co ∧
         (x.co.park = none → co.park = some r ∧ r.code = err.code ∧ r.cls = 2 ∧ r.pc = x.pc ∧ r.mask = x.group ∧ r.addr = va))

/-! ### Steps -/

/-- O4. A step runs the decoded instruction: in a clock of a quarter whose first candidate is the cohort in `slot`, whose first
group to try is `g`, and at whose PC the fetched bytes decode to `i`, the step is exec of `i` in the state with the cursor at
that group. Afterwards the cohort has issued in this clock; the candidates after it, `rest`, have had their turn without
issuing; and the accesses to the meet extensions of the quarter's cohorts follow. The group that issues: when the cursor names
a cohort with a running lane and the fetched bytes decode to an instruction, the issue is exec of that instruction (R172,
R192). -/
def Obligations.StepRunsDecodedInstruction : Prop :=
  (∀ (s s1 s2 s3 t : State) (core q : Nat) (switch : Bool) (slot : Nat) (rest : List Nat) (co : Cohort) (g : Mask)
     (others : List Mask)
     (x : Issuer) (bs : List Byte) (i : Instr) (n : Nat),
     s.nextAction = (.quarter core q switch, s1) → core < 64 → q < 4 → s1.coreRuns core = true →
     s2 = s1.prepare core q → s2.candidates core q = slot :: rest → s2.cohort slot = some co → co.vglimit = [] →
     co.groupOrder switch = g :: others → s3 = s2.choose slot g → s3.issuer = some x → s3.fetch x = .ok bs →
     decode bs = .ok i n → exec i s3 = .next t → t.cur.waited = false →
     step s = closeClock (s1.quarterCohorts core q)
       ((t.updCohort slot (fun co => { co with idle := 0, aged := none })).serve switch true rest)) ∧
  (∀ (s : State) (x : Issuer) (bs : List Byte) (i : Instr) (n : Nat), s.issuer = some x → s.fetch x = .ok bs →
     decode bs = .ok i n → s.issueHere = exec i s)

/-- O5. In a state whose table of cohorts names each slot once, every step answers a next state, whose table again names each slot
once: no run of the model from such a state ends in a fault or a refusal. -/
def Obligations.EveryStepGoesOn : Prop :=
  ∀ s : State, s.cohorts.wf = true → ∃ t, step s = .next t ∧ t.cohorts.wf = true

/-- O6. Every step keeps the stores in their canonical form: device memory, and every core's scratchpad and weight buffer. -/
def Obligations.StepKeepsStores : Prop := ∀ s t : State, s.storesOk → step s = .next t → t.storesOk

/-- O7. After reset the stores are in their canonical form, nothing is resident, no VF is current, and Grotto is in BOOT. -/
def Obligations.ResetState : Prop :=
  State.reset.storesOk ∧ State.reset.cohorts = [] ∧ State.reset.blocks = [] ∧ State.reset.curVf = none ∧
  State.reset.released = false ∧ State.reset.grotto.mbstate = .boot ∧
  (∀ v, (State.reset.vf v).state = .idle ∧ (State.reset.vf v).seq = 1 ∧ (State.reset.vf v).quantum = 0) ∧
  (∀ d, (State.reset.die d).rate = 0x1000 ∧ (State.reset.die d).temg = 105 ∧ (State.reset.die d).tthr = 95 ∧
    (State.reset.die d).tboost = 85 ∧ (State.reset.die d).pool = 64) ∧
  ∀ c, (State.reset.core c).wallet = 0 ∧ (State.reset.core c).cycle = 0

/-! ### The checks every instruction makes (R192) -/

/-- O8. An instruction whose fields its cell does not assign, or whose names exceed the block's allocations, raises ILLEGAL and
writes nothing else (R132, R190, R192). That it is raised over the PC-group whatever the guard is the model's reading (log 6,
DEDUCED). With no active lane an instruction completes with no effect: it writes nothing, posts nothing and pays nothing. An
instruction that names a register an asynchronous operation of its cohort has still to write waits and has not issued: no lane
moves and no register changes (R145, R194). A general result bound for a narrow name raises SHAPE over the active lanes, and
nothing is written (R137): for the instructions that write a V register, under a partial issue, whose result is always general
(R135), and under a full issue where the propagation table makes the result general (R136, R140, R197); for the loads, TRD and
the atomics under any issue. Two things are the model's choice: that this SHAPE comes before the other checks of step 6 (log 10, DEDUCED), so of
CALLX's target, of WALLET's and BOOST's ranges, of a load's alignment and of BAR.ARR's object; and that a BCAST to a narrow name
under a partial issue raises it also where its general source lane is not active (log 76, DESIGN CHOICE). -/
def Obligations.ChecksAtIssue : Prop :=
  (∀ (s : State) (i : Instr) (e : Env), s.envFor i = some e → (¬ i.WellFormed ∨ e.namesOk = false) →
     exec i s = .next (e.traps { code := 1, mask := e.group })) ∧
  (∀ (s : State) (i : Instr) (e : Env), s.envFor i = some e → i.WellFormed → e.namesOk = true → e.act = 0 →
     exec i s = .next (e.completes s) ∧ ∃ co, e.RegisterFrame (e.completes s) co [] [] ∧ co.fpctl = e.co.fpctl) ∧
  (∀ (s : State) (i : Instr) (e : Env), s.envFor i = some e → i.WellFormed → e.namesOk = true → e.act ≠ 0 →
     e.held = true → ∃ t co, exec i s = .next t ∧ t.cur.waited = true ∧ t.cohort e.slot = some co ∧
       co = { e.co with waits := co.waits } ∧ (co.waitAt e.pc).isSome = true ∧ (∀ k, k ≠ e.slot → t.cohort k = s.cohort k) ∧
       { t with cohorts := s.cohorts, cur := s.cur, nextId := s.nextId } = s) ∧
  (∀ (s : State) (i : Instr) (e : Env), s.Passes i e →
     e.cell ∈ [Cells.mov, Cells.movl, Cells.gets, Cells.sel, Cells.laneof, Cells.iadd, Cells.isub, Cells.imul, Cells.imulh,
       Cells.imad, Cells.idiv, Cells.irem, Cells.imin, Cells.imax, Cells.iabs, Cells.ineg, Cells.iadd64, Cells.imad64, Cells.lea,
       Cells.lea64, Cells.and, Cells.or, Cells.xor, Cells.not, Cells.andn, Cells.shl, Cells.shr, Cells.sar, Cells.rot, Cells.popc,
       Cells.clz, Cells.ctz, Cells.brev, Cells.bfe, Cells.bfi, Cells.permb, Cells.ptov, Cells.lxchIdx, Cells.lxchUp,
       Cells.lxchDown, Cells.lxchXor, Cells.bcast, Cells.voteBal, Cells.matchLanes, Cells.lcomp, Cells.call, Cells.callx, Cells.wallet,
       Cells.boost, Cells.fadd, Cells.fsub, Cells.fmul, Cells.ffma,
       Cells.fmin, Cells.fmax, Cells.fabs, Cells.fneg, Cells.frnd, Cells.fdiv, Cells.fsqrt, Cells.frcp, Cells.frsq, Cells.fex2,
       Cells.flg2, Cells.fsin, Cells.fcos, Cells.ftanh, Cells.phadd, Cells.phmul, Cells.phfma, Cells.pbadd, Cells.pbmul,
       Cells.pbfma, Cells.cvt, Cells.qnt, Cells.dqnt, Cells.pk6, Cells.upk6, Cells.pkb, Cells.upkb, Cells.rdwp, Cells.permits,
       Cells.cycle, Cells.dget] →
     e.narrow → e.full = false → exec i s = .next (e.traps { code := 2, mask := e.act })) ∧
  (∀ (s : State) (i : Instr) (e : Env), s.Passes i e → e.narrow →
     (e.cell = Cells.barArr → e.full = false → (e.w.peer = true → e.blk.member.isSome = true ∧ e.surr = false) →
       exec i s = .next (e.traps { code := 2, mask := e.act })) ∧
     (e.cell ∈ [Cells.ld, Cells.ldq, Cells.lds, Cells.ldw, Cells.ldsPeer, Cells.atomAdd, Cells.atomFadd, Cells.atomMin, Cells.atomMax,
        Cells.atomAnd, Cells.atomOr, Cells.atomXor, Cells.atomXchg, Cells.atomCas, Cells.trd] →
       (e.cell ∈ [Cells.lds, Cells.ldw, Cells.ldsPeer, Cells.trd] ∨ (e.cell ∈ [Cells.ld, Cells.ldq] ∧ e.w.ord = 0) ∨ e.buffered = false) →
       (e.cell = Cells.ldsPeer → e.blk.member.isSome = true) → exec i s = .next (e.traps { code := 2, mask := e.act }))) ∧
  ∀ (s : State) (i : Instr) (e : Env), s.Passes i e → e.narrow → e.full = true →
    let pairB : Bool := e.litIn .b || e.co.pairU e.w.b.toNat
    let pairC : Bool := e.litIn .c || e.co.pairU e.w.c.toNat
    (e.cell ∈ [Cells.sel, Cells.ptov, Cells.matchLanes, Cells.lcomp] ∨
     (e.cell = Cells.gets ∧ (e.w.a.toNat = 27 ∨ (e.w.a.toNat < 2 ∧ e.blk.table.isSome = true))) ∨
     (e.cell ∈ [Cells.mov, Cells.ineg] ∧ e.va.isG = true) ∨
     (e.cell ∈ [Cells.iadd, Cells.isub, Cells.lea, Cells.imul, Cells.shl] ∧ (e.va.isG = true ∨ e.vb.isG = true)) ∨
     (e.cell = Cells.imul ∧ e.va.isU = false ∧ e.vb.isU = false) ∨ (e.cell = Cells.shl ∧ e.vb.isU = false) ∨
     (e.cell = Cells.imad ∧ (e.va.isG = true ∨ e.vb.isG = true ∨ e.vc.isG = true ∨ (e.va.isU = false ∧ e.vb.isU = false))) ∨
     ((e.ty.bits ≠ 32 ∨ e.w.satField = true) ∧
       ((e.cell ∈ [Cells.iadd, Cells.isub, Cells.imul] ∧ (e.va.isU = false ∨ e.vb.isU = false)) ∨
        (e.cell = Cells.imad ∧ (e.va.isU = false ∨ e.vb.isU = false ∨ e.vc.isU = false)) ∨
        (e.cell = Cells.ineg ∧ e.va.isU = false))) ∨
     (e.cell ∈ [Cells.iabs, Cells.not, Cells.popc, Cells.clz, Cells.ctz, Cells.brev, Cells.lxchIdx, Cells.lxchUp, Cells.lxchDown,
        Cells.lxchXor, Cells.fabs, Cells.fneg, Cells.frnd, Cells.fsqrt, Cells.frcp, Cells.frsq, Cells.fex2, Cells.flg2, Cells.fsin,
        Cells.fcos, Cells.ftanh, Cells.pk6, Cells.upk6, Cells.upkb] ∧ e.va.isU = false) ∨
     (e.cell ∈ [Cells.imulh, Cells.idiv, Cells.irem, Cells.imin, Cells.imax, Cells.and, Cells.or, Cells.xor, Cells.andn, Cells.shr,
        Cells.sar, Cells.rot, Cells.fadd, Cells.fsub, Cells.fmul, Cells.fmin, Cells.fmax, Cells.fdiv, Cells.phadd, Cells.phmul,
        Cells.pbadd, Cells.pbmul, Cells.qnt, Cells.dqnt, Cells.pkb] ∧ (e.va.isU = false ∨ e.vb.isU = false)) ∨
     (e.cell ∈ [Cells.bfe, Cells.bfi, Cells.permb, Cells.ffma, Cells.phfma, Cells.pbfma] ∧
        (e.va.isU = false ∨ e.vb.isU = false ∨ e.vc.isU = false)) ∨
     (e.cell = Cells.iadd64 ∧ (e.co.pairU e.w.a.toNat = false ∨ pairB = false)) ∨
     (e.cell = Cells.imad64 ∧ (e.va.isU = false ∨ e.vb.isU = false ∨ pairC = false)) ∨
     (e.cell = Cells.lea64 ∧ (e.co.pairU e.w.a.toNat = false ∨ e.vb.isU = false)) ∨
     (e.cell = Cells.cvt ∧ ∃ f, e.w.sty = some f ∧ if f.bits = 64 then e.co.pairU e.w.a.toNat = false else e.va.isU = false)) →
    exec i s = .next (e.traps { code := 2, mask := e.act })

/-! ### Integers (spec/09_isa_integer_control.md) -/

/-- O9. Integer arithmetic: in each active lane Vd holds the exact result of R206, wrapped to the type or clamped under .sat,
extended to 32 bits; SAT is set exactly when a clamp changes a value; nothing else changes. -/
def Obligations.IntegerArithmetic : Prop :=
  ∀ (s : State) (i : Instr) (e : Env), s.Passes i e →
    e.cell ∈ [Cells.iadd, Cells.isub, Cells.imul, Cells.imulh, Cells.imad, Cells.idiv, Cells.irem, Cells.imin, Cells.imax,
      Cells.iabs, Cells.ineg] →
    e.destTakes e.sourcesU →
    ∃ t co, exec i s = .next t ∧ e.RegisterFrame t co [e.w.d.toNat] [] ∧
      ((∃ l < 32, e.act.has l = true ∧ e.clamps l) → co.fpctl = e.co.fpctl ||| 0x20#32) ∧
      ((∀ l < 32, e.act.has l = true → ¬ e.clamps l) → co.fpctl = e.co.fpctl) ∧
      ∀ l < 32, e.act.has l = true → e.w.d.toNat ≠ zv →
        (co.v e.w.d.toNat).at l =
          if e.w.satField then BitVec.ofInt 32 (max (leastOf e.ty) (min (greatestOf e.ty) (e.exact l)))
          else wrapTo e.ty (e.exact l)

/-- O10. LEA, and the instructions on register pairs: Wrap to 32 or 64 bits of the sum, the index of LEA and LEA64 scaled by 2^SH,
the 32-bit operands of IMAD64 and LEA64 extended by their type (R207, R209). -/
def Obligations.AddressAndPairArithmetic : Prop :=
  ∀ (s : State) (i : Instr) (e : Env), s.Passes i e → e.cell ∈ [Cells.lea, Cells.iadd64, Cells.imad64, Cells.lea64] →
    e.destTakes e.sourcesU →
    let d := e.w.d.toNat
    let ext (x : W32) : W64 := if e.ty.signed then x.signExtend 64 else x.setWidth 64
    ∃ t co, exec i s = .next t ∧ e.RegisterFrame t co [d, d + 1] [] ∧ co.fpctl = e.co.fpctl ∧
      (e.cell = Cells.lea → co.v (d + 1) = e.co.v (d + 1)) ∧
      ∀ l < 32, e.act.has l = true → d ≠ zv →
        (e.cell = Cells.lea → (co.v d).at l = e.va.at l + (e.vb.at l <<< (e.w.sub.toNat % 8))) ∧
        (e.cell = Cells.iadd64 → co.v64 d l = e.a64 l + e.b64 l) ∧
        (e.cell = Cells.imad64 → co.v64 d l = ext (e.va.at l) * ext (e.vb.at l) + e.c64 l) ∧
        (e.cell = Cells.lea64 → co.v64 d l = e.a64 l + (ext (e.vb.at l) <<< (e.w.sub.toNat % 8)))

/-- O11. Logic bit by bit on 32 bits (R210). Shifts by a natural 32-bit count, of 32 or more included, and rotation by the count
mod 32 (R211). Counts of bits, bit reversal, bit fields and byte permutation, bit by bit (R212 to R215). -/
def Obligations.LogicShiftsAndFields : Prop :=
  ∀ (s : State) (i : Instr) (e : Env), s.Passes i e →
    e.cell ∈ [Cells.and, Cells.or, Cells.xor, Cells.andn, Cells.not, Cells.shl, Cells.shr, Cells.sar, Cells.rot,
      Cells.popc, Cells.clz, Cells.ctz, Cells.brev, Cells.bfe, Cells.bfi, Cells.permb] →
    e.destTakes e.sourcesU →
    ∃ t co, exec i s = .next t ∧ e.RegisterFrame t co [e.w.d.toNat] [] ∧ co.fpctl = e.co.fpctl ∧
      ∀ l < 32, e.act.has l = true → e.w.d.toNat ≠ zv →
        let r := (co.v e.w.d.toNat).at l
        let a := e.va.at l
        let b := e.vb.at l
        (e.cell = Cells.and → ∀ k < 32, r.getLsbD k = (a.getLsbD k && b.getLsbD k)) ∧
        (e.cell = Cells.or → ∀ k < 32, r.getLsbD k = (a.getLsbD k || b.getLsbD k)) ∧
        (e.cell = Cells.xor → ∀ k < 32, r.getLsbD k = (a.getLsbD k ^^ b.getLsbD k)) ∧
        (e.cell = Cells.andn → ∀ k < 32, r.getLsbD k = (a.getLsbD k && !b.getLsbD k)) ∧
        (e.cell = Cells.not → ∀ k < 32, r.getLsbD k = !a.getLsbD k) ∧
        (e.cell ∈ [Cells.shl, Cells.shr, Cells.sar, Cells.rot] → r = logicWord e.cell.opc a b) ∧
        (e.cell ∈ [Cells.popc, Cells.clz, Cells.ctz, Cells.brev, Cells.bfe, Cells.bfi, Cells.permb] →
          BitFieldOk e.cell.opc e.ty a b (e.vc.at l) r)

/-- O13. Predicates: ISET's compare of integers of the type, the logic of predicates, VTOP and the votes, in the active lanes; a
write to P0 or to field 2047 is discarded (R141, R216 to R218, R222). FSET's ordered and unordered conditions on the numbers
its operands stand for, −0 and +0 equal; FCLS's class of an encoding looked up in its mask (R242, R243). Neither sets a flag.
-/
def Obligations.Predicates : Prop :=
  (∀ (s : State) (i : Instr) (e : Env), s.Passes i e →
     e.cell ∈ [Cells.iset, Cells.pand, Cells.por, Cells.pxor, Cells.pnot, Cells.vtop, Cells.voteAll, Cells.voteAny] →
     ∃ t co, exec i s = .next t ∧ e.RegisterFrame t co [] [e.w.d.toNat] ∧ co.fpctl = e.co.fpctl ∧
       (e.w.d.toNat = 0 ∨ e.w.d.toNat = zv → co.preds = e.co.preds) ∧
       ∀ l < 32, e.act.has l = true → e.w.d.toNat ≠ 0 → e.w.d.toNat ≠ zv →
         ((co.p e.w.d.toNat).has l = true ↔ e.PredSpec l)) ∧
  (∀ (s : State) (i : Instr) (e : Env), s.Passes i e → e.cell ∈ [Cells.fset, Cells.fcls] →
     ∃ t co, exec i s = .next t ∧ e.RegisterFrame t co [] [e.w.d.toNat] ∧ co.fpctl = e.co.fpctl ∧
       (e.w.d.toNat = 0 ∨ e.w.d.toNat = zv → co.preds = e.co.preds) ∧
       ∀ l < 32, e.act.has l = true → e.w.d.toNat ≠ 0 → e.w.d.toNat ≠ zv →
         (e.cell = Cells.fset → ((co.p e.w.d.toNat).has l = true ↔ e.FsetHolds l)) ∧
         (e.cell = Cells.fcls → (co.p e.w.d.toNat).has l = e.w.sub.getLsbD (classBit (fmtOf e.ty) (e.fpA l))))

/-- O14. The affine rows, of full issues: with a uniform value as one of stride 0, IADD, ISUB and LEA combine bases and strides
mod 2^32 when a source is affine, LEA's index scaled by 2^SH; INEG negates both; IMUL scales an affine source by a uniform
one, and SHL one by a uniform count; IMAD is the product, then the sum. Uniform sources give a uniform result, and a general
source, the product of two affine ones, and a count that is affine give a general one. A uniform or affine result may go to a
narrow name. But LEA, SHL and MOV have these rows for their one form, the others for types of 32 bits without .sat (R136,
R137, R197). -/
def Obligations.AffineShapes : Prop :=
  ∀ (s : State) (i : Instr) (e : Env) (b st b' st' b2 st2 k : W32), s.Passes i e → e.full = true → e.w.d.toNat ≠ zv →
    let result (r : VVal) : Prop := ∃ t co, exec i s = .next t ∧ t.cohort e.slot = some co ∧ co.v e.w.d.toNat = r
    let aIsU := e.va.isU = true
    let bIsU := e.vb.isU = true
    let sh := e.w.sub.toNat % 8
    let scaled : Prop := (e.va = .a b st ∧ e.vb = .u k) ∨ (e.va = .u k ∧ e.vb = .a b st)
    (e.ty.bits = 32 → e.w.satField = false →
      (e.va.line = some (b, st) → e.vb.line = some (b', st') → ¬ (aIsU ∧ bIsU) →
        (e.cell = Cells.iadd → result (.a (b + b') (st + st'))) ∧ (e.cell = Cells.isub → result (.a (b - b') (st - st')))) ∧
      (e.cell = Cells.ineg → e.va = .a b st → result (.a (-b) (-st))) ∧
      (e.cell = Cells.imul → scaled → result (.a (b * k) (st * k))) ∧
      (e.cell = Cells.imad → scaled → e.vc.line = some (b2, st2) → result (.a (b * k + b2) (st * k + st2))) ∧
      (e.cell = Cells.imad → e.va = .u b → e.vb = .u k → e.vc = .a b2 st2 → result (.a (b * k + b2) st2))) ∧
    (e.cell = Cells.lea → e.va.line = some (b, st) → e.vb.line = some (b', st') → ¬ (aIsU ∧ bIsU) →
      result (.a (b + (b' <<< sh)) (st + (st' <<< sh)))) ∧
    (e.cell = Cells.shl → e.va = .a b st → e.vb = .u b' → result (.a (b <<< b'.toNat) (st <<< b'.toNat))) ∧
    (e.cell = Cells.mov → e.va = .a b st → result (.a b st)) ∧
    (e.cell ∈ [Cells.iadd, Cells.isub, Cells.lea, Cells.ineg, Cells.imul, Cells.shl, Cells.imad] → e.sourcesU = true →
      ∃ x, result (.u x)) ∧
    (e.w.d.toNat < 256 →
      (e.cell ∈ [Cells.iadd, Cells.isub, Cells.lea, Cells.imul, Cells.shl, Cells.imad] →
        e.va.isG = true ∨ e.vb.isG = true → ∃ r, result r ∧ r.isG = true) ∧
      (e.cell = Cells.ineg → e.va.isG = true → ∃ r, result r ∧ r.isG = true) ∧
      (e.cell = Cells.imad → e.vc.isG = true → ∃ r, result r ∧ r.isG = true) ∧
      (e.cell = Cells.imul → e.va = .a b st → e.vb = .a b' st' → ∃ r, result r ∧ r.isG = true) ∧
      (e.cell = Cells.shl → e.vb = .a b' st' → ∃ r, result r ∧ r.isG = true))

/-- O15. Moves, selection, and what the lanes of a cohort pass to one another: MOV, MOVL, SEL, LANEOF, PTOV, the exchanges,
VOTE.bal, MATCH and LCOMP (R201, R202, R218, R219, R221 to R224, R139). BCAST writes Va's value in lane b mod 32 to every
active lane, or nothing where Va is general and that lane is not active; a source lane number that is not uniform raises SHAPE
(R138, R220). -/
def Obligations.MovesAndExchanges : Prop :=
  (∀ (s : State) (i : Instr) (e : Env), s.Passes i e →
     e.cell ∈ [Cells.mov, Cells.movl, Cells.sel, Cells.laneof, Cells.ptov, Cells.lxchIdx, Cells.lxchUp, Cells.lxchDown,
       Cells.lxchXor, Cells.voteBal, Cells.matchLanes, Cells.lcomp] →
     e.destTakes e.moveU →
     ∃ t co, exec i s = .next t ∧ e.RegisterFrame t co [e.w.d.toNat] [] ∧ co.fpctl = e.co.fpctl ∧
       ∀ l < 32, e.act.has l = true → e.w.d.toNat ≠ zv →
         e.MoveSpec l ((e.co.v e.w.d.toNat).at l) ((co.v e.w.d.toNat).at l)) ∧
  (∀ (s : State) (i : Instr) (e : Env), s.Passes i e → e.cell = Cells.bcast →
     (e.vb.isU = false → exec i s = .next (e.traps { code := 2, mask := e.act })) ∧
     (e.vb.isU = true → e.destTakes true →
       ∃ t co, exec i s = .next t ∧ e.RegisterFrame t co [e.w.d.toNat] [] ∧ co.fpctl = e.co.fpctl ∧
         (e.va.isG = true → e.act.has ((e.vb.at 0).toNat % 32) = false → co.v e.w.d.toNat = e.co.v e.w.d.toNat) ∧
         ∀ l < 32, e.act.has l = true → e.w.d.toNat ≠ zv →
           e.MoveSpec l ((e.co.v e.w.d.toNat).at l) ((co.v e.w.d.toNat).at l)))

/-! ### Floating point (spec/10_isa_float_convert.md, spec/07_number_formats.md) -/

/-- O16. Floating-point arithmetic, functions, packed pairs, CVT, QNT and DQNT: each active lane's exact result, rounded once into
the destination's format; the flags of every active lane are ORed into FPCTL; under TNF a non-finite result that R163 checks
raises NONFINITE over the offending lanes, with no lane written and no flag set (R235, R237, R240, R241, R244, R247, R249,
R250). O12, O18 and O19 say what the results and the rounding are. FEX2, FLG2, FSIN, FCOS and FTANH are the model's 320-bit
approximation of the exact value, rounded once (log 8), and UF is set as log 7 says. -/
def Obligations.FloatArithmetic : Prop :=
  ∀ (s : State) (i : Instr) (e : Env), s.Passes i e →
    e.cell ∈ [Cells.fadd, Cells.fsub, Cells.fmul, Cells.ffma, Cells.frnd, Cells.fdiv, Cells.fsqrt, Cells.frcp, Cells.frsq,
      Cells.fex2, Cells.flg2, Cells.fsin, Cells.fcos, Cells.ftanh, Cells.phadd, Cells.phmul, Cells.phfma, Cells.pbadd,
      Cells.pbmul, Cells.pbfma, Cells.cvt, Cells.qnt, Cells.dqnt] →
    e.destTakes e.sourcesU →
    let d := e.w.d.toNat
    (¬ e.NonFiniteTrap → ∃ t co, exec i s = .next t ∧
      e.RegisterFrame t co (if e.pairResult then [d, d + 1] else [d]) [] ∧
      co.fpctl = e.co.fpctl ||| e.lanes.foldl (fun acc l => acc ||| (e.floatRes l).fl) 0 ∧
      ∀ l < 32, e.act.has l = true → d ≠ zv →
        if e.pairResult then co.v64 d l = BitVec.ofNat 64 (e.floatRes l).bits
        else (co.v d).at l = BitVec.ofNat 32 (e.floatRes l).bits) ∧
    (e.NonFiniteTrap → ∃ m : Mask, (∀ l < 32, m.has l = (e.act.has l && e.nonFin l)) ∧
      exec i s = .next (e.traps { code := 9, mask := m }))

/-- O17. FMIN and FMAX choose an operand bit for bit, with −0 below +0 and a NaN giving way to the other operand; FABS and FNEG
change bit 31 of every encoding and are never checked for a non-finite result. None of them sets a flag (R238, R239). Under
TNF an FMIN or FMAX that chooses an infinity or a NaN in some active lane raises NONFINITE over the lanes in which it does,
and writes nothing (R163). PKB, UPKB, PK6 and UPK6, bit by bit (R251 to R253). -/
def Obligations.SelectionAndPacking : Prop :=
  (∀ (s : State) (i : Instr) (e : Env), s.Passes i e → e.cell ∈ [Cells.fmin, Cells.fmax, Cells.fabs, Cells.fneg] →
     e.destTakes e.sourcesU →
     let picks (l : Nat) (r : W32) : Prop :=
       (e.cell = Cells.fmin → PickSpec true (e.va.at l) (e.vb.at l) r) ∧
       (e.cell = Cells.fmax → PickSpec false (e.va.at l) (e.vb.at l) r)
     let checked : Prop := e.cell ∈ [Cells.fmin, Cells.fmax] ∧ tnf e.co.fpctl = true
     (checked → (∃ l < 32, e.act.has l = true ∧ ∃ r, picks l r ∧ (v32 r).isFin = false) →
       ∃ m : Mask, exec i s = .next (e.traps { code := 9, mask := m }) ∧
         ∀ l < 32, (m.has l = true ↔ e.act.has l = true ∧ ∃ r, picks l r ∧ (v32 r).isFin = false)) ∧
     ((checked → ∀ l < 32, e.act.has l = true → ∀ r, picks l r → (v32 r).isFin = true) →
     ∃ t co, exec i s = .next t ∧ e.RegisterFrame t co [e.w.d.toNat] [] ∧ co.fpctl = e.co.fpctl ∧
       ∀ l < 32, e.act.has l = true → e.w.d.toNat ≠ zv →
         let r := (co.v e.w.d.toNat).at l
         picks l r ∧
         (e.cell = Cells.fabs → ∀ k < 32, r.getLsbD k = ((e.va.at l).getLsbD k && k != 31)) ∧
         (e.cell = Cells.fneg → ∀ k < 32, r.getLsbD k = ((e.va.at l).getLsbD k ^^ (k == 31))))) ∧
  (∀ (s : State) (i : Instr) (e : Env), s.Passes i e → e.cell ∈ [Cells.pk6, Cells.upk6, Cells.pkb, Cells.upkb] →
     e.destTakes e.sourcesU →
     ∃ t co, exec i s = .next t ∧ e.RegisterFrame t co [e.w.d.toNat] [] ∧ co.fpctl = e.co.fpctl ∧
       ∀ l < 32, e.act.has l = true → e.w.d.toNat ≠ zv →
         PackSpec e.cell.opc e.w.sub (e.va.at l) (e.vb.at l) ((co.v e.w.d.toNat).at l))

/-- O18. Value and Round (R149, R154 to R156). Value reads the sign, exponent and mantissa of an encoding, subnormals included;
E4M3 has one NaN code and no infinity, E3M2 neither. Round of a NaN is the canonical NaN, of an infinity the infinity; E4M3 and
E3M2 take the largest finite value, or E4M3 its NaN under .ns, with NV. Round of a number that does not overflow is the finite
number the mode asks for: under .rup the least that is not below it, under .rdn the greatest that is not above it, under .rtz
the one of greatest magnitude that does not exceed it, under .rne the nearest, with an even last place on a tie, with its
sign kept; NX is set exactly when it differs, and UF only with it, and then for a number that no rounding takes out of the
subnormal range. A number that overflows gives what the table of R155 gives, as .sat and .ns change it, with OF and NX. -/
def Obligations.RoundIsCorrect : Prop :=
  (∀ f ∈ [fmt32, fmt16, fmtBf, fmtE4, fmtE5, fmtE3], ∀ b < 2 ^ f.width,
    let neg := decide (b / 2 ^ (f.eb + f.mb) % 2 = 1)
    let ex : Nat := b / 2 ^ f.mb % 2 ^ f.eb
    let frac : ℚ := ((b % 2 ^ f.mb : Nat) : ℚ) / 2 ^ f.mb
    let ones := ex = 2 ^ f.eb - 1
    let ieee := f ∉ [fmtE4, fmtE3]
    (ieee → ones → f.value b = if (b % 2 ^ f.mb : Nat) = 0 then .inf neg else .nan) ∧
    (f = fmtE4 → b % 128 = 127 → f.value b = .nan) ∧
    (¬ (ieee ∧ ones) → ¬ (f = fmtE4 ∧ b % 128 = 127) → ∃ m k, f.value b = .fin neg m k false ∧
      |(f.value b).rat| = if ex = 0 then (2 : ℚ) ^ (1 - (f.bias : Int)) * frac else (2 : ℚ) ^ ((ex : Int) - f.bias) * (1 + frac))) ∧
  (∀ (rm : RMode) (sat ns n : Bool),
    (∀ c ∈ [(fmt32, 0x7FC00000, 0x7F800000), (fmt16, 0x7E00, 0x7C00), (fmtBf, 0x7FC0, 0x7F80), (fmtE5, 0x7E, 0x7C)],
      roundFmt c.1 rm sat ns .nan = { bits := c.2.1, fl := 0 } ∧
      roundFmt c.1 rm sat ns (.inf n) = { bits := c.2.2 + if n then 2 ^ (c.1.width - 1) else 0, fl := 0 }) ∧
    roundFmt fmtE4 rm sat ns .nan = { bits := 0x7F, fl := 0 } ∧
    roundFmt fmtE4 rm sat ns (.inf n) = { bits := if ns then 0x7F else if n then 0xFE else 0x7E, fl := flNV } ∧
    roundFmt fmtE3 rm sat ns .nan = { bits := 0, fl := flNV } ∧
    roundFmt fmtE3 rm sat ns (.inf n) = { bits := if n then 0x3F else 0x1F, fl := flNV }) ∧
  ∀ f ∈ [fmt32, fmt16, fmtBf, fmtE4, fmtE5, fmtE3], ∀ (rm : RMode) (sat ns n : Bool) (m : Nat) (k : Int) (st : Bool) (x : ℝ),
    (XVal.fin n m k st).Stands x →
    let r := roundFmt f rm sat ns (.fin n m k st)
    let y : ℝ := ((f.value r.bits).rat : ℝ)
    (¬ f.Overflows rm n x →
      r.bits < 2 ^ f.width ∧ (f.value r.bits).isFin = true ∧ decide (2 ^ (f.width - 1) ≤ r.bits) = n ∧
      (r.fl.getLsbD 0 = true ↔ y ≠ x) ∧ r.fl &&& ~~~ 3#32 = 0 ∧ (r.fl.getLsbD 1 = true → y ≠ x) ∧
      ((2 : ℝ) ^ f.emin ≤ |x| → r.fl.getLsbD 1 = false) ∧
      (|x| ≤ (2 : ℝ) ^ f.emin * (1 - (2 : ℝ) ^ (-(f.mb : Int) - 1)) → y ≠ x → r.fl.getLsbD 1 = true) ∧
      ∀ b < 2 ^ f.width, (f.value b).isFin = true →
        let z : ℝ := ((f.value b).rat : ℝ)
        match rm with
        | .rup => x ≤ y ∧ (x ≤ z → y ≤ z)
        | .rdn => y ≤ x ∧ (z ≤ x → z ≤ y)
        | .rtz => |y| ≤ |x| ∧ 0 ≤ x * y ∧ (|z| ≤ |x| → |z| ≤ |y|)
        | .rne => |y - x| ≤ |z - x| ∧ (|y - x| = |z - x| → z ≠ y → r.bits % 2 = 0)) ∧
    (f.Overflows rm n x →
      let inf := match rm with
        | .rne => true
        | .rtz => false
        | .rup => !n
        | .rdn => n
      let sign := if n then 2 ^ (f.width - 1) else 0
      r.fl = flOF ||| flNX ∧
      (f ∉ [fmtE4, fmtE3] → r.bits = sign + if inf && !sat then (2 ^ f.eb - 1) * 2 ^ f.mb else (2 ^ f.eb - 1) * 2 ^ f.mb - 1) ∧
      (f = fmtE4 → r.bits = if inf && ns then 0x7F else sign + 0x7E) ∧
      (f = fmtE3 → r.bits = sign + 0x1F))

/-- O19. The exact results behind the arithmetic, and the special cases of R159 and R160. Sum, product and fused result of finite
values are exact; a quotient, a square root and a reciprocal square root are enclosed to at least 64 bits, marked when they are
not exact. A NaN gives a NaN and no flag; an invalid operation gives a NaN with NV; an exact infinity from a finite operand sets
DZ. The functions at zeros, infinities, integers and powers of two; elsewhere FEX2, FLG2, FSIN, FCOS and FTANH give a value that
is marked as not exact, so that NX is set. -/
def Obligations.ExactOperations : Prop :=
  (∀ (rm : RMode) (na nb nc : Bool) (ma mb mc : Nat) (ka kb kc : Int),
    let a := XVal.fin na ma ka false
    let b := XVal.fin nb mb kb false
    let c := XVal.fin nc mc kc false
    ((xadd rm a b).1.isFin = true ∧ (xadd rm a b).1.rat = a.rat + b.rat ∧ (xadd rm a b).2 = 0) ∧
    (a.rat + b.rat = 0 → ∃ k, (xadd rm a b).1 = .fin (if na = nb then na else rm == .rdn) 0 k false) ∧
    ((xmul a b).1.isFin = true ∧ (xmul a b).1.rat = a.rat * b.rat ∧ (xmul a b).2 = 0) ∧
    ((xfma rm a b c).1.isFin = true ∧ (xfma rm a b c).1.rat = a.rat * b.rat + c.rat ∧ (xfma rm a b c).2 = 0) ∧
    (0 < ma → 0 < mb → ∃ q k st, xdiv a b = (.fin (na != nb) q k st, 0) ∧ 2 ^ 63 ≤ q ∧
      (q : ℚ) * (2 : ℚ) ^ k ≤ |a.rat / b.rat| ∧ |a.rat / b.rat| < ((q : ℚ) + 1) * (2 : ℚ) ^ k ∧
      (st = false ↔ |a.rat / b.rat| = (q : ℚ) * (2 : ℚ) ^ k)) ∧
    (0 < ma → na = false → ∃ q k st, xsqrt a = (.fin false q k st, 0) ∧ 2 ^ 63 ≤ q ∧
      ((q : ℚ) * (2 : ℚ) ^ k) ^ 2 ≤ a.rat ∧ a.rat < (((q : ℚ) + 1) * (2 : ℚ) ^ k) ^ 2 ∧
      (st = false ↔ a.rat = ((q : ℚ) * (2 : ℚ) ^ k) ^ 2)) ∧
    (0 < ma → ma < 2 ^ 64 → na = false → ∃ q k st, xrsq a = (.fin false q k st, 0) ∧ 2 ^ 63 ≤ q ∧
      ((q : ℚ) * (2 : ℚ) ^ k) ^ 2 * a.rat ≤ 1 ∧ 1 < (((q : ℚ) + 1) * (2 : ℚ) ^ k) ^ 2 * a.rat ∧
      (st = false ↔ ((q : ℚ) * (2 : ℚ) ^ k) ^ 2 * a.rat = 1))) ∧
  (∀ (rm : RMode) (a b : XVal) (n n' : Bool) (m m' : Nat) (k k' : Int), 0 < m → 0 < m' →
    let inf := XVal.inf n
    let inf' := XVal.inf n'
    let fin := XVal.fin n m k false
    let zero := XVal.fin n 0 k false
    let zero' := XVal.fin n' 0 k' false
    let fin' := XVal.fin n' m' k' false
    let nanOf (r : XRes) (fl : W32) : Prop := r = (.nan, fl)
    (a = .nan ∨ b = .nan → nanOf (xadd rm a b) 0 ∧ nanOf (xmul a b) 0 ∧ nanOf (xdiv a b) 0) ∧
    (a = .nan ∨ b = .nan → ∀ c, nanOf (xfma rm a b c) 0) ∧
    (∀ c, c = .nan → ¬ (a = .nan ∨ b = .nan) → nanOf (xfma rm a b c) (xmul a b).2) ∧
    xadd rm inf inf' = (if n = n' then (inf, 0) else (.nan, flNV)) ∧
    (∀ y ∈ [fin', zero'], xadd rm inf y = (inf, 0) ∧ xadd rm y inf = (inf, 0) ∧ xdiv inf y = (.inf (n != n'), 0) ∧
      ∃ j, xdiv y inf = (.fin (n' != n) 0 j false, 0)) ∧
    xmul inf inf' = (.inf (n != n'), 0) ∧ xmul inf fin' = (.inf (n != n'), 0) ∧ xmul fin' inf = (.inf (n' != n), 0) ∧
    nanOf (xmul inf zero') flNV ∧ nanOf (xmul zero' inf) flNV ∧ (∀ c, nanOf (xfma rm inf zero' c) flNV) ∧
    (xfma rm inf fin' (.inf (n == n')) = (.nan, flNV)) ∧
    nanOf (xdiv inf inf') flNV ∧ nanOf (xdiv zero zero') flNV ∧ xdiv fin zero' = (.inf (n != n'), flDZ) ∧
    (∃ j, xdiv zero fin' = (.fin (n != n') 0 j false, 0))) ∧
  ∀ (w : W32),
    let a := v32 w
    let x := a.rat
    (a = .nan → ∀ f ∈ [xsqrt, xrcp, xrsq, xex2, xlg2, xsin, xcos, xtanh], f a = (.nan, 0)) ∧
    (∀ n, a = .inf n →
      xsqrt a = (if n then (.nan, flNV) else (.inf false, 0)) ∧ (∃ j, xrcp a = (.fin n 0 j false, 0)) ∧
      (n = true → xrsq a = (.nan, flNV) ∧ xlg2 a = (.nan, flNV) ∧ ∃ j, xex2 a = (.fin false 0 j false, 0)) ∧
      (n = false → xlg2 a = (.inf false, 0) ∧ xex2 a = (.inf false, 0) ∧ ∃ j, xrsq a = (.fin false 0 j false, 0)) ∧
      xsin a = (.nan, flNV) ∧ xcos a = (.nan, flNV) ∧ xtanh a = (.fin n 1 0 false, 0)) ∧
    (∀ n m k, a = .fin n m k false →
      (m = 0 → xrcp a = (.inf n, flDZ) ∧ xrsq a = (.inf n, flDZ) ∧ xlg2 a = (.inf true, flDZ) ∧ xcos a = (.fin false 1 0 false, 0) ∧
        (∃ j, xsqrt a = (.fin n 0 j false, 0)) ∧ (∃ j, xsin a = (.fin n 0 j false, 0)) ∧ ∃ j, xtanh a = (.fin n 0 j false, 0)) ∧
      (m ≠ 0 → n = true → xsqrt a = (.nan, flNV) ∧ xrsq a = (.nan, flNV) ∧ xlg2 a = (.nan, flNV)) ∧
      (m ≠ 0 → ∃ q j st, xrcp a = (.fin n q j st, 0) ∧ 2 ^ 63 ≤ q ∧ (q : ℚ) * (2 : ℚ) ^ j ≤ 1 / |x| ∧
        1 / |x| < ((q : ℚ) + 1) * (2 : ℚ) ^ j ∧ (st = false ↔ 1 / |x| = (q : ℚ) * (2 : ℚ) ^ j)) ∧
      (∀ i : Int, x = i → ∀ sat, rounded fmt32 .rne sat false (xex2 a) = roundFmt fmt32 .rne sat false (.fin false 1 i false)) ∧
      ((∀ i : Int, x ≠ i) → ∃ q j, xex2 a = (.fin false q j true, 0)) ∧
      (∀ i : Int, x = (2 : ℚ) ^ i → xlg2 a = (.fin (decide (i < 0)) i.natAbs 0 false, 0)) ∧
      (0 < x → (∀ i : Int, x ≠ (2 : ℚ) ^ i) → ∃ h q j, xlg2 a = (.fin h q j true, 0)) ∧
      (m ≠ 0 → (∃ h q j, xsin a = (.fin h q j true, 0)) ∧ (∃ h q j, xcos a = (.fin h q j true, 0)) ∧
        ∃ q j, xtanh a = (.fin n q j true, 0)))

/-- O12. Conversions, of any operand. CVT (R157, R247): float to float and integer to float round the source's value; float to
integer gives the integer the mode picks, clamped to the range with NV, NX when it differs, 0 with NV for a NaN and the limit
with NV for an infinity; integer to integer wraps, or under .sat clamps with SAT. FRND (R240). QNT (R249): the quotient by the
scale rounded to an integer, the zero point added, clamped with SAT; the zero point with NV for a NaN or a scale that is zero,
infinite or NaN, the end of the range with NV for an infinity. DQNT's exact result (R153, R250). -/
def Obligations.Conversions : Prop :=
  (∀ (d s : Ty) (rm : RMode) (sat ns : Bool) (x : Nat),
    let v := (fmtOf s).value (x % 2 ^ (fmtOf s).width)
    let i : Int := if s.signed then (BitVec.ofNat s.bits x).toInt else ((x % 2 ^ s.bits : Nat) : Int)
    let clamp (y : Int) : Int := max (leastOf d) (min (greatestOf d) y)
    (s.isFloat = true → d.isFloat = true → convert d s rm sat ns x = roundFmt (fmtOf d) rm sat ns v) ∧
    (s.isInt = true → d.isFloat = true →
      convert d s rm sat ns x = roundFmt (fmtOf d) rm sat ns (.fin (decide (i < 0)) i.natAbs 0 false)) ∧
    (s.isInt = true → d.isInt = true →
      convert d s rm sat ns x = if sat then { bits := placed d (clamp i), fl := if clamp i = i then 0 else flSAT }
        else { bits := placed d i, fl := 0 }) ∧
    (s.isFloat = true → d.isInt = true →
      (v = .nan → convert d s rm sat ns x = { bits := placed d 0, fl := flNV }) ∧
      (∀ n, v = .inf n → convert d s rm sat ns x = { bits := placed d (if n then leastOf d else greatestOf d), fl := flNV }) ∧
      (v.isFin = true → ∃ y : Int, rm.Picks v.rat y ∧ convert d s rm sat ns x =
        { bits := placed d (clamp y), fl := if clamp y ≠ y then flNV else if (y : ℚ) = v.rat then 0 else flNX }))) ∧
  (∀ (rm : RMode) (a : W32),
    (v32 a = .nan → frndRes rm a = { bits := 0x7FC00000, fl := 0 }) ∧
    (∀ n, v32 a = .inf n → frndRes rm a = { bits := a.toNat, fl := 0 }) ∧
    ((v32 a).isFin = true →
      (2 ^ 23 ≤ |(v32 a).rat| → frndRes rm a = { bits := a.toNat, fl := 0 }) ∧
      ∃ (y : Int) (m : Nat) (k : Int), rm.Picks (v32 a).rat y ∧ (frndRes rm a).bits < 2 ^ 32 ∧
        fmt32.value (frndRes rm a).bits = .fin (a.getLsbD 31) m k false ∧ (fmt32.value (frndRes rm a).bits).rat = y ∧
        (frndRes rm a).fl = if (y : ℚ) = (v32 a).rat then 0 else flNX)) ∧
  (∀ (d s : Ty) (rm : RMode) (a w : Nat), d ∈ [Ty.q8a, Ty.q4a] → s.isFloat = true →
    let qmax : Int := if d = .q8a then 255 else 15
    let zp : Nat := w / 2 ^ 16 % (if d = .q8a then 256 else 16)
    let sc := fmt16.value (w % 2 ^ 16)
    let v := (fmtOf s).value (a % 2 ^ (fmtOf s).width)
    let clamp (y : Int) : Int := max 0 (min qmax y)
    (v = .nan ∨ sc.isFin = false ∨ sc.rat = 0 → quantise d s rm a w = { bits := zp, fl := flNV }) ∧
    (∀ n, v = .inf n → sc.isFin = true → sc.rat ≠ 0 →
      quantise d s rm a w = { bits := if n = decide (sc.rat < 0) then qmax.toNat else 0, fl := flNV }) ∧
    (v.isFin = true → sc.isFin = true → sc.rat ≠ 0 → ∃ y : Int, rm.Picks (v.rat / sc.rat) y ∧
      quantise d s rm a w = { bits := (clamp (y + zp)).toNat, fl := (if (y : ℚ) = v.rat / sc.rat then 0 else flNX) |||
        (if clamp (y + zp) = y + zp then 0 else flSAT) })) ∧
  ∀ (sc : XVal) (q zp : Nat),
    (sc = .nan → dequant sc q zp = (.nan, 0)) ∧
    (∀ n, sc = .inf n → dequant sc q zp = if q = zp then (.nan, flNV) else (.inf (n != decide (q < zp)), 0)) ∧
    (∀ n m k, sc = .fin n m k false →
      (q = zp → ∃ j, dequant sc q zp = (.fin false 0 j false, 0)) ∧
      (q ≠ zp → ∃ m' j, dequant sc q zp = (.fin (n != decide (q < zp)) m' j false, 0) ∧
        (dequant sc q zp).1.rat = sc.rat * ((q : ℚ) - zp)))

/-! ### Control flow, traps and system registers (spec/09_isa_integer_control.md, spec/15_faults_context.md) -/

/-- O20. NOP, the hints and the fences have no effect of their own: the group goes on, and nothing else of the part changes (R191,
R205, R265). That a fence writes nothing and asks nothing of the one coherent store is the model's choice (log 3). Branches:
BRA and CALL send the active lanes to the target in the literal, BRX, CALLX and RET each active lane to its own; the other
lanes of the group go on; CALL and CALLX leave the offset of the next instruction in Vd. A per-lane target that is not a
multiple of 4 raises ILLEGAL over the lanes that have one (R31, R226 to R228). -/
def Obligations.NopsFencesAndBranches : Prop :=
  (∀ (s : State) (i : Instr) (e : Env), s.Passes i e →
    e.cell ∈ [Cells.nop, Cells.fenceCoh, Cells.fenceBlk, Cells.fenceCore, Cells.fenceClu, Cells.fenceDie, Cells.fenceDev,
      Cells.fenceSys] →
    ∃ t co, exec i s = .next t ∧ e.RegisterFrame t co [] [] ∧ co.fpctl = e.co.fpctl) ∧
  (∀ (s : State) (x : Issuer) (opc : BitVec 8) (w : BaseWord) (v : ExtWord), s.issuer = some x →
    (exec (.hint opc w) s =
      .next ((s.advance x.slot x.group x.pc (x.pc + if w.lit.isSome then 12#32 else 4#32) []).mark false)) ∧
    exec (.hintExt opc v) s =
      .next ((s.advance x.slot x.group x.pc (x.pc + if v.lit.isSome then 20#32 else 12#32) []).mark false)) ∧
  ∀ (s : State) (i : Instr) (e : Env), s.Passes i e →
    e.cell ∈ [Cells.bra, Cells.brx, Cells.call, Cells.callx, Cells.ret] →
    (e.cell ∈ [Cells.call, Cells.callx] → e.destTakes true) →
    let dst (l : Nat) : W32 := if e.cell ∈ [Cells.bra, Cells.call] then e.lit32 else e.va.at l
    let perLane : Prop := e.cell ∈ [Cells.brx, Cells.callx, Cells.ret]
    ((perLane → ∀ l < 32, e.act.has l = true → (dst l).toNat % 4 = 0) →
      ∃ t co, exec i s = .next t ∧ e.Jumps t co dst (if e.cell ∈ [Cells.call, Cells.callx] then [e.w.d.toNat] else []) ∧
        (e.cell ∈ [Cells.call, Cells.callx] → e.w.d.toNat ≠ zv →
          ∀ l < 32, e.act.has l = true → (co.v e.w.d.toNat).at l = e.next)) ∧
    (perLane → (∃ l < 32, e.act.has l = true ∧ (dst l).toNat % 4 ≠ 0) →
      ∃ info, exec i s = .next (e.traps info) ∧ info.code = 1 ∧
        (∀ l < 32, info.mask.has l = (e.act.has l && (dst l).toNat % 4 != 0)) ∧
        ∃ l < 32, info.mask.has l = true ∧ (∀ k < l, info.mask.has k = false) ∧ info.xaddr = dst l)

/-- O22. Joins: MEET pushes MR and sets it to the meeting point for the active lanes, which join Jn; it is ILLEGAL for a busy join
at another address, and when a lane that would push stands at depth 64: then it names those lanes, and no lane joins or
pushes. WAITJ holds its active members and passes every other lane. The release of a join whose members are all held pops each
member's MR, lets those at a WAITJ go on after it, and empties the join; nothing else of the cohort changes. A lane that stands at
its MR and is in no join that waits there goes on at once, alone, and pops its MR (R24); one that is a join's only member is
released as soon as it is held (R23 to R26). -/
def Obligations.Joins : Prop :=
  (∀ (s : State) (i : Instr) (e : Env), s.Passes i e → e.cell = Cells.meet →
    let j := e.co.j e.w.d.toNat
    (j.1 ≠ 0 ∧ j.2 ≠ e.target → exec i s = .next (e.traps { code := 1, mask := e.act })) ∧
    ((j.1 = 0 ∨ j.2 = e.target) → (∃ l < 32, e.act.has l = true ∧ 64 ≤ (e.co.lane l).depth) →
      ∃ info, exec i s = .next (e.traps info) ∧ info.code = 1 ∧
        ∀ l < 32, info.mask.has l = (e.act.has l && decide (64 ≤ (e.co.lane l).depth))) ∧
    ((j.1 = 0 ∨ j.2 = e.target) → (∀ l < 32, e.act.has l = true → (e.co.lane l).depth < 64) →
      ∃ t co, exec i s = .next t ∧ e.OnlyCohort t co ∧
        co = { e.co with lanes := co.lanes, waits := co.waits, joins := co.joins } ∧
        co.j e.w.d.toNat = (j.1 ||| e.act, e.target) ∧ (∀ n, n ≠ e.w.d.toNat → co.j n = e.co.j n) ∧
        ∀ l < 32, co.lane l =
          if e.act.has l then { e.co.lane l with pc := e.next, meets := (e.co.lane l).mr :: (e.co.lane l).meets, mr := e.target }
          else if e.group.has l then { e.co.lane l with pc := e.next } else e.co.lane l)) ∧
  (∀ (s : State) (i : Instr) (e : Env), s.Passes i e → e.cell = Cells.waitj →
    let n := e.w.d.toNat
    ∃ t co, exec i s = .next t ∧ e.OnlyCohort t co ∧ co = { e.co with lanes := co.lanes, waits := co.waits } ∧
      ∀ l < 32, co.lane l =
        if e.act.has l && (e.co.j n).1.has l then { e.co.lane l with pc := e.pc, waitj := some (n, e.next) }
        else if e.group.has l then { e.co.lane l with pc := e.next } else e.co.lane l) ∧
  (∀ (co : Cohort) (n : Nat),
    let member (l : Nat) : Prop := (co.j n).1.has l = true ∧ co.live.has l = true
    co.joinDue n = true ↔ (∃ l < 32, member l) ∧ ∀ l < 32, member l →
      ((co.lane l).pc = (co.lane l).mr ∧ (co.lane l).mr = (co.j n).2) ∨ ∃ x, (co.lane l).waitj = some (n, x)) ∧
  (∀ (s : State) (slot l : Nat) (co : Cohort), s.cohort slot = some co → co.park = none → l < 32 → co.live.has l = true →
    let x := co.lane l
    let up : Lane := { x with mr := x.meets.headD 0xFFFFFFFF#32, meets := x.meets.drop 1 }
    x.waitj = none → x.pc = x.mr → (∀ n < 8, (co.j n).1.has l = true → (co.j n).2 ≠ x.mr) → up.mr ≠ x.pc →
    ∃ co', (s.settleCohort slot).cohort slot = some co' ∧ co'.lane l = up ∧ (co.hmode = false → co'.runnable.has l = true)) ∧
  ∀ (s : State) (slot n : Nat) (co : Cohort), s.cohort slot = some co → co.joinDue n = true → co.park = none →
    s.coreRuns (coreOf slot) = true →
    ∃ t co', exec (.joinRelease slot n) s = .next t ∧ t.cohort slot = some co' ∧ (co'.j n).1 = 0 ∧
      co' = { co with lanes := co'.lanes, joins := co'.joins } ∧ (∀ m, m ≠ n → co'.j m = co.j m) ∧
      (∀ k, k ≠ slot → t.cohort k = s.cohort k) ∧ (s.cohorts.wf = true → co.serial = false → { t with cohorts := s.cohorts } = s) ∧
      ∀ l < 32,
        let x := co.lane l
        let up : Lane := { x with mr := x.meets.headD 0xFFFFFFFF#32, meets := x.meets.drop 1 }
        co'.lane l = if (co.j n).1.has l && co.live.has l then
            (match x.waitj with
             | some (_, nx) => { up with pc := nx, waitj := none }
             | none => up)
          else x

/-- O23. EXIT: the active lanes have exited and leave every join register; the other lanes of the group go on; a handler of which
no lane is left ends; a slice of which no lane is left returns its registers unless a regrouping is in effect. Inside an
explicit transaction EXIT is ILLEGAL (R27, R36, R37, R278, R343). -/
def Obligations.ExitEndsLanes : Prop :=
  ∀ (s : State) (i : Instr) (e : Env), s.Passes i e → e.cell = Cells.exit →
    (e.co.tx.isSome = true → exec i s = .next (e.traps { code := 1, mask := e.act })) ∧
    (e.co.tx = none → ∃ t co, exec i s = .next t ∧ e.OnlyCohort t co ∧ co.live = e.co.live &&& ~~~ e.act ∧
      (∀ n, (co.j n).1 = (e.co.j n).1 &&& ~~~ e.act ∧ (co.j n).2 = (e.co.j n).2) ∧
      co.vregs = e.co.vregs ∧ co.preds = e.co.preds ∧ co.g = e.co.g ∧
      (co.hmode = true ↔ e.co.hmode = true ∧ e.co.hlanes &&& co.live ≠ 0) ∧
      (e.blk.table.isSome = true → co.slices = e.co.slices) ∧
      (e.blk.table = none → ∀ k < 4, co.slices.getLsbD k =
        (e.co.slices.getLsbD k && (List.range 8).any (fun m => co.live.has (8 * k + m)))) ∧
      ∀ l < 32, co.lane l = if e.group.has l && !e.act.has l then { e.co.lane l with pc := e.next } else e.co.lane l)

/-- O24. TRAP and BKPT take a precise trap over the active lanes, TRAPI with the instruction's number in XADDR (R230, R231).
Taking a precise trap of any kind, where the kernel has a handler and the cohort is not in it: XCAUSE, XMASK and XADDR as the
trap gives them, XPC at the trapping instruction, every lane of the group at the handler and no other lane moved; nothing of
the trapping instruction is written. An open explicit transaction aborts first: XPC is its abort address, TXAB is set, and its
Vd holds 4 (R81, R342, R344). XRET: every lane of HLANES that has not exited continues at XPC, one held at a WAITJ included,
the handler is left, and nothing else changes; outside a handler, and with an XPC that is not a multiple of 4, it is ILLEGAL
(R232, R343). -/
def Obligations.HandlerEntryAndReturn : Prop :=
  ((∀ (s : State) (i : Instr) (e : Env), s.Passes i e →
     (e.cell = Cells.trap → exec i s = .next (e.traps { code := 11, mask := e.act, xaddr := e.w.a.setWidth 32 })) ∧
     (e.cell = Cells.bkpt → exec i s = .next (e.traps { code := 10, mask := e.act }))) ∧
   ∀ (s : State) (i : Instr) (e : Env) (info : TrapInfo) (h : W32), s.envFor i = some e → info.code < 256 →
     s.handlerOf e.blk = some h → e.co.hmode = false →
     ∃ co, (e.traps info).cohort e.slot = some co ∧ (∀ k, k ≠ e.slot → (e.traps info).cohort k = s.cohort k) ∧
       co.xmask = info.mask ∧ co.xaddr = info.xaddr ∧ co.hmode = true ∧ co.hlanes = e.group ∧ co.tx = none ∧ co.park = e.co.park ∧
       co.preds = e.co.preds ∧ co.exited = e.co.exited ∧ co.fpctl = e.co.fpctl ∧
       (∀ l < 32, e.group.has l = true → (co.lane l).pc = h ∧ (co.lane l).waitj = none) ∧
       (e.co.tx = none → co.xcause.toNat = info.code ∧ co.xpc = e.pc ∧ co.vregs = e.co.vregs ∧
         (∀ l < 32, e.group.has l = false → co.lane l = e.co.lane l) ∧
         { e.traps info with cohorts := s.cohorts, cur := s.cur } = s) ∧
       ∀ x, e.co.tx = some x → co.xcause.toNat = 256 + info.code ∧ co.xpc = x.abort ∧
         (x.vd ≠ zv → co.v x.vd = .u 4#32) ∧ (∀ n, n ≠ x.vd → co.v n = e.co.v n) ∧
         (∀ l < 32, e.group.has l = false → e.co.live.has l = true → (co.lane l).pc = x.abort) ∧
         ∃ b, (e.traps info).block e.co.blk = some b ∧ b.buf = [] ∧ b.holder = none) ∧
  (∀ (s : State) (i : Instr) (e : Env), s.Passes i e → e.cell = Cells.xret →
     (e.co.hmode = false ∨ e.co.xpc.toNat % 4 ≠ 0 → exec i s = .next (e.traps { code := 1, mask := e.act })) ∧
     (e.co.hmode = true → e.co.xpc.toNat % 4 = 0 →
       ∃ t co, exec i s = .next t ∧ e.OnlyCohort t co ∧ co.hmode = false ∧ co.hlanes = 0 ∧
         co = { e.co with lanes := co.lanes, waits := co.waits, hmode := false, hlanes := 0 } ∧
         ∀ l < 32, co.lane l =
           if e.co.hlanes.has l && e.co.live.has l then { e.co.lane l with pc := e.co.xpc, waitj := none } else e.co.lane l))

/-- O25. Without a handler, and inside one, a precise trap parks the cohort: no lane moves, and one record with the trap's code,
class T, PC and MASK is handed to the VF's fault queue, NEST set inside a handler (R345 to R348). -/
def Obligations.TrapsThatPark : Prop :=
  ∀ (s : State) (i : Instr) (e : Env) (info : TrapInfo), s.envFor i = some e →
    (s.handlerOf e.blk = none ∨ e.co.hmode = true) → e.co.tx = none → e.co.park = none →
    ∃ co r, (e.traps info).cohort e.slot = some co ∧ co.park = some r ∧
      co = { e.co with park := some r, waits := [] } ∧
      r.code = info.code ∧ r.cls = 1 ∧ r.pc = e.pc ∧ r.mask = info.mask ∧ r.addr = info.addr ∧ r.nest = e.co.hmode ∧
      r.slot = BitVec.ofNat 32 e.slot ∧ r.node = e.blk.node ∧
      ((e.traps info).vf e.blk.vf).records = (s.vf e.blk.vf).records ++ [r] ∧
      (∀ k, k ≠ e.slot → (e.traps info).cohort k = s.cohort k) ∧
      { e.traps info with cohorts := s.cohorts, vfs := s.vfs, cur := s.cur } = s

/-- O26. GETS reads the system register that A names into Vd (R203): the lane's number and TID, the block's identity and
place in its tree, its areas, the exception registers, FPCTL, JSTAT, and the counters of the core, its cluster and its die; a full
issue keeps the register's shape: LANEID and TID are affine while no regrouping is in effect, JSTAT is general, and the others are
uniform (R140). SETS writes XPC or FPCTL from a uniform source, and SETFP changes the FPCTL bits that
Va names to those of Vb and returns the old value; a source that is not uniform raises SHAPE, a reserved FPCTL bit ILLEGAL
(R138, R161, R204, R245). That the ILLEGAL of SETFP comes before the SHAPE of a narrow destination of a partial issue is the
model's choice (log 77). -/
def Obligations.SystemRegisters : Prop :=
  (∀ (s : State) (i : Instr) (e : Env), s.Passes i e → e.cell = Cells.gets →
     e.destTakes (!(e.sreg e.w.a.toNat).isG) →
     let a := e.w.a.toNat
     let d := e.w.d.toNat
     ∃ t co, exec i s = .next t ∧ e.RegisterFrame t co [d] [] ∧ co.fpctl = e.co.fpctl ∧
       (e.full = true → e.blk.table = none → d ≠ zv →
         (a = 0 → co.v d = .a 0 1) ∧ (a = 1 → co.v d = .a (BitVec.ofNat 32 (32 * e.co.cohid)) 1)) ∧
       (e.full = true → 2 ≤ a → a ≤ 26 → d ≠ zv → (co.v d).isU = true) ∧ (a = 27 → d ≠ zv → (co.v d).isG = true) ∧
       ∀ l < 32, e.act.has l = true → d ≠ zv →
         let r := (co.v d).at l
         let nat (n x : Nat) : Prop := a = n → r = BitVec.ofNat 32 x
         nat 3 e.blk.slots.length ∧ (a = 6 → r = e.blk.rcd.parent) ∧ nat 7 e.blk.rcd.nchild ∧ nat 8 e.blk.childix ∧ nat 9 e.blk.depth ∧
         nat 10 e.blk.inbox ∧ nat 11 e.blk.outbox ∧ nat 12 e.blk.resbuf ∧ nat 13 (e.core % 4) ∧ nat 14 (e.core / 4 % 8) ∧
         nat 15 (e.core / 32) ∧ nat 18 (s.cluster (e.core / 4)).step ∧ nat 19 (s.die (e.core / 32)).pool ∧
         (∀ x, a = 25 → s.launch e.blk.launch = some x → r = x.tol) ∧
         (a = 27 → (∀ n < 8, r.getLsbD (16 + n) = decide ((e.co.j n).1 ≠ 0)) ∧ r.getLsbD 31 = e.co.serial ∧
           r.setWidth 7 = BitVec.ofNat 7 (e.co.lane l).depth ∧
           ∀ n, ((7 ≤ n ∧ n < 16) ∨ (24 ≤ n ∧ n < 31)) → r.getLsbD n = false) ∧
         (a = 0 → r = BitVec.ofNat 32 l) ∧
         (a = 1 → e.blk.table = none → r = BitVec.ofNat 32 (32 * e.co.cohid + l)) ∧
         (a = 1 → e.blk.table.isSome = true → r = BitVec.ofNat 32 (e.co.lane l).tid) ∧
         (a = 2 → r = BitVec.ofNat 32 e.co.cohid) ∧ (a = 4 → r = BitVec.ofNat 32 e.blk.nlanes) ∧
         (a = 5 → r = BitVec.ofNat 32 e.blk.node) ∧ (a = 16 → r = (s.core e.core).cycle.setWidth 32) ∧
         (a = 17 → r = BitVec.ofNat 32 (s.core e.core).wallet) ∧
         (a = 20 → r = e.co.fpctl) ∧ (a = 21 → r = e.co.xpc) ∧ (a = 22 → r = e.co.xcause) ∧
         (a = 23 → r = e.co.xmask) ∧ (a = 24 → r = e.co.xaddr) ∧ (a = 26 → r = e.blk.resid)) ∧
  (∀ (s : State) (i : Instr) (e : Env), s.Passes i e →
     (e.cell = Cells.sets →
       (e.va.isU = false → exec i s = .next (e.traps { code := 2, mask := e.act })) ∧
       (e.va.isU = true → e.w.d.toNat ≠ 21 → e.va.at 0 &&& 0x7FFFFFC0#32 ≠ 0 →
         exec i s = .next (e.traps { code := 1, mask := e.act })) ∧
       (e.va.isU = true → (e.w.d.toNat = 21 ∨ e.va.at 0 &&& 0x7FFFFFC0#32 = 0) →
         ∃ t co, exec i s = .next t ∧ e.OnlyCohort t co ∧ e.MovedOn co ∧
           co = { e.co with lanes := co.lanes, waits := co.waits, xpc := co.xpc, fpctl := co.fpctl } ∧
           (e.w.d.toNat = 21 → co.xpc = e.va.at 0 ∧ co.fpctl = e.co.fpctl) ∧
           (e.w.d.toNat ≠ 21 → co.xpc = e.co.xpc ∧ co.fpctl = e.va.at 0))) ∧
     (e.cell = Cells.setfp →
       (e.va.isU = false ∨ e.vb.isU = false → exec i s = .next (e.traps { code := 2, mask := e.act })) ∧
       (e.va.isU = true → e.vb.isU = true → e.va.at 0 &&& 0x7FFFFFC0#32 ≠ 0 →
         exec i s = .next (e.traps { code := 1, mask := e.act })) ∧
       (e.va.isU = true → e.vb.isU = true → e.va.at 0 &&& 0x7FFFFFC0#32 = 0 → e.destTakes true →
         ∃ t co, exec i s = .next t ∧ e.OnlyCohort t co ∧ e.MovedOn co ∧
           co = { e.co with lanes := co.lanes, waits := co.waits, vregs := co.vregs, fpctl := co.fpctl } ∧
           co.fpctl = (e.co.fpctl &&& ~~~ e.va.at 0) ||| (e.vb.at 0 &&& e.va.at 0) ∧
           (∀ n, n ≠ e.w.d.toNat → co.v n = e.co.v n) ∧
           (∀ l < 32, e.co.live.has l = true → e.act.has l = false →
             (co.v e.w.d.toNat).at l = (e.co.v e.w.d.toNat).at l) ∧
           ∀ l < 32, e.act.has l = true → e.w.d.toNat ≠ zv → (co.v e.w.d.toNat).at l = e.co.fpctl)))

/-! ### Memory (spec/11_isa_memory_sync.md, spec/04_memory_spaces.md) -/

/-- O27. LD: with every address aligned and translated and no line poisoned, each active lane's destination holds the bytes at its
address, lowest address first, extended to 32 bits by a signed type of 8 or 16 bits; a lane sees the bytes that its own
transaction has buffered. Memory does not change (R76, R255, R258). -/
def Obligations.GlobalLoads : Prop :=
  ∀ (s : State) (i : Instr) (e : Env) (x : Nat → Xlat), s.Passes i e → e.cell = Cells.ld →
    (e.buffered = true → e.w.ord = 0) → e.loadTakes → e.Aligned (fun l => (e.devAddr l).toNat) → e.Translates .read x →
    e.Clean x →
    ∃ t co, exec i s = .next t ∧ (e.withTx co.tx).RegisterFrame t co e.loadRegs [] ∧ co.fpctl = e.co.fpctl ∧
      (e.co.tx = none → co.tx = none) ∧
      ∀ l < 32, e.act.has l = true → e.w.d.toNat ≠ zv → ∀ k < regsOf e.ty.bytes,
        (co.v (e.w.d.toNat + k)).at l =
          loadWord e.ty (fun j => e.devByte ((e.devAddr l).toNat + j) ((x l).pa + j)) k

/-- O28. LDQ: the decoded element at the named data byte (and nibble) of a decodable page, with the scale entry of its group, as
one FP32 value (R88 to R90, R260). A page whose attribute is malformed, and a byte that is no data byte of its page, park the
cohort with FORMAT, and no lane has moved or read. -/
def Obligations.DecodingLoads : Prop :=
  ∀ (s : State) (i : Instr) (e : Env) (x : Nat → Xlat) (q : Nat → QFmt) (y : Nat → Xlat), s.Passes i e → e.cell = Cells.ldq →
    (e.buffered = true → e.w.ord = 0) → e.loadTakes → e.Translates .read x →
    let off (l : Nat) : Nat := (e.devAddr l).toNat - (x l).page
    let nib (l : Nat) : Nat := (e.vb.at l).toNat % 2
    let entry (l : Nat) : Nat := (x l).page + (q l).scaleOff (off l) (nib l)
    let bad (l : Nat) : Bool := match qfmtOf (x l).fattr with
      | some f => !f.isData (off l) (x l).size
      | none => true
    (e.Clean x → (∀ l < 32, e.act.has l = true → qfmtOf (x l).fattr = some (q l) ∧ (q l).isData (off l) (x l).size = true ∧
        ((q l).efmt ≤ 2 → s.translate (s.coreTlbs e.core) e.blk.vf (BitVec.ofNat 64 (entry l)) .read = .ok (y l) ∧
          s.poisoned (y l).pa = false)) →
      ∃ t co, exec i s = .next t ∧ (e.withTx co.tx).RegisterFrame t co [e.w.d.toNat] [] ∧ co.fpctl = e.co.fpctl ∧
        (e.co.tx = none → co.tx = none) ∧
        ∀ l < 32, e.act.has l = true → e.w.d.toNat ≠ zv →
          let byte := (e.devByte (e.devAddr l).toNat (x l).pa).toNat
          let word := leNat ((List.range 4).map (fun j =>
            e.devByte ((BitVec.ofNat 64 (entry l) : W64).toNat + j) ((y l).pa + j)))
          (co.v e.w.d.toNat).at l = match (q l).efmt with
            | 1 => roundF32 (dequant (scaleOf word) byte (word / 2 ^ 16 % 256)).1
            | 2 => roundF32 (dequant (scaleOf word) (if nib l = 0 then byte % 16 else byte / 16) (word / 2 ^ 16 % 16)).1
            | 3 => roundF32 (fmtE4.value byte)
            | _ => roundF32 (fmtE5.value byte)) ∧
    ((∃ l < 32, e.act.has l = true ∧ bad l = true) →
      (∀ l < 32, e.act.has l = true → bad l = false → qfmtOf (x l).fattr = some (q l) ∧
        ((q l).efmt ≤ 2 →
          s.translate (s.coreTlbs e.core) e.blk.vf (BitVec.ofNat 64 (entry l)) .read = .ok (y l))) →
      e.co.park = none → e.co.tx = none →
      ∃ t co r, exec i s = .next t ∧ t.cohort e.slot = some co ∧ co.park = some r ∧ r.code = 18 ∧ r.cls = 2 ∧ r.pc = e.pc ∧
        (∀ l < 32, Mask.has r.mask l = (e.act.has l && bad l)) ∧ ∀ l < 32, co.lane l = e.co.lane l)

/-- O29. Loads from the block's own scratchpad and weight buffer, and from a gang member's scratchpad: with every offset aligned
and within the allocation, the bytes at it, as for LD (R83, R95, R261, R262). Stores to the block's own scratchpad and to a
gang member's: the bytes of each active lane's data stand at its offset in the allocation, and every other byte of every
scratchpad is as before; device memory and the registers do not change (R83, R95, R96, R261). -/
def Obligations.LocalAccesses : Prop :=
  (∀ (s : State) (i : Instr) (e : Env) (b : Nat → Block), s.Passes i e → e.cell ∈ [Cells.lds, Cells.ldw, Cells.ldsPeer] →
     e.loadTakes → e.Aligned (fun l => (e.va.at l).toNat) →
     (e.cell = Cells.lds → ∀ l < 32, e.act.has l = true → (e.va.at l).toNat + e.ty.bytes ≤ e.blk.aspBound) →
     (e.cell = Cells.ldw → ∀ l < 32, e.act.has l = true → (e.va.at l).toNat + e.ty.bytes ≤ e.blk.wbfBound) →
     (e.cell = Cells.ldsPeer → e.blk.member.isSome = true ∧ ∀ l < 32, e.act.has l = true →
       e.peerBad (e.va.at l) e.ty.bytes = false ∧ ∃ k, e.peerBlock (e.va.at l) = some (k, b l)) →
     ∃ t co, exec i s = .next t ∧ e.RegisterFrame t co e.loadRegs [] ∧ co.fpctl = e.co.fpctl ∧
       ∀ l < 32, e.act.has l = true → e.w.d.toNat ≠ zv → ∀ k < regsOf e.ty.bytes,
         (co.v (e.w.d.toNat + k)).at l = loadWord e.ty (fun j =>
           if e.cell = Cells.lds then bufAt (s.core e.blk.core).asp (e.blk.aspBase + (e.va.at l).toNat + j)
           else if e.cell = Cells.ldw then bufAt (s.core e.blk.core).wbf (e.blk.wbfBase + (e.va.at l).toNat + j)
           else bufAt (s.core (b l).core).asp ((b l).aspBase + (e.va.at l).toNat % 2 ^ 22 + j)) k) ∧
  (∀ (s : State) (i : Instr) (e : Env) (b : Nat → Block), s.Passes i e → e.cell ∈ [Cells.sts, Cells.stsPeer] →
     e.Aligned (fun l => (e.va.at l).toNat) →
     let w := e.ty.bytes
     (e.cell = Cells.sts → ∀ l < 32, e.act.has l = true → b l = e.blk ∧ (e.va.at l).toNat + w ≤ e.blk.aspBound) →
     (e.cell = Cells.stsPeer → e.buffered = false ∧ e.blk.member.isSome = true ∧ ∀ l < 32, e.act.has l = true →
       e.peerBad (e.va.at l) w = false ∧ ∃ k, e.peerBlock (e.va.at l) = some (k, b l)) →
     let off (l : Nat) : Nat := (b l).aspBase + (if e.cell = Cells.sts then (e.va.at l).toNat else (e.va.at l).toNat % 2 ^ 22)
     ∃ t co, exec i s = .next t ∧ t.cohort e.slot = some co ∧ e.MovedOn co ∧
       co = { e.co with lanes := co.lanes, waits := co.waits } ∧ (∀ k, k ≠ e.slot → t.cohort k = s.cohort k) ∧
       { t with cohorts := s.cohorts, cur := s.cur, cores := s.cores } = s ∧
       (∀ c, { t.core c with asp := (s.core c).asp } = s.core c) ∧
       (∀ c a, (∀ l < 32, e.act.has l = true → (b l).core ≠ c ∨ a < off l ∨ off l + w ≤ a) →
         bufAt (t.core c).asp a = bufAt (s.core c).asp a) ∧
       ∀ l < 32, e.act.has l = true → ∀ j < w,
         (∀ k < 32, l < k → e.act.has k = true → (b k).core ≠ (b l).core ∨ off l + j < off k ∨ off k + w ≤ off l + j) →
         bufAt (t.core (b l).core).asp (off l + j) = dataByte e.co e.w.b.toNat l j)

/-- O30. ST: outside a transaction, the bytes of each active lane's data stand at its translated address, a higher lane's over a
lower one's, and every other byte reads as before. In a transaction they go to the block's buffer at their device addresses,
and no byte of memory changes; here for lines that the buffer already holds (R76, R80, R255, R259, R323). -/
def Obligations.GlobalStores : Prop :=
  ∀ (s : State) (i : Instr) (e : Env) (x : Nat → Xlat), s.Passes i e → e.cell = Cells.st →
    e.Aligned (fun l => (e.devAddr l).toNat) → e.Translates .write x →
    let w := e.ty.bytes
    (e.buffered = false →
      ∃ t co, exec i s = .next t ∧ e.StoreFrame t co [] (e.Takes x w) ∧
        ∀ l < 32, e.act.has l = true → ∀ j < w, e.LastTo (fun k => (x k).pa) w l ((x l).pa + j) →
          t.physByte e.key ((x l).pa + j) = dataByte e.co e.w.b.toNat l j) ∧
    (e.buffered = true → e.w.ord = 0 →
      (∀ l < 32, e.act.has l = true → ∃ p ∈ e.blk.buf, p.1 / 64 = (e.devAddr l).toNat / 64) →
      ∃ t co b, exec i s = .next t ∧ t.cohort e.slot = some co ∧ e.MovedOn co ∧ co.vregs = e.co.vregs ∧
        co.preds = e.co.preds ∧ t.block e.co.blk = some b ∧ b = { e.blk with buf := b.buf, bufBy := b.bufBy } ∧
        (∀ key a, t.physByte key a = s.physByte key a) ∧
        (∀ a, (∀ l < 32, e.act.has l = true → a < (e.devAddr l).toNat ∨ (e.devAddr l).toNat + w ≤ a) →
          b.buf.look a = e.blk.buf.look a) ∧
        ∀ l < 32, e.act.has l = true → ∀ j < w,
          e.LastTo (fun k => (e.devAddr k).toNat) w l ((e.devAddr l).toNat + j) →
          b.buf.look ((e.devAddr l).toNat + j) = some (dataByte e.co e.w.b.toNat l j))

/-- O31. A lane-wise access with an address that is not a multiple of its width raises ALIGN over the lanes that have one, before
any access is made (R84, R256). With aligned addresses, an access to the block's own scratchpad or weight buffer whose address
reaches beyond the bound, and one to a gang member's whose peer address does, or has one of bits 31:24 set, raises DESC over the
lanes that have such an address (R84, R95, R256). That XADDR holds the lowest of the addresses is the model's reading (log 18),
and not stated here. -/
def Obligations.MisalignedAccesses : Prop :=
  ∀ (s : State) (i : Instr) (e : Env), s.Passes i e →
    e.cell ∈ [Cells.ld, Cells.st, Cells.lds, Cells.sts, Cells.ldw, Cells.ldsPeer, Cells.stsPeer, Cells.atomAdd, Cells.atomFadd,
      Cells.atomMin, Cells.atomMax, Cells.atomAnd, Cells.atomOr, Cells.atomXor, Cells.atomXchg, Cells.atomCas, Cells.redAdd,
      Cells.redFadd, Cells.redMin, Cells.redMax, Cells.redAnd, Cells.redOr, Cells.redXor] →
    (e.cell ∈ [Cells.lds, Cells.sts, Cells.ldw, Cells.ldsPeer] ∨ (e.cell ∈ [Cells.ld, Cells.st] ∧ e.w.ord = 0) ∨ e.buffered = false) →
    (e.cell ∈ [Cells.ldsPeer, Cells.stsPeer] → e.blk.member.isSome = true) →
    (e.cell ∈ [Cells.st, Cells.sts, Cells.stsPeer] ∨ e.loadTakes) →
    let near : Prop := e.cell ∈ [Cells.lds, Cells.sts, Cells.ldw, Cells.ldsPeer, Cells.stsPeer]
    let addr (l : Nat) : Nat := if near then (e.va.at l).toNat else (e.devAddr l).toNat
    let out (l : Nat) : Bool :=
      if e.cell = Cells.lds ∨ e.cell = Cells.sts then decide (e.blk.aspBound < addr l + e.ty.bytes)
      else if e.cell = Cells.ldw then decide (e.blk.wbfBound < addr l + e.ty.bytes)
      else e.peerBad (e.va.at l) e.ty.bytes
    ((∃ l < 32, e.act.has l = true ∧ addr l % e.ty.bytes ≠ 0) →
      ∃ info, exec i s = .next (e.traps info) ∧ info.code = 4 ∧
        ∀ l < 32, info.mask.has l = (e.act.has l && addr l % e.ty.bytes != 0)) ∧
    (near → e.Aligned addr → (∃ l < 32, e.act.has l = true ∧ out l = true) →
      ∃ info, exec i s = .next (e.traps info) ∧ info.code = 3 ∧ ∀ l < 32, info.mask.has l = (e.act.has l && out l))

/-- O32. Atomics: each active lane's read-modify-write is one event. With the lanes' elements apart, Vd holds the old value of the
lane's element, and the element holds the new one; every other byte reads as before (R263). -/
def Obligations.Atomics : Prop :=
  ∀ (s : State) (i : Instr) (e : Env) (x : Nat → Xlat), s.Passes i e →
    e.cell ∈ [Cells.atomAdd, Cells.atomFadd, Cells.atomMin, Cells.atomMax, Cells.atomAnd, Cells.atomOr, Cells.atomXor,
      Cells.atomXchg, Cells.atomCas] →
    e.buffered = false → e.loadTakes → e.Aligned (fun l => (e.devAddr l).toNat) → e.Translates .rmw x → e.Clean x →
    let w := e.ty.bytes
    let old (l : Nat) : Nat := s.number e.key (x l).pa w
    ∃ t co, exec i s = .next t ∧ e.StoreFrame t co e.loadRegs (e.Takes x w) ∧
      (e.Apart (fun l => (x l).pa) w → ∀ l < 32, e.act.has l = true →
        t.number e.key (x l).pa w = updated e.cell.opc e.ty (old l) (e.dataNumber e.w.b.toNat l) (e.dataNumber e.w.c.toNat l) ∧
        (e.w.d.toNat ≠ zv → ∀ k < regsOf w, (co.v (e.w.d.toNat + k)).at l = BitVec.ofNat 32 (old l / 2 ^ (32 * k))))

/-- O33. Reductions are posted: OC.RED rises by one, the price of one token for each eight active lanes is paid, and for every
active lane, where the lanes' addresses differ, a request with its address and its data is on its way; memory has not changed
(R110, R125, R264). A request that reaches its partition changes its element as its operation says and nothing else, and the
last one of a burst completes the operation (R111); it waits while the clocks of its partition's die or its cohort's stand.
One whose link drops while it is on its way, or is down when it arrives, changes no memory and parks its cohort with PERM (R339).
That such a request is lost when the link drops, and that OC.RED falls as it is dropped, is the model's reading (log 72, DEDUCED);
that its park writes XADDR too (log 69, DEDUCED). -/
def Obligations.Reductions : Prop :=
  (∀ (s : State) (i : Instr) (e : Env) (x : Nat → Xlat), s.Passes i e →
    e.cell ∈ [Cells.redAdd, Cells.redFadd, Cells.redMin, Cells.redMax, Cells.redAnd, Cells.redOr, Cells.redXor] →
    e.buffered = false → e.Aligned (fun l => (e.devAddr l).toNat) → e.co.ocCount 3 < 63 →
    e.canPay (cdiv (popc e.act) 8) → e.Translates .rmw x →
    ∃ t co, exec i s = .next t ∧ e.Posted t co 3 ∧
      (t.core e.core).wallet = (s.core e.core).wallet - cdiv (popc e.act) 8 ∧ (∀ r ∈ s.reds, r ∈ t.reds) ∧
      ((∀ k < 32, ∀ l < 32, k ≠ l → e.act.has k = true → e.act.has l = true → e.devAddr k ≠ e.devAddr l) →
        ∀ l < 32, e.act.has l = true → ∃ r ∈ t.reds, r.va = e.devAddr l ∧ r.pa = (x l).pa ∧ r.opc = e.cell.opc ∧ r.ty = e.ty ∧
          r.slot = e.slot ∧ r.vf = e.blk.vf ∧ r.value = BitVec.ofNat 64 (e.dataNumber e.w.b.toNat l))) ∧
  ∀ (s : State) (n : Nat) (r : RedReq), s.reds[n]? = some r → 0xB0 ≤ r.opc → r.opc ≤ 0xB6 → r.ty.bits ∈ [32, 64] →
    (r.opc = 0xB1 → r.ty.bits = 32) →
    (s.clocked (dieOf (coreOf r.slot)) = false ∨ (inHbm r.pa = true ∧ s.clocked (homeDie r.pa) = false) →
      exec (.redApply n) s = .next s) ∧
    (s.clocked (dieOf (coreOf r.slot)) = true → (inHbm r.pa = true → s.clocked (homeDie r.pa) = true) →
    let key := (s.vf r.vf).key
    let w := r.ty.bytes
    (r.lost = false → s.physFault r.pa = none → ∃ t, exec (.redApply n) s = .next t ∧ t.reds = s.reds.eraseIdx n ∧
      t.number key r.pa w = updated r.opc r.ty (s.number key r.pa w) (r.value.toNat % 2 ^ r.ty.bits) 0 ∧
      (∀ a, (a < r.pa ∨ r.pa + w ≤ a) → t.physByte key a = s.physByte key a) ∧
      ((∃ q ∈ t.reds, q.id = r.id) → ∀ k c, s.cohort k = some c → ∃ c', t.cohort k = some c' ∧ c'.ocRed = c.ocRed) ∧
      ((∀ q ∈ t.reds, q.id ≠ r.id) → ∀ c, s.cohort r.slot = some c → (∃ o, c.ocRed = [o] ∧ o.id = r.id) →
        ∃ c', t.cohort r.slot = some c' ∧ c'.ocCount 3 = 0)) ∧
    ∀ code c, (if r.lost then some 17 else s.physFault r.pa) = some code → s.cohort r.slot = some c → c.park = none →
      ∃ t c' rec, exec (.redApply n) s = .next t ∧ t.reds = s.reds.eraseIdx n ∧
        (∀ key a, t.physByte key a = s.physByte key a) ∧ t.cohort r.slot = some c' ∧ c'.park = some rec ∧ rec.code = code ∧
        rec.cls = 2 ∧ rec.addr = r.va ∧ rec.nest = false ∧ c'.xaddr = r.va.setWidth 32 ∧
        ((∀ q ∈ s.reds.eraseIdx n, q.id ≠ r.id) → c.ocRed = [{ id := r.id }] → c'.ocCount 3 = 0))

/-! ### Barriers, copies, waits, transactions (spec/11_isa_memory_sync.md, spec/04_memory_spaces.md) -/

/-- O34. Barrier objects: BAR.INIT writes PEND and EXP with the count and the rest as zero; BAR.XIN and BAR.XOUT add the count to
IN and OUT; BAR.ARR leaves GEN in Vd and takes one from PEND, and the arrival that completes the opening condition opens the
object, so that GEN rises mod 16 and PEND is EXP again; BAR.WAIT holds while GEN equals bits 3:0 of Vb or the cohort's wave is
still to come, and else goes on. Registers and other bytes do not change (R105, R106, R108, R109, R267). That the object is one
of its block from then on, which R48 asks about, is the model's reading (log 51). -/
def Obligations.Barriers : Prop :=
  ∀ (s : State) (i : Instr) (e : Env) (bi : Nat) (b : Block) (off : Nat), s.Passes i e →
    e.cell ∈ [Cells.barInit, Cells.barArr, Cells.barWait, Cells.barXin, Cells.barXout] → e.BarReady bi b off →
    (e.cell ≠ Cells.barArr → e.vb.isU = true) → (e.cell = Cells.barArr → e.destTakes true) → (e.cell ≠ Cells.barWait → e.surr = false) →
    let n := (e.vb.at 0).toNat
    let o := s.bar b off
    let ok : Prop := o.rsv = 0 ∧ o.exp ≠ 0
    let frame (t : State) (co : Cohort) (ds : List Nat) : Prop := t.cohort e.slot = some co ∧ e.MovedOn co ∧
      (∃ b', t.block bi = some b' ∧ b' = { b with objs := b'.objs } ∧ off ∈ b'.objs) ∧
      (∀ m, m ∉ ds → co.v m = e.co.v m) ∧ co.preds = e.co.preds ∧
      (∀ c a, (c ≠ b.core ∨ a < b.aspBase + off ∨ b.aspBase + off + 16 ≤ a) → bufAt (t.core c).asp a = bufAt (s.core c).asp a) ∧
      ∀ key a, t.physByte key a = s.physByte key a
    (e.cell = Cells.barInit → 1 ≤ n → n ≤ 65535 → ∃ t co, exec i s = .next t ∧ frame t co [] ∧
      t.bar b off = { gen := 0, pend := n, exp := n, inn := 0, out := 0 }) ∧
    (e.cell = Cells.barXin → ok → o.inn + n ≤ 65535 → ∃ t co, exec i s = .next t ∧ frame t co [] ∧
      t.bar b off = { o with inn := o.inn + n }) ∧
    (e.cell = Cells.barXout → ok → o.out + n ≤ 65535 → ∃ t co, exec i s = .next t ∧ frame t co [] ∧
      t.bar b off = { o with out := o.out + n }) ∧
    (e.cell = Cells.barArr → ok → o.pend ≠ 0 → ∃ t co, exec i s = .next t ∧ frame t co [e.w.d.toNat] ∧
      t.bar b off = (if o.pend = 1 ∧ o.inn = 0 ∧ o.out = 0 then { o with gen := (o.gen + 1) % 16, pend := o.exp }
        else { o with pend := o.pend - 1 }) ∧
      ∀ l < 32, e.act.has l = true → e.w.d.toNat ≠ zv → (co.v e.w.d.toNat).at l = BitVec.ofNat 32 o.gen) ∧
    (e.cell = Cells.barWait → ok →
      if o.gen = n % 16 ∨ s.inWave e.slot = true then
        ∃ t co, exec i s = .next t ∧ t.cur.waited = true ∧ t.cohort e.slot = some co ∧ co = { e.co with waits := co.waits }
      else ∃ t co, exec i s = .next t ∧ frame t co [] ∧ t.bar b off = o ∧ co = { e.co with lanes := co.lanes, waits := co.waits } ∧
        (∀ k, k ≠ e.slot → t.cohort k = s.cohort k) ∧ { t with cohorts := s.cohorts, blocks := s.blocks, cur := s.cur } = s)

/-- O35. A copy whose operands pass its checks is posted once its price of two tokens for each 4,096 bytes is paid and OC.COPY is
below 63: the copy joins the end of its channel with its destination, source and length, OC.COPY rises by one, and the
cohort's write pointer for the channel is the start of the destination (R99, R101, R104, R125, R268, R270). -/
def Obligations.CopiesArePosted : Prop :=
  ∀ (s : State) (i : Instr) (e : Env) (k : CopyKind), s.Passes i e →
    (e.cell = Cells.cpy ∧ k = .cpy ∨ e.cell = Cells.cpym ∧ k = .cpym ∨ e.cell = Cells.cpyo ∧ k = .cpyo ∨
      e.cell = Cells.cpyp ∧ k = .cpyp) →
    (k = .cpym → e.blk.member.isSome = true ∧ e.surr = false) → (k = .cpyo → e.buffered = false) →
    (k = .cpyp → e.blk.member.isSome = true ∧ e.buffered = false) →
    e.fieldU (k == .cpyo) e.w.a.toNat = true → e.fieldU (k == .cpy || k == .cpym) e.w.b.toNat = true →
    e.fieldU (e.cRcv || e.cSnd) e.w.c.toNat = true →
    (e.cDec = true → e.cLen % 2 = 0 ∧ (e.va.at 0).toNat % 2 = 0) → e.copyDesc k = none →
    (∀ m ∈ e.copyMembers k, (s.memberBlock e.co.blk e.blk m).isSome = true) →
    e.co.ocCount 0 < 63 → e.canPay (2 * cdiv e.cLen 4096) →
    ∃ t co c, exec i s = .next t ∧ e.Posted t co 0 ∧
      (t.core e.core).wallet = (s.core e.core).wallet - 2 * cdiv e.cLen 4096 ∧
      (t.core e.core).chan e.w.d.toNat = (s.core e.core).chan e.w.d.toNat ++ [c] ∧
      c.slot = e.slot ∧ c.blk = e.co.blk ∧ c.kind = k ∧ c.len = e.cLen ∧ c.started = false ∧ c.prog = 0 ∧
      c.dst = (if k = .cpyo then e.a64 0 else (e.va.at 0).setWidth 64) ∧
      c.src = (if k = .cpy ∨ k = .cpym then e.b64 0 else (e.vb.at 0).setWidth 64) ∧
      co.ptr e.w.d.toNat = c.dst.setWidth 32

/-- O36. WAITOC holds until its class's counter is at most n, WAITWP until the channel's pointer has reached Vb, and RDWP reads
the pointer as a uniform value; none of them changes anything else (R101, R126, R274, R275). A transaction with a conflict
aborts at an instruction boundary with code 2: every running lane at the abort address, the code in its register, its buffer
gone and no byte of memory written (R81, R277). The oldest pending opening of a cluster lets its next wave of waiting cohorts
go, and the others wait for theirs (R109). -/
def Obligations.WaitsConflictsAndWaves : Prop :=
  (∀ (s : State) (i : Instr) (e : Env), s.Passes i e →
     let waits : Prop := ∃ t co, exec i s = .next t ∧ t.cur.waited = true ∧ t.cohort e.slot = some co ∧
       co = { e.co with waits := co.waits } ∧ (∀ k, k ≠ e.slot → t.cohort k = s.cohort k) ∧
       { t with cohorts := s.cohorts, cur := s.cur, nextId := s.nextId } = s
     let passes : Prop := ∃ t co, exec i s = .next t ∧ e.RegisterFrame t co [] [] ∧ co.fpctl = e.co.fpctl
     (e.cell = Cells.waitoc →
       if e.co.ocCount e.w.a.toNat ≤ e.w.b.toNat then passes else waits) ∧
     (e.cell = Cells.waitwp →
       (e.vb.isU = false → exec i s = .next (e.traps { code := 2, mask := e.act })) ∧
       (e.vb.isU = true → if (e.vb.at 0).toNat ≤ (e.co.ptr e.w.a.toNat).toNat then passes else waits)) ∧
     (e.cell = Cells.rdwp → e.destTakes true → ∃ t co, exec i s = .next t ∧ e.RegisterFrame t co [e.w.d.toNat] [] ∧
       co.fpctl = e.co.fpctl ∧
       ∀ l < 32, e.act.has l = true → e.w.d.toNat ≠ zv → (co.v e.w.d.toNat).at l = e.co.ptr e.w.a.toNat)) ∧
  ((∀ (s : State) (slot : Nat) (co : Cohort) (x : Tx), s.cohort slot = some co → co.tx = some x →
     (x.conflict = false → exec (.txConflict slot) s = .next s) ∧
     (x.conflict = true → s.clocked (dieOf (coreOf slot)) = true →
       ∃ t co', exec (.txConflict slot) s = .next t ∧ t.cohort slot = some co' ∧ co'.tx = none ∧
         (∀ l < 32, co.live.has l = true → (co'.lane l).pc = x.abort ∧ (co'.lane l).waitj = none) ∧
         (∀ l < 32, co.live.has l = false → co'.lane l = co.lane l) ∧
         (x.vd ≠ zv → co'.v x.vd = .u 2#32) ∧ (∀ n, n ≠ x.vd → co'.v n = co.v n) ∧ co'.preds = co.preds ∧
         (∀ b, s.block co.blk = some b → ∃ b', t.block co.blk = some b' ∧
           b' = { b with buf := [], bufBy := [], holder := none, coll := b'.coll } ∧ (b.coll = none → b'.coll = none) ∧
           ∀ c, b'.coll = some c → co.cohid ∉ c.arrived) ∧
         (∀ k, k ≠ slot → t.cohort k = s.cohort k) ∧ { t with cohorts := s.cohorts, blocks := s.blocks } = s)) ∧
   ∀ (s : State) (cl : Nat) (w : Wave) (ws : List Wave), s.clocked (clusterDie cl) = true →
     (s.cluster cl).waves = w :: ws →
     ∃ t, exec (.barrierWave cl) s = .next t ∧ { t with clusters := s.clusters } = s ∧ (∀ k, k ≠ cl → t.cluster k = s.cluster k) ∧
       t.cluster cl = { s.cluster cl with waves := (t.cluster cl).waves } ∧
       (w.slots.length ≤ w.size → (t.cluster cl).waves = ws) ∧
       (w.size < w.slots.length → (t.cluster cl).waves = ws ++ [{ w with slots := w.slots.drop w.size }]))

/-- O37. Explicit transactions: TXB opens one with an empty buffer and a Vd of 0; TXC writes every buffered byte and closes it,
or, after a conflict, aborts; TXA aborts; TXW puts the lanes' lines under watch. An abort discards the buffer, sends every
running lane to the abort address and leaves the cause in Vd: 1 for TXA, 2 for a conflict (R80, R81, R276, R277). GCHK, in a
surrogate run, leaves in RESID the greatest magnitude it has been given, or the canonical NaN once a NaN was among them;
outside a surrogate run it is ILLEGAL, and on a value that is not uniform it raises SHAPE (R77, R279). -/
def Obligations.TransactionsAndGuards : Prop :=
  (∀ (s : State) (i : Instr) (e : Env), s.Passes i e → e.surr = false →
     let aborted (x : Tx) (code : W32) : Prop := ∃ t co b, exec i s = .next t ∧ t.cohort e.slot = some co ∧ co.tx = none ∧
       (x.vd ≠ zv → co.v x.vd = .u code) ∧ (∀ n, n ≠ x.vd → co.v n = e.co.v n) ∧ co.preds = e.co.preds ∧
       (∀ l < 32, e.co.live.has l = true → (co.lane l).pc = x.abort) ∧ t.block e.co.blk = some b ∧ b.buf = [] ∧ b.holder = none ∧
       ∀ key a, t.physByte key a = s.physByte key a
     (e.cell = Cells.txb → e.co.tx.isSome = true → exec i s = .next (e.traps { code := 8, mask := e.act })) ∧
     (e.cell = Cells.txb → e.co.tx = none → e.full = true → e.blk.holder = none →
       ∃ t co b, exec i s = .next t ∧ t.cohort e.slot = some co ∧ e.MovedOn co ∧
         co.tx = some { abort := e.target, vd := e.w.d.toNat } ∧
         (e.w.d.toNat ≠ zv → co.v e.w.d.toNat = .u 0) ∧ (∀ n, n ≠ e.w.d.toNat → co.v n = e.co.v n) ∧ co.preds = e.co.preds ∧
         t.block e.co.blk = some b ∧ b = { e.blk with holder := some e.slot, buf := [], bufBy := [] } ∧
         ∀ key a, t.physByte key a = s.physByte key a) ∧
     (e.cell = Cells.txa → ∀ x, e.co.tx = some x → e.full = true → aborted x 1) ∧
     (e.cell = Cells.txc → ∀ x, e.co.tx = some x → e.full = true → x.conflict = true → aborted x 2) ∧
     (e.cell = Cells.txc → ∀ x l, e.co.tx = some x → e.full = true → x.conflict = false →
       s.commitXlat (s.coreTlbs e.core) e.blk.vf .rmw e.blk.buf = .ok l →
       ∃ t co b, exec i s = .next t ∧ t.cohort e.slot = some co ∧ co.tx = none ∧ e.MovedOn co ∧ co.vregs = e.co.vregs ∧
         co.preds = e.co.preds ∧ t.block e.co.blk = some b ∧ b = { e.blk with buf := [], bufBy := [], holder := none } ∧
         (∀ a, (∀ p ∈ l, p.1 ≠ a) → t.physByte e.key a = s.physByte e.key a) ∧
         ((l.map Prod.fst).Nodup → ∀ p ∈ l, t.physByte e.key p.1 = p.2)) ∧
     (e.cell = Cells.txw → ∀ x p, e.co.tx = some x → e.Translates .read p → x.watch.length + popc e.act ≤ 16 →
       ∃ t co x', exec i s = .next t ∧ e.OnlyCohort t co ∧ e.MovedOn co ∧
         co = { e.co with lanes := co.lanes, waits := co.waits, tx := some x' } ∧ (∀ n ∈ x.watch, n ∈ x'.watch) ∧
         (∀ l < 32, e.act.has l = true → (p l).pa / 64 ∈ x'.watch) ∧ (x.conflict = true → x'.conflict = true) ∧
         x'.abort = x.abort ∧ x'.vd = x.vd)) ∧
  (∀ (s : State) (i : Instr) (e : Env), s.Passes i e → e.cell = Cells.gchk →
     (e.surr = false → exec i s = .next (e.traps { code := 1, mask := e.act })) ∧
     (e.surr = true → e.va.isU = false → exec i s = .next (e.traps { code := 2, mask := e.act })) ∧
     (e.surr = true → e.va.isU = true →
       let m := e.va.at 0 &&& 0x7FFFFFFF#32
       ∃ t co b, exec i s = .next t ∧ t.cohort e.slot = some co ∧ e.MovedOn co ∧
         co = { e.co with lanes := co.lanes, waits := co.waits } ∧ t.block e.co.blk = some b ∧
         b = { e.blk with resid := b.resid, gseen := true } ∧
         ((v32 m).isNan = true ∨ (v32 e.blk.resid).isNan = true → b.resid = 0x7FC00000#32) ∧
         ((v32 m).isNan = false → (v32 e.blk.resid).isNan = false →
           (e.blk.gseen = false → b.resid = m) ∧
           (e.blk.gseen = true → (b.resid = m ∨ b.resid = e.blk.resid) ∧ (v32 m).ext ≤ (v32 b.resid).ext ∧
             (v32 e.blk.resid).ext ≤ (v32 b.resid).ext))))

/-! ### Engines and registers of the core (spec/12_isa_engines_system.md) -/

/-- O38. DSET builds a descriptor from its base, extent and pitch, and DGET reads one back, register by register; TZERO clears a
tile, TRD reads 32 elements of one, TWR writes those of the active lanes, and TCVT rounds a scaled copy of every element (R282
to R288). -/
def Obligations.DescriptorsAndTiles : Prop :=
  ∀ (s : State) (i : Instr) (e : Env), s.Passes i e →
    let d := e.w.d.toNat
    let tiles (f : Nat → Nat → W32) : Prop := ∃ t co b, exec i s = .next t ∧ t.cohort e.slot = some co ∧ e.MovedOn co ∧
      co = { e.co with lanes := co.lanes, waits := co.waits } ∧ t.block e.co.blk = some b ∧
      b = { e.blk with tiles := b.tiles } ∧ ∀ n < 24, ∀ k < 16384, b.tile n k = f n k
    (e.cell = Cells.dset → e.va.isU = true → e.fieldU (e.w.sub.getLsbD 1) e.w.b.toNat = true →
      ∃ t co, exec i s = .next t ∧ e.OnlyCohort t co ∧ e.MovedOn co ∧
        co = { e.co with lanes := co.lanes, waits := co.waits, descs := co.descs } ∧
        (∀ n, n ≠ d → co.d n = e.co.d n) ∧ (co.d d).extractLsb' 0 32 = e.va.at 0 ∧ (co.d d).extractLsb' 32 32 = e.vb.at 0 ∧
        (co.d d).extractLsb' 64 32 =
          (if e.w.sub.getLsbD 1 && e.w.b.toNat != zv then (e.co.v (e.w.b.toNat + 1)).at 0 else 0) ∧
        (co.d d).extractLsb' 96 32 = if e.w.sub.getLsbD 0 then 2#32 else 1#32) ∧
    (e.cell = Cells.dget → e.destTakes true →
      ∃ t co, exec i s = .next t ∧ e.RegisterFrame t co [d, d + 1, d + 2, d + 3] [] ∧ co.fpctl = e.co.fpctl ∧
        ∀ l < 32, e.act.has l = true → d ≠ zv → ∀ k < 4,
          (co.v (d + k)).at l = (e.co.d e.w.a.toNat).extractLsb' (32 * k) 32) ∧
    (e.blk.tiles.wf = true →
      (e.cell = Cells.tzero → tiles (fun n k => if n = d then 0 else e.blk.tile n k)) ∧
      (e.cell = Cells.twr → e.vb.isU = true → (e.vb.at 0).toNat ≤ 16352 →
        let off := (e.vb.at 0).toNat
        tiles (fun n k => if n = d ∧ off ≤ k ∧ k < off + 32 ∧ e.act.has (k - off) = true then e.va.at (k - off)
          else e.blk.tile n k)) ∧
      (e.cell = Cells.tcvt → e.vb.isU = true →
        tiles (fun n k => if n = d then
            (let x := e.blk.tile e.w.a.toNat k
             let v : XVal := if e.w.sub.getLsbD 9 then XVal.ofInt x.toInt else v32 x
             roundF32 ((fmtOf e.ty).value (roundFmt (fmtOf e.ty) e.rm e.w.satField e.w.nsField
               (xmul v (v32 (e.vb.at 0))).1).bits))
          else e.blk.tile n k))) ∧
    (e.cell = Cells.trd → e.loadTakes → e.vb.isU = true → (e.vb.at 0).toNat ≤ 16352 →
      ∃ t co, exec i s = .next t ∧ e.RegisterFrame t co [d] [] ∧ co.fpctl = e.co.fpctl ∧
        ∀ l < 32, e.act.has l = true → d ≠ zv → (co.v d).at l = e.blk.tile e.w.a.toNat ((e.vb.at 0).toNat + l))

/-- O39. Matrix operations, CMPR and VGA are posted: with a full issue, operands that pass the checks of R285, R293 and R294, the
counter below 63, a place free and the price paid, the operation joins its cluster's engine with the cohort's descriptors, and
its counter rises by one; no tile, register or predicate has changed yet (R45, R125, R289, R291, R294, R295, R298). -/
def Obligations.EngineOperationsArePosted : Prop :=
  ∀ (s : State) (i : Instr) (e : Env), s.Passes i e →
    let k := kTotal e.matTy e.w.passes
    let a := Dsc.of (e.co.d e.w.a.toNat)
    let b := Dsc.of (e.co.d e.w.b.toNat)
    let sparse := e.cell == Cells.mmas
    let gather := e.cell == Cells.mmag
    let ra := rowsA e.matTy k sparse gather
    let rb := rowsB e.matTy k e.w.grp
    let c := s.cluster (clusterOf e.core)
    let ready (x : Dsc) (spaces : List Nat) (r : Rows) : Prop := x.misaligned r = false ∧ e.dscBad x spaces r = false
    (e.cell ∈ [Cells.mmaE4m3, Cells.mmaE5m2, Cells.mmaI8, Cells.mmaBf16, Cells.mmaQ4a, Cells.mmag, Cells.mmas] →
      e.full = true → (sparse = true ∨ gather = true → e.co.gone = 0) → (e.matTy = .q4a → k % groupOf e.w.grp = 0) →
      ready a [1] ra → ready b [2] rb →
      (gather = true → ∀ x ∈ e.gatherIdx, x.toNat * a.stride ra + ra.len ≤ a.extent) →
      (sparse = true → ∀ r < 128, ∀ g < k / 8, popByte (metaByte e.cReg r g) = 4) →
      e.co.ocCount 1 < 63 → e.placeFree 1 (16 - c.tableUse) = true → e.canPay ((if sparse then 28 else 48) * e.w.passes) →
      ∃ t co m, exec i s = .next t ∧ e.Posted t co 1 ∧ (t.cluster (clusterOf e.core)).mat = c.mat ++ [m] ∧
        m.opc = e.cell.opc ∧ m.fmt = e.matTy ∧ m.tile = e.w.d.toNat ∧ m.da = e.co.d e.w.a.toNat ∧ m.db = e.co.d e.w.b.toNat ∧
        m.passes = e.w.passes ∧ m.granted = 0 ∧ m.written = 0 ∧ m.slot = e.slot ∧ m.blk = e.co.blk ∧
        t.block e.co.blk = some e.blk) ∧
    (e.cell = Cells.cmpr → e.full = true → e.co.gone = 0 →
      let n := e.w.modb.toNat % 128 + 1
      let kk := kTotal e.ty e.w.passes
      ready a [1] { n := n, len := kk / 2 * elemBytes e.ty } → ready b [1, 2] { n := n, len := kk * elemBytes e.ty } →
      e.co.ocCount 1 < 63 → e.canPay 8 →
      ∃ t co m, exec i s = .next t ∧ e.Posted t co 1 ∧ (t.cluster (clusterOf e.core)).mat = c.mat ++ [m] ∧ m.opc = 0xEF ∧
        m.rows = n ∧ m.run = e.w.d.toNat ∧ m.da = e.co.d e.w.a.toNat ∧ m.db = e.co.d e.w.b.toNat ∧
        (e.w.d.toNat ≠ zv → { op := m.id, first := e.w.d.toNat, count := 4 * cdiv kk 32 } ∈ co.pending)) ∧
    (e.cell = Cells.vga → e.loadTakes → a.base % 4 = 0 → b.base % 4 = 0 →
      e.dscBad a [1, 2] { n := 1, len := a.extent } = false → e.dscBad b [1, 2] { n := 1, len := b.extent } = false →
      a.extent ≤ 131072 → b.extent / 4 ≤ 65535 → e.co.ocCount 2 < 63 → e.placeFree 2 (32 - c.vga.length) = true →
      e.canPay (4 + cdiv (cdiv a.extent 4) 64) →
      ∃ t co v, exec i s = .next t ∧ e.Posted t co 2 ∧ (t.cluster (clusterOf e.core)).vga = c.vga ++ [v] ∧
        v.vd = e.w.d.toNat ∧ v.mask = e.act ∧ v.da = e.co.d e.w.a.toNat ∧ v.db = e.co.d e.w.b.toNat ∧ v.cursor = 0 ∧
        (e.w.d.toNat ≠ zv → { op := v.id, first := e.w.d.toNat, count := 1 } ∈ co.pending))

/-- O40. MVT: each active lane's m outputs are chains of fused multiply-adds of its row of weights with its n inputs, from +0; the
price is one token and one more for each sixteen of m·n·lanes; under TNF a non-finite output raises NONFINITE with the price
paid (R163, R167, R301). -/
def Obligations.MatrixVector : Prop :=
  ∀ (s : State) (i : Instr) (e : Env), s.Passes i e → e.cell = Cells.mvt →
    let bf := e.w.moda.getLsbD 8
    let es : Nat := if bf then 2 else 4
    let f := if bf then fmtBf else fmt32
    let m := e.w.mdim
    let n := e.w.ndim
    let at_ (l : Nat) : Nat := (e.vb.at l).toNat
    let weight (l r j : Nat) : XVal := f.value (leNat ((List.range es).map (fun k =>
      bufAt (s.core e.blk.core).wbf (e.blk.wbfBase + at_ l + (r * n + j) * es + k))))
    let input (l j : Nat) : XVal := v32 (if e.w.a.toNat = zv then 0 else (e.co.v (e.w.a.toNat + j)).at l)
    let out (l r : Nat) : W32 := (List.range n).foldl (fun acc j => fmaF32X (weight l r j) (input l j) acc) 0
    let price := 1 + cdiv (m * n * popc e.act) 16
    (∀ l < 32, e.act.has l = true → at_ l % es = 0 ∧ at_ l + m * n * es ≤ e.blk.wbfBound) → e.canPay price →
    let bad : Prop := tnf e.co.fpctl = true ∧ ∃ l < 32, e.act.has l = true ∧ ∃ r < m, (v32 (out l r)).isFin = false
    (¬ bad → ∃ t co, exec i s = .next t ∧ t.cohort e.slot = some co ∧ e.MovedOn co ∧
      (t.core e.core).wallet = (s.core e.core).wallet - price ∧ (∀ k, (∀ r < m, k ≠ e.w.d.toNat + r) → co.v k = e.co.v k) ∧
      co.preds = e.co.preds ∧ (∀ key x, t.physByte key x = s.physByte key x) ∧
      ∀ l < 32, e.w.d.toNat ≠ zv → ∀ r < m,
        (e.act.has l = true → (co.v (e.w.d.toNat + r)).at l = out l r) ∧
        (e.act.has l = false → (co.v (e.w.d.toNat + r)).at l = (e.co.v (e.w.d.toNat + r)).at l)) ∧
    (bad → e.co.hmode = false → ∀ h, s.handlerOf e.blk = some h →
      ∃ t co, exec i s = .next t ∧ t.cohort e.slot = some co ∧ co.hmode = true ∧ co.xcause.toNat % 256 = 9 ∧
        (t.core e.core).wallet = (s.core e.core).wallet - price)

/-- O41. WALLET reads the wallet and holds until it covers n; BOOST sets the block's claim and returns the cluster's step; PERMITS
and CYCLE read the core's permit sample and its clock count; values above 1,023 and 2 are ILLEGAL (R304 to R307). -/
def Obligations.TokensBoostAndTime : Prop :=
  ∀ (s : State) (i : Instr) (e : Env), s.Passes i e → e.destTakes true →
    let d := e.w.d.toNat
    let n := (e.vb.at 0).toNat
    let w := (s.core e.core).wallet
    (e.cell ∈ [Cells.wallet, Cells.boost] → e.vb.isU = true → (if e.cell = Cells.wallet then 1023 else 2) < n →
      exec i s = .next (e.traps { code := 1, mask := e.act })) ∧
    (e.cell = Cells.wallet → e.vb.isU = true → n ≤ 1023 → n ≤ w →
      ∃ t co, exec i s = .next t ∧ e.RegisterFrame t co [d] [] ∧ co.fpctl = e.co.fpctl ∧
        ∀ l < 32, e.act.has l = true → d ≠ zv → (co.v d).at l = BitVec.ofNat 32 w) ∧
    (e.cell = Cells.wallet → e.vb.isU = true → n ≤ 1023 → w < n →
      ∃ t co, exec i s = .next t ∧ t.cur.waited = true ∧ t.cohort e.slot = some co ∧ co = { e.co with waits := co.waits }) ∧
    (e.cell = Cells.boost → e.vb.isU = true → n ≤ 2 →
      ∃ t co b, exec i s = .next t ∧ t.cohort e.slot = some co ∧ e.MovedOn co ∧ (∀ k, k ≠ d → co.v k = e.co.v k) ∧
        co.preds = e.co.preds ∧ t.block e.co.blk = some b ∧ b = { e.blk with boost := n } ∧
        ∀ l < 32, e.act.has l = true → d ≠ zv → (co.v d).at l = BitVec.ofNat 32 (s.cluster (clusterOf e.core)).step) ∧
    (e.cell = Cells.permits →
      ∃ t co, exec i s = .next t ∧ e.RegisterFrame t co [d] [] ∧ co.fpctl = e.co.fpctl ∧
        ∀ l < 32, e.act.has l = true → d ≠ zv → (co.v d).at l = s.permits e.core) ∧
    (e.cell = Cells.cycle →
      ∃ t co, exec i s = .next t ∧ e.RegisterFrame t co [d, d + 1] [] ∧ co.fpctl = e.co.fpctl ∧
        ∀ l < 32, e.act.has l = true → d ≠ zv → co.v64 d l = (s.core e.core).cycle)

/-- O42. ALLOCREG and FREEREG, under a full issue with no regrouping in effect: FREEREG returns the registers above its count;
ALLOCREG keeps an allocation that is large enough, grows one that the pool covers and sets Pd, and waits otherwise; a register
gained or lost reads as uniform 0 (R38, R39, R303). A partial issue, a regrouping in effect, a count above 256 and a FREEREG that would
grow the allocation are ILLEGAL for the active lanes. NRES makes its node's hand-off once: afterwards the block counts as
handed, and a second NRES changes nothing; in a surrogate run it is ILLEGAL (R67, R302). The group goes on. That the first NRES
waits while the clocks of the die of the agent that took the node stand is the model's reading of R385 (log 37). -/
def Obligations.RegistersAndEarlyResult : Prop :=
  (∀ (s : State) (i : Instr) (e : Env), s.Passes i e →
     let n := 8 * (e.w.a.toNat + 1)
     let d := e.w.d.toNat
     let need := (n - e.co.g) * e.co.liveSlices
     (e.cell ∈ [Cells.allocreg, Cells.freereg] →
       (e.blk.table.isSome = true ∨ e.full = false ∨ 256 < n ∨ (e.cell = Cells.freereg ∧ e.co.g < n)) →
       exec i s = .next (e.traps { code := 1, mask := e.act })) ∧
     (e.cell = Cells.freereg → e.blk.table = none → e.full = true → n ≤ 256 → n ≤ e.co.g →
       ∃ t co, exec i s = .next t ∧ e.OnlyCohort t co ∧ e.MovedOn co ∧ co.g = n ∧ co.preds = e.co.preds ∧
         (∀ k, k < n ∨ 256 ≤ k → co.v k = e.co.v k) ∧ ∀ k, n ≤ k → k < 256 → co.v k = .u 0) ∧
     (e.cell = Cells.allocreg → e.blk.table = none → e.full = true → n ≤ 256 → n ≤ e.co.g →
       ∃ t co, exec i s = .next t ∧ e.RegisterFrame t co [] [d] ∧
         ∀ l < 32, e.act.has l = true → d ≠ zv → (co.p d).has l = true) ∧
     (e.cell = Cells.allocreg → e.blk.table = none → e.full = true → n ≤ 256 → e.co.g < n → e.laterInPool = false →
       need ≤ s.slicePool e.core →
       ∃ t co, exec i s = .next t ∧ e.OnlyCohort t co ∧ e.MovedOn co ∧ co.g = n ∧
         (∀ k, k < e.co.g ∨ n ≤ k → co.v k = e.co.v k) ∧ (∀ k, e.co.g ≤ k → k < n → k ≠ zv → co.v k = .u 0) ∧
         ∀ l < 32, e.act.has l = true → d ≠ zv → (co.p d).has l = true) ∧
     (e.cell = Cells.allocreg → e.blk.table = none → e.full = true → n ≤ 256 → s.slicePool e.core < need → e.co.g < n →
       ∃ t co, exec i s = .next t ∧ t.cur.waited = true ∧ t.cohort e.slot = some co ∧ co = { e.co with waits := co.waits })) ∧
  (∀ (s : State) (i : Instr) (e : Env), s.Passes i e → e.cell = Cells.nres →
     (e.surr = true → exec i s = .next (e.traps { code := 1, mask := e.act })) ∧
     (e.surr = false → e.blk.handed = false → s.takerRuns e.blk = false → ∃ t co, exec i s = .next t ∧ t.cur.waited = true ∧
       t.cohort e.slot = some co ∧ co = { e.co with waits := co.waits } ∧ (∀ k, k ≠ e.slot → t.cohort k = s.cohort k) ∧
       { t with cohorts := s.cohorts, cur := s.cur, nextId := s.nextId } = s) ∧
     (e.surr = false → (e.blk.handed = true ∨ s.takerRuns e.blk = true) → exec i s = .next (e.completes (s.handOff e.co.blk)) ∧
       (e.blk.handed = true → ∃ co, e.RegisterFrame (e.completes s) co [] [] ∧ exec i s = .next (e.completes s)) ∧
       (e.blk.handed = false → ∃ t co, exec i s = .next t ∧ t.cohort e.slot = some co ∧ e.MovedOn co ∧ co.vregs = e.co.vregs ∧
         co.preds = e.co.preds ∧ ∃ b, t.block e.co.blk = some b ∧ b.handed = true)))

/-- O43. REGROUP and REGROUP.RESTORE: a cohort with a partial mask, a running lane at depth above 0, or a busy join raises
ILLEGAL; so does one that arrives at another offset than the cohort of its block that arrived first, or with another general
allocation. A RESTORE with no regrouping in effect does nothing. Any other cohort arrives and is held. Once every living
cohort has arrived and no operation of the block is under way, REGROUP's move takes the living lanes, in rising (key, TID), to
the positions of the slices that hold registers, in rising (COHID, LANEID), each with its registers, predicates, MR and meet
stack and at the instruction after REGROUP; no lane is lost, and the table says where each TID went. RESTORE's move takes
every lane to its launch position and ends the regrouping. The last clause follows one cohort alone through both steps (R32 to
R34, R225). That only running lanes count for the meet depth is the model's choice (log 64). -/
def Obligations.Regrouping : Prop :=
  (∀ (s : State) (i : Instr) (e : Env), s.Passes i e → e.cell ∈ [Cells.regroup, Cells.regroupRestore] →
    let bad : Prop := e.full = false ∨ (∃ l < 32, e.co.live.has l = true ∧ (e.co.lane l).depth ≠ 0) ∨
      ∃ n < 8, (e.co.j n).1 ≠ 0
    let collective : Prop := e.cell = Cells.regroup ∨ e.blk.table.isSome = true
    let held (b : Block) : Prop := ∃ t co, exec i s = .next t ∧ t.cur.waited = true ∧ t.cohort e.slot = some co ∧
      co = { e.co with waits := co.waits } ∧ (∃ r, co.waitAt e.pc = some r ∧ r.kind = .collective) ∧
      (∀ k, k ≠ e.slot → t.cohort k = s.cohort k) ∧ t.block e.co.blk = some b ∧ (∀ k, k ≠ e.co.blk → t.block k = s.block k) ∧
      { t with cohorts := s.cohorts, blocks := s.blocks, cur := s.cur, nextId := s.nextId } = s
    (bad → exec i s = .next (e.traps { code := 1, mask := e.act })) ∧
    (¬ bad → e.cell = Cells.regroupRestore → e.blk.table = none → ∃ t co, exec i s = .next t ∧ e.RegisterFrame t co [] []) ∧
    (¬ bad → collective → e.blk.coll = none →
      held { e.blk with coll := some { restore := decide (e.cell = Cells.regroupRestore), offset := e.pc, next := e.next,
                                       key := e.w.a.toNat, g := e.co.g, arrived := [e.co.cohid] } }) ∧
    (collective → ∀ c, e.blk.coll = some c →
      (c.offset ≠ e.pc ∨ c.g ≠ e.co.g → exec i s = .next (e.traps { code := 1, mask := e.act })) ∧
      (¬ bad → c.offset = e.pc → c.g = e.co.g →
        held (if e.co.cohid ∈ c.arrived then e.blk
          else { e.blk with coll := some { c with arrived := c.arrived ++ [e.co.cohid] } })))) ∧
  (∀ (s : State) (bi : Nat) (b : Block) (c : Collective), s.collReady bi false = some (b, c) → s.BlockOk bi b →
    let key (x : Seat) : Nat := (s.regAt x c.key).toNat
    let tid (x : Seat) : Nat := (s.laneOf x).tid
    ∃ (t : State) (b' : Block) (q : List Seat) (moves : List (Seat × Seat)), exec (.regroupMove bi) s = .next t ∧ s.MoveFrame t bi b b' ∧
      (∀ x, x ∈ q ↔ x.lane < 32 ∧ ∃ co, s.cohort x.slot = some co ∧ co.blk = bi ∧ co.cohid = x.cohid ∧
        co.slices.getLsbD (x.lane / 8) = true) ∧
      q.Pairwise (fun x y : Seat => x.cohid < y.cohid ∨ (x.cohid = y.cohid ∧ x.lane < y.lane)) ∧
      moves.map Prod.fst = q.take moves.length ∧
      (∀ x, x ∈ moves.map Prod.snd ↔ s.LivesAt bi x) ∧ (moves.map Prod.snd).Nodup ∧
      (moves.map Prod.snd).Pairwise (fun x y => key x < key y ∨ (key x = key y ∧ tid x ≤ tid y)) ∧
      (∀ m ∈ moves, s.Moved t m.2 c.next m.1.slot m.1.lane) ∧
      (∀ k co, t.cohort k = some co → co.blk = bi → ∀ l < 32,
        (co.live.has l = true ↔ ∃ m ∈ moves, m.1.slot = k ∧ m.1.lane = l)) ∧
      ∃ tab : List Nat, b'.table = some tab ∧ tab.length = b.nlanes ∧
        ((moves.map (fun m => tid m.2)).Nodup →
          ∀ m ∈ moves, tid m.2 < b.nlanes → tab.getD (tid m.2) 0 = 32 * m.1.cohid + m.1.lane)) ∧
  (∀ (s : State) (bi : Nat) (b : Block) (c : Collective), s.collReady bi true = some (b, c) → s.BlockOk bi b →
    let tid (x : Seat) : Nat := (s.laneOf x).tid
    (∀ x, s.LivesAt bi x → (b.slots.getD (tid x / 32) none).isSome = true) →
    (∀ x y, s.LivesAt bi x → s.LivesAt bi y → tid x = tid y → x = y) →
    ∃ t b', exec (.regroupRestoreMove bi) s = .next t ∧ s.MoveFrame t bi b b' ∧ b'.table = none ∧
      (∀ x, s.LivesAt bi x → ∃ k, b.slots.getD (tid x / 32) none = some k ∧ s.Moved t x c.next k (tid x % 32)) ∧
      ∀ k co, t.cohort k = some co → co.blk = bi → ∀ l < 32, co.live.has l = true →
        (co.lane l).tid = 32 * co.cohid + l ∧ ∃ x, s.LivesAt bi x ∧ tid x = 32 * co.cohid + l) ∧
  ∀ (s : State) (i : Instr) (e : Env), s.Passes i e → e.cell ∈ [Cells.regroup, Cells.regroupRestore] → e.full = true →
    (∀ l < 32, e.co.live.has l = true → (e.co.lane l).depth = 0) → (∀ n < 8, (e.co.j n).1 = 0) →
    (e.cell = Cells.regroupRestore → e.blk.table.isSome = true) → e.blk.coll = none → s.cohorts.wf = true →
    s.BlockOk e.co.blk e.blk → (∀ k co, s.cohort k = some co → co.blk = e.co.blk →
      (k ≠ e.slot → co.live = 0) ∧ co.idleEngines = true ∧ co.vglimit = []) →
    e.co.park = none → e.blk.killed = false → s.coreRuns e.blk.core = true →
    ∃ t u b, exec i s = .next t ∧
      exec (if e.cell = Cells.regroup then .regroupMove e.co.blk else .regroupRestoreMove e.co.blk) t = .next u ∧
      u.block e.co.blk = some b ∧ b.coll = none ∧ (b.table.isSome = true ↔ e.cell = Cells.regroup) ∧
      ∀ k co, u.cohort k = some co → co.blk = e.co.blk → ∀ l < 32, co.live.has l = true → (co.lane l).pc = e.next

/-! ### What the part does on its own (spec/02_execution_model.md, spec/04_memory_spaces.md, spec/12_isa_engines_system.md,
spec/17_power_thermal.md) -/

/-- O44. What a core does between issues. A ready cohort that has not issued for 1,024 clocks of its quarter is the first choice
from then on, in the order in which cohorts reach this state (R21). A waiting priced instruction that sixteen have passed
becomes first in line: of those that have, the first stands at the head of its wallet's line, and no other instruction of the core
takes tokens while it waits (R42); their order among themselves, that of their promotion, is the model's choice (log 106). On a core without clocks nothing of this
changes (R385; the model's reading, log 118). A wallet whose first in line has waited through four revolutions of the ring
becomes starved for it, unless it is starved already (R44); a cohort whose lanes have all exited and whose operations have
ended releases its slot (R36), the last one of its block while the agent that took the node has its clocks (R61, R385; log 37);
and where every resident cohort that is not vacant waits in an ALLOCREG and none of the requests fits in the pool, the highest COHID
of the youngest block completes its own with Pd false and its allocation unchanged; a cohort that waits elsewhere, or a request that
fits, makes the check fail (R40). That a step of the model finds these due at
the start of a quarter's clock is its own choice (log 33). -/
def Obligations.CoreHousekeeping : Prop :=
  (∀ (s : State) (slot : Nat) (co : Cohort), s.cohort slot = some co → s.coreRuns (coreOf slot) = true → 1024 ≤ co.idle →
    co.aged = none →
    ∃ t, exec (.issueAging slot) s = .next t ∧ t.cohort slot = some { co with aged := some s.nextId } ∧
      (∀ k, k ≠ slot → t.cohort k = s.cohort k) ∧ { t with cohorts := s.cohorts, nextId := s.nextId } = s) ∧
  (∀ (s : State) (core q slot n : Nat) (co : Cohort), (slot, co) ∈ s.coreCohorts core → quarterOf slot = q →
    s.mayIssue co = true → co.aged = some n →
    (∀ p ∈ s.coreCohorts core, p ≠ (slot, co) → p.2.aged = none ∨ ∃ m, p.2.aged = some m ∧ n < m) →
    (s.candidates core q).head? = some slot) ∧
  (∀ (s : State) (slot : Nat) (co : Cohort) (r : WaitRec), s.cohort slot = some co →
    co.waits.find? WaitRec.dueFirst = some r →
    (s.clocked (dieOf (coreOf slot)) = false → exec (.priceLineAging slot) s = .next s) ∧
    (s.clocked (dieOf (coreOf slot)) = true → ∃ t co', exec (.priceLineAging slot) s = .next t ∧ t.cohort slot = some co' ∧ co' = { co with waits := co'.waits } ∧
      { r with promoted := some s.nextId } ∈ co'.waits ∧ (∀ w ∈ co.waits, w.pc ≠ r.pc → w ∈ co'.waits) ∧
      (∀ k, k ≠ slot → t.cohort k = s.cohort k) ∧ { t with cohorts := s.cohorts, nextId := s.nextId } = s)) ∧
  (∀ (s : State) (core slot n : Nat) (co : Cohort) (r : WaitRec), coreOf slot = core → (slot, co, r) ∈ s.allWaits → r.priced = true →
    r.promoted = some n →
    (∀ p ∈ s.coreCohorts core, ∀ w ∈ p.2.waits, (p.1, p.2, w) ≠ (slot, co, r) → w.promoted = none ∨ ∃ m, w.promoted = some m ∧ n < m) →
    (s.line core).head? = some (slot, co, r) ∧
      ∀ p ∈ s.coreCohorts core, ∀ pc price, (p.1 ≠ slot ∨ pc ≠ r.pc) → s.holdsPrice p.1 p.2 pc price = false) ∧
  (∀ (s : State) (core : Nat) (x : Nat × Cohort × WaitRec), (s.line core).head? = some x →
    (32 ≤ x.2.2.revs → s.starvedNow core = false → s.clocked (dieOf core) = true → ∃ t, exec (.walletStarved core) s = .next t ∧
      t.core core = { s.core core with starved := some x.2.2.since } ∧
      (∀ c, c ≠ core → t.core c = s.core c) ∧ { t with cores := s.cores } = s) ∧
    (x.2.2.revs < 32 ∨ s.starvedNow core = true ∨ s.clocked (dieOf core) = false → exec (.walletStarved core) s = .next s)) ∧
  (∀ (s : State) (slot : Nat) (co : Cohort) (b : Block), s.cohort slot = some co → s.block co.blk = some b →
    s.clocked (dieOf b.core) = true → s.mayRelease co b = true →
    let b' : Block := { b with slots := setAt b.slots co.cohid none }
    (b'.ended = true → s.takerRuns b = false → exec (.cohortSlotRelease slot) s = .next s) ∧
    (b'.ended = false ∨ s.takerRuns b = true → ∃ t, exec (.cohortSlotRelease slot) s = .next t ∧ t.cohort slot = none ∧
      (b'.ended = false → t.block co.blk = some b' ∧ ∀ k, k ≠ slot → t.cohort k = s.cohort k))) ∧
  (∀ (s : State) (core : Nat) (p : Nat × Cohort), p ∈ s.coreCohorts core → p.2.vacant = false →
    (∀ x, p.2.inAllocreg = some x → x.need ≤ s.slicePool core) → exec (.allocregDeadlock core) s = .next s) ∧
  ∀ (s : State) (core slot : Nat) (co : Cohort) (r : WaitRec) (b : Block) (k : KernelEntry) (bs : List Byte) (w : RawWord),
    s.coreRuns core = true → (slot, co) ∈ s.coreCohorts core → co.vacant = false → co.inAllocreg = some r →
    (∀ p ∈ s.coreCohorts core, p.2.vacant = false → ∃ x, p.2.inAllocreg = some x ∧ s.slicePool core < x.need) →
    (∀ p ∈ s.coreCohorts core, p.2.vacant = false → p ≠ (slot, co) → ∃ c, s.block p.2.blk = some c ∧
      (c.age < b.age ∨ (c.age = b.age ∧ p.2.cohid < co.cohid))) →
    s.cohort slot = some co → s.block co.blk = some b → s.kernelOf b = some k → s.fetchAt core b.vf k.code k.csize r.pc = .ok bs → rawWord bs = some w →
    let d := (wordFields w).d.toNat
    ∃ t co', exec (.allocregDeadlock core) s = .next t ∧ t.cohort slot = some co' ∧
      co' = { co with lanes := co'.lanes, waits := co'.waits, preds := co'.preds } ∧
      (∀ n, n ≠ d → co'.p n = co.p n) ∧ (co'.waitAt r.pc).isNone = true ∧ (∀ j, j ≠ slot → t.cohort j = s.cohort j) ∧
      { t with cohorts := s.cohorts } = s ∧
      ∀ l < 32, co.live.has l = true → (co'.lane l).pc = r.pc + BitVec.ofNat 32 w.size ∧ (d ≠ 0 → d ≠ zv → (co'.p d).has l = false)

/-- O45. The token ring (R43, R377). A ring clock of the controller adds the rate, half of it in THROTTLE, and puts the whole
tokens before station 0; a station gives the tokens that stand before it, one by one, to the wallets of its cluster, a starved
one first, none above 1,023, and passes on what no wallet takes; tokens that come round to the injection point are withdrawn
and counted lost. No token is made or lost otherwise. That a slot moves only into an empty place is the model's choice (log
30). -/
def Obligations.TokenRing : Prop :=
  (∀ (s : State) (die : Nat), s.clocked die = true → (s.die die).slots.get 0 0 = 0 →
    let d := s.die die
    let added := if d.tstate = .throttle then d.rate / 2 else d.rate
    ∃ t, exec (.tokenInject die) s = .next t ∧
      16 * (t.die die).slots.get 0 0 + (t.die die).fraction = d.fraction + added ∧
      (d.fraction + added < 65536 → (t.die die).fraction < 16) ∧ (∀ k, k ≠ 0 → (t.die die).slots.get k 0 = d.slots.get k 0) ∧
      { t.die die with slots := d.slots, fraction := d.fraction } = d ∧ ∀ c, t.core c = s.core c) ∧
  (∀ (s : State) (die station : Nat), s.clocked die = true → (s.die die).slots.get (station + 1) 0 = 0 →
    let d := s.die die
    let first := 4 * (8 * die + station)
    (∀ i < 4, (s.core (first + i)).wallet ≤ 1023) →
    ∃ t, exec (.ringStation die station) s = .next t ∧
      (let w (x : State) : Nat := (x.core first).wallet + (x.core (first + 1)).wallet + (x.core (first + 2)).wallet +
        (x.core (first + 3)).wallet
       w t + (t.die die).slots.get (station + 1) 0 = w s + d.slots.get station 0) ∧
      (∀ i < 4, (s.core (first + i)).wallet ≤ (t.core (first + i)).wallet ∧ (t.core (first + i)).wallet ≤ 1023) ∧
      ((t.die die).slots.get (station + 1) 0 ≠ 0 → ∀ i < 4, (t.core (first + i)).wallet = 1023) ∧
      (t.die die).slots.get station 0 = 0 ∧
      (∀ k, k ≠ station → k ≠ station + 1 → (t.die die).slots.get k 0 = d.slots.get k 0) ∧
      (∀ i < 4, d.slots.get station 0 = 1 → s.starvedNow (first + i) = true → (s.core (first + i)).wallet < 1023 →
        (∀ j < 4, j ≠ i → s.starvedNow (first + j) = false ∧
          ∀ x, (s.line (first + j)).head? = some x → x.2.2.revs < 32) →
        (t.core (first + i)).wallet = (s.core (first + i)).wallet + 1) ∧
      ∀ c, c < first ∨ first + 4 ≤ c → t.core c = s.core c) ∧
  ∀ (s : State) (die : Nat), s.clocked die = true →
    ∃ t, exec (.tokenWithdraw die) s = .next t ∧ (t.die die).slots.get 8 0 = 0 ∧
      (t.die die).tokLost = (s.die die).tokLost + BitVec.ofNat 64 ((s.die die).slots.get 8 0) ∧
      (∀ k, k ≠ 8 → (t.die die).slots.get k 0 = (s.die die).slots.get k 0) ∧ { t with dies := s.dies } = s

/-- O46. Boost and bias (R380, R382). At a pool boundary a die gains a permit when the interval had no boost, up to 64, and in
NORMAL grants holds in rotating order, never more than two at once, to clusters with a claim while 8 permits are left; at its
own boundary a holding cluster pays its claim and steps to it, at once when that is no step up or forward bias has settled,
else when it settles, at the latest by the next boundary; one that is falling, or may no longer hold, steps down by one; bias
goes forward with a step or with one that is rising, and reverse after an empty interval once a cohort has been there. A bias
change settles while the die has its clocks (R385), and a reverse bias goes that the oldest dispatch of the cluster's agent
waits for, and not one that no admission waits for: not for a launch that has stopped or whose slice is over, nor for a return that
another core takes. That the refill comes before the grants is the model's choice (log 31), and
what an admission waits for its reading (log 46). -/
def Obligations.BoostAndBias : Prop :=
  (∀ (s : State) (die : Nat), s.clocked die = true →
    let d := s.die die
    let pool := if d.poolBoost then d.pool else min 64 (d.pool + 1)
    let at_ (i : Nat) : Nat := 8 * die + (d.lastGrant + 1 + i) % 8
    let asks (c : Nat) : Prop := 0 < s.claim c ∧ (s.cluster c).holding = false ∧ (s.cluster c).falling = false
    ∃ t, exec (.poolBoundary die) s = .next t ∧ (t.die die).pool = pool ∧
      (s.holders die ≤ 2 → t.holders die ≤ 2) ∧
      (∀ c, { t.cluster c with holding := (s.cluster c).holding } = s.cluster c ∧
        ((s.cluster c).holding = true → (t.cluster c).holding = true) ∧
        ((t.cluster c).holding = true → (s.cluster c).holding = true ∨
          (clusterDie c = die ∧ d.tstate = .normal ∧ 8 ≤ pool ∧ asks c))) ∧
      (∀ i < 8, d.tstate = .normal → 8 ≤ pool → s.holders die < 2 → asks (at_ i) → (∀ j < i, ¬ asks (at_ j)) →
        (t.cluster (at_ i)).holding = true)) ∧
  (∀ (s : State) (cl : Nat), s.clocked (clusterDie cl) = true →
    let c := s.cluster cl
    let d := s.die (clusterDie cl)
    ∃ t, exec (.clusterBoundary cl) s = .next t ∧ (∀ k, k ≠ cl → t.cluster k = s.cluster k) ∧
      (let c' := t.cluster cl
       let d' := t.die (clusterDie cl)
       let st := if c.rising = 0 then c.step else c.rising
       let claim := s.claim cl
       (c.holding = false → c.falling = false → c'.step = st ∧ c'.rising = 0 ∧ d'.pool = d.pool) ∧
       (c.holding = true → c.falling = false → d.tstate = .normal → 0 < d.pool →
         d'.pool = d.pool - min claim d.pool ∧
         if claim ≤ st ∨ (c.bias = .forward ∧ (c.settled = true ∨ c.rising ≠ 0)) then
           c'.step = claim ∧ c'.rising = 0 ∧ c'.holding = decide (claim ≠ 0)
         else c'.step = st ∧ c'.rising = claim ∧ c'.holding = true) ∧
       (c.falling = true ∨ (c.holding = true ∧ (d.tstate ≠ .normal ∨ d.pool = 0)) →
         c'.step = st - 1 ∧ c'.rising = 0 ∧ d'.pool = d.pool ∧ c'.falling = decide (1 < st) ∧ c'.holding = decide (1 < st)) ∧
       c'.bias = (if 0 < c'.step ∨ 0 < c'.rising then Bias.forward
         else if s.clusterEmpty cl = true ∧ c.emptyInt = true ∧ c.used = true then Bias.reverse else Bias.none) ∧
       c'.emptyInt = s.clusterEmpty cl)) ∧
  ∀ (s : State) (cl : Nat), (s.clocked (clusterDie cl) = false → exec (.biasSettle cl) s = .next s) ∧
   (s.clocked (clusterDie cl) = true → ∃ t, exec (.biasSettle cl) s = .next t ∧ (t.cluster cl).settled = true ∧
    ((s.cluster cl).bias ≠ .reverse → (t.cluster cl).bias = (s.cluster cl).bias) ∧
    ((s.cluster cl).bias = .reverse →
      (∀ d rest l c pl, (s.cluster cl).waiting = d :: rest → s.launch d.launch = some l → s.engineRuns l = true → l.stop = none →
        l.copiesFree (l.dispatchNeeds d) = true → s.swappedFirst l d = false →
        s.placeOn cl (s.coreOrder cl) (l.dispatchNeeds d) = some [(c, pl)] → clusterOf c = cl → (t.cluster cl).bias = .none) ∧
      ((∀ d rest l, (s.cluster cl).waiting = d :: rest → s.launch d.launch = some l → s.engineRuns l = false ∨ l.stop.isSome = true) →
        (∀ p ∈ s.launches, p.2.search = []) →
        (∀ v u us, s.curVf = some v → swapUnits (s.vf v).swapped = u :: us → ∃ c < 64, (s.returnTo c u).isSome = true) →
        (t.cluster cl).bias = .reverse)) ∧
    (t.cluster cl).step = (if (s.cluster cl).rising = 0 then (s.cluster cl).step else (s.cluster cl).rising) ∧
    (t.cluster cl).rising = 0 ∧
    { t.cluster cl with settled := (s.cluster cl).settled, bias := (s.cluster cl).bias, step := (s.cluster cl).step,
                        rising := (s.cluster cl).rising } = s.cluster cl ∧
    (∀ k, k ≠ cl → t.cluster k = s.cluster k) ∧
    (∀ k, { t.die k with poolBoost := (s.die k).poolBoost } = s.die k) ∧
    { t with clusters := s.clusters, dies := s.dies } = s)

/-- O47. Temperature, posted writes and energy (R376, R383 to R387). A sample of TEMG or more puts the die in EMERGENCY and counts
it; every other move waits until 20 samples have been taken in the state, and falls back only 4 degrees, from EMERGENCY 10
degrees, below a threshold. A posted write is judged oldest first: a rate or thresholds outside the limits are refused, the
refusal is kept, and nothing else changes. A read of ENERGYLO latches the high word, and waits while Grotto holds the latch;
the energy itself is a free value (log 13). That leaving EMERGENCY takes the row of THROTTLE is the model's reading (log 29).
-/
def Obligations.ThermalAndPosted : Prop :=
  (∀ (s : State) (die tmax : Nat), s.released = true →
    let d := s.die die
    let x := tmax % 256
    let cooled : TState := if x + 4 ≤ d.tboost then .normal else if x + 4 ≤ d.tthr then .warm else .throttle
    ∃ t, exec (.thermalSample die tmax) s = .next t ∧ (t.die die).tmax = x ∧ (t.die die).pool = d.pool ∧
      (d.temg ≤ x → (t.die die).tstate = .emergency ∧
        (d.tstate ≠ .emergency → (t.die die).emgCnt = d.emgCnt + 1 ∧ (t.die die).samples = 0)) ∧
      (x < d.temg → d.samples + 1 < 20 → (t.die die).tstate = d.tstate ∧ (t.die die).samples = d.samples + 1) ∧
      (x < d.temg → 20 ≤ d.samples + 1 → (t.die die).emgCnt = d.emgCnt ∧ (t.die die).tstate =
        match d.tstate with
        | .normal => if d.tthr ≤ x then .throttle else if d.tboost ≤ x then .warm else .normal
        | .warm => if d.tthr ≤ x then .throttle else if x + 4 ≤ d.tboost then .normal else .warm
        | .throttle => cooled
        | .emergency => if x + 10 ≤ d.temg then cooled else .emergency)) ∧
  (∀ (s : State) (ras : Bool) (die off : Nat) (v : W32), s.released = true →
    ∃ t, exec (.powerPost ras die off v) s = .next t ∧
      t.grotto.posted = s.grotto.posted ++ [{ ras := ras, die := die, off := off, value := v }] ∧ { t with grotto := s.grotto } = s ∧
      { t.grotto with posted := s.grotto.posted } = s.grotto) ∧
  (∀ (s : State) (p : Posted) (rest : List Posted), s.grotto.posted = p :: rest → p.ras = false → p.off = 0 ∨ p.off = 4 →
    let d := s.die p.die
    let v := p.value.toNat
    let emg := v / 2 ^ 16 % 256
    let thr := v / 2 ^ 8 % 256
    let bst := v % 256
    let ok : Prop := if p.off = 0 then 16 ≤ v % 2 ^ 16 ∧ v % 2 ^ 16 ≤ 8000 ∧ v % 2 ^ 16 + (s.die (1 - p.die)).rate ≤ 16000
      else 60 ≤ emg ∧ emg ≤ 110 ∧ 50 ≤ thr ∧ thr + 5 ≤ emg ∧ 40 ≤ bst ∧ bst ≤ thr
    ∃ t, exec .grottoApply s = .next t ∧ t.grotto.posted = rest ∧
      (ok → p.off = 0 → t.die p.die = { d with rate := v % 2 ^ 16 }) ∧
      (ok → p.off = 4 → t.die p.die = { d with temg := emg, tthr := thr, tboost := bst }) ∧
      (¬ ok → t.die p.die = { d with refused := true }) ∧ ∀ k, k ≠ p.die → t.die k = s.die k) ∧
  ∀ (s : State) (die : Nat),
    (s.released = true → (s.die die).latchHeld = false → ∃ t e, exec (.energyloRead die) s = .next t ∧
      t.die die = { s.die die with energy := e, latch := e.extractLsb' 32 32 } ∧
      t.answer = some (bytesLE 4 (e.toNat % 2 ^ 32)) ∧ (∀ k, k ≠ die → t.die k = s.die k) ∧
      { t with dies := s.dies, answer := s.answer } = s) ∧
    (s.released = false ∨ (s.die die).latchHeld = true → exec (.energyloRead die) s = .next s)

/-- O48. The matrix arbiter (R45, R292): a clock grants one pass to the highest-ranked operation whose next pass is allowed, and
the others that have passes left have waited a clock more; while another operation on the same tile has been granted a pass
and is not finished, no pass is granted on it. A request that has waited 4,096 clocks is ranked first, in the order of
arrival; on a die without clocks it keeps its place (R385; the model's reading, log 118). MMAG's first grant gathers the rows its indices name into the operand latch (R293). One grant a clock is the model's
reading (log 25). -/
def Obligations.MatrixGrants : Prop :=
  (∀ (s : State) (cl : Nat),
    let c := s.cluster cl
    s.clocked (clusterDie cl) = true → c.mat.any MatOp.dueAge = false → (c.mat.map (·.id)).Nodup →
    ∃ t, exec (.matrixPassGrant cl) s = .next t ∧ (t.cluster cl).mat.length = c.mat.length ∧
      { t.cluster cl with mat := c.mat } = c ∧ (∀ k, k ≠ cl → t.cluster k = s.cluster k) ∧ { t with clusters := s.clusters } = s ∧
      (∀ (i : Nat) (m : MatOp), c.mat[i]? = some m → ∃ m' : MatOp, (t.cluster cl).mat[i]? = some m' ∧
        m' = { m with granted := m'.granted, waited := m'.waited, latch := m'.latch } ∧
        m'.waited = (if m.opc ≠ 0xEF ∧ m.granted < m.passes then m.waited + 1 else m.waited) ∧
        (m'.granted ≠ m.granted → m.opc ≠ 0xEF ∧ m.granted < m.passes ∧
          ∀ o ∈ c.mat, o.id ≠ m.id → o.opc ≠ 0xEF → o.blk = m.blk → o.tile = m.tile → o.granted = 0) ∧
        (m'.granted = m.granted + 1 ∨ m'.granted = m.granted) ∧
        (m.opc = 0xED → m.granted = 0 → m'.granted = 1 → ∀ b, s.block m.blk = some b →
          let d := Dsc.of m.da
          let r := rowsA m.fmt (kTotal m.fmt m.passes) false true
          ∀ i < m.idx.length, ∀ y < r.len, m'.latch.getD (i * r.len + y) 0 =
            (s.dscRead b d ((m.idx.getD i 0).toNat * d.stride r + y) 1).headD 0) ∧
        (matAllowed c.mat m = true → (∀ o ∈ c.mat, o ≠ m → matAllowed c.mat o = true → lexLt m.rank o.rank = true) →
          m'.granted = m.granted + 1 ∧
          ∀ (j : Nat) (x y : MatOp), j ≠ i → c.mat[j]? = some x → (t.cluster cl).mat[j]? = some y → y.granted = x.granted))) ∧
  ∀ (s : State) (cl op : Nat) (m : MatOp), m ∈ (s.cluster cl).mat → m.id = op → m.dueAge = true →
    (s.clocked (clusterDie cl) = false → exec (.matrixRequestAging cl op) s = .next s) ∧
    (s.clocked (clusterDie cl) = true → ∃ t a, exec (.matrixRequestAging cl op) s = .next t ∧ { m with aged := some a } ∈ (t.cluster cl).mat ∧
      (∀ o ∈ (s.cluster cl).mat, ∀ b, o.aged = some b → b < a) ∧ (∀ o ∈ (s.cluster cl).mat, o.id ≠ op → o ∈ (t.cluster cl).mat) ∧
      { t with clusters := s.clusters } = s)

/-- O49. What the engines of a cluster do when an operation of theirs ends a pass or completes (R162, R164, R290, R295, R298 to
R300). A pass adds to each tile element its chunk of the inner product of A's row and B's column, with A's rows from the
operand latch for MMAG and with the pruned positions left out for MMAS: for INT8 exactly, clamped to 32 bits; for a float
format the exact sum rounded to FP32, added by FADD; for .q4a, group by group as each ends, the exact product of scale and S −
C rounded and added so, +0 where S = C. No other tile changes, and the last pass completes the operation. CMPR, where B lies
apart from the rows it writes, keeps the four elements of highest magnitude of each group of eight, lower positions first on
ties, in order, and its metadata says which. A VGA that comes to its last row writes its rows to the active lanes of its
issue; one whose stream is malformed writes nothing, and its cohort has VGLIMIT to raise before its next issue. A value
group's words (R296, R297): a value word begins a run, at most sixteen in a row, each with its sum of the B words its
positions name; a row ends with its end word, and the thirty-second ends the stream. What the comparator window holds is open
(log 63). A word with reserved bits, a position with no value before it or outside B, an end word after a value word without a
position, and a stream that ends before its last row are malformed. The operands are read when the pass is written, and a .q4a
group counts in the pass of its last position: the model's choices (log 25). That a result lands in no register that an abort
has made stale is log 91. -/
def Obligations.EngineResults : Prop :=
  ((∀ (s : State) (cl op : Nat) (m : MatOp) (b : Block),
     (s.cluster cl).mat.find? (fun m => m.id == op && m.opc != 0xEF) = some m → s.clocked (clusterDie cl) = true →
     m.written < m.granted → m.written < m.passes → s.block m.blk = some b → b.tiles.wf = true → m.tile < 24 →
     let k := kTotal m.fmt m.passes
     let kn := kTotal m.fmt 1
     let k0 := m.written * kn
     (m.opc = 0xEE → ∀ i < 128, ∀ g < k / 8, popByte (m.metaOf i g) = 4) →
     let part (i : Nat) : List Nat := ((List.range kn).map (k0 + ·)).filter (m.keeps i)
     let a (i x : Nat) : Nat := s.aElem b m i x
     let w (x j : Nat) : Nat := s.bElem b m x j
     let f := fmtOf m.fmt
     ∃ t b', exec (.matrixPassWrite cl op) s = .next t ∧ t.block m.blk = some b' ∧ b' = { b with tiles := b'.tiles } ∧
       (∀ n < 24, n ≠ m.tile → ∀ e < 16384, b'.tile n e = b.tile n e) ∧ (∀ n, n ≠ m.blk → t.block n = s.block n) ∧
       t.cores = s.cores ∧ t.mem = s.mem ∧
       (∀ co, s.cohort m.slot = some co → ∃ co', t.cohort m.slot = some co' ∧ co'.vregs = co.vregs ∧ co'.preds = co.preds ∧
         co'.lanes = co.lanes ∧ (co'.fpctl = co.fpctl ∨ (m.fmt = .i8 ∧ co'.fpctl = co.fpctl ||| 0x20#32)) ∧
         (m.written + 1 = m.passes → (∃ o, co.ocMat = [o] ∧ o.id = op) → co'.ocCount 1 = 0)) ∧
       (m.written + 1 = m.passes → ∀ x ∈ (t.cluster cl).mat, x.id ≠ op) ∧
       (m.written + 1 ≠ m.passes → { m with written := m.written + 1 } ∈ (t.cluster cl).mat) ∧
       (m.fmt = .i8 → ∀ i < 128, ∀ j < 128, b'.tile m.tile (128 * i + j) = BitVec.ofInt 32
         (max (-(2 ^ 31)) (min (2 ^ 31 - 1) ((b.tile m.tile (128 * i + j)).toInt +
           ((part i).map (fun x => sext (a i x) 8 * sext (w x j) 8)).sum)))) ∧
       (m.fmt ∈ [.e4m3, .e5m2, .bf16] → ∀ i < 128, ∀ j < 128,
         ∃ x : XVal, b'.tile m.tile (128 * i + j) = addF32 (b.tile m.tile (128 * i + j)) (roundF32 x) ∧
           ((∀ y ∈ part i, (f.value (a i y)).isFin = true ∧ (f.value (w y j)).isFin = true) → x.isFin = true ∧
             x.rat = ((part i).map (fun y => (f.value (a i y)).rat * (f.value (w y j)).rat)).sum)) ∧
       (m.fmt = .q4a → m.opc ≠ 0xEE → m.grp ≤ 2 → k % groupOf m.grp = 0 → ∀ i < 128, ∀ j < 128,
         let n := groupOf m.grp
         let span (g : Nat) : List Nat := (List.range n).map (g * n + ·)
         let entry (g : Nat) : Nat := s.scaleEntry b m j g
         let sum (g : Nat) : Int := ((span g).map (fun x => sext (a i x) 8 * (w x j : Int))).sum
         let corr (g : Nat) : Int := (entry g / 2 ^ 16 % 16 : Nat) * ((span g).map (fun x => sext (a i x) 8)).sum
         ∃ ys : Nat → XVal, b'.tile m.tile (128 * i + j) =
             ((List.range (k / n)).filter (fun g => decide (k0 < (g + 1) * n ∧ (g + 1) * n ≤ k0 + kn))).foldl
               (fun acc g => addF32 acc (roundF32 (ys g))) (b.tile m.tile (128 * i + j)) ∧
           ∀ g < k / n, (scaleOf (entry g)).isFin = true → (ys g).isFin = true ∧
             (ys g).rat = (scaleOf (entry g)).rat * ((sum g - corr g : Int) : ℚ) ∧
             (sum g = corr g → roundF32 (ys g) = 0))) ∧
   (∀ (s : State) (cl op : Nat) (m : MatOp) (b : Block) (co : Cohort),
     (s.cluster cl).mat.find? (fun m => m.id == op && m.opc == 0xEF) = some m → s.clocked (clusterDie cl) = true →
     s.block m.blk = some b → s.cohort m.slot = some co → m.rows ≤ 128 → m.fmt ∈ [.e4m3, .e5m2, .i8, .bf16] →
     let k := kTotal m.fmt m.passes
     let eb := elemBytes m.fmt
     let da := Dsc.of m.da
     let db := Dsc.of m.db
     let out := da.stride { n := m.rows, len := k / 2 * eb }
     let elt (i x : Nat) : Nat := leNat (s.dscRead b db (i * db.stride { n := m.rows, len := k * eb } + x * eb) eb)
     m.run ≠ zv → m.run + 4 * cdiv k 32 ≤ co.g → co.g ≤ 256 → k / 2 * eb ≤ out → (∀ r, (m.id, r) ∉ co.stale) →
     (db.space = 2 ∨ db.footEnd { n := m.rows, len := k * eb } ≤ da.base ∨
       da.footEnd { n := m.rows, len := k / 2 * eb } ≤ db.base) →
     ∃ t co', exec (.cmprComplete cl op) s = .next t ∧ t.cohort m.slot = some co' ∧ co'.preds = co.preds ∧ co'.lanes = co.lanes ∧
       (∀ n, (n < m.run ∨ m.run + 4 * cdiv k 32 ≤ n) → co'.v n = co.v n) ∧ (∀ x ∈ (t.cluster cl).mat, x.id ≠ op) ∧
       ∀ i < m.rows, ∀ g < k / 8,
         let byte := metaByte (fun r l => (co'.v (m.run + r)).at l) i g
         let kept (p : Nat) : Bool := Nat.testBit byte p
         popByte byte = 4 ∧
         (∀ p < 8, ∀ q < 8, kept p = true → kept q = false →
           magKey m.fmt (elt i (8 * g + q)) < magKey m.fmt (elt i (8 * g + p)) ∨
           (magKey m.fmt (elt i (8 * g + q)) = magKey m.fmt (elt i (8 * g + p)) ∧ p < q)) ∧
         ∀ p < 8, kept p = true → leNat (t.aspRead b (da.base + i * out + (4 * g + popByte (byte % 2 ^ p)) * eb) eb) =
           elt i (8 * g + p)) ∧
   ∀ (s : State) (cl : Nat) (v : VgaOp) (rest : List VgaOp) (co : Cohort), (s.cluster cl).vga = v :: rest →
     s.clocked (clusterDie cl) = true → s.cohort v.slot = some co →
     (∀ rows, s.vgaRun 32769 v = .done rows →
       ∃ t co', exec (.vgaComplete cl) s = .next t ∧ (t.cluster cl).vga = rest ∧ t.cohort v.slot = some co' ∧
         co'.lanes = co.lanes ∧ co'.preds = co.preds ∧ co'.vglimit = co.vglimit ∧ (∀ n, n ≠ v.vd → co'.v n = co.v n) ∧
         (∀ p ∈ co'.pending, p.op ≠ v.id) ∧
         ((v.id, v.vd) ∈ co.stale → co'.v v.vd = co.v v.vd) ∧
         ((v.id, v.vd) ∉ co.stale →
           ∀ l < 32, v.vd ≠ zv → (co'.v v.vd).at l = if v.mask.has l then rows.getD l 0 else (co.v v.vd).at l)) ∧
     (∀ x, s.vgaRun 32769 v = .fault x → co.live ≠ 0 → co.park = none →
       ∃ t co', exec (.vgaComplete cl) s = .next t ∧ (t.cluster cl).vga = rest ∧ t.cohort v.slot = some co' ∧
         co'.vregs = co.vregs ∧ co'.lanes = co.lanes ∧ co'.vglimit = co.vglimit ++ [x] ∧ (∀ p ∈ co'.pending, p.op ≠ v.id))) ∧
  (∀ (s : State) (v : VgaOp) (b : Block), s.block v.blk = some b →
     let da := Dsc.of v.da
     let db := Dsc.of v.db
     let w := leW 32 (s.dscRead b da (4 * v.cursor) 4)
     let kind := w.toNat / 2 ^ 30
     let lo := w.toNat % 2 ^ 16
     let bad : Prop := da.extent < 4 * v.cursor + 4 ∨ w.toNat / 2 ^ 16 % 2 ^ 14 ≠ 0 ∨ kind = 3 ∨
       (kind = 1 ∧ (v.fresh = true ∨ 16 ≤ v.values)) ∨ (kind = 0 ∧ (v.values = 0 ∨ db.extent / 4 ≤ lo)) ∨
       (kind = 2 ∧ (v.fresh = true ∨ lo ≠ 0))
     (bad → ∃ x, s.vgaWord v = .fault x) ∧
     (¬ bad → kind = 1 → ∃ x, s.vgaWord v = .more { v.closeRun with
       cursor := v.cursor + 1, values := v.values + 1, fresh := true, word := w, t := 0, window := x }) ∧
     (¬ bad → kind = 0 → ∃ x, s.vgaWord v = .more { v with
       cursor := v.cursor + 1, fresh := false, window := x, t := addF32 v.t (leW 32 (s.dscRead b db (4 * lo) 4)) }) ∧
     (¬ bad → kind = 2 →
       let rows := v.rows ++ [v.closeRun.acc]
       (rows.length = 32 → s.vgaWord v = .done rows) ∧
       (rows.length ≠ 32 → ∃ x, s.vgaWord v = .more { v with
         window := x, cursor := v.cursor + 1, rows := rows, values := 0, fresh := false, word := 0, t := 0, acc := 0 })))

/-- O50. A copy channel (R99 to R103, R107, R271, R272): its oldest copy starts. A unit is a byte, of device memory for CPY and
CPYM and of the block's own scratchpad for CPYO and CPYP; in decode mode it is the element at the next data byte, nibble by
nibble, rounded to BF16. Units come one by one, in ascending order, to the scratchpad or the weight buffer of every
destination block, of CPYM the four members', or, of CPYO, to device memory, the write pointer of the posting cohort keeping
up; the sender's OUT falls when the last source unit has been read; the last unit lands with the completion, which takes the
copy off its channel, lowers the receivers' IN and OC.COPY. A copy that meets a translation fault, or whose link has dropped
under it, stops, and its cohort parks at its next boundary with all lanes where they are and the address in XADDR (R339, R340;
log 69). That a unit of CPYM lands at all receivers in one step, and that the last unit is read before the completion and lands
with it, is the model's reading (log 21). -/
def Obligations.CopyChannels : Prop :=
  let offset (c : Copy) : Nat := (if c.kind = .cpyp then c.dst.toNat % 2 ^ 22 else c.dst.toNat) + c.prog
  let place (c : Copy) (d : Block) : Nat := (if c.toWbf then d.wbfBase else d.aspBase) + offset c
  let buf (s : State) (c : Copy) (k : Nat) : List Host.Cell := if c.toWbf then (s.core k).wbf else (s.core k).asp
  let apart (s : State) (c : Copy) : Prop := (∀ bi ∈ c.dstBlks, (s.block bi).isSome = true) ∧
    c.dstBlks.Pairwise (fun x y => ∀ dx dy, s.block x = some dx → s.block y = some dy → dx.core ≠ dy.core)
  let lands (s t : State) (c : Copy) (bs : List Byte) (but : Nat → Nat → Prop) : Prop :=
    (∀ bi ∈ c.dstBlks, ∀ d, s.block bi = some d → ∀ i < bs.length, bufAt (buf t c d.core) (place c d + i) = bs.getD i 0) ∧
    (∀ k a, (∀ bi ∈ c.dstBlks, ∀ d, s.block bi = some d → k ≠ d.core ∨ a < place c d ∨ place c d + bs.length ≤ a) →
      ¬ but k a → bufAt (buf t c k) a = bufAt (buf s c k) a) ∧ t.mem = s.mem
  let pointer (s t : State) (c : Copy) (n : Nat) : Prop := ∀ co p, s.cohort c.slot = some co → co.wptrs.look c.ch = some p →
    p.copy = c.id → ∃ co', t.cohort c.slot = some co' ∧ co'.ptr c.ch = p.s + BitVec.ofNat 32 n ∧ co'.lanes = co.lanes ∧
      co'.vregs = co.vregs ∧ co'.preds = co.preds
  (∀ (s : State) (core ch : Nat) (c : Copy) (rest : List Copy), (s.core core).chan ch = c :: rest → c.started = false →
    s.clocked (dieOf core) = true →
    ∃ t, exec (.copyStart core ch) s = .next t ∧ (t.core core).chan ch = { c with started := true } :: rest ∧
      (∀ k, k ≠ ch → (t.core core).chan k = (s.core core).chan k) ∧ (t.core core).asp = (s.core core).asp ∧
      (∀ k, k ≠ core → t.core k = s.core k) ∧ { t with cores := s.cores } = s) ∧
  (∀ (s : State) (core : Nat) (c : Copy) (b : Block) (x y : Xlat) (q : QFmt), s.block c.blk = some b →
    let tl := s.coreTlbs core
    let key := (s.vf b.vf).key
    (c.kind = .cpyo ∨ c.kind = .cpyp →
      s.copyRead core c = .ok ([bufAt (s.core b.core).asp (b.aspBase + c.src.toNat + c.prog)], 0, 0)) ∧
    (c.kind = .cpy ∨ c.kind = .cpym → c.dec = false →
      s.translate tl b.vf (c.src + BitVec.ofNat 64 c.prog) .read = .ok x → s.copyRead core c = .ok ([s.physByte key x.pa], 0, 0)) ∧
    (c.kind = .cpy ∨ c.kind = .cpym → c.dec = true → s.translate tl b.vf c.data .read = .ok x → qfmtOf x.fattr = some q →
      x.page ≤ c.data.toNat → c.data.toNat < x.page + x.size → x.page + x.size ≤ 2 ^ 52 →
      let off := c.data.toNat - x.page
      q.isData off x.size = true →
      (q.efmt ≤ 2 → s.translate tl b.vf (BitVec.ofNat 64 (x.page + q.scaleOff off c.half)) .read = .ok y) →
      let entry := if q.efmt ≤ 2 then leNat (s.physRead key y.pa 4) else 0
      let v := (roundFmt fmtBf .rne false false (v32 (q.decode (s.physByte key x.pa).toNat c.half entry))).bits
      ∃ next h, s.copyRead core c = .ok (bytesLE 2 v, BitVec.ofNat 64 next, h) ∧
        (q.efmt = 2 → c.half = 0 → next = c.data.toNat ∧ h = 1) ∧
        (q.efmt ≠ 2 ∨ c.half ≠ 0 → h = 0 ∧ c.data.toNat < next ∧ next ≤ x.page + x.size ∧
          (next < x.page + x.size → q.isData (next - x.page) x.size = true) ∧
          ∀ a, c.data.toNat < a → a < next → q.isData (a - x.page) x.size = false))) ∧
  (∀ (s : State) (core ch : Nat) (c : Copy) (rest : List Copy) (b : Block) (bs : List Byte) (va : W64) (h : Nat),
    s.runningCopy core ch = some c → (s.core core).chan ch = c :: rest → c.srcDone = false → s.block c.blk = some b →
    s.copyPoison core c = none → s.copyRead core c = .ok (bs, va, h) →
    let c' : Copy := { c with prog := c.prog + c.unit, data := va, half := h }
    (c.kind ≠ .cpyo → apart s c → c.prog + c.unit < c.len → ∃ t, exec (.copyDeliver core ch 1) s = .next t ∧
      (t.core core).chan ch = c' :: rest ∧ lands s t c bs (fun _ _ => False) ∧ t.blocks = s.blocks ∧
      pointer s t c (c.prog + c.unit) ∧ ∀ k, k ≠ c.slot → t.cohort k = s.cohort k) ∧
    (∀ x, c.kind = .cpyo → c.dec = false → c.prog + 1 < c.len →
      s.translate (s.coreTlbs core) b.vf (c.dst + BitVec.ofNat 64 c.prog) .write = .ok x →
      let key := (s.vf b.vf).key
      ∃ t, exec (.copyDeliver core ch 1) s = .next t ∧ (t.core core).chan ch = c' :: rest ∧
        t.physByte key x.pa = bs.getD 0 0 ∧ (∀ a, a ≠ x.pa → t.physByte key a = s.physByte key a) ∧
        (∀ k, (t.core k).asp = (s.core k).asp ∧ (t.core k).wbf = (s.core k).wbf) ∧ pointer s t c (c.prog + 1)) ∧
    (c.len ≤ c.prog + c.unit → ∃ t, exec (.copySourceReadDone core ch) s = .next t ∧
      (t.core core).chan ch = { c with srcDone := true, last := bs } :: rest ∧ t.cohorts = s.cohorts ∧ t.mem = s.mem ∧
      (c.snd = false → ∀ k, (t.core k).asp = (s.core k).asp) ∧
      (c.snd = true →
        let o := s.bar b c.sobj
        1 ≤ o.out → t.bar b c.sobj = if o.pend = 0 ∧ o.inn = 0 ∧ o.out = 1
          then { o with gen := (o.gen + 1) % 16, pend := o.exp, out := 0 } else { o with out := o.out - 1 }))) ∧
  (∀ (s : State) (core ch : Nat) (c : Copy) (rest : List Copy) (b : Block), s.runningCopy core ch = some c →
    (s.core core).chan ch = c :: rest → c.srcDone = true → s.block c.blk = some b →
    let ended (t : State) : Prop := (t.core core).chan ch = rest ∧ pointer s t c c.len ∧
      ∀ co, s.cohort c.slot = some co → ∃ co', t.cohort c.slot = some co' ∧ co'.lanes = co.lanes ∧ co'.vregs = co.vregs ∧
        co'.preds = co.preds ∧ ((∃ o, co.ocCopy = [o] ∧ o.id = c.id) → co'.ocCount 0 = 0)
    let obj (d : Block) : Nat := d.aspBase + c.robj
    (c.kind ≠ .cpyo → apart s c → (∀ bi ∈ c.dstBlks, ∀ d, s.block bi = some d → c.rcv = true → c.toWbf = false →
        place c d + c.last.length ≤ obj d ∨ obj d + 16 ≤ place c d) →
      ∃ t, exec (.copyComplete core ch) s = .next t ∧ ended t ∧
        lands s t c c.last (fun k a => c.rcv = true ∧ c.toWbf = false ∧
          ∃ bi ∈ c.dstBlks, ∃ d, s.block bi = some d ∧ k = d.core ∧ obj d ≤ a ∧ a < obj d + 16) ∧
        (c.rcv = true → ∀ bi ∈ c.dstBlks, ∀ d, s.block bi = some d →
          let o := s.bar d c.robj
          1 ≤ o.inn → t.bar d c.robj = if o.pend = 0 ∧ o.inn = 1 ∧ o.out = 0
            then { o with gen := (o.gen + 1) % 16, pend := o.exp, inn := 0 } else { o with inn := o.inn - 1 })) ∧
    ∀ x v, c.kind = .cpyo → c.dstBlks = [] → c.last = [v] →
      s.translate (s.coreTlbs core) b.vf (c.dst + BitVec.ofNat 64 c.prog) .write = .ok x →
      let key := (s.vf b.vf).key
      ∃ t, exec (.copyComplete core ch) s = .next t ∧ ended t ∧ t.physByte key x.pa = v ∧
        (∀ a, a ≠ x.pa → t.physByte key a = s.physByte key a) ∧
        ∀ k, (t.core k).asp = (s.core k).asp ∧ (t.core k).wbf = (s.core k).wbf) ∧
  ∀ (s : State) (core ch : Nat) (c : Copy) (rest : List Copy) (b : Block) (co : Cohort) (a : W64) (code : Nat),
    s.startedCopy core ch = some c → (s.core core).chan ch = c :: rest →
    ((c.lost = none ∧ ∃ e acc, s.copyFailure core c = some (a, e, acc) ∧ e.code = code) ∨
      (∃ ipa write, c.lost = some (a, ipa, write) ∧ code = 17)) →
    s.block c.blk = some b → b.killed = false → s.cohort c.slot = some co → co.blk = c.blk → co.park = none → co.tx = none →
    ∃ t co' r, exec (.copyFault core ch) s = .next t ∧ (t.core core).chan ch = { c with stopped := true } :: rest ∧
      t.cohort c.slot = some co' ∧ co' = { co with park := some r, waits := [], xaddr := a.setWidth 32 } ∧ r.code = code ∧
      r.cls = 2 ∧ r.addr = a ∧
      r.copy = true ∧ r.ch = ch ∧ r.slot = BitVec.ofNat 32 c.slot ∧ (t.vf b.vf).records = (s.vf b.vf).records ++ [r] ∧
      t.mem = s.mem ∧ ∀ k, k ≠ c.slot → t.cohort k = s.cohort k

/-! ### The front end and the tree engine (spec/14_host_interface.md, spec/03_tree_sweeps.md) -/

/-- O51. Queues and packets (R325, R326, R329 to R331, R335). A notify word moves QWR and sets the queue's pending bit, or stops
the queue with BADWR; a fetch takes the first queue with a pending bit from the start position, which moves on to the next
queue, and finds no packet in an empty queue or one whose EN is clear; a packet that starts moves QRD past itself and has its
effect: PAD and FENCE none of their own, LAUNCH makes a launch, WAITMEM none once its condition holds, SIGNALMEM writes or
adds its value, QCTL raises a vector or stops the queue; a reset clears the queue once nothing of it runs. A launch whose
record passes its checks starts, and one that fails a check completes with its status and DONE, and its packet leaves those in
flight. That FENCE asks nothing of the one coherent store is the model's choice (log 3); a row of a packet kind stands for one
packet of a fetch (log 54). -/
def Obligations.QueuesAndPackets : Prop :=
  (∀ (s : State) (vf qi : Nat) (value : W32), s.released = true →
    let q := (s.vf vf).queue qi
    let v := value.toNat
    ∃ t, exec (.notify vf qi value) s = .next t ∧ { t with vfs := s.vfs } = s ∧
      (q.stop = true → (t.vf vf).queue qi = q) ∧
      (q.stop = false → (q.en = false ∨ v % 64 ≠ 0 ∨ 2 ^ q.log2sz ≤ v) →
        (t.vf vf).queue qi = { q with stop := true, code := 5, eoff := value }) ∧
      (q.stop = false → q.en = true → v % 64 = 0 → v < 2 ^ q.log2sz →
        (t.vf vf).queue qi = { q with qwr := v, pending := true })) ∧
  (∀ (s : State) (v qi : Nat), s.frontRuns v = true → (s.vf v).nextPending = some qi →
    let q := (s.vf v).queue qi
    ∃ t, exec .queueFetch s = .next t ∧ (t.vf v).start = (qi + 1) % 64 ∧
      (q.qrd = q.qwr ∨ q.en = false → (t.vf v).queue qi = { q with pending := false } ∧ { t with vfs := s.vfs } = s) ∧
      ∀ code tag, s.parse v q = .bad code tag → (t.vf v).queue qi =
        { q with pending := false, stop := true, code := code, eoff := BitVec.ofNat 32 q.qrd }) ∧
  (∀ (s : State) (vf qi : Nat) (p : Parsed), s.frontRuns vf = true →
    let q := (s.vf vf).queue qi
    q.pending = true → s.parse vf q = .ok p →
    let moved := (q.qrd + p.size) % 2 ^ q.log2sz
    let only (t : State) : Prop := { t with vfs := s.vfs } = s ∧ (t.vf vf).queue qi = { q with qrd := moved, blocked := false }
    (s.canStart vf q p = true →
      (p.kind = 0 → ∃ t, exec (.pad vf qi) s = .next t ∧ only t) ∧
      (p.kind = 1 → ∃ t l, exec (.launch vf qi) s = .next t ∧ t.launch s.nextId = some l ∧
        l.vf = vf ∧ l.queue = qi ∧ l.tag = p.tag ∧ l.off = q.qrd ∧ l.started = false ∧
        l.lrec = BitVec.ofNat 64 (fld p.bs 8 8) ∧ l.crec = BitVec.ofNat 64 (fld p.bs 16 8) ∧ l.prio = fld p.bs 24 1 % 4 ∧
        ((t.vf vf).queue qi).qrd = moved ∧ ∃ f, ((t.vf vf).queue qi).flight = q.flight ++ [f] ∧ f.launch = some s.nextId ∧
          f.id = l.packet ∧ l.packet = s.nextId + 1) ∧
      (p.kind = 2 → s.waitHolds vf p.bs = true ∧ ∃ t, exec (.waitmem vf qi) s = .next t ∧ only t) ∧
      (p.kind = 3 → ∀ x, s.translate [] vf (BitVec.ofNat 64 (fld p.bs 8 8)) (if fld p.bs 24 1 = 1 then .rmw else .write) = .ok x →
        let key := (s.vf vf).key
        ∃ t, exec (.signalmem vf qi) s = .next t ∧ ((t.vf vf).queue qi).qrd = moved ∧
          t.number key x.pa 8 = (if fld p.bs 24 1 = 1 then (s.number key x.pa 8 + fld p.bs 16 8) % 2 ^ 64 else fld p.bs 16 8) ∧
          ∀ a, (a < x.pa ∨ x.pa + 8 ≤ a) → t.physByte key a = s.physByte key a) ∧
      (p.kind = 4 → ∃ t, exec (.fence vf qi) s = .next t ∧ only t) ∧
      (p.kind = 5 → fld p.bs 8 1 = 0 → ∃ t, exec (.qctlIntr vf qi) s = .next t ∧ t.msix = (some vf, fld p.bs 12 4) :: s.msix ∧
        (t.vf vf).queue qi = { q with qrd := moved, blocked := false }) ∧
      (p.kind = 5 → fld p.bs 8 1 = 1 → ∃ t, exec (.qctlStop vf qi) s = .next t ∧ { t with vfs := s.vfs } = s ∧
        (t.vf vf).queue qi = { q with qrd := moved, blocked := false, stop := true, code := 0 })) ∧
    (p.kind = 2 → s.waitHolds vf p.bs = false → exec (.waitmem vf qi) s = .next s ∧
      (q.blocked = true → exec (.waitmemPoll vf qi) s = .next s)) ∧
    (p.kind = 2 → s.waitHolds vf p.bs = true → q.blocked = true → ∃ t, exec (.waitmemPoll vf qi) s = .next t ∧
      (t.vf vf).queue qi = { q with pending := true } ∧ { t with vfs := s.vfs } = s)) ∧
  (∀ (s : State) (vf qi : Nat), s.released = true →
    let q := (s.vf vf).queue qi
    ∃ t, exec (.queueReset vf qi) s = .next t ∧ { t with vfs := s.vfs } = s ∧
      (q.flight ≠ [] → (t.vf vf).queue qi = { q with rst := true }) ∧
      (q.flight = [] → (t.vf vf).queue qi = { q with
        qrd := 0, qwr := 0, stop := false, code := 0, eoff := 0, pending := false, rst := false, blocked := false })) ∧
  ∀ (s : State) (id : Nat) (l : Launch), s.launch id = some l → l.started = false → s.frontRuns l.vf = true →
    (∀ l', s.checkLaunch l = .ok l' → ∃ t, exec (.launchStart id) s = .next t ∧ t.launch id = some l' ∧ l'.started = true ∧
      l'.vf = l.vf ∧ l'.phase = (if l'.sweep = 1 then .down else .up) ∧ { t with launches := s.launches } = s) ∧
    ∀ st x, s.checkLaunch l = .error st → st ≤ 6 → s.hasBlock id = false → s.translate [] l.vf l.crec .write = .ok x →
      let key := (s.vf l.vf).key
      ∃ t, exec (.launchStart id) s = .next t ∧ t.launch id = none ∧ t.number key x.pa 4 = st ∧
        t.number key (x.pa + 0x38) 8 = 1 ∧ ∀ p ∈ ((t.vf l.vf).queue l.queue).flight, p.id ≠ l.packet

/-- O21. The checks of the front end. On the packet at QRD, in this order (R327, R328, R330): the first 64 bytes translate, or PAGE;
QUEUELEN, WRAP and BADKIND from the header; the wait for the whole packet; the rest translates, or PAGE; BADPKT; the addresses
it names translate, or PAGE. What a WAITMEM asks of the word at ADDR, and which packets start only when those before them have
completed (R329). On a launch (R335): the fields of its record and every kernel-table entry it can name, BADLAUNCH; STACKSZ of
at least 16 · D · F, STACKSIZE (R50); CTXSZ of at least 4096 · (7168 + F) with every page readable and writable, CTXSIZE (R334).
Three things are the model's reading: that a record or a table of kernels which does not translate when the launch starts is
BADLAUNCH, and that NNODES is checked of an explicit tree only (log 44, DEDUCED); and that an ASPB that is no multiple of 16 passes
(log 101). -/
def Obligations.LaunchAndPacketChecks : Prop :=
  (∀ (s : State) (vf : Nat) (q : Queue),
    let base : W64 := q.qbase + BitVec.ofNat 64 q.qrd
    (q.stop = true ∨ q.en = false ∨ q.qrd = q.qwr → s.parse vf q = .none) ∧
    (q.stop = false → q.en = true → q.qrd ≠ q.qwr →
      (¬ s.Maps vf base 64 .read → s.parse vf q = .bad 6 0) ∧
      ∀ bs, s.vmRead [] vf base 64 = .ok bs →
        let h := fld bs 0 8
        let kind := h % 256
        let n := 64 * (h / 2 ^ 8 % 2 ^ 16)
        let tag := h / 2 ^ 32 % 2 ^ 16
        let size := 2 ^ q.log2sz
        (size < n → s.parse vf q = .bad 1 tag) ∧
        (n ≤ size → size < q.qrd + n → s.parse vf q = .bad 2 tag) ∧
        (q.qrd + n ≤ size → 6 ≤ kind → s.parse vf q = .bad 3 tag) ∧
        (q.qrd + n ≤ size → kind ≤ 5 → q.qwr < size →
          let room := if q.qrd ≤ q.qwr then q.qwr - q.qrd else q.qwr + size - q.qrd
          (room < n → s.parse vf q = .none) ∧
          (n ≤ room →
            (¬ s.Maps vf base n .read → s.parse vf q = .bad 6 tag) ∧
            (s.Maps vf base n .read → ¬ PacketOk bs → s.parse vf q = .bad 4 tag) ∧
            (s.Maps vf base n .read → PacketOk bs → ¬ s.NamesMap vf bs → s.parse vf q = .bad 6 tag) ∧
            (s.Maps vf base n .read → PacketOk bs → s.NamesMap vf bs →
              s.parse vf q = .ok { kind := kind, tag := tag, bar := h.testBit 48, size := n, bs := bs }))))) ∧
  (∀ (s : State) (vf : Nat) (q : Queue) (p : Parsed),
    (s.canStart vf q p = true ↔
      (q.flight = [] ∨ (p.bar = false ∧ p.kind ∉ [3, 4, 5])) ∧ (p.kind = 2 → s.waitHolds vf p.bs = true)) ∧
    ∀ x, fld p.bs 8 8 % 8 = 0 → s.translate [] vf (BitVec.ofNat 64 (fld p.bs 8 8)) .read = .ok x →
      let m := fld p.bs 24 8
      let have_ := s.number (s.vf vf).key x.pa 8 &&& m
      let want := fld p.bs 16 8 &&& m
      s.waitHolds vf p.bs = match fld p.bs 32 1 with
        | 0 => decide (have_ = want)
        | 1 => decide (have_ ≠ want)
        | 2 => decide (want ≤ have_)
        | _ => decide (have_ < want)) ∧
  ∀ (s : State) (l : Launch),
    (¬ s.Maps l.vf l.lrec 0x80 .read → s.checkLaunch l = .error 6) ∧
    ∀ r, s.vmRead [] l.vf l.lrec 0x80 = .ok r →
      let f := fld r
      let nk := f 0x48 4
      (¬ RecordOk l r ∨ (∃ k, MayName r k ∧ nk ≤ k) → s.checkLaunch l = .error 6) ∧
      (RecordOk l r → (∀ k, MayName r k → k < nk) →
        (¬ s.Maps l.vf (l.lrec + 0x80) (64 * nk) .read → s.checkLaunch l = .error 6) ∧
        ∀ tb, s.vmRead [] l.vf (l.lrec + 0x80) (64 * nk) = .ok tb →
          let entry (k : Nat) := (tb.drop (64 * k)).take 64
          ((∃ k, MayName r k ∧ ¬ EntryOk (entry k)) → s.checkLaunch l = .error 6) ∧
          ((∀ k, MayName r k → EntryOk (entry k)) →
            (f 0x20 8 < 16 * f 0x28 1 * f 0x2C 4 → s.checkLaunch l = .error 4) ∧
            (16 * f 0x28 1 * f 0x2C 4 ≤ f 0x20 8 →
              let ctx : W64 := BitVec.ofNat 64 (f 0x50 8)
              let ctxOk : Prop := 4096 * (7168 + f 0x2C 4) ≤ f 0x58 8 ∧ s.Maps l.vf ctx (f 0x58 8) .rmw
              (¬ ctxOk → s.checkLaunch l = .error 5) ∧
              (ctxOk → ∃ ks, s.checkLaunch l = .ok { l with
                  tree := BitVec.ofNat 64 (f 0 8), nnodes := f 8 4, sweep := f 0x0C 4 % 4, implicit := (f 0x0C 4).testBit 2,
                  idemp := (f 0x0C 4).testBit 3, swap := (f 0x0C 4).testBit 4, nleaf := f 0x10 4, llanes := f 0x14 2,
                  lrb := f 0x16 2, stack := BitVec.ofNat 64 (f 0x18 8), d := f 0x28 1, f := f 0x2C 4,
                  result := BitVec.ofNat 64 (f 0x30 8), input := BitVec.ofNat 64 (f 0x38 8), tol := BitVec.ofNat 32 (f 0x40 4),
                  txbuf := f 0x44 4, ctx := ctx, kernels := ks, started := true, phase := if f 0x0C 4 % 4 = 1 then .down else .up } ∧
                ∀ k, (MayName r k ↔ ∃ en, (k, en) ∈ ks) ∧ ∀ en, (k, en) ∈ ks →
                  let g := fld (entry k)
                  en = { code := BitVec.ofNat 64 (g 0 8), csize := g 8 4, gregs := g 12 2, narrow := g 14 2, tiles := g 16 1,
                         aspb := g 20 4, wbfb := g 24 4, handler := BitVec.ofNat 32 (g 28 4) }))))

/-- O52. Takes (R58, R60 to R63, R66). An agent that is free takes the next child of its top frame while that is OPEN; with an
empty stack it steals from the lowest OPEN frame of the first cluster in its order, and while its top frame waits it leapfrogs
to a thief; NEXT moves past the child, a thief's bit of THIEVES is set, a frame whose last child is taken waits, and the
leaf's block waits with the taker's agent for admission. In the down phase JOIN falls with the take. Here for the leaves of an
implicit tree; node 0 is cluster 0's to take, and its take pushes a frame (R57). Hand-offs (R61, R66, R67, R71). The result of
a node, its RESBUF, goes to its slot of the parent's frame, of the root to RESULT, of an implicit leaf to its place in RESULT;
JOIN falls by one, and at 0 the frame is COMPLETE and the parent is dispatched with its slots as INBOX and its frame to be
popped; the implicit root, a SKIP node, is then done and its frame popped. In the down phase the OUTBOX becomes the slots of a
new frame. Here for a parent that is no SKIP node, or the implicit root. NRES makes its node's hand-off so, and the end of a
block one that NRES has not made. A node that is DONE gives up its input-copy slot (R70), under IDEMP only with its block's end
(log 68). -/
def Obligations.TreeTakes : Prop :=
  ((∀ (s : State) (cl lid victim : Nat) (l : Launch) (par : Nat × Node) (x : Frame) (fr : Nat × Nat) (s1 : State),
     s.launch lid = some l → s.agentFree cl l = true → l.rootTaken = true → l.implicit = true → l.frameNode fr = some par →
     let a : Serve := { lid := lid, vf := l.vf, cl := cl, node := 0 }
     s.readFrame a l fr = .ok x → x.next ≠ 0 →
     let next := (x.next + 1) % 2 ^ 32
     let join := (x.join + 2 ^ 32 - 1) % 2 ^ 32
     let up (thieves : Nat) : Frame := { x with next := next, thieves := thieves, state := if next = x.fin then fWaiting else x.state }
     let down : Frame := { x with next := next, join := join, state := if join = 0 then fComplete else x.state }
     let waits (t : State) (p : Phase) : Prop := t.mem = s1.mem ∧ ∃ d l' n, (t.cluster cl).waiting = [d] ∧ d.launch = lid ∧
       d.nodes = [x.next] ∧ d.phase = p ∧ d.taker = cl ∧ (p = .down → d.inboxes = [(some l.input.toNat, l.lrb)]) ∧
       d.pop = (if p = .down ∧ join = 0 then some fr else none) ∧ t.launch lid = some l' ∧
       l'.nodes.look x.next = some n ∧ n.state = .dispatched ∧ n.taker = cl ∧ n.rcd.lanes = l.llanes
     (l.phase = .up → l.top cl = some fr → x.state = fOpen → s.writeFrame a l fr (up x.thieves) = .ok s1 →
       ∃ t, exec (.take cl lid) s = .next t ∧ waits t .up) ∧
     (l.phase = .down → l.idemp = false → l.top cl = some fr → x.state = fOpen → s.writeFrame a l fr down = .ok s1 →
       ∃ t, exec (.downTake cl lid) s = .next t ∧ waits t .down) ∧
     (l.phase = .up → l.stackOf cl = [] → s.victim a l (stealOrder cl) = .ok (some fr) →
       s.writeFrame a l fr (up (x.thieves ||| 2 ^ cl)) = .ok s1 → ∃ t, exec (.steal cl lid) s = .next t ∧ waits t .up) ∧
     (l.phase = .up → victim < 16 → s.leapTarget a l victim = .ok (some fr) →
       s.writeFrame a l fr (up (x.thieves ||| 2 ^ cl)) = .ok s1 → ∃ t, exec (.leapfrog cl lid victim) s = .next t ∧ waits t .up)) ∧
   (∀ (s : State) (cl lid : Nat) (l : Launch), s.launch lid = some l → l.rootTaken = false →
     (cl ≠ 0 → exec (.take cl lid) s = .next s ∧ exec (.downTake cl lid) s = .next s) ∧
     (∀ s1, cl = 0 → s.agentFree 0 l = true → l.phase = .up → l.implicit = true → 1 ≤ l.nleaf → 64 ≤ l.f → 1 ≤ l.d →
       l.stackOf 0 = [] → l.rootDone = false → l.pops = [] →
       let root : Frame := ⟨0, 0xFFFFFFFF, 1, (1 + l.nleaf) % 2 ^ 32, l.nleaf, 0, fOpen, 0, 0, 1⟩
       s.writeFrame { lid := lid, vf := l.vf, cl := 0, node := 0 } l (0, 0) root = .ok s1 →
       ∃ t l' n, exec (.take 0 lid) s = .next t ∧ t.launch lid = some l' ∧ l'.rootTaken = true ∧ l'.stackOf 0 = [0] ∧
         l'.nodes.look 0 = some n ∧ n.state = .gathering ∧ n.frame = some (0, 0) ∧ t.mem = s1.mem)) ∧
   ∀ cl < 16, (stealOrder cl).length = 15 ∧ (stealOrder cl).Nodup ∧ cl ∉ stealOrder cl ∧
     ∀ i < 7, (stealOrder cl).getD i 16 / 8 = cl / 8) ∧
  (∀ (s : State) (bi : Nat) (b : Block) (l : Launch) (n : Node), s.block bi = some b → b.handed = false →
     s.launch b.launch = some l → l.nodes.look b.node = some n →
     let a : Serve := { lid := b.launch, vf := b.vf, cl := b.taker, node := b.node }
     let t := s.handOff bi
     let data := s.aspRead b b.resbuf b.rcd.rb
     let same (u : State) : Prop := ∀ key x, t.physByte key x = u.physByte key x
     let falls (x : Frame) : Frame := { x with join := (x.join + 2 ^ 32 - 1) % 2 ^ 32,
                                               state := if x.join % 2 ^ 32 = 1 ∧ l.stop = none then fComplete else x.state }
     t.block bi = some { b with handed := true } ∧
     (b.phase = .up → b.node = 0 → l.implicit = false → ∀ s1, s.engWrite a l.result data = .ok s1 →
       same s1 ∧ ∃ l', t.launch b.launch = some l' ∧ l'.rootDone = true ∧ l'.upRoot = data) ∧
     (b.phase = .up → b.node ≠ 0 → l.implicit = false → n.parent ≠ b.node → ∀ fr x p s1 s2, n.pframe = some fr →
       s.readFrame a l fr = .ok x → s.engWrite a (l.slotAddr fr x.cslot n.childix) data = .ok s1 →
       s1.writeFrame a l fr (falls x) = .ok s2 → l.nodes.look n.parent = some p → p.rcd.kind ≠ kSkip →
       same s2 ∧ (∃ l' n', t.launch b.launch = some l' ∧ l'.nodes.look b.node = some n' ∧ n'.state = .done ∧
         n'.copySlot = if l.idemp then n.copySlot else none) ∧
       (x.join % 2 ^ 32 ≠ 1 ∨ l.stop.isSome = true → t.clusters = s.clusters) ∧
       (x.join % 2 ^ 32 = 1 → l.stop = none →
         ∃ d l' p', (t.cluster b.taker).waiting = (s.cluster b.taker).waiting ++ [d] ∧ d.launch = b.launch ∧
           d.nodes = [n.parent] ∧ d.phase = .up ∧ d.taker = b.taker ∧ d.pop = some fr ∧
           d.inboxes = [(some (l.slotAddr fr 0 0).toNat, p.rcd.nchild * p.rcd.cslot)] ∧
           t.launch b.launch = some l' ∧ l'.nodes.look n.parent = some p' ∧ p'.state = .dispatched)) ∧
     (b.phase = .up → b.node ≠ 0 → l.implicit = true → ∀ fr x p s1 s2, n.pframe = some fr →
       s.engWrite a (l.result + BitVec.ofNat 64 ((b.node - 1) * l.lrb)) data = .ok s1 → s1.readFrame a l fr = .ok x →
       s1.writeFrame a l fr (falls x) = .ok s2 → n.parent = 0 → l.nodes.look 0 = some p → p.rcd.kind = kSkip → 1 ≤ b.depth →
       same s2 ∧ (x.join % 2 ^ 32 = 1 → l.stop = none → ∃ l', t.launch b.launch = some l' ∧ l'.rootDone = true ∧
         l'.stackOf fr.1 = (l.stackOf fr.1).filter (fun h => h != fr.2))) ∧
     (b.phase = .down → l.phase = .down → b.rcd.nchild ≠ 0 → l.stop = none →
       let h := ((l.stackOf b.taker).getLast?.map (· + 1)).getD 0
       let r := n.rcd
       let size := cdiv (64 + r.nchild * r.cslot) 64
       let header : Frame := ⟨b.node, r.parent.toNat, r.first.toNat, (r.first.toNat + r.nchild) % 2 ^ 32, r.nchild, 0, fOpen, 1,
                              r.cslot, size⟩
       64 * size ≤ l.f → h < l.d → ∀ s1,
         s.engWrite a (l.frameAddr (b.taker, h)) (header.bytes ++ s.aspRead b b.outbox (b.rcd.nchild * b.rcd.cslot)) = .ok s1 →
         same s1 ∧ (t.cluster b.taker).downWait = none ∧ ∃ l' n', t.launch b.launch = some l' ∧
           l'.stackOf b.taker = l.stackOf b.taker ++ [h] ∧ l'.nodes.look b.node = some n' ∧ n'.frame = some (b.taker, h) ∧
           n'.state = .done))

/-- O53. Dispatch (R13, R16, R54, R59, R60, R66, R68, R77). An agent's oldest waiting dispatch goes to the first core in rotation
that admits its block: the block is resident there, each of its cohorts fresh in a slot of its own, and the rotation moves on;
a block that no core admits waits, and one that no empty core could hold stops the launch as TREEBOUND with FIT. A placement
search ends likewise. A dispatch of a launch that has stopped or gone is dropped. A block may issue once its INBOX copy has
put its input into its tree area, and its node is RUNNING (R72): the agent that dispatches the block makes that copy (R59), while
its die has clocks (R385); a killed block gets none. That the copy that pops a frame is
made after the others from that frame is the model's choice (log 84). In BOTH the down phase begins once the up phase is over.
Here for one node whose input copy is made or not needed; an admission to a cluster under reverse bias waits until that is
removed (R382). -/
def Obligations.BlockDispatch : Prop :=
  (∀ (s : State) (cl i : Nat) (d : Dispatch) (l : Launch) (n : Node) (k : KernelEntry), d.nodes = [i] → d.inboxes.length = 1 →
    s.launch d.launch = some l → s.engineRuns l = true → l.stop = none → l.nodes.look i = some n →
    l.kernels.look (d.kernelIx n.rcd) = some k →
    (l.needsCopy n.rcd = false ∨ n.copySlot.isSome = true) → l.copiesFree (l.dispatchNeeds d) = true →
    let needs := needsOf k l.txbuf d.phase n.rcd
    let resident (t : State) (c : Nat) (pl : Place) : Prop := ∃ id b, t.block id = some b ∧ b.core = c ∧ b.node = i ∧
      b.launch = d.launch ∧ b.vf = l.vf ∧ b.phase = d.phase ∧ b.inboxDone = false ∧ b.slots = pl.slots.map some ∧
      b.aspBase = pl.asp ∧ b.wbfBase = pl.wbf ∧ b.nlanes = n.rcd.lanes ∧ b.exact = d.exact ∧ t.mem = s.mem ∧
      ∀ j x, pl.slots[j]? = some x → t.cohort x = some (Cohort.fresh id j n.rcd.lanes k.gregs)
    (∀ rest, (s.cluster cl).waiting = d :: rest → s.clocked (clusterDie cl) = true →
      (∀ c pl, needs.fitsEmpty = true → s.swappedFirst l d = false →
        s.placeNow cl (s.coreOrder cl) (l.dispatchNeeds d) = some [(c, pl)] → pl.slots.Nodup →
        ∃ t, exec (.blockDispatch cl) s = .next t ∧ resident t c pl ∧ (t.cluster cl).waiting = rest ∧
          (t.cluster cl).rot = (c % 4 + 1) % 4) ∧
      (needs.fitsEmpty = true → s.placeNow cl (s.coreOrder cl) (l.dispatchNeeds d) = none → exec (.blockDispatch cl) s = .next s) ∧
      (needs.fitsEmpty = false → s.hasBlock d.launch = true → ∃ t l', exec (.blockDispatch cl) s = .next t ∧
        t.launch d.launch = some l' ∧ l'.stop = some (1, 5, i))) ∧
    ∀ c pl rest, l.search.findSome? (fun d =>
        if s.clocked (clusterDie d.taker) then (l.dispatchNeeds d).find? (fun p => !p.2.2.2.fitsEmpty) else none) = none →
      s.findSearch l [] l.search = some (d, rest, [(c, pl)]) → pl.slots.Nodup →
      ∃ t l', exec (.placementSearch d.launch) s = .next t ∧ resident t c pl ∧ t.launch d.launch = some l' ∧ l'.search = rest) ∧
  (∀ (s : State) (cl : Nat) (d : Dispatch) (rest : List Dispatch), (s.cluster cl).waiting = d :: rest →
    (s.launch d.launch = none ∨ (s.clocked (clusterDie cl) = true ∧ ∃ l, s.launch d.launch = some l ∧ s.engineRuns l = true ∧
      l.stop.isSome = true)) →
    exec (.blockDispatch cl) s = .next (s.updCluster cl (fun c => { c with waiting := rest }))) ∧
  (∀ (s : State) (bi : Nat) (b : Block) (l : Launch) (bs : List Byte), s.block bi = some b → s.launch b.launch = some l →
    b.inboxDone = false → b.ended = false → s.curVf = some b.vf → s.clocked (dieOf b.core) = true →
    (b.killed = true ∨ s.copyWaits l b = true ∨ s.clocked (b.dispatcher / 8) = false → exec (.inboxCopy bi) s = .next s) ∧
    (b.killed = false → s.copyWaits l b = false → s.clocked (b.dispatcher / 8) = true →
    s.inputBytes { lid := b.launch, vf := b.vf, cl := b.dispatcher, node := b.node } l b.inboxAddr b.inboxLen = .ok bs →
    ∃ t, exec (.inboxCopy bi) s = .next t ∧ t.block bi = some { b with inboxDone := true } ∧ t.mem = s.mem ∧ t.cohorts = s.cohorts ∧
      t.aspRead b b.inbox bs.length = bs ∧
      (∀ n, l.nodes.look b.node = some n → ∃ l' n', t.launch b.launch = some l' ∧ l'.nodes.look b.node = some n' ∧
        n'.state = if n.state = .done then .done else .running) ∧
      ∀ c x, (c ≠ b.core ∨ x < b.aspBase + b.inbox ∨ b.aspBase + b.inbox + bs.length ≤ x) →
        bufAt (t.core c).asp x = bufAt (s.core c).asp x)) ∧
  ∀ (s : State) (lid : Nat) (l : Launch), s.launch lid = some l → s.engineRuns l = true → l.stop = none → l.sweep = 2 →
    l.phase = .up → l.rootDone = true → s.hasBlock lid = false → s.agentsBusy lid l = false →
    ∃ t, exec (.phaseTurn lid) s = .next t ∧
      t.launch lid = some { l with phase := .down, rootTaken := false, rootDone := false, nodes := [], heights := [] } ∧
      { t with launches := s.launches } = s

/-! ### Outside, the driver, slices, errors, firmware (spec/14 to spec/18) -/

/-- O54. Accesses from outside, links and registers (R323, R324, R337, R339, R348). A host access to HBM reads and writes under
the key of its granule's owner; of an unowned granule it reads zeros and writes nothing. An access that arrives at a port is
made within LIN's window under its VF's key, and refused outside it; an atomic answers the old value. A replay is counted; the
sixteenth failure in a row drops the link; RETRAIN drops it too, and only a port that RETRAIN has set training trains, with a
link where it has lanes. A drop fails the accesses through its port with PERM, the requests on their way and the copy that runs
through it among them.
A store of the host to its own memory stands there, and so does one that a peer's memory holds, behind its port. A register
write has its register's effect: a queue's base while the queue is off, a notify word, the roots of translation, QUANTUM and
VRST; a VF's write before the part has left reset has none. Which registers list the granules' owners is the model's reading
(log 17), and so is that a root stands whole as it was written (log 47). Reads of the registers (R324, R337, R339, R348, R371, R376, R381, R386, R387, R391 to R394). A counter is read at
its place in one 8-byte read or in 4-byte halves; the fields of a register stand at their bits; a notify word and RST read 0.
A read of ENERGYLO latches the high word, which ENERGYHI returns; that it waits while Grotto holds the latch is the model's
reading (log 80). An entry of the event log stands at SEQ mod 1,024. Before the dies have left reset only the mailbox answers. -/
def Obligations.OutsideAccesses : Prop :=
  ((∀ (s : State) (addr v : Nat) (bs : List Byte), s.released = true → addr + bs.length ≤ hbmSize →
     let key := (s.vf v).key
     let owned (o : Option Nat) : Prop := ∀ i < bs.length, s.granules.look ((addr + i) / 2 ^ 30) = o
     (owned none → exec (.hostMemAccess addr (.write bs)) s = .next s ∧
       exec (.hostMemAccess addr (.read bs.length)) s = .next { s with answer := some (List.replicate bs.length 0) }) ∧
     (owned (some v) → ∃ t, exec (.hostMemAccess addr (.write bs)) s = .next t ∧
       (∀ i < bs.length, t.physByte key (addr + i) = bs.getD i 0) ∧
       (∀ a, (a < addr ∨ addr + bs.length ≤ a) → t.physByte key a = s.physByte key a) ∧
       t.blocks = s.blocks ∧ t.cores = s.cores ∧ t.vfs = s.vfs) ∧
     (owned (some v) → (∀ i < bs.length, s.poisoned (addr + i) = false) →
       exec (.hostMemAccess addr (.read bs.length)) s = .next { s with answer := some (s.physRead key addr bs.length) })) ∧
   (∀ (s : State) (port addr : Nat) (bs : List Byte), s.released = true → 1 ≤ bs.length →
     let p := s.port port
     let key := (s.vf p.linVf).key
     let inside : Prop := p.linEn = true ∧ p.trained = true ∧ p.linBase ≤ addr / 2 ^ 30 ∧
       (addr + bs.length - 1) / 2 ^ 30 ≤ p.linLim ∧ addr + bs.length ≤ hbmSize
     (¬ inside → exec (.lumakInbound port addr (.write bs)) s = .next { s with answer := none } ∧
       exec (.lumakInbound port addr (.read bs.length)) s = .next { s with answer := none }) ∧
     (inside → ∃ t, exec (.lumakInbound port addr (.write bs)) s = .next t ∧ t.answer = some [] ∧
       (∀ i < bs.length, t.physByte key (addr + i) = bs.getD i 0) ∧
       ∀ a, (a < addr ∨ addr + bs.length ≤ a) → t.physByte key a = s.physByte key a) ∧
     (inside → (∀ i < bs.length, s.poisoned (addr + i) = false) →
       exec (.lumakInbound port addr (.read bs.length)) s = .next { s with answer := some (s.physRead key addr bs.length) })) ∧
   (∀ (s : State) (port addr op ty : Nat) (v c : W64) (o : AtomOp) (T : Ty), s.released = true → peerAtomics[op]? = some o →
     Ty.ofCode ty = some T → s.poisoned addr = false →
     let p := s.port port
     let key := (s.vf p.linVf).key
     let old := s.physRead key addr T.bytes
     let new := if o = .cas then o.new T (leNat old) (c.toNat % 2 ^ (8 * T.bytes)) (v.toNat % 2 ^ (8 * T.bytes))
       else o.new T (leNat old) (v.toNat % 2 ^ (8 * T.bytes)) 0
     (p.accepts addr T.bytes = false → exec (.lumakInbound port addr (.atomic op ty v c)) s = .next { s with answer := none }) ∧
     (p.accepts addr T.bytes = true → ∃ t, exec (.lumakInbound port addr (.atomic op ty v c)) s = .next t ∧ t.answer = some old ∧
       (new = none → t.mem = s.mem) ∧ (∀ x, new = some x → leNat (t.physRead key addr T.bytes) = x % 2 ^ (8 * T.bytes)) ∧
       ∀ a, (a < addr ∨ addr + T.bytes ≤ a) → t.physByte key a = s.physByte key a)) ∧
   (∀ (s : State) (addr port key : Nat) (bs : List Byte), addr + bs.length ≤ 2 ^ 48 →
     (∀ i < bs.length, (s.hostStore addr bs).physByte key (2 ^ 48 + addr + i) = bs.getD i 0) ∧
     (port < 12 → ∀ i < bs.length, (s.peerStore port addr bs).physByte key ((2 + port) * 2 ^ 48 + addr + i) = bs.getD i 0)) ∧
   (∀ (s : State) (port lanes : Nat) (ok : Bool),
     let p := s.port port
     let kept (t : State) : Prop := (∀ k, k ≠ port → t.port k = s.port k) ∧ { t with ports := s.ports } = s
     let drops (t : State) : Prop := (t.port port).trained = false ∧ (t.port port).lanes = 0 ∧ (t.port port).failed = 0 ∧
       (∀ k, k ≠ port → t.port k = s.port k) ∧ (port < 12 → ∀ pa, aperture pa = port + 2 → t.physFault pa = some 17) ∧
       t.reds = s.reds.map (fun r => if aperture r.pa = port + 2 then { r with lost := true } else r) ∧
       (∀ core ch c rest, (s.core core).chan ch = c :: rest → c.started = true → c.stopped = false → c.lost = none →
         s.copyFailure core c = none → ∀ a e acc, ({ s with ports := t.ports }).copyFailure core c = some (a, e, acc) →
         (t.core core).chan ch = { c with lost := some (a, e.ipa, acc == .write) } :: rest) ∧
       t.mem = s.mem ∧ t.cohorts = s.cohorts ∧ t.blocks = s.blocks
     (∃ t, exec (.flitReplay port ok) s = .next t ∧ (p.trained = false → t = s) ∧
       (p.trained = true → (p.replays ≠ 0xFFFFFFFF#32 → (t.port port).replays = p.replays + 1) ∧
         (ok = true → (t.port port).failed = 0 ∧ (t.port port).trained = true ∧ kept t) ∧
         (ok = false → p.failed < 15 → (t.port port).failed = p.failed + 1 ∧ (t.port port).trained = true ∧ kept t) ∧
         (ok = false → 15 ≤ p.failed → drops t))) ∧
     (p.trained = false → exec (.linkDrop port) s = .next s) ∧
     (p.trained = true → ∃ t, exec (.linkDrop port) s = .next t ∧ drops t ∧ (t.port port).training = false) ∧
     (∃ t, exec (.retrain port) s = .next t ∧ drops t ∧ (t.port port).training = true) ∧
     (s.released = false ∨ p.training = false → exec (.linkTrained port lanes) s = .next s) ∧
     (s.released = true → p.training = true → ∃ t, exec (.linkTrained port lanes) s = .next t ∧ kept t ∧
       t.port port = { p with trained := lanes != 0, lanes := min lanes 8, failed := 0, training := false })) ∧
   ∀ (s : State) (vf q pv : Nat) (value : W64), q < 64 → pv < 64 →
     (s.released = false → exec (.registerWrite false vf (64 * q) value) s = .next s) ∧
     (s.released = true →
       (∃ t, exec (.registerWrite false vf (64 * q) value) s = .next t ∧ { t with vfs := s.vfs } = s ∧
         (((s.vf vf).queue q).en = true → (t.vf vf).queue q = (s.vf vf).queue q) ∧
         (((s.vf vf).queue q).en = false → (t.vf vf).queue q = { (s.vf vf).queue q with qbase := value &&& ~~~ 0xFFF#64 })) ∧
       exec (.registerWrite false vf (0x10000 + 0x1000 * q) value) s = exec (.notify vf q (value.setWidth 32)) s ∧
       (∃ t, exec (.registerWrite true 0 (0x200000 + 0x100 * pv) value) s = .next t ∧ t.vf pv = { s.vf pv with s1root := value } ∧
         (∀ k, k ≠ pv → t.vf k = s.vf k) ∧ { t with vfs := s.vfs } = s) ∧
       (∃ t, exec (.registerWrite true 0 (0x200008 + 0x100 * pv) value) s = .next t ∧ t.vf pv = { s.vf pv with s2root := value } ∧
         { t with vfs := s.vfs } = s) ∧
       exec (.registerWrite true 0 (0x200050 + 0x100 * pv) value) s = exec (.quantumWrite pv (value.setWidth 32)) s ∧
       (value.getLsbD 31 = true → exec (.registerWrite true 0 (0x200054 + 0x100 * pv) value) s = exec (.vrst pv) s))) ∧
  ((∀ (s : State) (pf : Bool) (vf off width : Nat), s.released = false → ¬ (pf = true ∧ 0x300000 ≤ off ∧ off < 0x380040) →
     s.registerRead pf vf off width = { s with answer := none }) ∧
   (∀ s : State, (s.registerRead true 0 0x300000 4).answer = some (bytesLE 4 (2 ^ 30 * s.grotto.mbstate.code + s.grotto.result))) ∧
   ∀ s : State, s.released = true →
     let pf (off width : Nat) : Option (List Byte) := (s.registerRead true 0 off width).answer
     (∀ die cls, die < 2 → cls < 8 → let d := s.die die
       pf (0x400000 + 0x1000 * die + 8 * cls) 4 = some (bytesLE 4 (d.ce.get cls 0).toNat) ∧
       pf (0x400004 + 0x1000 * die + 8 * cls) 4 = some (bytesLE 4 (d.ue.get cls 0).toNat) ∧
       pf (0x400048 + 0x1000 * die) 8 = some (bytesLE 8 d.kills.toNat) ∧ pf (0x400050 + 0x1000 * die) 8 = some (bytesLE 8 d.relaunch.toNat) ∧
       pf (0x400048 + 0x1000 * die) 4 = some (bytesLE 4 (d.kills.toNat % 2 ^ 32)) ∧
       pf (0x40004C + 0x1000 * die) 4 = some (bytesLE 4 (d.kills.toNat / 2 ^ 32)) ∧
       pf (0x3C000C + 0x1000 * die) 4 = some (bytesLE 4 (bit d.refused)) ∧
       pf (0x3C0018 + 0x1000 * die) 8 = some (bytesLE 8 d.tokPaid.toNat) ∧
       (d.latchHeld = true → ∀ width, 0 < width → width ≤ 8 → s.registerRead true 0 (0x3C0010 + 0x1000 * die) width = s) ∧
       (d.latchHeld = false → let t := s.registerRead true 0 (0x3C0010 + 0x1000 * die) 4
         t.answer = some (bytesLE 4 ((t.die die).energy.toNat % 2 ^ 32)) ∧ (t.die die).latch.toNat = (t.die die).energy.toNat / 2 ^ 32 ∧
         (t.registerRead true 0 (0x3C0014 + 0x1000 * die) 4).answer = some (bytesLE 4 ((t.die die).energy.toNat / 2 ^ 32)))) ∧
     (∀ cl, cl < 16 → let c := s.cluster cl
       pf (0x3C0040 + 0x1000 * (cl / 8) + 8 * (cl % 8)) 4 = some (bytesLE 4 (2 ^ 8 * c.wgap + c.wsize)) ∧
       pf (0x3C0044 + 0x1000 * (cl / 8) + 8 * (cl % 8)) 4 =
         some (bytesLE 4 (2 ^ 6 * c.bias.code + 2 ^ 4 * c.step + 2 ^ 2 * s.claim cl + 2 * bit c.holding + bit c.falling))) ∧
     (∀ v, v < 64 → let x := s.vf v
       pf (0x404000 + 0x40 * v) 8 = some (bytesLE 8 x.sliceClk.toNat) ∧ pf (0x404008 + 0x40 * v) 8 = some (bytesLE 8 x.tokPaid.toNat) ∧
       pf (0x404020 + 0x40 * v) 4 = some (bytesLE 4 x.launches.toNat) ∧ pf (0x404028 + 0x40 * v) 4 = some (bytesLE 4 x.kills.toNat) ∧
       pf (0x200000 + 0x100 * v) 8 = some (bytesLE 8 x.s1root.toNat) ∧ pf (0x200020 + 0x100 * v) 4 = some (bytesLE 4 x.fqhead.toNat) ∧
       pf (0x200028 + 0x100 * v) 4 = some (bytesLE 4 (2 ^ 31 * bit x.busy + 2 ^ 16 * x.cmdslot + x.op)) ∧
       pf (0x200054 + 0x100 * v) 4 = some (bytesLE 4 x.state.code) ∧
       ∀ q, q < 64 → let rd (off width : Nat) : Option (List Byte) := (s.registerRead false v off width).answer
         rd (64 * q) 8 = some (bytesLE 8 (x.queue q).qbase.toNat) ∧ rd (64 * q + 0x0C) 4 = some (bytesLE 4 (x.queue q).qrd) ∧
         rd (64 * q + 0x14) 4 = some (bytesLE 4 (2 ^ 31 * bit (x.queue q).stop + (x.queue q).code)) ∧
         rd (0x10000 + 0x1000 * q) 4 = some (bytesLE 4 0)) ∧
     (∀ port, port < 12 → pf (0x3D0014 + 0x20 * port) 4 =
       some (bytesLE 4 (2 ^ 8 * bit (s.port port).trained + 2 ^ 4 * (s.port port).lanes))) ∧
     pf 0x407FF8 4 = some (bytesLE 4 s.grotto.logseq.toNat) ∧
     ∀ e rest, s.grotto.sram = e :: rest → ∀ k, k < 4 →
       pf (0x408000 + 32 * (e.seq.toNat % 1024) + 8 * k) 8 = some ((e.bytes.drop (8 * k)).take 8))

/-- O55. The fault ring and the driver's commands (R347 to R350). The oldest waiting record goes to the ring at the head, which
moves on, and raises the VF's vector; a ring without room keeps it waiting and sets OVF. RETRY ends a park and leaves the
lanes at the instruction; SKIP moves the lanes of its PC-group past the instruction; a slot that is not parked, and one that
is not the VF's, are answered so. KILLBLK kills the block, and KILLLAUNCH every block of the launch: they issue nothing more,
the launch stops as KILLED, and one record of class K is posted; that it stops at the command is the model's reading (log 43).
The guards of the surrogate blocks that KILLLAUNCH kills while they are swapped out fail (R77). While BUSY no other command is taken; one for a block on a die without
clocks waits with BUSY set (log 118). Here for the VF whose slice is current; a command on a saved VF is made in its image, and leaves the stores of the part as they are. -/
def Obligations.DriverCommands : Prop :=
  (∀ (s : State) (vf : Nat) (r : FaultInfo) (rest : List FaultInfo), (s.vf vf).records = r :: rest →
    let v := s.vf vf
    let n := 2 ^ v.fqlog2 / 64
    let head := v.fqhead.toNat
    let room : Prop := v.fqen = true ∧ (head + 1) % n ≠ v.fqtail.toNat % n
    (¬ room → ∃ t, exec (.faultRecordPost vf) s = .next t ∧ t.vf vf = { v with ovf := true } ∧ { t with vfs := s.vfs } = s) ∧
    (room → ∃ t, exec (.faultRecordPost vf) s = .next t ∧ t.msix = (none, v.fqvec) :: s.msix ∧
      (t.vf vf).records = rest ∧ (t.vf vf).fqhead = BitVec.ofNat 32 ((head + 1) % n) ∧
      (t.vf vf).seq = (if v.seq = 0xFFFFFFFF#32 then 1 else v.seq + 1) ∧
      (t.vf vf).parks = (if r.cls = 1 ∨ r.cls = 2 then v.parks + 1 else v.parks) ∧
      (t.vf vf).kills = (if r.cls = 3 then v.kills + 1 else v.kills) ∧
      let pa := 2 ^ 48 + (v.fqbase.toNat + 64 * head) % 2 ^ 48
      t.number v.key pa 4 = v.seq.toNat ∧ t.number v.key (pa + 12) 4 = r.pc.toNat ∧ t.number v.key (pa + 16) 4 = r.mask.toNat ∧
      t.number v.key (pa + 24) 8 = r.addr.toNat ∧ (r.code < 256 → t.number v.key (pa + 4) 1 = r.code) ∧
      ∀ a, (a < pa ∨ pa + 64 ≤ a) → t.physByte v.key a = s.physByte v.key a)) ∧
  (∀ (s : State) (vf slot : Nat) (img : SavedImage), s.curVf ≠ some vf → (s.vf vf).image = some img →
    ∀ i ∈ [Instr.retry vf slot, Instr.skip vf slot, Instr.killblk vf slot, Instr.killlaunch vf slot], ∃ t, exec i s = .next t ∧
      t.cohorts = s.cohorts ∧ t.blocks = s.blocks ∧ t.cores = s.cores ∧ t.clusters = s.clusters ∧ (t.vf vf).image.isSome = true) ∧
  (∀ (s : State) (vf slot : Nat) (co : Cohort) (b : Block), s.released = true →
    ∀ i ∈ [Instr.retry vf slot, Instr.skip vf slot, Instr.killblk vf slot, Instr.killlaunch vf slot],
      ((s.vf vf).busy = true → (s.vf vf).cmdslot ≠ slot → exec i s = .next s) ∧
      ((s.vf vf).busy = false → s.curVf = some vf → s.slotOf vf slot = some (co, b) → s.clocked (dieOf b.core) = false →
        ∃ t, exec i s = .next t ∧ t.vf vf = { s.vf vf with busy := true, op := (t.vf vf).op, cmdslot := slot } ∧
          { t with vfs := s.vfs } = s)) ∧
  ∀ (s : State) (vf slot : Nat), s.released = true → s.curVf = some vf → (s.vf vf).busy = false →
    (∀ p ∈ s.blocks, s.clocked (dieOf p.2.core) = true) →
    let answered (t : State) (st : Nat) : Prop := (t.vf vf).cmdst = st ∧ (t.vf vf).busy = false
    (s.slotOf vf slot = none → ∀ i ∈ [Instr.retry vf slot, Instr.skip vf slot, Instr.killblk vf slot, Instr.killlaunch vf slot],
      ∃ t, exec i s = .next t ∧ answered t 2 ∧ { t with vfs := s.vfs } = s) ∧
    ∀ (co : Cohort) (b : Block), s.slotOf vf slot = some (co, b) →
      (co.park = none → ∀ i ∈ [Instr.retry vf slot, Instr.skip vf slot], ∃ t, exec i s = .next t ∧ answered t 1 ∧ { t with vfs := s.vfs } = s) ∧
      (∀ r, co.park = some r → co.later = [] → co.vglimit = [] → r.copy = false →
        (∃ t, exec (.retry vf slot) s = .next t ∧ answered t 0 ∧ t.cohort slot = some { co with park := none } ∧
          (∀ k, k ≠ slot → t.cohort k = s.cohort k) ∧ { t with vfs := s.vfs, cohorts := s.cohorts } = s) ∧
        (r.txab = false → r.boundary = false → ∃ t co', exec (.skip vf slot) s = .next t ∧ answered t 0 ∧ t.cohort slot = some co' ∧
          co' = { co with park := none, lanes := co'.lanes } ∧ { t with vfs := s.vfs, cohorts := s.cohorts } = s ∧
          ∀ l < 32, co'.lane l =
            if co.runnable.has l = true ∧ (co.lane l).pc = r.pc
            then { co.lane l with pc := r.pc + BitVec.ofNat 32 (s.skipSize (coreOf slot) b r.pc) } else co.lane l)) ∧
      (∀ l, s.launch b.launch = some l → l.stop = none → b.killed = false → b.ended = false → b.surrogate = false →
        let record (t : State) : Prop := ∃ r, (t.vf vf).records = (s.vf vf).records ++ [r] ∧ r.code = 35 ∧ r.cls = 3 ∧ r.node = b.node ∧
          r.slot = BitVec.ofNat 32 slot
        (∃ t b' l', exec (.killblk vf slot) s = .next t ∧ answered t 0 ∧ record t ∧ t.block co.blk = some b' ∧ b'.killed = true ∧
          b'.buf = [] ∧ t.launch b.launch = some l' ∧ l'.stop = some (3, 0, b.node)) ∧
        ∃ t l', exec (.killlaunch vf slot) s = .next t ∧ answered t 0 ∧ record t ∧ t.launch b.launch = some l' ∧
          l'.stop = some (3, 0, b.node) ∧ (∀ r ∈ (t.vf vf).swapped, r.block.launch ≠ b.launch) ∧
          l'.gfail = l.gfail + ((s.poolOf vf).filter (fun r => r.block.launch == b.launch && r.block.surrogate)).length ∧
          ∀ k x, s.block k = some x → x.launch = b.launch → x.ended = false → ∃ y, t.block k = some y ∧ y.killed = true)

/-- O56. Translations and VFs (R354 to R356, R359). INVAL and INVALL leave no entry of the VF for the range in any TLB and every
other entry, and are ignored while another command has BUSY set (R348); a die without clocks keeps its entries, and then the command
has BUSY set until no such entry is left (R385; the model's reading, log 118). A walk that succeeds enters its translation, and one that fails, or whose output an access would be refused at,
changes nothing; VRST gives the VF a key of its own, empties its queues and launches, and ends its slice; QUANTUM takes a
value up to 2^24 while the save area is large enough. That VRST ends the slice at once, sets SEQ to 1 and keeps QUANTUM and the
roots is the model's reading (log 45), and the numbers of its keys its choice (log 35). -/
def Obligations.TranslationsAndVfs : Prop :=
  (∀ (s : State) (vf : Nat) (range : Bool), s.released = true →
    let v := s.vf vf
    let i : Instr := if range then .inval vf else .invall vf
    let op := if range then 5 else 6
    let stays (e : TlbEntry) : Bool := e.vf != vf || (range && !overlaps e.page e.size v.invaddr.toNat v.invsize.toNat)
    let left (die : Nat) (l : List TlbEntry) : List TlbEntry := if s.clocked die then l.filter stays else l
    (v.busy = true → v.op ≠ op → exec i s = .next s) ∧
    (v.busy = false ∨ v.op = op → ∃ t, exec i s = .next t ∧ (∀ c, (t.core c).tlb = left (dieOf c) (s.core c).tlb) ∧
      (∀ c, (t.cluster c).tlb = left (clusterDie c) (s.cluster c).tlb) ∧ (∀ d, (t.die d).tlb = left d (s.die d).tlb) ∧
      t.cohorts = s.cohorts ∧ t.mem = s.mem ∧ (∀ k, k ≠ vf → t.vf k = s.vf k) ∧
      let gone : Prop := (∀ c, ∀ e ∈ (t.core c).tlb, stays e = true) ∧ (∀ c, ∀ e ∈ (t.cluster c).tlb, stays e = true) ∧
        ∀ d, ∀ e ∈ (t.die d).tlb, stays e = true
      (¬ gone → (t.vf vf).busy = true ∧ (t.vf vf).op = op ∧ (t.vf vf).cmdst = v.cmdst) ∧
      (gone → s.cores.wf = true → s.clusters.wf = true → s.dies.wf = true → (t.vf vf).cmdst = 0 ∧ (t.vf vf).busy = false) ∧
      ((∀ d, s.clocked d = true) → gone ∧ (t.vf vf).cmdst = 0 ∧ (t.vf vf).busy = false))) ∧
  (∀ (s : State) (core vf : Nat) (va : W64) (acc : Access), s.curVf = some vf → s.clocked (dieOf core) = true → va.toNat < 2 ^ 52 →
    (∀ e, s.walkBoth vf va.toNat (accNeed acc) = .error e → exec (.pageWalk core va acc) s = .next s) ∧
    (∀ e, s.walkBoth vf va.toNat (accNeed acc) = .ok e → (s.physFault (e.phys + va.toNat % e.size)).isSome = true →
      exec (.pageWalk core va acc) s = .next s) ∧
    ∀ e, s.walkBoth vf va.toNat (accNeed acc) = .ok e → s.physFault (e.phys + va.toNat % e.size) = none → ∃ t, exec (.pageWalk core va acc) s = .next t ∧ e ∈ (t.core core).tlb ∧
      e ∈ (t.cluster (clusterOf core)).tlb ∧ e ∈ (t.die (dieOf core)).tlb ∧ t.mem = s.mem ∧ t.cohorts = s.cohorts ∧
      ((s.core core).tlb.length ≤ 256 → (t.core core).tlb.length ≤ 256)) ∧
  (∀ (s : State) (vf : Nat), s.released = true →
    ∃ t, exec (.vrst vf) s = .next t ∧ (t.vf vf).key = s.nextKey ∧ t.nextKey = s.nextKey + 1 ∧ (t.vf vf).state = .idle ∧
      (t.vf vf).seq = 1 ∧ (t.vf vf).records = [] ∧ (t.vf vf).fqhead = 0 ∧ (t.vf vf).image = none ∧ (t.vf vf).start = 0 ∧
      (t.vf vf).quantum = (s.vf vf).quantum ∧ (t.vf vf).s1root = (s.vf vf).s1root ∧
      (∀ q, ((t.vf vf).queue q).flight = [] ∧ ((t.vf vf).queue q).qrd = 0 ∧ ((t.vf vf).queue q).qwr = 0 ∧
        ((t.vf vf).queue q).pending = false) ∧
      (∀ k, k ≠ vf → t.vf k = s.vf k) ∧ (∀ p ∈ t.launches, p.2.vf ≠ vf) ∧
      (s.curVf = some vf → t.curVf = none ∧ t.cohorts = [] ∧ t.blocks = []) ∧
      (s.curVf ≠ some vf → t.curVf = s.curVf ∧ t.cohorts = s.cohorts ∧ t.blocks = s.blocks)) ∧
  ∀ (s : State) (vf : Nat) (value : W32), s.released = true →
    ∃ t, exec (.quantumWrite vf value) s = .next t ∧ { t with vfs := s.vfs } = s ∧ (∀ k, k ≠ vf → t.vf k = s.vf k) ∧
      (value.toNat ≤ 2 ^ 24 → (value = 0 ∨ 640 * 2 ^ 20 ≤ (s.vf vf).savesz.toNat) → t.vf vf = { s.vf vf with quantum := value }) ∧
      (2 ^ 24 < value.toNat ∨ (value ≠ 0 ∧ (s.vf vf).savesz.toNat < 640 * 2 ^ 20) → t.vf vf = s.vf vf)

/-- O57. Slices and swapping (R48, R194, R356, R357, R360 to R364). A slice ends after its quantum or when its VF has no work: its
cohorts stop, open transactions abort, waits are dropped; one that is the only VF with work begins anew. Once everything has
drained the outgoing VF's image is saved at SAVEBASE under the VF's key, header, core sections, block and cohort records at
the places the rules give, with no byte outside the save area changed, and the next VF's is restored; a VF whose image does
not fit fails with RESTORECAP. Under SWAP a block stays for its quantum at the least; one that is to leave stops until its
operations are over, is then gone from its core with its cohorts, and a waiting block is admitted in its place; its record stands
in the swap pool, in which there must be room for it. The block that has waited longest returns to a core that admits
it, each of its cohorts in a free slot. A slice waits for its end while a die's clocks stand (R385). Where the records stand whose
places the rules leave open is the model's reading (log 26); so are the search for the next VF where none is current (log 45),
and when and in which order blocks leave and return (log 51). -/
def Obligations.SlicesAndSwaps : Prop :=
  (∀ (s : State) (a : Nat), s.curVf = some a → s.stopping = false →
    let spent : Prop := (s.vf a).quantum.toNat * 1024 ≤ s.sliceCnt
    let runs : Prop := s.clocked 0 = true ∧ s.clocked 1 = true
    (¬ runs ∨ (¬ spent ∧ s.hasWork a = true) → exec .sliceEnd s = .next s) ∧
    (runs → spent → s.hasWork a = true → s.nextVf a = some a → exec .sliceEnd s = .next { s with sliceCnt := 0 }) ∧
    (runs → s.hasWork a = false ∨ (spent ∧ s.nextVf a ≠ some a) → ∃ t, exec .sliceEnd s = .next t ∧ t.stopping = true ∧ t.curVf = some a ∧
      t.mem = s.mem ∧ t.cores = s.cores ∧ (∀ k co, t.cohort k = some co → co.tx = none ∧ co.waits = []) ∧
      ∀ k co, s.cohort k = some co → co.tx = none → ∃ co', t.cohort k = some co' ∧ co'.vregs = co.vregs ∧ co'.preds = co.preds ∧
        ∀ l < 32, (co'.lane l).pc = (co.lane l).pc ∧ (co'.lane l).meets = (co.lane l).meets)) ∧
  (∀ (s : State) (b : Nat), s.released = true → s.curVf = none → s.nextVf s.lastVf = some b →
    (s.clocked 0 = false ∨ s.clocked 1 = false → exec .sliceSwitch s = .next s) ∧ (s.clocked 0 = true → s.clocked 1 = true →
    ((s.imageOf b).restorable = true → ∃ t, exec .sliceSwitch s = .next t ∧ t.curVf = some b ∧ t.lastVf = b ∧ t.sliceCnt = 0 ∧
      (t.vf b).state = .running ∧ (t.vf b).image = none ∧ t.cohorts = SMap.tidy (s.imageOf b).cohorts ∧
      t.blocks = SMap.tidy (s.imageOf b).blocks ∧ t.mem = s.mem) ∧
    ((s.imageOf b).restorable = false → ∃ t r, exec .sliceSwitch s = .next t ∧ (t.vf b).state = .failed ∧
      (t.vf b).records = (s.vf b).records ++ [r] ∧ r.code = 48 ∧ r.cls = 4))) ∧
  (∀ (s : State) (a b : Nat), s.released = true → s.curVf = some a → s.stopping = true → s.drained = true → s.clocked 0 = true →
    s.clocked 1 = true → s.settleAllErrors = s → s.flushKilled = s →
    let saved := s.saveVf a
    let key := (s.vf a).key
    let base := (s.vf a).saveAt
    saved.nextVf a = some b → b ≠ a → (saved.imageOf b).restorable = true →
    ∃ t i, exec .sliceSwitch s = .next t ∧ t.curVf = some b ∧ t.stopping = false ∧ (t.vf a).state = .saved ∧ (t.vf a).image = some i ∧
      i.cohorts = s.cohorts ∧ (s.blocks.wf = true → ∀ k x, s.block k = some x →
        (x.killed = true → x.ended = true → i.blocks.look k = none) ∧
        (x.killed = false ∨ x.ended = false → i.blocks.look k = some { x with boost := 0, leaving := false })) ∧
      (t.vf b).state = .running ∧ t.cohorts = SMap.tidy (saved.imageOf b).cohorts ∧
      (base + saveMin ≤ hbmSize → t.number key base 4 = 0x56534852 ∧ t.number key (base + 4) 4 = 1 ∧
        t.number key (base + 0x24) 4 = i.header.wbfb % 2 ^ 32 ∧ t.number key (base + 0x30) 4 = i.deviceOff / 64 % 2 ^ 32 ∧
        ∀ o y, i.stream[o]? = some (some y) → o < saveMin → t.physByte key (base + o) = y) ∧
      ∀ k pa, (pa < base ∨ base + saveMin ≤ pa) → t.physByte k pa = s.physByte k pa) ∧
  (∀ (s : State) (bi : Nat) (b : Block) (l : Launch) (x : Nat × State), s.block bi = some b → s.launch b.launch = some l → b.gang = none →
    l.swap = true →
    let s0 := s.syncPool b.vf
    let s1 := (s0.stopBlocks (fun i => i == bi)).fresh.2.leave s0.nextId (bi, { b with coll := none })
    s0.engineRuns l = true → l.stop = none → s0.readExts [(bi, b)] = s0 → s0.swappable b.launch l [(bi, b)] = true →
    s0.ownDrained bi b = true → s.cohorts.wf = true → (∀ p ∈ s.cohorts, p.2.blk = bi → p.2.tx = none) →
    s0.blocks.any (fun p => p.2.launch == b.launch && p.2.since < b.since && s0.swappable b.launch l (s0.unitOf p.1 p.2)) = false →
    s1.madeRoom s0 b.launch l [(bi, b)] = some x → x.1 ≠ s0.nextId →
    (∃ t, exec (.swapOut bi) s = .next t ∧ t = x.2.writePool b.vf ∧
      (let v := x.2.vf b.vf
       v.poolAt + v.poolSize ≤ hbmSize → ∀ o y, (poolStream v.swapped)[o]? = some (some y) → o < v.poolSize →
        t.physByte v.key (v.poolAt + o) = y)) ∧
    s1.block bi = none ∧ (∀ p ∈ s1.cohorts, p.2.blk ≠ bi) ∧ (∀ k co, s.cohort k = some co → co.blk ≠ bi → s1.cohort k = some co) ∧
    ∃ r, (s1.vf b.vf).swapped = (s0.vf b.vf).swapped ++ [r] ∧ r.blk = bi ∧ r.block = { b with coll := none, boost := 0, leaving := false } ∧
      saveMin + (s0.vf b.vf).swapped.foldl (fun acc r => acc + r.bytes) 0 + r.bytes ≤ (s0.vf l.vf).savesz.toNat) ∧
  (∀ (s : State) (bi : Nat) (b : Block) (l : Launch), s.block bi = some b → s.launch b.launch = some l → b.gang = none →
    let s0 := s.syncPool b.vf
    (b.leaving = false → l.swap = false ∨ s.frontClk < b.since + 1024 * l.swapq ∨ b.inboxDone = false →
      exec (.swapOut bi) s = .next s) ∧
    (s.blocks.wf = true → s.cohorts.wf = true → s0.swapsOut b l [(bi, b)] = true → s0.ownDrained bi b = false → b.leaving = false →
      ∃ t b', exec (.swapOut bi) s = .next t ∧ t.block bi = some b' ∧ b' = { b with coll := none, leaving := true } ∧ t.mem = s.mem ∧
        t.vfs = s.vfs ∧ (∀ k co, t.cohort k = some co → co.blk = bi → t.mayIssue co = false) ∧
        ∀ k co, s.cohort k = some co → co.blk ≠ bi → t.cohort k = some co)) ∧
  ∀ (s : State) (vf core : Nat) (r : SwapRec) (s' : State), s.curVf = some vf → s.stopping = false → s.poolOf vf = [r] →
    r.block.member = none → r.block.alone = false → r.block.vf = vf → (s.cluster (clusterOf core)).bias ≠ .reverse →
    (s.syncPool vf).enter core r = some s' →
    (r.cohorts.map (·.1)).Nodup →
    (∀ l, s.launch r.block.launch = some l → ((s.syncPool vf).admissible r.block.launch l []).any (fun x => decide (x.1 < r.order)) = false) →
    ∃ t b, exec (.swapIn vf core) s = .next t ∧ t = s'.writePool vf ∧ t.block r.blk = some b ∧ b.core = core ∧ b.node = r.block.node ∧
      b.tiles = r.block.tiles ∧ (t.vf vf).swapped = [] ∧
      ∀ p ∈ r.cohorts, ∃ x, s.cohort x = none ∧ coreOf x = core ∧ t.cohort x = some p.2

/-- O58. Errors of the stores (R75, R388 to R391, R394). An uncorrectable error met by a read of a cohort is counted at the line's
home die as it is met, kills the block with one record of class K, and stops the launch as ECC unless it may be relaunched; on a die without clocks none is met (R385; the model's
reading, log 118); a read that
meets a poisoned line counts at once, and kills at its core's next clock, once; one met by a walk poisons the line; one in a ring slot loses its
tokens; one in an entry of a TLB drops the entry. A correctable error is counted, and the one that reaches CETHR in a frame is
logged as RETIRE. The patrol takes a line every SCRUBGAP front-end clocks; what it finds is a free value (log 15). CLR clears
the counters, and the log's new entries go to flash. The model's readings: the stop comes with the kill (log 43), a frame's
count begins at 0 again after RETIRE and CLR keeps it (log 49), an error of a line counts at its home die (log 50), and a TLB
error drops the one entry (log 87). -/
def Obligations.ErrorsOfStores : Prop :=
  (∀ (s : State) (slot line : Nat) (co : Cohort) (b : Block) (l : Launch), s.released = true → s.cohort slot = some co →
    s.block co.blk = some b → s.launch b.launch = some l → b.killed = false → b.ended = false → b.surrogate = false → l.stop = none →
    let again : Prop := l.idemp = true ∧ ((l.nodes.look b.node).map (·.relaunch)).getD 0 < 3
    let killed (n : W32) (t : State) : Prop := ∃ b' r l', t.block co.blk = some b' ∧ b'.killed = true ∧ b'.killCode = 32 ∧ b'.ecc = none ∧
      (t.die (lineDie line)).ue.get 0 0 = n ∧
      (t.die (dieOf b.core)).kills = satInc (s.die (dieOf b.core)).kills ∧
      (t.vf b.vf).records = (s.vf b.vf).records ++ [r] ∧ r.code = 32 ∧ r.cls = 3 ∧ r.slot = BitVec.ofNat 32 slot ∧ r.node = b.node ∧
      t.launch b.launch = some l' ∧ (again → l'.stop = none) ∧ (¬ again → l'.stop = some (2, 0, b.node)) ∧ t.mem = s.mem
    let met := s.meetPoison co.blk slot line
    (s.clocked (dieOf (coreOf slot)) = false → exec (.eccUncorrectable (.hbmRead slot line)) s = .next s) ∧
    (s.clocked (dieOf (coreOf slot)) = true → ∃ t, exec (.eccUncorrectable (.hbmRead slot line)) s = .next t ∧ killed (satInc ((s.die (lineDie line)).ue.get 0 0)) t) ∧
    ((met.die (lineDie line)).ue.get 0 0 = satInc ((s.die (lineDie line)).ue.get 0 0) ∧
      met.block co.blk = some { b with ecc := some (slot, line) } ∧ met.cohorts = s.cohorts ∧ met.vfs = s.vfs ∧ met.mem = s.mem) ∧
    (b.ecc = some (slot, line) → s.blocks.wf = true → s.coreBlocks b.core = [(co.blk, b)] →
      killed ((s.die (lineDie line)).ue.get 0 0) (s.settleErrors b.core) ∧
      (s.settleErrors b.core).settleErrors b.core = s.settleErrors b.core)) ∧
  (∀ (s : State) (line die core slot : Nat), s.released = true →
    (∃ t, exec (.eccUncorrectable (.hbmWalk line)) s = .next t ∧ line ∈ (t.die (lineDie line)).poisoned ∧
      (t.die (lineDie line)).ue.get 0 0 = satInc ((s.die (lineDie line)).ue.get 0 0) ∧ t.cohorts = s.cohorts ∧ t.mem = s.mem) ∧
    (s.clocked (dieOf core) = false → exec (.eccUncorrectable (.tlb core slot)) s = .next s) ∧
    (s.clocked die = false → exec (.eccUncorrectable (.ringSlot die slot)) s = .next s) ∧
    (s.clocked (dieOf core) = true → ∃ t, exec (.eccUncorrectable (.tlb core slot)) s = .next t ∧ (t.die (dieOf core)).ue.get 7 0 = satInc ((s.die (dieOf core)).ue.get 7 0) ∧
      (t.core core).tlb = (s.core core).tlb.eraseIdx slot ∧ (∀ k, k ≠ core → (t.core k).tlb = (s.core k).tlb) ∧
      t.cohorts = s.cohorts ∧ t.blocks = s.blocks ∧ t.mem = s.mem) ∧
    (s.clocked die = true → ∃ t, exec (.eccUncorrectable (.ringSlot die slot)) s = .next t ∧ (t.die die).slots.get slot 0 = 0 ∧
      (t.die die).tokLost = (s.die die).tokLost + BitVec.ofNat 64 ((s.die die).slots.get slot 0))) ∧
  (∀ (s : State) (die cls frame : Nat), s.released = true →
    let d := s.die die
    let n := d.frames.get frame 0 + 1
    (2 ≤ cls → cls ≤ 6 → s.clocked die = false → exec (.eccCorrectable die cls frame) s = .next s) ∧
    (cls < 2 ∨ 6 < cls ∨ s.clocked die = true → ∃ t, exec (.eccCorrectable die cls frame) s = .next t ∧ (t.die die).ce.get cls 0 = satInc (d.ce.get cls 0) ∧
      (∀ k, k ≠ cls → (t.die die).ce.get k 0 = d.ce.get k 0) ∧
      (cls ≠ 0 → (t.die die).frames = d.frames ∧ t.grotto = s.grotto) ∧
      (cls = 0 → n < d.cethr → (t.die die).frames.get frame 0 = n ∧ t.grotto = s.grotto) ∧
      (cls = 0 → d.cethr ≤ n → (t.die die).frames.get frame 0 = 0 ∧ ∃ e, t.grotto.sram = (e :: s.grotto.sram).take 1024 ∧ e.kind = 2 ∧
        e.die = die ∧ e.seq = s.grotto.logseq + 1 ∧ e.addr = BitVec.ofNat 64 (4096 * frame)))) ∧
  ∀ (s : State) (die : Nat),
    (s.released = true → (s.die die).scrubEn = true → (s.die die).scrubGap ≤ (s.die die).scrubClk →
      ∃ t, exec (.patrolScrub die) s = .next t ∧ (t.die die).scrubPos = ((s.die die).scrubPos + 1) % (hbmSize / 128) ∧
        (t.die die).scrubClk = (s.die die).scrubClk - (s.die die).scrubGap ∧ t.cohorts = s.cohorts ∧ t.mem = s.mem) ∧
    (s.released = false ∨ (s.die die).scrubEn = false ∨ (s.die die).scrubClk < (s.die die).scrubGap → exec (.patrolScrub die) s = .next s) ∧
    (s.released = true → ∃ t, exec (.clr die) s = .next t ∧ t.die die = { s.die die with ce := [], ue := [], kills := 0, relaunch := 0 } ∧
      (∀ k, k ≠ die → t.die k = s.die k) ∧ { t with dies := s.dies } = s) ∧
    (s.released = false → exec (.clr die) s = .next s) ∧
    ∃ t, exec .logFlush s = .next t ∧ { t with grotto := s.grotto } = s ∧ { t.grotto with flashLog := s.grotto.flashLog } = s.grotto ∧
      (s.grotto.flashLog = [] → (∀ e ∈ s.grotto.sram, 0 < e.seq) → t.grotto.flashLog = s.grotto.sram.take 8192)

/-- O59. Firmware (R366, R369 to R375). A reset copies the image in flash into TCM and takes it through the checks of R369: one
that passes them runs from its ENTRY, raises the fuses to its security version and leaves the dies, the link and the VFs out
of reset, each VF under a key that no VF has had; one that fails leaves the device in recovery, and stands in TCM all the
same. UPDATE and RECOVER begin in the state that answers them, and MBSTATE is UPDATING until they end; the check comes first
and refuses an image with its result; then flash is written, and read back. RECOVER then resets the device. Only a loss of
power while flash is written can tear it, and then no image in it passes. An image fails by the first of the five checks of R369 that
it does not pass. The responder answers each request, signs a challenge, and the measurements where it is asked to, over the hash of
that exchange's transcript, and on request the same hash by SLH-DSA; it returns the measurement of an index, or all, or their number, and an
error for another index; the certificate chain is one of the firmware's measurement and its keys. The keys and the bodies are functions
of the configuration; which transcript is signed, and as what, is SPDM's, and the hash and the signature schemes are those of their
standards (the model's, logs 131 to 133). The model's readings: BADCMD of UPDATE in RECOVERY and of RECOVER in READY, and the torn write (log 48); UPDATING while RECOVER
runs, and the payload at TCM's offset 0 (log 74). The numbers of the keys are its choice (log 35). -/
def Obligations.Firmware : Prop :=
  (∀ (s : State),
    let im := s.grotto.flash
    exec .warmReset s = exec .coldReset s ∧ ∃ t, exec .coldReset s = .next t ∧ t.cohorts = [] ∧ t.blocks = [] ∧ t.launches = [] ∧
      t.curVf = none ∧ t.grotto.flash = im ∧ (∀ c ∈ t.mem, inHbm c.1 = false) ∧ t.grotto.tcm = tcmOf (imgPayload im) ∧
      t.grotto.update = none ∧
      (imageFails s.grotto.svnf im = none → t.released = true ∧ t.grotto.mbstate = .ready ∧ t.grotto.pc = BitVec.ofNat 32 (imgEntry im) ∧
        t.grotto.ropSvn = imgSvn im ∧ t.grotto.svnf = svnRaise s.grotto.svnf (imgSvn im) ∧ t.nextKey = s.nextKey + 64 ∧
        t.grotto.meas2 = sha384 (imgSigned im) ∧ (∀ p, (t.port p).trained = true ↔ (t.port p).lanes ≠ 0) ∧
        ∀ v < 64, t.vf v = { key := s.nextKey + v }) ∧
      (imageFails s.grotto.svnf im ≠ none → t.released = false ∧ t.grotto.mbstate = .recovery ∧ t.grotto.svnf = s.grotto.svnf ∧
        t.grotto.meas2 = List.replicate 48 0)) ∧
  (∀ s : State,
    (s.grotto.mbstate = .boot ∨ s.grotto.mbstate = .updating → ∀ i ∈ [Instr.update, Instr.recover],
      ∃ t, exec i s = .next t ∧ t.grotto = { s.grotto with result := 1 } ∧ { t with grotto := s.grotto } = s) ∧
    (s.grotto.mbstate = .recovery → ∃ t, exec .update s = .next t ∧ t.grotto = { s.grotto with result := 2 }) ∧
    (s.grotto.mbstate = .ready → ∃ t, exec .recover s = .next t ∧ t.grotto = { s.grotto with result := 2 }) ∧
    (s.grotto.mbstate = .ready → ∃ t, exec .update s = .next t ∧ { t with grotto := s.grotto } = s ∧
      t.grotto = { s.grotto with mbstate := .updating, buffer := s.staged, update := some (.check, false) }) ∧
    (s.grotto.mbstate = .recovery → ∃ t, exec .recover s = .next t ∧ { t with grotto := s.grotto } = s ∧
      t.grotto = { s.grotto with mbstate := .updating, buffer := s.window, update := some (.check, true) })) ∧
  (∀ (s : State) (rec : Bool),
    let g := s.grotto
    let fails := if 512 * 1024 < g.buffer.length then some 1 else imageFails g.svnf g.buffer
    let t := s.grottoStep
    (g.update = some (.check, rec) →
      (∀ k, fails = some k → t.grotto.flash = g.flash ∧ t.grotto.update = none ∧ (t.grotto.result = if k = 3 then 4 else 3) ∧
        (t.grotto.mbstate = if rec then .recovery else .ready) ∧ t.cohorts = s.cohorts ∧ t.released = s.released) ∧
      (fails = none → t.grotto.update = some (.write, rec) ∧ t.grotto.mbstate = g.mbstate ∧ { t with grotto := g } = s ∧
        ((imageFails g.svnf t.grotto.flash).isSome = true ∨ t.grotto.flash = g.buffer))) ∧
    (g.update = some (.write, rec) →
      let fl := writtenOf g.svnf g.buffer (Config.flashWritten g.buffer s.tick)
      ((imageFails g.svnf fl).isSome = true → t.grotto.flash = fl ∧ t.grotto.result = 5 ∧ t.grotto.update = none ∧ t.cohorts = s.cohorts) ∧
      (imageFails g.svnf fl = none → t.grotto.flash = g.buffer ∧
        (rec = false → t.grotto.result = 0 ∧ t.grotto.mbstate = .ready ∧ t.released = s.released ∧ t.cohorts = s.cohorts) ∧
        (rec = true → t.released = true ∧ t.grotto.mbstate = .ready ∧ t.cohorts = [])))) ∧
  (∀ (s : State) (torn : Bool), ∃ t, exec (.powerLoss torn) s = .next t ∧ t.released = false ∧ t.cohorts = [] ∧
    t.grotto.svnf = s.grotto.svnf ∧ t.grotto.flashLog = s.grotto.flashLog ∧ t.grotto.mbstate = .boot ∧
    (torn = false ∨ (∀ r, s.grotto.update ≠ some (.write, r)) → t.grotto.flash = s.grotto.flash) ∧
    (∀ r, torn = true → s.grotto.update = some (.write, r) → (imageFails t.grotto.svnf t.grotto.flash).isSome = true)) ∧
  (∀ (svnf : BitVec 64) (im : List Byte),
    let plen := fld im 0x0C 4
    let entry := fld im 0x10 4
    let cut (o n : Nat) : List Byte := (im.drop o).take n
    let signed := im.take (0x240 + plen)
    let passes : List Bool := [
      decide (fld im 0 4 = 0x57464852 ∧ zeroIn im [(0x14, 0x80), (0x230, 0x240)] = true ∧ 4 ≤ plen ∧ plen ≤ 229376 ∧ plen % 4 = 0 ∧
        entry % 4 = 0 ∧ entry < plen ∧ 0x240 + plen + 384 + 16224 ≤ im.length),
      decide (Config.fuseKeys = some (sha384 (cut 0x80 384), sha384 (cut 0x200 64))),
      decide (((List.range 64).filter (fun k => svnf.getLsbD k)).length ≤ fld im 8 4),
      rsaVerify (leNat (cut 0x80 384)) signed (leNat (cut (0x240 + plen) 384)),
      slhVerify (cut 0x200 48) signed (cut (0x3C0 + plen) 16224)]
    imageFails svnf im = (passes.findIdx? (fun p => !p)).map (· + 1)) ∧
  ∀ (s : State) (nonce request : Nat) (i : Instr) (q : SpdmRequest), s.grotto.mbstate ≠ .boot →
    (i, q) ∈ [(Instr.getVersion, SpdmRequest.getVersion), (.getCapabilities, .getCapabilities),
      (.negotiateAlgorithms, .negotiateAlgorithms), (.getDigests, .getDigests), (.getCertificate, .getCertificate),
      (.challenge nonce, .challenge), (.getMeasurements request, .getMeasurements), (.slhsig, .slhsig)] →
    let g := s.grotto
    let n := request % 256
    let signed : Bool := request / 256 % 2 == 1
    let refused : Prop := q = .getMeasurements ∧ 5 < n ∧ n ≠ 255
    let signs : Prop := q = .challenge ∨ (q = .getMeasurements ∧ signed = true ∧ ¬ refused)
    ∃ t r said, exec i s = .next t ∧ { t with grotto := s.grotto } = s ∧
      t.grotto = { g with responses := r :: g.responses, vca := t.grotto.vca, certs := t.grotto.certs, measured := t.grotto.measured,
                          signedHash := t.grotto.signedHash } ∧
      r.req = q ∧ (r.error = true ↔ refused) ∧ (r.rsa.isSome = true ↔ signs) ∧ (r.slh.isSome = true ↔ q = .slhsig) ∧
      g.measurements.length = 5 ∧ g.measurements[1]? = some g.meas2 ∧
      (q = .getMeasurements → ¬ refused → (r.total = if n = 0 then some 5 else none) ∧
        r.measurements = if n = 255 then g.measurements else if n = 0 then [] else [g.measurements.getD (n - 1) []]) ∧
      (q = .negotiateAlgorithms → r.algorithms = [.rsapss3072, .sha384]) ∧
      (q = .getDigests → r.digest = some (sha384 g.chain)) ∧
      (q = .getCertificate →
        r.chain = some (Config.certChain g.meas2 (Config.rsaIdentity g.meas2).1 (slhIdentity g.meas2).publicKey)) ∧
      (t.grotto.vca = if q = .getVersion then said else if q = .getCapabilities ∨ q = .negotiateAlgorithms then g.vca ++ said else g.vca) ∧
      (q = .getDigests ∨ q = .getCertificate → t.grotto.certs = g.certs ++ said) ∧
      (q = .getVersion ∨ q = .challenge ∨ q = .getMeasurements → t.grotto.certs = []) ∧
      (q ≠ .getMeasurements → t.grotto.measured = []) ∧
      (q = .getMeasurements → ¬ refused → t.grotto.measured = if signed then [] else g.measured ++ said) ∧
      (signs → ∃ h, t.grotto.signedHash = some h ∧
        h = sha384 (g.vca ++ (if q = .challenge then g.certs else g.measured) ++ said) ∧
        r.rsa = some (bytesBE 384 (rsaSign (Config.rsaIdentity g.meas2).1 (Config.rsaIdentity g.meas2).2 (spdmSigned q h)
          (randomBytes s.tick 48)))) ∧
      (∀ h, q = .slhsig → g.signedHash = some h → r.slh = some ((slhIdentity g.meas2).sign h (randomBytes s.tick 24)))

/-! ### The memory model (spec/05_memory_model.md) -/

/-- O60. What an execution that the part allows cannot do (R28, R116 to R122, R129). Message passing: a read that comes after an
acquire which takes its value from a release sees every write that came before the release, or a later one; so does a read
that a named synchroniser puts after the write, such as a join that has gathered both lanes or a WAITOC of the write's
operation. Atomicity: no two read-modify-writes take their value from one write that comes before both. The writes of one
instruction to one place lie in ascending LANEID, so that a later read of the last lane takes none of the others. A commit is one: a read that sees a write of it, or a later
one, is followed only by reads that see every write of it, at whatever bytes; and another write that comes after it at one byte
comes after it at every byte that both write (R129). Over executions; the model's own step keeps one coherent store (log 3). -/
def Obligations.MessagePassing : Prop :=
  (∀ (x : Execution) (u s w r t q : Nat) (b : MemLoc), x.allowed → x.po u s → x.release s w → x.acquire t r → x.takesFrom w r →
    x.inScope s t → x.po t q → u < x.ev.length → q < x.ev.length → u ≠ q → (x.at_ u).writes = true → b ∈ (x.at_ u).bytes →
    (x.at_ q).reads = true → b ∈ (x.at_ q).bytes → ∃ v, (b, v, q) ∈ x.rf ∧ (v = u ∨ (b, u, v) ∈ x.co)) ∧
  (∀ (x : Execution) (u q : Nat) (b : MemLoc), x.allowed → x.Named u q → u < x.ev.length → q < x.ev.length → u ≠ q →
    (x.at_ u).writes = true → b ∈ (x.at_ u).bytes → (x.at_ q).reads = true → b ∈ (x.at_ q).bytes →
    ∃ v, (b, v, q) ∈ x.rf ∧ (v = u ∨ (b, u, v) ∈ x.co)) ∧
  (∀ (x : Execution) (v m n : Nat) (b : MemLoc), x.allowed → m ≠ n → (x.at_ m).kind = .rmw → (x.at_ n).kind = .rmw → (b, v, m) ∈ x.co →
    (b, v, n) ∈ x.co → ¬ ((b, v, m) ∈ x.rf ∧ (b, v, n) ∈ x.rf)) ∧
  (∀ (x : Execution) (v w q blk t y : Nat) (b : MemLoc), x.allowed → v < x.ev.length → w < x.ev.length → x.agentOf v = .lane blk t →
    x.agentOf w = .lane blk y → x.actOf v = x.actOf w → (x.at_ v).writes = true → (x.at_ w).writes = true → b ∈ (x.at_ v).bytes →
    b ∈ (x.at_ w).bytes → (x.actAt (x.actOf v)).kind ≠ .commit →
    (x.actAt (x.actOf v)).active.idxOf t < (x.actAt (x.actOf v)).active.idxOf y → x.po w q →
    (x.at_ q).reads = true → b ∈ (x.at_ q).bytes → q < x.ev.length → (b, v, q) ∉ x.rf) ∧
  (∀ (x : Execution) (u v w r q : Nat) (b c : MemLoc), x.allowed → x.oneCommit u v → (b, w, r) ∈ x.rf → (w = u ∨ (b, u, w) ∈ x.co) →
    Execution.Hb x r q → (x.at_ q).reads = true → c ∈ (x.at_ v).bytes → c ∈ (x.at_ q).bytes →
    ∃ z, (c, z, q) ∈ x.rf ∧ (z = v ∨ (c, v, z) ∈ x.co)) ∧
  ∀ (x : Execution) (u v z : Nat) (b c : MemLoc), x.allowed → x.oneCommit u v → (b, u, z) ∈ x.co →
    ((c, z, v) ∈ x.co → x.oneCommit z u) ∧
    (¬ x.oneCommit z u → c ∈ (x.at_ v).bytes → c ∈ (x.at_ z).bytes → (c, v, z) ∈ x.co)
end

