-- ==== Sys2Proof/Laws/Attestation.lean ====
section
/-! SUPPORT. Laws of Grotto's hashes and of its responder: the lengths of digests, and what an answered SPDM request does. -/

namespace Sys2Proof.Machine

@[simp] theorem bytesLE_length (n x : Nat) : (bytesLE n x).length = n := by
  induction n generalizing x with
  | zero => rfl
  | succ n ih => simp [bytesLE, ih]

@[simp] theorem bytesBE_length (n x : Nat) : (bytesBE n x).length = n := by simp [bytesBE]

@[simp] theorem randomBytes_length (t n : Nat) : (randomBytes t n).length = n := by simp [randomBytes]

/-- A digest's words as bytes: eight words. -/
@[simp] theorem Sha2Words.bytes_length {n : Nat} (v : Sha2Words n) : v.bytes.length = 8 * (n / 8) := by
  simp [Sha2Words.bytes]; omega

@[simp] theorem sha256_length (m : List Byte) : (sha256 m).length = 32 := by simp [sha256, Sha2.digest]
@[simp] theorem sha384_length (m : List Byte) : (sha384 m).length = 48 := by simp [sha384, Sha2.digest]
@[simp] theorem sha512_length (m : List Byte) : (sha512 m).length = 64 := by simp [sha512, Sha2.digest]

/-- GET_MEASUREMENTS has an answer for 0, for the numbers of the measurements and for 0xFF. -/
theorem Grotto.asked_isSome (g : Grotto) (n : Nat) : (g.asked n).isSome = true ↔ n ≤ 5 ∨ n = 255 := by
  unfold Grotto.asked
  split
  · simp_all
  · split <;> simp_all

/-- A request's arrival changes the transcripts and nothing else of Grotto. -/
theorem Grotto.hears_frame (g : Grotto) (q : SpdmRequest) :
    ∃ vca certs measured, g.hears q = { g with vca := vca, certs := certs, measured := measured } := by
  cases q <;> exact ⟨_, _, _, rfl⟩

@[simp] theorem Grotto.hears_meas2 (g : Grotto) (q : SpdmRequest) : (g.hears q).meas2 = g.meas2 := by cases q <;> rfl
@[simp] theorem Grotto.hears_signedHash (g : Grotto) (q : SpdmRequest) : (g.hears q).signedHash = g.signedHash := by cases q <;> rfl
@[simp] theorem Grotto.hears_responses (g : Grotto) (q : SpdmRequest) : (g.hears q).responses = g.responses := by cases q <;> rfl
@[simp] theorem Grotto.hears_measurements (g : Grotto) (q : SpdmRequest) : (g.hears q).measurements = g.measurements := by cases q <;> rfl
@[simp] theorem Grotto.hears_asked (g : Grotto) (q : SpdmRequest) (n : Nat) : (g.hears q).asked n = g.asked n := by simp [Grotto.asked]
@[simp] theorem Grotto.hears_chain (g : Grotto) (q : SpdmRequest) : (g.hears q).chain = g.chain := by simp [Grotto.chain]
@[simp] theorem Grotto.hears_signRsa (g : Grotto) (q r : SpdmRequest) (t : Nat) (h : List Byte) : (g.hears q).signRsa t r h = g.signRsa t r h := by
  simp [Grotto.signRsa]
@[simp] theorem Grotto.hears_signSlh (g : Grotto) (q : SpdmRequest) (t : Nat) (h : List Byte) : (g.hears q).signSlh t h = g.signSlh t h := by
  simp [Grotto.signSlh]

/-- The responder touches nothing but Grotto. -/
theorem State.spdm_frame (s : State) (q : SpdmRequest) (ops : List Nat) (n : Nat) (sg : Bool) :
    { s.spdm q ops n sg with grotto := s.grotto } = s := rfl

/-- A request that has no answer but an error changes the transcripts as its arrival does, and no more (log 133). -/
theorem State.spdm_error (s : State) (ops : List Nat) (n : Nat) (sg : Bool) (hb : s.grotto.mbstate ≠ .boot) (hn : s.grotto.asked n = none) :
    ∃ body, (s.spdm .getMeasurements ops n sg).grotto = { s.grotto.hears .getMeasurements with
      responses := { req := .getMeasurements, body := body, error := true } :: s.grotto.responses } := by
  simp only [State.spdm, State.updGrotto, beq_eq_false_iff_ne.mpr hb, Bool.false_eq_true, if_false, if_true, Grotto.hears_asked, hn,
    Grotto.hears_responses]
  exact ⟨_, rfl⟩

/-- Everything an answered request does: its exchange joins the transcript that is its own, and the answer carries what it asks for,
signed over the hash of that transcript where it signs. -/
theorem State.spdm_answer (s : State) (q : SpdmRequest) (ops : List Nat) (n : Nat) (sg : Bool) (hb : s.grotto.mbstate ≠ .boot)
    (hn : q = .getMeasurements → s.grotto.asked n ≠ none) :
    ∃ r said ms, (s.spdm q ops n sg).grotto = { (s.grotto.hears q).heard q said sg with
        signedHash := if sg then some (sha384 ((s.grotto.hears q).before q ++ said)) else s.grotto.signedHash,
        responses := r :: s.grotto.responses } ∧
      r = { req := q, body := r.body, algorithms := if q = .negotiateAlgorithms then [.rsapss3072, .sha384] else [],
            chain := if q = .getCertificate then some s.grotto.chain else none,
            digest := if q = .getDigests then some (sha384 s.grotto.chain) else none,
            measurements := ms, total := if q = .getMeasurements && n = 0 then some 5 else none,
            rsa := if sg then some (s.grotto.signRsa s.tick q (sha384 ((s.grotto.hears q).before q ++ said))) else none,
            slh := if q = .slhsig then some (s.grotto.signSlh s.tick (s.grotto.signedHash.getD (sha384 (s.grotto.hears q).vca))) else none } ∧
      (q = .getMeasurements → s.grotto.asked n = some ms) := by
  obtain ⟨ms, hms⟩ : ∃ ms, (if q = .getMeasurements then s.grotto.asked n else some []) = some ms := by
    split
    · exact Option.ne_none_iff_exists'.mp (hn ‹_›)
    · exact ⟨[], rfl⟩
  have hq : q = .getMeasurements → s.grotto.asked n = some ms := fun h => by rw [if_pos h] at hms; exact hms
  simp only [State.spdm, State.updGrotto, beq_eq_false_iff_ne.mpr hb, Bool.false_eq_true, if_false, Grotto.hears_asked, hms,
    Grotto.hears_responses, Grotto.hears_signedHash, Grotto.hears_chain, Grotto.hears_signRsa, Grotto.hears_signSlh]
  refine ⟨_, _, ms, rfl, ?_, hq⟩
  simp only

end Sys2Proof.Machine
end

