-- ==== Sys2Proof/Laws/Maps.lean ====
section
/-! SUPPORT. Laws of sparse tables and byte stores: read after write, other keys untouched, and the canonical forms kept. -/

namespace Sys2Proof.Machine

/-! ### Sparse tables -/

theorem SMap.look_put_self {α : Type} (m : SMap α) (i : Nat) (x : α) : (m.put i x).look i = some x := by
  induction m with
  | nil => simp [SMap.put, SMap.look]
  | cons p m ih =>
    obtain ⟨k, v⟩ := p
    simp only [SMap.put]
    split
    · simp [SMap.look]
    · split
      · simp [SMap.look]
      · rename_i h _
        simp [SMap.look, h, ih]

theorem SMap.look_put_ne {α : Type} (m : SMap α) {i j : Nat} (x : α) (h : j ≠ i) : (m.put i x).look j = m.look j := by
  induction m with
  | nil => simp [SMap.put, SMap.look, Ne.symm h]
  | cons p m ih =>
    obtain ⟨k, v⟩ := p
    simp only [SMap.put]
    split
    · rename_i hk
      subst hk
      simp [SMap.look, Ne.symm h]
    · split
      · simp [SMap.look, Ne.symm h]
      · simp [SMap.look, ih]

theorem SMap.look_put {α : Type} (m : SMap α) (i j : Nat) (x : α) :
    (m.put i x).look j = if j = i then some x else m.look j := by
  split
  · rename_i h
    subst h
    exact m.look_put_self j x
  · rename_i h
    exact m.look_put_ne x h

theorem SMap.look_del_self {α : Type} (m : SMap α) (i : Nat) : (m.del i).look i = none := by
  induction m with
  | nil => rfl
  | cons p m ih =>
    obtain ⟨k, v⟩ := p
    simp only [SMap.del]
    split
    · exact ih
    · rename_i h
      simp [SMap.look, h, ih]

theorem SMap.look_del_ne {α : Type} (m : SMap α) {i j : Nat} (h : j ≠ i) : (m.del i).look j = m.look j := by
  induction m with
  | nil => rfl
  | cons p m ih =>
    obtain ⟨k, v⟩ := p
    simp only [SMap.del]
    split
    · rename_i hk
      subst hk
      simp [SMap.look, Ne.symm h, ih]
    · simp [SMap.look, ih]

theorem SMap.look_upd_self {α : Type} (m : SMap α) (i : Nat) (f : α → α) : (m.upd i f).look i = (m.look i).map f := by
  unfold SMap.upd
  cases h : m.look i with
  | none => simp [h]
  | some v => simp [m.look_put_self]

theorem SMap.look_upd_ne {α : Type} (m : SMap α) {i j : Nat} (f : α → α) (h : j ≠ i) : (m.upd i f).look j = m.look j := by
  unfold SMap.upd
  cases m.look i with
  | none => rfl
  | some v => exact m.look_put_ne _ h

theorem SMap.look_mapVals {α β : Type} (m : SMap α) (f : Nat → α → β) (i : Nat) :
    (m.mapVals f).look i = (m.look i).map (f i) := by
  induction m with
  | nil => rfl
  | cons p m ih =>
    obtain ⟨k, v⟩ := p
    simp only [SMap.mapVals] at ih
    simp only [SMap.mapVals, List.map_cons, SMap.look]
    split
    · rename_i h
      simp [h]
    · exact ih

theorem SMap.get_put {α : Type} (m : SMap α) (i j : Nat) (x d : α) :
    (m.put i x).get j d = if j = i then x else m.get j d := by
  unfold SMap.get
  rw [SMap.look_put]
  split <;> rfl

/-- Keys that rise strictly. -/
theorem SMap.wf_iff {α : Type} (m : SMap α) : m.wf = true ↔ m.Pairwise (fun a b => a.1 < b.1) := by
  induction m with
  | nil => simp [SMap.wf]
  | cons p m ih =>
    cases m with
    | nil => simp [SMap.wf]
    | cons q m =>
      obtain ⟨k, v⟩ := p
      obtain ⟨k', v'⟩ := q
      simp only [SMap.wf, Bool.and_eq_true, decide_eq_true_eq, ih, List.pairwise_cons]
      constructor
      · rintro ⟨hk, h, t⟩
        refine ⟨?_, h, t⟩
        intro b hb
        rcases List.mem_cons.1 hb with rfl | hb
        · exact hk
        · exact Nat.lt_trans hk (h b hb)
      · rintro ⟨h, t⟩
        exact ⟨h _ (List.mem_cons_self), t⟩

theorem SMap.mem_put {α : Type} (m : SMap α) (i : Nat) (x : α) {p : Nat × α} (h : p ∈ m.put i x) :
    p = (i, x) ∨ p ∈ m := by
  induction m with
  | nil => simpa [SMap.put] using h
  | cons q m ih =>
    obtain ⟨k, v⟩ := q
    simp only [SMap.put] at h
    split at h
    · rcases List.mem_cons.1 h with rfl | h
      · exact .inl rfl
      · exact .inr (List.mem_cons_of_mem _ h)
    · split at h
      · rcases List.mem_cons.1 h with rfl | h
        · exact .inl rfl
        · exact .inr h
      · rcases List.mem_cons.1 h with rfl | h
        · exact .inr List.mem_cons_self
        · exact (ih h).imp id (List.mem_cons_of_mem _)

theorem SMap.wf_put {α : Type} (m : SMap α) (i : Nat) (x : α) (h : m.wf = true) : (m.put i x).wf = true := by
  rw [SMap.wf_iff] at *
  induction m with
  | nil => simp [SMap.put]
  | cons q m ih =>
    obtain ⟨k, v⟩ := q
    obtain ⟨hk, t⟩ := List.pairwise_cons.1 h
    simp only [SMap.put]
    split
    · rename_i e
      subst e
      exact List.pairwise_cons.2 ⟨hk, t⟩
    · split
      · rename_i _ lt
        refine List.pairwise_cons.2 ⟨?_, h⟩
        intro b hb
        rcases List.mem_cons.1 hb with rfl | hb
        · exact lt
        · exact Nat.lt_trans lt (hk b hb)
      · rename_i ne nlt
        refine List.pairwise_cons.2 ⟨?_, ih t⟩
        intro b hb
        rcases SMap.mem_put m i x hb with rfl | hb
        · simp only at ne nlt ⊢
          omega
        · exact hk b hb

theorem SMap.del_sublist {α : Type} (m : SMap α) (i : Nat) : List.Sublist (m.del i) m := by
  induction m with
  | nil => exact List.Sublist.refl _
  | cons q m ih =>
    obtain ⟨k, v⟩ := q
    simp only [SMap.del]
    split
    · exact List.Sublist.cons _ ih
    · exact ih.cons_cons _

theorem SMap.wf_del {α : Type} (m : SMap α) (i : Nat) (h : m.wf = true) : (m.del i).wf = true := by
  rw [SMap.wf_iff] at *
  exact h.sublist (m.del_sublist i)

theorem SMap.wf_filter {α : Type} (m : SMap α) (p : Nat × α → Bool) (h : m.wf = true) : SMap.wf (m.filter p) = true := by
  rw [SMap.wf_iff] at *
  exact h.filter p

theorem SMap.wf_upd {α : Type} (m : SMap α) (i : Nat) (f : α → α) (h : m.wf = true) : (m.upd i f).wf = true := by
  unfold SMap.upd
  split
  · exact SMap.wf_put m i _ h
  · exact h

theorem SMap.wf_mapVals {α β : Type} (m : SMap α) (f : Nat → α → β) (h : m.wf = true) : (m.mapVals f).wf = true := by
  rw [SMap.wf_iff] at *
  exact List.pairwise_map.2 h

theorem SMap.wf_tidy {α : Type} (l : List (Nat × α)) : (SMap.tidy l).wf = true := by
  have : ∀ m : SMap α, m.wf = true → SMap.wf (l.foldl (fun m p => SMap.put m p.1 p.2) m) = true := by
    induction l with
    | nil => exact fun _ h => h
    | cons p l ih => exact fun m h => ih _ (SMap.wf_put m p.1 p.2 h)
  exact this [] rfl

/-- What a key stands for is listed. -/
theorem SMap.mem_of_look {α : Type} {m : SMap α} {i : Nat} {x : α} (h : m.look i = some x) : (i, x) ∈ m := by
  induction m with
  | nil => cases h
  | cons p m ih =>
    obtain ⟨k, v⟩ := p
    simp only [SMap.look] at h
    split at h
    · rename_i e
      subst e
      cases h
      exact List.mem_cons_self
    · exact List.mem_cons_of_mem _ (ih h)

/-- In a table with no key twice, what is listed is what its key stands for. -/
theorem SMap.look_of_mem {α : Type} {m : SMap α} {i : Nat} {x : α} (w : m.wf = true) (h : (i, x) ∈ m) : m.look i = some x := by
  rw [SMap.wf_iff] at w
  induction m with
  | nil => cases h
  | cons p m ih =>
    obtain ⟨k, v⟩ := p
    obtain ⟨hk, t⟩ := List.pairwise_cons.1 w
    simp only [SMap.look]
    rcases List.mem_cons.1 h with e | h
    · cases e
      exact if_pos rfl
    · rw [if_neg (Nat.ne_of_lt (hk _ h))]
      exact ih t h

/-! ### Byte stores -/

theorem cellAt_cellPut (m : List Host.Cell) (a c : Nat) (b : Byte) :
    cellAt (cellPut m a b) c = if c = a then some b else cellAt m c := by
  induction m with
  | nil =>
    simp only [cellPut, cellAt]
    by_cases h : a = c <;> simp [h, eq_comm]
  | cons q m ih =>
    obtain ⟨k, v⟩ := q
    simp only [cellPut]
    split
    · rename_i e
      subst e
      simp only [cellAt]
      by_cases h : k = c
      · simp [h]
      · simp [h, Ne.symm h]
    · split
      · simp only [cellAt]
        by_cases h : a = c
        · simp [h]
        · simp [h, Ne.symm h]
      · rename_i ne _
        simp only [cellAt, ih]
        by_cases h : k = c
        · subst h
          simp [ne]
        · simp [h]

theorem cellAt_cellDel (m : List Host.Cell) (a c : Nat) :
    cellAt (cellDel m a) c = if c = a then none else cellAt m c := by
  induction m with
  | nil => simp [cellDel, cellAt]
  | cons q m ih =>
    obtain ⟨k, v⟩ := q
    simp only [cellDel]
    split
    · rename_i e
      subst e
      rw [ih]
      simp only [cellAt]
      by_cases h : c = k
      · simp [h]
      · simp [h, Ne.symm h]
    · rename_i ne
      simp only [cellAt, ih]
      by_cases h : k = c
      · subst h
        simp [ne]
      · simp [h]

/-- A byte of a scratchpad or weight buffer reads as the last value written to it, whatever the value. -/
theorem bufAt_bufPut (m : List Host.Cell) (a c : Nat) (b : Byte) :
    bufAt (bufPut m a b) c = if c = a then b else bufAt m c := by
  unfold bufAt bufPut
  by_cases hb : b = 0
  · subst hb
    simp only [if_true, cellAt_cellDel]
    split <;> rfl
  · simp only [hb, if_false, cellAt_cellPut]
    split <;> rfl

theorem bufAt_bufWrite (bs : List Byte) (m : List Host.Cell) (a c : Nat) :
    bufAt (bufWrite m a bs) c = if a ≤ c ∧ c < a + bs.length then bs.getD (c - a) 0 else bufAt m c := by
  induction bs generalizing m a with
  | nil =>
    simp only [bufWrite, List.length_nil, Nat.add_zero]
    rw [if_neg (by omega)]
  | cons b bs ih =>
    simp only [bufWrite, ih, List.length_cons, bufAt_bufPut]
    by_cases h1 : a + 1 ≤ c ∧ c < a + 1 + bs.length
    · rw [if_pos h1, if_pos (by omega)]
      have : c - a = (c - (a + 1)) + 1 := by omega
      rw [this, List.getD_cons_succ]
    · rw [if_neg h1]
      by_cases h2 : c = a
      · subst h2
        rw [if_pos rfl, if_pos (by omega)]
        simp
      · rw [if_neg h2, if_neg (by omega)]

theorem bufRead_length (m : List Host.Cell) (a n : Nat) : (bufRead m a n).length = n := by simp [bufRead]

/-! ### Canonical forms -/

theorem cellsSorted_iff (m : List Host.Cell) : cellsSorted m = true ↔ m.Pairwise (fun a b => a.1 < b.1) := by
  induction m with
  | nil => simp [cellsSorted]
  | cons p m ih =>
    cases m with
    | nil => simp [cellsSorted]
    | cons q m =>
      obtain ⟨k, v⟩ := p
      obtain ⟨k', v'⟩ := q
      simp only [cellsSorted, Bool.and_eq_true, decide_eq_true_eq, ih, List.pairwise_cons]
      constructor
      · rintro ⟨hk, h, t⟩
        refine ⟨?_, h, t⟩
        intro b hb
        rcases List.mem_cons.1 hb with rfl | hb
        · exact hk
        · exact Nat.lt_trans hk (h b hb)
      · rintro ⟨h, t⟩
        exact ⟨h _ (List.mem_cons_self), t⟩

theorem mem_cellPut (m : List Host.Cell) (a : Nat) (b : Byte) {p : Host.Cell} (h : p ∈ cellPut m a b) :
    p = (a, b) ∨ p ∈ m := by
  induction m with
  | nil => simpa [cellPut] using h
  | cons q m ih =>
    obtain ⟨k, v⟩ := q
    simp only [cellPut] at h
    split at h
    · rcases List.mem_cons.1 h with rfl | h
      · exact .inl rfl
      · exact .inr (List.mem_cons_of_mem _ h)
    · split at h
      · rcases List.mem_cons.1 h with rfl | h
        · exact .inl rfl
        · exact .inr h
      · rcases List.mem_cons.1 h with rfl | h
        · exact .inr List.mem_cons_self
        · exact (ih h).imp id (List.mem_cons_of_mem _)

theorem cellsSorted_cellPut (m : List Host.Cell) (a : Nat) (b : Byte) (h : cellsSorted m = true) :
    cellsSorted (cellPut m a b) = true := by
  rw [cellsSorted_iff] at *
  induction m with
  | nil => simp [cellPut]
  | cons q m ih =>
    obtain ⟨k, v⟩ := q
    obtain ⟨hk, t⟩ := List.pairwise_cons.1 h
    simp only [cellPut]
    split
    · rename_i e
      subst e
      exact List.pairwise_cons.2 ⟨hk, t⟩
    · split
      · rename_i _ lt
        refine List.pairwise_cons.2 ⟨?_, h⟩
        intro c hc
        rcases List.mem_cons.1 hc with rfl | hc
        · exact lt
        · exact Nat.lt_trans lt (hk c hc)
      · rename_i ne nlt
        refine List.pairwise_cons.2 ⟨?_, ih t⟩
        intro c hc
        rcases mem_cellPut m a b hc with rfl | hc
        · simp only at ne nlt ⊢
          omega
        · exact hk c hc

theorem cellDel_sublist (m : List Host.Cell) (a : Nat) : List.Sublist (cellDel m a) m := by
  induction m with
  | nil => exact List.Sublist.refl _
  | cons q m ih =>
    obtain ⟨k, v⟩ := q
    simp only [cellDel]
    split
    · exact List.Sublist.cons _ ih
    · exact ih.cons_cons _

theorem cellsSorted_sublist {l m : List Host.Cell} (s : List.Sublist l m) (h : cellsSorted m = true) :
    cellsSorted l = true := by
  rw [cellsSorted_iff] at *
  exact h.sublist s

theorem cellsSorted_filter (m : List Host.Cell) (p : Host.Cell → Bool) (h : cellsSorted m = true) :
    cellsSorted (m.filter p) = true := cellsSorted_sublist List.filter_sublist h

theorem bufWf_nil : bufWf [] = true := rfl

theorem bufWf_sublist {l m : List Host.Cell} (s : List.Sublist l m) (h : bufWf m = true) : bufWf l = true := by
  simp only [bufWf, Bool.and_eq_true, List.all_eq_true] at *
  exact ⟨cellsSorted_sublist s h.1, fun c hc => h.2 c (s.subset hc)⟩

theorem bufWf_bufPut (m : List Host.Cell) (a : Nat) (b : Byte) (h : bufWf m = true) : bufWf (bufPut m a b) = true := by
  unfold bufPut
  split
  · exact bufWf_sublist (cellDel_sublist m a) h
  · rename_i hb
    simp only [bufWf, Bool.and_eq_true, List.all_eq_true] at *
    refine ⟨cellsSorted_cellPut m a b h.1, fun c hc => ?_⟩
    rcases mem_cellPut m a b hc with rfl | hc
    · simpa using hb
    · exact h.2 c hc

theorem bufWf_bufWrite (bs : List Byte) (m : List Host.Cell) (a : Nat) (h : bufWf m = true) :
    bufWf (bufWrite m a bs) = true := by
  induction bs generalizing m a with
  | nil => exact h
  | cons b bs ih => exact ih _ _ (bufWf_bufPut m a b h)

theorem bufWf_bufZero (m : List Host.Cell) (a n : Nat) (h : bufWf m = true) : bufWf (bufZero m a n) = true :=
  bufWf_sublist List.filter_sublist h

/-- Two stores in canonical form that read alike at every address are equal. -/
theorem bufWf_ext {l m : List Host.Cell} (hl : bufWf l = true) (hm : bufWf m = true)
    (h : ∀ a, bufAt l a = bufAt m a) : l = m := by
  have sorted {l : List Host.Cell} (w : bufWf l = true) : l.Pairwise (fun a b => a.1 < b.1) := by
    simp only [bufWf, Bool.and_eq_true] at w
    exact (cellsSorted_iff l).1 w.1
  have nz {l : List Host.Cell} (w : bufWf l = true) {c : Host.Cell} (hc : c ∈ l) : c.2 ≠ 0 := by
    simp only [bufWf, Bool.and_eq_true, List.all_eq_true] at w
    simpa using w.2 c hc
  have before {l : List Host.Cell} {a : Nat} (p : ∀ c ∈ l, a < c.1) : bufAt l a = 0 := by
    induction l with
    | nil => rfl
    | cons q l ih =>
      obtain ⟨k, v⟩ := q
      have hk := p (k, v) List.mem_cons_self
      have := ih (fun c hc => p c (List.mem_cons_of_mem _ hc))
      simp only [bufAt, cellAt] at *
      rw [if_neg (by omega)]
      exact this
  have tail {k : Nat} {v : Byte} {l : List Host.Cell} (w : bufWf ((k, v) :: l) = true) : bufWf l = true :=
    bufWf_sublist (List.sublist_cons_self _ _) w
  induction l generalizing m with
  | nil =>
    cases m with
    | nil => rfl
    | cons q m =>
      obtain ⟨k, v⟩ := q
      have hv := nz hm (c := (k, v)) List.mem_cons_self
      have := h k
      simp [bufAt, cellAt] at this
      exact absurd this.symm hv
  | cons p l ih =>
    obtain ⟨k, v⟩ := p
    have hv := nz hl (c := (k, v)) List.mem_cons_self
    have hk := (List.pairwise_cons.1 (sorted hl)).1
    cases m with
    | nil =>
      have := h k
      simp [bufAt, cellAt] at this
      exact absurd this hv
    | cons q m =>
      obtain ⟨k', v'⟩ := q
      have hv' := nz hm (c := (k', v')) List.mem_cons_self
      have hk' := (List.pairwise_cons.1 (sorted hm)).1
      rcases Nat.lt_trichotomy k k' with lt | rfl | gt
      · have := h k
        rw [before (l := (k', v') :: m) (a := k)
          (fun c hc => by
            rcases List.mem_cons.1 hc with rfl | hc
            · exact lt
            · exact Nat.lt_trans lt (hk' c hc))] at this
        simp [bufAt, cellAt] at this
        exact absurd this hv
      · have e := h k
        simp [bufAt, cellAt] at e
        subst e
        congr 1
        refine ih (tail hl) (tail hm) (fun a => ?_)
        by_cases ha : a = k
        · subst ha
          rw [before hk, before hk']
        · have := h a
          simp only [bufAt, cellAt] at this
          rw [if_neg (Ne.symm ha), if_neg (Ne.symm ha)] at this
          exact this
      · have := h k'
        rw [before (l := (k, v) :: l) (a := k')
          (fun c hc => by
            rcases List.mem_cons.1 hc with rfl | hc
            · exact gt
            · exact Nat.lt_trans gt (hk c hc))] at this
        simp [bufAt, cellAt] at this
        exact absurd this.symm hv'

end Sys2Proof.Machine
end

