-- ==== Sys2Proof/Laws/State.lean ====
section
/-! SUPPORT. What each setter of State does to each field, and how the accessors read what a setter wrote. -/

namespace Sys2Proof.Machine

/-! ### setCore -/

@[simp] theorem State.setCore_mem (s : State) (c : Nat) (x : Core) : (s.setCore c x).mem = s.mem := rfl
@[simp] theorem State.setCore_lineKeys (s : State) (c : Nat) (x : Core) : (s.setCore c x).lineKeys = s.lineKeys := rfl
@[simp] theorem State.setCore_granules (s : State) (c : Nat) (x : Core) : (s.setCore c x).granules = s.granules := rfl
@[simp] theorem State.setCore_cohorts (s : State) (c : Nat) (x : Core) : (s.setCore c x).cohorts = s.cohorts := rfl
@[simp] theorem State.setCore_blocks (s : State) (c : Nat) (x : Core) : (s.setCore c x).blocks = s.blocks := rfl
@[simp] theorem State.setCore_launches (s : State) (c : Nat) (x : Core) : (s.setCore c x).launches = s.launches := rfl
@[simp] theorem State.setCore_cores (s : State) (c : Nat) (x : Core) : (s.setCore c x).cores = s.cores.put c x := rfl
@[simp] theorem State.setCore_clusters (s : State) (c : Nat) (x : Core) : (s.setCore c x).clusters = s.clusters := rfl
@[simp] theorem State.setCore_dies (s : State) (c : Nat) (x : Core) : (s.setCore c x).dies = s.dies := rfl
@[simp] theorem State.setCore_vfs (s : State) (c : Nat) (x : Core) : (s.setCore c x).vfs = s.vfs := rfl
@[simp] theorem State.setCore_ports (s : State) (c : Nat) (x : Core) : (s.setCore c x).ports = s.ports := rfl
@[simp] theorem State.setCore_reds (s : State) (c : Nat) (x : Core) : (s.setCore c x).reds = s.reds := rfl
@[simp] theorem State.setCore_msix (s : State) (c : Nat) (x : Core) : (s.setCore c x).msix = s.msix := rfl
@[simp] theorem State.setCore_released (s : State) (c : Nat) (x : Core) : (s.setCore c x).released = s.released := rfl
@[simp] theorem State.setCore_curVf (s : State) (c : Nat) (x : Core) : (s.setCore c x).curVf = s.curVf := rfl
@[simp] theorem State.setCore_lastVf (s : State) (c : Nat) (x : Core) : (s.setCore c x).lastVf = s.lastVf := rfl
@[simp] theorem State.setCore_sliceCnt (s : State) (c : Nat) (x : Core) : (s.setCore c x).sliceCnt = s.sliceCnt := rfl
@[simp] theorem State.setCore_stopping (s : State) (c : Nat) (x : Core) : (s.setCore c x).stopping = s.stopping := rfl
@[simp] theorem State.setCore_frontClk (s : State) (c : Nat) (x : Core) : (s.setCore c x).frontClk = s.frontClk := rfl
@[simp] theorem State.setCore_nextAge (s : State) (c : Nat) (x : Core) : (s.setCore c x).nextAge = s.nextAge := rfl
@[simp] theorem State.setCore_nextId (s : State) (c : Nat) (x : Core) : (s.setCore c x).nextId = s.nextId := rfl
@[simp] theorem State.setCore_nextKey (s : State) (c : Nat) (x : Core) : (s.setCore c x).nextKey = s.nextKey := rfl
@[simp] theorem State.setCore_grotto (s : State) (c : Nat) (x : Core) : (s.setCore c x).grotto = s.grotto := rfl
@[simp] theorem State.setCore_agenda (s : State) (c : Nat) (x : Core) : (s.setCore c x).agenda = s.agenda := rfl
@[simp] theorem State.setCore_tick (s : State) (c : Nat) (x : Core) : (s.setCore c x).tick = s.tick := rfl
@[simp] theorem State.setCore_cur (s : State) (c : Nat) (x : Core) : (s.setCore c x).cur = s.cur := rfl
@[simp] theorem State.setCore_answer (s : State) (c : Nat) (x : Core) : (s.setCore c x).answer = s.answer := rfl

/-! ### updCore -/

@[simp] theorem State.updCore_mem (s : State) (c : Nat) (f : Core → Core) : (s.updCore c f).mem = s.mem := rfl
@[simp] theorem State.updCore_lineKeys (s : State) (c : Nat) (f : Core → Core) : (s.updCore c f).lineKeys = s.lineKeys := rfl
@[simp] theorem State.updCore_granules (s : State) (c : Nat) (f : Core → Core) : (s.updCore c f).granules = s.granules := rfl
@[simp] theorem State.updCore_cohorts (s : State) (c : Nat) (f : Core → Core) : (s.updCore c f).cohorts = s.cohorts := rfl
@[simp] theorem State.updCore_blocks (s : State) (c : Nat) (f : Core → Core) : (s.updCore c f).blocks = s.blocks := rfl
@[simp] theorem State.updCore_launches (s : State) (c : Nat) (f : Core → Core) : (s.updCore c f).launches = s.launches := rfl
@[simp] theorem State.updCore_cores (s : State) (c : Nat) (f : Core → Core) : (s.updCore c f).cores = s.cores.put c (f (s.core c)) := rfl
@[simp] theorem State.updCore_clusters (s : State) (c : Nat) (f : Core → Core) : (s.updCore c f).clusters = s.clusters := rfl
@[simp] theorem State.updCore_dies (s : State) (c : Nat) (f : Core → Core) : (s.updCore c f).dies = s.dies := rfl
@[simp] theorem State.updCore_vfs (s : State) (c : Nat) (f : Core → Core) : (s.updCore c f).vfs = s.vfs := rfl
@[simp] theorem State.updCore_ports (s : State) (c : Nat) (f : Core → Core) : (s.updCore c f).ports = s.ports := rfl
@[simp] theorem State.updCore_reds (s : State) (c : Nat) (f : Core → Core) : (s.updCore c f).reds = s.reds := rfl
@[simp] theorem State.updCore_msix (s : State) (c : Nat) (f : Core → Core) : (s.updCore c f).msix = s.msix := rfl
@[simp] theorem State.updCore_released (s : State) (c : Nat) (f : Core → Core) : (s.updCore c f).released = s.released := rfl
@[simp] theorem State.updCore_curVf (s : State) (c : Nat) (f : Core → Core) : (s.updCore c f).curVf = s.curVf := rfl
@[simp] theorem State.updCore_lastVf (s : State) (c : Nat) (f : Core → Core) : (s.updCore c f).lastVf = s.lastVf := rfl
@[simp] theorem State.updCore_sliceCnt (s : State) (c : Nat) (f : Core → Core) : (s.updCore c f).sliceCnt = s.sliceCnt := rfl
@[simp] theorem State.updCore_stopping (s : State) (c : Nat) (f : Core → Core) : (s.updCore c f).stopping = s.stopping := rfl
@[simp] theorem State.updCore_frontClk (s : State) (c : Nat) (f : Core → Core) : (s.updCore c f).frontClk = s.frontClk := rfl
@[simp] theorem State.updCore_nextAge (s : State) (c : Nat) (f : Core → Core) : (s.updCore c f).nextAge = s.nextAge := rfl
@[simp] theorem State.updCore_nextId (s : State) (c : Nat) (f : Core → Core) : (s.updCore c f).nextId = s.nextId := rfl
@[simp] theorem State.updCore_nextKey (s : State) (c : Nat) (f : Core → Core) : (s.updCore c f).nextKey = s.nextKey := rfl
@[simp] theorem State.updCore_grotto (s : State) (c : Nat) (f : Core → Core) : (s.updCore c f).grotto = s.grotto := rfl
@[simp] theorem State.updCore_agenda (s : State) (c : Nat) (f : Core → Core) : (s.updCore c f).agenda = s.agenda := rfl
@[simp] theorem State.updCore_tick (s : State) (c : Nat) (f : Core → Core) : (s.updCore c f).tick = s.tick := rfl
@[simp] theorem State.updCore_cur (s : State) (c : Nat) (f : Core → Core) : (s.updCore c f).cur = s.cur := rfl
@[simp] theorem State.updCore_answer (s : State) (c : Nat) (f : Core → Core) : (s.updCore c f).answer = s.answer := rfl

/-! ### setCluster -/

@[simp] theorem State.setCluster_mem (s : State) (c : Nat) (x : Cluster) : (s.setCluster c x).mem = s.mem := rfl
@[simp] theorem State.setCluster_lineKeys (s : State) (c : Nat) (x : Cluster) : (s.setCluster c x).lineKeys = s.lineKeys := rfl
@[simp] theorem State.setCluster_granules (s : State) (c : Nat) (x : Cluster) : (s.setCluster c x).granules = s.granules := rfl
@[simp] theorem State.setCluster_cohorts (s : State) (c : Nat) (x : Cluster) : (s.setCluster c x).cohorts = s.cohorts := rfl
@[simp] theorem State.setCluster_blocks (s : State) (c : Nat) (x : Cluster) : (s.setCluster c x).blocks = s.blocks := rfl
@[simp] theorem State.setCluster_launches (s : State) (c : Nat) (x : Cluster) : (s.setCluster c x).launches = s.launches := rfl
@[simp] theorem State.setCluster_cores (s : State) (c : Nat) (x : Cluster) : (s.setCluster c x).cores = s.cores := rfl
@[simp] theorem State.setCluster_clusters (s : State) (c : Nat) (x : Cluster) : (s.setCluster c x).clusters = s.clusters.put c x := rfl
@[simp] theorem State.setCluster_dies (s : State) (c : Nat) (x : Cluster) : (s.setCluster c x).dies = s.dies := rfl
@[simp] theorem State.setCluster_vfs (s : State) (c : Nat) (x : Cluster) : (s.setCluster c x).vfs = s.vfs := rfl
@[simp] theorem State.setCluster_ports (s : State) (c : Nat) (x : Cluster) : (s.setCluster c x).ports = s.ports := rfl
@[simp] theorem State.setCluster_reds (s : State) (c : Nat) (x : Cluster) : (s.setCluster c x).reds = s.reds := rfl
@[simp] theorem State.setCluster_msix (s : State) (c : Nat) (x : Cluster) : (s.setCluster c x).msix = s.msix := rfl
@[simp] theorem State.setCluster_released (s : State) (c : Nat) (x : Cluster) : (s.setCluster c x).released = s.released := rfl
@[simp] theorem State.setCluster_curVf (s : State) (c : Nat) (x : Cluster) : (s.setCluster c x).curVf = s.curVf := rfl
@[simp] theorem State.setCluster_lastVf (s : State) (c : Nat) (x : Cluster) : (s.setCluster c x).lastVf = s.lastVf := rfl
@[simp] theorem State.setCluster_sliceCnt (s : State) (c : Nat) (x : Cluster) : (s.setCluster c x).sliceCnt = s.sliceCnt := rfl
@[simp] theorem State.setCluster_stopping (s : State) (c : Nat) (x : Cluster) : (s.setCluster c x).stopping = s.stopping := rfl
@[simp] theorem State.setCluster_frontClk (s : State) (c : Nat) (x : Cluster) : (s.setCluster c x).frontClk = s.frontClk := rfl
@[simp] theorem State.setCluster_nextAge (s : State) (c : Nat) (x : Cluster) : (s.setCluster c x).nextAge = s.nextAge := rfl
@[simp] theorem State.setCluster_nextId (s : State) (c : Nat) (x : Cluster) : (s.setCluster c x).nextId = s.nextId := rfl
@[simp] theorem State.setCluster_nextKey (s : State) (c : Nat) (x : Cluster) : (s.setCluster c x).nextKey = s.nextKey := rfl
@[simp] theorem State.setCluster_grotto (s : State) (c : Nat) (x : Cluster) : (s.setCluster c x).grotto = s.grotto := rfl
@[simp] theorem State.setCluster_agenda (s : State) (c : Nat) (x : Cluster) : (s.setCluster c x).agenda = s.agenda := rfl
@[simp] theorem State.setCluster_tick (s : State) (c : Nat) (x : Cluster) : (s.setCluster c x).tick = s.tick := rfl
@[simp] theorem State.setCluster_cur (s : State) (c : Nat) (x : Cluster) : (s.setCluster c x).cur = s.cur := rfl
@[simp] theorem State.setCluster_answer (s : State) (c : Nat) (x : Cluster) : (s.setCluster c x).answer = s.answer := rfl

/-! ### updCluster -/

@[simp] theorem State.updCluster_mem (s : State) (c : Nat) (f : Cluster → Cluster) : (s.updCluster c f).mem = s.mem := rfl
@[simp] theorem State.updCluster_lineKeys (s : State) (c : Nat) (f : Cluster → Cluster) : (s.updCluster c f).lineKeys = s.lineKeys := rfl
@[simp] theorem State.updCluster_granules (s : State) (c : Nat) (f : Cluster → Cluster) : (s.updCluster c f).granules = s.granules := rfl
@[simp] theorem State.updCluster_cohorts (s : State) (c : Nat) (f : Cluster → Cluster) : (s.updCluster c f).cohorts = s.cohorts := rfl
@[simp] theorem State.updCluster_blocks (s : State) (c : Nat) (f : Cluster → Cluster) : (s.updCluster c f).blocks = s.blocks := rfl
@[simp] theorem State.updCluster_launches (s : State) (c : Nat) (f : Cluster → Cluster) : (s.updCluster c f).launches = s.launches := rfl
@[simp] theorem State.updCluster_cores (s : State) (c : Nat) (f : Cluster → Cluster) : (s.updCluster c f).cores = s.cores := rfl
@[simp] theorem State.updCluster_clusters (s : State) (c : Nat) (f : Cluster → Cluster) : (s.updCluster c f).clusters = s.clusters.put c (f (s.cluster c)) := rfl
@[simp] theorem State.updCluster_dies (s : State) (c : Nat) (f : Cluster → Cluster) : (s.updCluster c f).dies = s.dies := rfl
@[simp] theorem State.updCluster_vfs (s : State) (c : Nat) (f : Cluster → Cluster) : (s.updCluster c f).vfs = s.vfs := rfl
@[simp] theorem State.updCluster_ports (s : State) (c : Nat) (f : Cluster → Cluster) : (s.updCluster c f).ports = s.ports := rfl
@[simp] theorem State.updCluster_reds (s : State) (c : Nat) (f : Cluster → Cluster) : (s.updCluster c f).reds = s.reds := rfl
@[simp] theorem State.updCluster_msix (s : State) (c : Nat) (f : Cluster → Cluster) : (s.updCluster c f).msix = s.msix := rfl
@[simp] theorem State.updCluster_released (s : State) (c : Nat) (f : Cluster → Cluster) : (s.updCluster c f).released = s.released := rfl
@[simp] theorem State.updCluster_curVf (s : State) (c : Nat) (f : Cluster → Cluster) : (s.updCluster c f).curVf = s.curVf := rfl
@[simp] theorem State.updCluster_lastVf (s : State) (c : Nat) (f : Cluster → Cluster) : (s.updCluster c f).lastVf = s.lastVf := rfl
@[simp] theorem State.updCluster_sliceCnt (s : State) (c : Nat) (f : Cluster → Cluster) : (s.updCluster c f).sliceCnt = s.sliceCnt := rfl
@[simp] theorem State.updCluster_stopping (s : State) (c : Nat) (f : Cluster → Cluster) : (s.updCluster c f).stopping = s.stopping := rfl
@[simp] theorem State.updCluster_frontClk (s : State) (c : Nat) (f : Cluster → Cluster) : (s.updCluster c f).frontClk = s.frontClk := rfl
@[simp] theorem State.updCluster_nextAge (s : State) (c : Nat) (f : Cluster → Cluster) : (s.updCluster c f).nextAge = s.nextAge := rfl
@[simp] theorem State.updCluster_nextId (s : State) (c : Nat) (f : Cluster → Cluster) : (s.updCluster c f).nextId = s.nextId := rfl
@[simp] theorem State.updCluster_nextKey (s : State) (c : Nat) (f : Cluster → Cluster) : (s.updCluster c f).nextKey = s.nextKey := rfl
@[simp] theorem State.updCluster_grotto (s : State) (c : Nat) (f : Cluster → Cluster) : (s.updCluster c f).grotto = s.grotto := rfl
@[simp] theorem State.updCluster_agenda (s : State) (c : Nat) (f : Cluster → Cluster) : (s.updCluster c f).agenda = s.agenda := rfl
@[simp] theorem State.updCluster_tick (s : State) (c : Nat) (f : Cluster → Cluster) : (s.updCluster c f).tick = s.tick := rfl
@[simp] theorem State.updCluster_cur (s : State) (c : Nat) (f : Cluster → Cluster) : (s.updCluster c f).cur = s.cur := rfl
@[simp] theorem State.updCluster_answer (s : State) (c : Nat) (f : Cluster → Cluster) : (s.updCluster c f).answer = s.answer := rfl

/-! ### setDie -/

@[simp] theorem State.setDie_mem (s : State) (d : Nat) (x : Die) : (s.setDie d x).mem = s.mem := rfl
@[simp] theorem State.setDie_lineKeys (s : State) (d : Nat) (x : Die) : (s.setDie d x).lineKeys = s.lineKeys := rfl
@[simp] theorem State.setDie_granules (s : State) (d : Nat) (x : Die) : (s.setDie d x).granules = s.granules := rfl
@[simp] theorem State.setDie_cohorts (s : State) (d : Nat) (x : Die) : (s.setDie d x).cohorts = s.cohorts := rfl
@[simp] theorem State.setDie_blocks (s : State) (d : Nat) (x : Die) : (s.setDie d x).blocks = s.blocks := rfl
@[simp] theorem State.setDie_launches (s : State) (d : Nat) (x : Die) : (s.setDie d x).launches = s.launches := rfl
@[simp] theorem State.setDie_cores (s : State) (d : Nat) (x : Die) : (s.setDie d x).cores = s.cores := rfl
@[simp] theorem State.setDie_clusters (s : State) (d : Nat) (x : Die) : (s.setDie d x).clusters = s.clusters := rfl
@[simp] theorem State.setDie_dies (s : State) (d : Nat) (x : Die) : (s.setDie d x).dies = s.dies.put d x := rfl
@[simp] theorem State.setDie_vfs (s : State) (d : Nat) (x : Die) : (s.setDie d x).vfs = s.vfs := rfl
@[simp] theorem State.setDie_ports (s : State) (d : Nat) (x : Die) : (s.setDie d x).ports = s.ports := rfl
@[simp] theorem State.setDie_reds (s : State) (d : Nat) (x : Die) : (s.setDie d x).reds = s.reds := rfl
@[simp] theorem State.setDie_msix (s : State) (d : Nat) (x : Die) : (s.setDie d x).msix = s.msix := rfl
@[simp] theorem State.setDie_released (s : State) (d : Nat) (x : Die) : (s.setDie d x).released = s.released := rfl
@[simp] theorem State.setDie_curVf (s : State) (d : Nat) (x : Die) : (s.setDie d x).curVf = s.curVf := rfl
@[simp] theorem State.setDie_lastVf (s : State) (d : Nat) (x : Die) : (s.setDie d x).lastVf = s.lastVf := rfl
@[simp] theorem State.setDie_sliceCnt (s : State) (d : Nat) (x : Die) : (s.setDie d x).sliceCnt = s.sliceCnt := rfl
@[simp] theorem State.setDie_stopping (s : State) (d : Nat) (x : Die) : (s.setDie d x).stopping = s.stopping := rfl
@[simp] theorem State.setDie_frontClk (s : State) (d : Nat) (x : Die) : (s.setDie d x).frontClk = s.frontClk := rfl
@[simp] theorem State.setDie_nextAge (s : State) (d : Nat) (x : Die) : (s.setDie d x).nextAge = s.nextAge := rfl
@[simp] theorem State.setDie_nextId (s : State) (d : Nat) (x : Die) : (s.setDie d x).nextId = s.nextId := rfl
@[simp] theorem State.setDie_nextKey (s : State) (d : Nat) (x : Die) : (s.setDie d x).nextKey = s.nextKey := rfl
@[simp] theorem State.setDie_grotto (s : State) (d : Nat) (x : Die) : (s.setDie d x).grotto = s.grotto := rfl
@[simp] theorem State.setDie_agenda (s : State) (d : Nat) (x : Die) : (s.setDie d x).agenda = s.agenda := rfl
@[simp] theorem State.setDie_tick (s : State) (d : Nat) (x : Die) : (s.setDie d x).tick = s.tick := rfl
@[simp] theorem State.setDie_cur (s : State) (d : Nat) (x : Die) : (s.setDie d x).cur = s.cur := rfl
@[simp] theorem State.setDie_answer (s : State) (d : Nat) (x : Die) : (s.setDie d x).answer = s.answer := rfl

/-! ### updDie -/

@[simp] theorem State.updDie_mem (s : State) (d : Nat) (f : Die → Die) : (s.updDie d f).mem = s.mem := rfl
@[simp] theorem State.updDie_lineKeys (s : State) (d : Nat) (f : Die → Die) : (s.updDie d f).lineKeys = s.lineKeys := rfl
@[simp] theorem State.updDie_granules (s : State) (d : Nat) (f : Die → Die) : (s.updDie d f).granules = s.granules := rfl
@[simp] theorem State.updDie_cohorts (s : State) (d : Nat) (f : Die → Die) : (s.updDie d f).cohorts = s.cohorts := rfl
@[simp] theorem State.updDie_blocks (s : State) (d : Nat) (f : Die → Die) : (s.updDie d f).blocks = s.blocks := rfl
@[simp] theorem State.updDie_launches (s : State) (d : Nat) (f : Die → Die) : (s.updDie d f).launches = s.launches := rfl
@[simp] theorem State.updDie_cores (s : State) (d : Nat) (f : Die → Die) : (s.updDie d f).cores = s.cores := rfl
@[simp] theorem State.updDie_clusters (s : State) (d : Nat) (f : Die → Die) : (s.updDie d f).clusters = s.clusters := rfl
@[simp] theorem State.updDie_dies (s : State) (d : Nat) (f : Die → Die) : (s.updDie d f).dies = s.dies.put d (f (s.die d)) := rfl
@[simp] theorem State.updDie_vfs (s : State) (d : Nat) (f : Die → Die) : (s.updDie d f).vfs = s.vfs := rfl
@[simp] theorem State.updDie_ports (s : State) (d : Nat) (f : Die → Die) : (s.updDie d f).ports = s.ports := rfl
@[simp] theorem State.updDie_reds (s : State) (d : Nat) (f : Die → Die) : (s.updDie d f).reds = s.reds := rfl
@[simp] theorem State.updDie_msix (s : State) (d : Nat) (f : Die → Die) : (s.updDie d f).msix = s.msix := rfl
@[simp] theorem State.updDie_released (s : State) (d : Nat) (f : Die → Die) : (s.updDie d f).released = s.released := rfl
@[simp] theorem State.updDie_curVf (s : State) (d : Nat) (f : Die → Die) : (s.updDie d f).curVf = s.curVf := rfl
@[simp] theorem State.updDie_lastVf (s : State) (d : Nat) (f : Die → Die) : (s.updDie d f).lastVf = s.lastVf := rfl
@[simp] theorem State.updDie_sliceCnt (s : State) (d : Nat) (f : Die → Die) : (s.updDie d f).sliceCnt = s.sliceCnt := rfl
@[simp] theorem State.updDie_stopping (s : State) (d : Nat) (f : Die → Die) : (s.updDie d f).stopping = s.stopping := rfl
@[simp] theorem State.updDie_frontClk (s : State) (d : Nat) (f : Die → Die) : (s.updDie d f).frontClk = s.frontClk := rfl
@[simp] theorem State.updDie_nextAge (s : State) (d : Nat) (f : Die → Die) : (s.updDie d f).nextAge = s.nextAge := rfl
@[simp] theorem State.updDie_nextId (s : State) (d : Nat) (f : Die → Die) : (s.updDie d f).nextId = s.nextId := rfl
@[simp] theorem State.updDie_nextKey (s : State) (d : Nat) (f : Die → Die) : (s.updDie d f).nextKey = s.nextKey := rfl
@[simp] theorem State.updDie_grotto (s : State) (d : Nat) (f : Die → Die) : (s.updDie d f).grotto = s.grotto := rfl
@[simp] theorem State.updDie_agenda (s : State) (d : Nat) (f : Die → Die) : (s.updDie d f).agenda = s.agenda := rfl
@[simp] theorem State.updDie_tick (s : State) (d : Nat) (f : Die → Die) : (s.updDie d f).tick = s.tick := rfl
@[simp] theorem State.updDie_cur (s : State) (d : Nat) (f : Die → Die) : (s.updDie d f).cur = s.cur := rfl
@[simp] theorem State.updDie_answer (s : State) (d : Nat) (f : Die → Die) : (s.updDie d f).answer = s.answer := rfl

/-! ### setVf -/

@[simp] theorem State.setVf_mem (s : State) (v : Nat) (x : Vf) : (s.setVf v x).mem = s.mem := rfl
@[simp] theorem State.setVf_lineKeys (s : State) (v : Nat) (x : Vf) : (s.setVf v x).lineKeys = s.lineKeys := rfl
@[simp] theorem State.setVf_granules (s : State) (v : Nat) (x : Vf) : (s.setVf v x).granules = s.granules := rfl
@[simp] theorem State.setVf_cohorts (s : State) (v : Nat) (x : Vf) : (s.setVf v x).cohorts = s.cohorts := rfl
@[simp] theorem State.setVf_blocks (s : State) (v : Nat) (x : Vf) : (s.setVf v x).blocks = s.blocks := rfl
@[simp] theorem State.setVf_launches (s : State) (v : Nat) (x : Vf) : (s.setVf v x).launches = s.launches := rfl
@[simp] theorem State.setVf_cores (s : State) (v : Nat) (x : Vf) : (s.setVf v x).cores = s.cores := rfl
@[simp] theorem State.setVf_clusters (s : State) (v : Nat) (x : Vf) : (s.setVf v x).clusters = s.clusters := rfl
@[simp] theorem State.setVf_dies (s : State) (v : Nat) (x : Vf) : (s.setVf v x).dies = s.dies := rfl
@[simp] theorem State.setVf_vfs (s : State) (v : Nat) (x : Vf) : (s.setVf v x).vfs = s.vfs.put v x := rfl
@[simp] theorem State.setVf_ports (s : State) (v : Nat) (x : Vf) : (s.setVf v x).ports = s.ports := rfl
@[simp] theorem State.setVf_reds (s : State) (v : Nat) (x : Vf) : (s.setVf v x).reds = s.reds := rfl
@[simp] theorem State.setVf_msix (s : State) (v : Nat) (x : Vf) : (s.setVf v x).msix = s.msix := rfl
@[simp] theorem State.setVf_released (s : State) (v : Nat) (x : Vf) : (s.setVf v x).released = s.released := rfl
@[simp] theorem State.setVf_curVf (s : State) (v : Nat) (x : Vf) : (s.setVf v x).curVf = s.curVf := rfl
@[simp] theorem State.setVf_lastVf (s : State) (v : Nat) (x : Vf) : (s.setVf v x).lastVf = s.lastVf := rfl
@[simp] theorem State.setVf_sliceCnt (s : State) (v : Nat) (x : Vf) : (s.setVf v x).sliceCnt = s.sliceCnt := rfl
@[simp] theorem State.setVf_stopping (s : State) (v : Nat) (x : Vf) : (s.setVf v x).stopping = s.stopping := rfl
@[simp] theorem State.setVf_frontClk (s : State) (v : Nat) (x : Vf) : (s.setVf v x).frontClk = s.frontClk := rfl
@[simp] theorem State.setVf_nextAge (s : State) (v : Nat) (x : Vf) : (s.setVf v x).nextAge = s.nextAge := rfl
@[simp] theorem State.setVf_nextId (s : State) (v : Nat) (x : Vf) : (s.setVf v x).nextId = s.nextId := rfl
@[simp] theorem State.setVf_nextKey (s : State) (v : Nat) (x : Vf) : (s.setVf v x).nextKey = s.nextKey := rfl
@[simp] theorem State.setVf_grotto (s : State) (v : Nat) (x : Vf) : (s.setVf v x).grotto = s.grotto := rfl
@[simp] theorem State.setVf_agenda (s : State) (v : Nat) (x : Vf) : (s.setVf v x).agenda = s.agenda := rfl
@[simp] theorem State.setVf_tick (s : State) (v : Nat) (x : Vf) : (s.setVf v x).tick = s.tick := rfl
@[simp] theorem State.setVf_cur (s : State) (v : Nat) (x : Vf) : (s.setVf v x).cur = s.cur := rfl
@[simp] theorem State.setVf_answer (s : State) (v : Nat) (x : Vf) : (s.setVf v x).answer = s.answer := rfl

/-! ### updVf -/

@[simp] theorem State.updVf_mem (s : State) (v : Nat) (f : Vf → Vf) : (s.updVf v f).mem = s.mem := rfl
@[simp] theorem State.updVf_lineKeys (s : State) (v : Nat) (f : Vf → Vf) : (s.updVf v f).lineKeys = s.lineKeys := rfl
@[simp] theorem State.updVf_granules (s : State) (v : Nat) (f : Vf → Vf) : (s.updVf v f).granules = s.granules := rfl
@[simp] theorem State.updVf_cohorts (s : State) (v : Nat) (f : Vf → Vf) : (s.updVf v f).cohorts = s.cohorts := rfl
@[simp] theorem State.updVf_blocks (s : State) (v : Nat) (f : Vf → Vf) : (s.updVf v f).blocks = s.blocks := rfl
@[simp] theorem State.updVf_launches (s : State) (v : Nat) (f : Vf → Vf) : (s.updVf v f).launches = s.launches := rfl
@[simp] theorem State.updVf_cores (s : State) (v : Nat) (f : Vf → Vf) : (s.updVf v f).cores = s.cores := rfl
@[simp] theorem State.updVf_clusters (s : State) (v : Nat) (f : Vf → Vf) : (s.updVf v f).clusters = s.clusters := rfl
@[simp] theorem State.updVf_dies (s : State) (v : Nat) (f : Vf → Vf) : (s.updVf v f).dies = s.dies := rfl
@[simp] theorem State.updVf_vfs (s : State) (v : Nat) (f : Vf → Vf) : (s.updVf v f).vfs = s.vfs.put v (f (s.vf v)) := rfl
@[simp] theorem State.updVf_ports (s : State) (v : Nat) (f : Vf → Vf) : (s.updVf v f).ports = s.ports := rfl
@[simp] theorem State.updVf_reds (s : State) (v : Nat) (f : Vf → Vf) : (s.updVf v f).reds = s.reds := rfl
@[simp] theorem State.updVf_msix (s : State) (v : Nat) (f : Vf → Vf) : (s.updVf v f).msix = s.msix := rfl
@[simp] theorem State.updVf_released (s : State) (v : Nat) (f : Vf → Vf) : (s.updVf v f).released = s.released := rfl
@[simp] theorem State.updVf_curVf (s : State) (v : Nat) (f : Vf → Vf) : (s.updVf v f).curVf = s.curVf := rfl
@[simp] theorem State.updVf_lastVf (s : State) (v : Nat) (f : Vf → Vf) : (s.updVf v f).lastVf = s.lastVf := rfl
@[simp] theorem State.updVf_sliceCnt (s : State) (v : Nat) (f : Vf → Vf) : (s.updVf v f).sliceCnt = s.sliceCnt := rfl
@[simp] theorem State.updVf_stopping (s : State) (v : Nat) (f : Vf → Vf) : (s.updVf v f).stopping = s.stopping := rfl
@[simp] theorem State.updVf_frontClk (s : State) (v : Nat) (f : Vf → Vf) : (s.updVf v f).frontClk = s.frontClk := rfl
@[simp] theorem State.updVf_nextAge (s : State) (v : Nat) (f : Vf → Vf) : (s.updVf v f).nextAge = s.nextAge := rfl
@[simp] theorem State.updVf_nextId (s : State) (v : Nat) (f : Vf → Vf) : (s.updVf v f).nextId = s.nextId := rfl
@[simp] theorem State.updVf_nextKey (s : State) (v : Nat) (f : Vf → Vf) : (s.updVf v f).nextKey = s.nextKey := rfl
@[simp] theorem State.updVf_grotto (s : State) (v : Nat) (f : Vf → Vf) : (s.updVf v f).grotto = s.grotto := rfl
@[simp] theorem State.updVf_agenda (s : State) (v : Nat) (f : Vf → Vf) : (s.updVf v f).agenda = s.agenda := rfl
@[simp] theorem State.updVf_tick (s : State) (v : Nat) (f : Vf → Vf) : (s.updVf v f).tick = s.tick := rfl
@[simp] theorem State.updVf_cur (s : State) (v : Nat) (f : Vf → Vf) : (s.updVf v f).cur = s.cur := rfl
@[simp] theorem State.updVf_answer (s : State) (v : Nat) (f : Vf → Vf) : (s.updVf v f).answer = s.answer := rfl

/-! ### setPort -/

@[simp] theorem State.setPort_mem (s : State) (p : Nat) (x : Port) : (s.setPort p x).mem = s.mem := rfl
@[simp] theorem State.setPort_lineKeys (s : State) (p : Nat) (x : Port) : (s.setPort p x).lineKeys = s.lineKeys := rfl
@[simp] theorem State.setPort_granules (s : State) (p : Nat) (x : Port) : (s.setPort p x).granules = s.granules := rfl
@[simp] theorem State.setPort_cohorts (s : State) (p : Nat) (x : Port) : (s.setPort p x).cohorts = s.cohorts := rfl
@[simp] theorem State.setPort_blocks (s : State) (p : Nat) (x : Port) : (s.setPort p x).blocks = s.blocks := rfl
@[simp] theorem State.setPort_launches (s : State) (p : Nat) (x : Port) : (s.setPort p x).launches = s.launches := rfl
@[simp] theorem State.setPort_cores (s : State) (p : Nat) (x : Port) : (s.setPort p x).cores = s.cores := rfl
@[simp] theorem State.setPort_clusters (s : State) (p : Nat) (x : Port) : (s.setPort p x).clusters = s.clusters := rfl
@[simp] theorem State.setPort_dies (s : State) (p : Nat) (x : Port) : (s.setPort p x).dies = s.dies := rfl
@[simp] theorem State.setPort_vfs (s : State) (p : Nat) (x : Port) : (s.setPort p x).vfs = s.vfs := rfl
@[simp] theorem State.setPort_ports (s : State) (p : Nat) (x : Port) : (s.setPort p x).ports = s.ports.put p x := rfl
@[simp] theorem State.setPort_reds (s : State) (p : Nat) (x : Port) : (s.setPort p x).reds = s.reds := rfl
@[simp] theorem State.setPort_msix (s : State) (p : Nat) (x : Port) : (s.setPort p x).msix = s.msix := rfl
@[simp] theorem State.setPort_released (s : State) (p : Nat) (x : Port) : (s.setPort p x).released = s.released := rfl
@[simp] theorem State.setPort_curVf (s : State) (p : Nat) (x : Port) : (s.setPort p x).curVf = s.curVf := rfl
@[simp] theorem State.setPort_lastVf (s : State) (p : Nat) (x : Port) : (s.setPort p x).lastVf = s.lastVf := rfl
@[simp] theorem State.setPort_sliceCnt (s : State) (p : Nat) (x : Port) : (s.setPort p x).sliceCnt = s.sliceCnt := rfl
@[simp] theorem State.setPort_stopping (s : State) (p : Nat) (x : Port) : (s.setPort p x).stopping = s.stopping := rfl
@[simp] theorem State.setPort_frontClk (s : State) (p : Nat) (x : Port) : (s.setPort p x).frontClk = s.frontClk := rfl
@[simp] theorem State.setPort_nextAge (s : State) (p : Nat) (x : Port) : (s.setPort p x).nextAge = s.nextAge := rfl
@[simp] theorem State.setPort_nextId (s : State) (p : Nat) (x : Port) : (s.setPort p x).nextId = s.nextId := rfl
@[simp] theorem State.setPort_nextKey (s : State) (p : Nat) (x : Port) : (s.setPort p x).nextKey = s.nextKey := rfl
@[simp] theorem State.setPort_grotto (s : State) (p : Nat) (x : Port) : (s.setPort p x).grotto = s.grotto := rfl
@[simp] theorem State.setPort_agenda (s : State) (p : Nat) (x : Port) : (s.setPort p x).agenda = s.agenda := rfl
@[simp] theorem State.setPort_tick (s : State) (p : Nat) (x : Port) : (s.setPort p x).tick = s.tick := rfl
@[simp] theorem State.setPort_cur (s : State) (p : Nat) (x : Port) : (s.setPort p x).cur = s.cur := rfl
@[simp] theorem State.setPort_answer (s : State) (p : Nat) (x : Port) : (s.setPort p x).answer = s.answer := rfl

/-! ### updPort -/

@[simp] theorem State.updPort_mem (s : State) (p : Nat) (f : Port → Port) : (s.updPort p f).mem = s.mem := rfl
@[simp] theorem State.updPort_lineKeys (s : State) (p : Nat) (f : Port → Port) : (s.updPort p f).lineKeys = s.lineKeys := rfl
@[simp] theorem State.updPort_granules (s : State) (p : Nat) (f : Port → Port) : (s.updPort p f).granules = s.granules := rfl
@[simp] theorem State.updPort_cohorts (s : State) (p : Nat) (f : Port → Port) : (s.updPort p f).cohorts = s.cohorts := rfl
@[simp] theorem State.updPort_blocks (s : State) (p : Nat) (f : Port → Port) : (s.updPort p f).blocks = s.blocks := rfl
@[simp] theorem State.updPort_launches (s : State) (p : Nat) (f : Port → Port) : (s.updPort p f).launches = s.launches := rfl
@[simp] theorem State.updPort_cores (s : State) (p : Nat) (f : Port → Port) : (s.updPort p f).cores = s.cores := rfl
@[simp] theorem State.updPort_clusters (s : State) (p : Nat) (f : Port → Port) : (s.updPort p f).clusters = s.clusters := rfl
@[simp] theorem State.updPort_dies (s : State) (p : Nat) (f : Port → Port) : (s.updPort p f).dies = s.dies := rfl
@[simp] theorem State.updPort_vfs (s : State) (p : Nat) (f : Port → Port) : (s.updPort p f).vfs = s.vfs := rfl
@[simp] theorem State.updPort_ports (s : State) (p : Nat) (f : Port → Port) : (s.updPort p f).ports = s.ports.put p (f (s.port p)) := rfl
@[simp] theorem State.updPort_reds (s : State) (p : Nat) (f : Port → Port) : (s.updPort p f).reds = s.reds := rfl
@[simp] theorem State.updPort_msix (s : State) (p : Nat) (f : Port → Port) : (s.updPort p f).msix = s.msix := rfl
@[simp] theorem State.updPort_released (s : State) (p : Nat) (f : Port → Port) : (s.updPort p f).released = s.released := rfl
@[simp] theorem State.updPort_curVf (s : State) (p : Nat) (f : Port → Port) : (s.updPort p f).curVf = s.curVf := rfl
@[simp] theorem State.updPort_lastVf (s : State) (p : Nat) (f : Port → Port) : (s.updPort p f).lastVf = s.lastVf := rfl
@[simp] theorem State.updPort_sliceCnt (s : State) (p : Nat) (f : Port → Port) : (s.updPort p f).sliceCnt = s.sliceCnt := rfl
@[simp] theorem State.updPort_stopping (s : State) (p : Nat) (f : Port → Port) : (s.updPort p f).stopping = s.stopping := rfl
@[simp] theorem State.updPort_frontClk (s : State) (p : Nat) (f : Port → Port) : (s.updPort p f).frontClk = s.frontClk := rfl
@[simp] theorem State.updPort_nextAge (s : State) (p : Nat) (f : Port → Port) : (s.updPort p f).nextAge = s.nextAge := rfl
@[simp] theorem State.updPort_nextId (s : State) (p : Nat) (f : Port → Port) : (s.updPort p f).nextId = s.nextId := rfl
@[simp] theorem State.updPort_nextKey (s : State) (p : Nat) (f : Port → Port) : (s.updPort p f).nextKey = s.nextKey := rfl
@[simp] theorem State.updPort_grotto (s : State) (p : Nat) (f : Port → Port) : (s.updPort p f).grotto = s.grotto := rfl
@[simp] theorem State.updPort_agenda (s : State) (p : Nat) (f : Port → Port) : (s.updPort p f).agenda = s.agenda := rfl
@[simp] theorem State.updPort_tick (s : State) (p : Nat) (f : Port → Port) : (s.updPort p f).tick = s.tick := rfl
@[simp] theorem State.updPort_cur (s : State) (p : Nat) (f : Port → Port) : (s.updPort p f).cur = s.cur := rfl
@[simp] theorem State.updPort_answer (s : State) (p : Nat) (f : Port → Port) : (s.updPort p f).answer = s.answer := rfl

/-! ### setCohort -/

@[simp] theorem State.setCohort_mem (s : State) (k : Nat) (x : Cohort) : (s.setCohort k x).mem = s.mem := rfl
@[simp] theorem State.setCohort_lineKeys (s : State) (k : Nat) (x : Cohort) : (s.setCohort k x).lineKeys = s.lineKeys := rfl
@[simp] theorem State.setCohort_granules (s : State) (k : Nat) (x : Cohort) : (s.setCohort k x).granules = s.granules := rfl
@[simp] theorem State.setCohort_cohorts (s : State) (k : Nat) (x : Cohort) : (s.setCohort k x).cohorts = s.cohorts.put k x := rfl
@[simp] theorem State.setCohort_blocks (s : State) (k : Nat) (x : Cohort) : (s.setCohort k x).blocks = s.blocks := rfl
@[simp] theorem State.setCohort_launches (s : State) (k : Nat) (x : Cohort) : (s.setCohort k x).launches = s.launches := rfl
@[simp] theorem State.setCohort_cores (s : State) (k : Nat) (x : Cohort) : (s.setCohort k x).cores = s.cores := rfl
@[simp] theorem State.setCohort_clusters (s : State) (k : Nat) (x : Cohort) : (s.setCohort k x).clusters = s.clusters := rfl
@[simp] theorem State.setCohort_dies (s : State) (k : Nat) (x : Cohort) : (s.setCohort k x).dies = s.dies := rfl
@[simp] theorem State.setCohort_vfs (s : State) (k : Nat) (x : Cohort) : (s.setCohort k x).vfs = s.vfs := rfl
@[simp] theorem State.setCohort_ports (s : State) (k : Nat) (x : Cohort) : (s.setCohort k x).ports = s.ports := rfl
@[simp] theorem State.setCohort_reds (s : State) (k : Nat) (x : Cohort) : (s.setCohort k x).reds = s.reds := rfl
@[simp] theorem State.setCohort_msix (s : State) (k : Nat) (x : Cohort) : (s.setCohort k x).msix = s.msix := rfl
@[simp] theorem State.setCohort_released (s : State) (k : Nat) (x : Cohort) : (s.setCohort k x).released = s.released := rfl
@[simp] theorem State.setCohort_curVf (s : State) (k : Nat) (x : Cohort) : (s.setCohort k x).curVf = s.curVf := rfl
@[simp] theorem State.setCohort_lastVf (s : State) (k : Nat) (x : Cohort) : (s.setCohort k x).lastVf = s.lastVf := rfl
@[simp] theorem State.setCohort_sliceCnt (s : State) (k : Nat) (x : Cohort) : (s.setCohort k x).sliceCnt = s.sliceCnt := rfl
@[simp] theorem State.setCohort_stopping (s : State) (k : Nat) (x : Cohort) : (s.setCohort k x).stopping = s.stopping := rfl
@[simp] theorem State.setCohort_frontClk (s : State) (k : Nat) (x : Cohort) : (s.setCohort k x).frontClk = s.frontClk := rfl
@[simp] theorem State.setCohort_nextAge (s : State) (k : Nat) (x : Cohort) : (s.setCohort k x).nextAge = s.nextAge := rfl
@[simp] theorem State.setCohort_nextId (s : State) (k : Nat) (x : Cohort) : (s.setCohort k x).nextId = s.nextId := rfl
@[simp] theorem State.setCohort_nextKey (s : State) (k : Nat) (x : Cohort) : (s.setCohort k x).nextKey = s.nextKey := rfl
@[simp] theorem State.setCohort_grotto (s : State) (k : Nat) (x : Cohort) : (s.setCohort k x).grotto = s.grotto := rfl
@[simp] theorem State.setCohort_agenda (s : State) (k : Nat) (x : Cohort) : (s.setCohort k x).agenda = s.agenda := rfl
@[simp] theorem State.setCohort_tick (s : State) (k : Nat) (x : Cohort) : (s.setCohort k x).tick = s.tick := rfl
@[simp] theorem State.setCohort_cur (s : State) (k : Nat) (x : Cohort) : (s.setCohort k x).cur = s.cur := rfl
@[simp] theorem State.setCohort_answer (s : State) (k : Nat) (x : Cohort) : (s.setCohort k x).answer = s.answer := rfl

/-! ### updCohort -/

@[simp] theorem State.updCohort_mem (s : State) (k : Nat) (f : Cohort → Cohort) : (s.updCohort k f).mem = s.mem := rfl
@[simp] theorem State.updCohort_lineKeys (s : State) (k : Nat) (f : Cohort → Cohort) : (s.updCohort k f).lineKeys = s.lineKeys := rfl
@[simp] theorem State.updCohort_granules (s : State) (k : Nat) (f : Cohort → Cohort) : (s.updCohort k f).granules = s.granules := rfl
@[simp] theorem State.updCohort_cohorts (s : State) (k : Nat) (f : Cohort → Cohort) : (s.updCohort k f).cohorts = s.cohorts.upd k f := rfl
@[simp] theorem State.updCohort_blocks (s : State) (k : Nat) (f : Cohort → Cohort) : (s.updCohort k f).blocks = s.blocks := rfl
@[simp] theorem State.updCohort_launches (s : State) (k : Nat) (f : Cohort → Cohort) : (s.updCohort k f).launches = s.launches := rfl
@[simp] theorem State.updCohort_cores (s : State) (k : Nat) (f : Cohort → Cohort) : (s.updCohort k f).cores = s.cores := rfl
@[simp] theorem State.updCohort_clusters (s : State) (k : Nat) (f : Cohort → Cohort) : (s.updCohort k f).clusters = s.clusters := rfl
@[simp] theorem State.updCohort_dies (s : State) (k : Nat) (f : Cohort → Cohort) : (s.updCohort k f).dies = s.dies := rfl
@[simp] theorem State.updCohort_vfs (s : State) (k : Nat) (f : Cohort → Cohort) : (s.updCohort k f).vfs = s.vfs := rfl
@[simp] theorem State.updCohort_ports (s : State) (k : Nat) (f : Cohort → Cohort) : (s.updCohort k f).ports = s.ports := rfl
@[simp] theorem State.updCohort_reds (s : State) (k : Nat) (f : Cohort → Cohort) : (s.updCohort k f).reds = s.reds := rfl
@[simp] theorem State.updCohort_msix (s : State) (k : Nat) (f : Cohort → Cohort) : (s.updCohort k f).msix = s.msix := rfl
@[simp] theorem State.updCohort_released (s : State) (k : Nat) (f : Cohort → Cohort) : (s.updCohort k f).released = s.released := rfl
@[simp] theorem State.updCohort_curVf (s : State) (k : Nat) (f : Cohort → Cohort) : (s.updCohort k f).curVf = s.curVf := rfl
@[simp] theorem State.updCohort_lastVf (s : State) (k : Nat) (f : Cohort → Cohort) : (s.updCohort k f).lastVf = s.lastVf := rfl
@[simp] theorem State.updCohort_sliceCnt (s : State) (k : Nat) (f : Cohort → Cohort) : (s.updCohort k f).sliceCnt = s.sliceCnt := rfl
@[simp] theorem State.updCohort_stopping (s : State) (k : Nat) (f : Cohort → Cohort) : (s.updCohort k f).stopping = s.stopping := rfl
@[simp] theorem State.updCohort_frontClk (s : State) (k : Nat) (f : Cohort → Cohort) : (s.updCohort k f).frontClk = s.frontClk := rfl
@[simp] theorem State.updCohort_nextAge (s : State) (k : Nat) (f : Cohort → Cohort) : (s.updCohort k f).nextAge = s.nextAge := rfl
@[simp] theorem State.updCohort_nextId (s : State) (k : Nat) (f : Cohort → Cohort) : (s.updCohort k f).nextId = s.nextId := rfl
@[simp] theorem State.updCohort_nextKey (s : State) (k : Nat) (f : Cohort → Cohort) : (s.updCohort k f).nextKey = s.nextKey := rfl
@[simp] theorem State.updCohort_grotto (s : State) (k : Nat) (f : Cohort → Cohort) : (s.updCohort k f).grotto = s.grotto := rfl
@[simp] theorem State.updCohort_agenda (s : State) (k : Nat) (f : Cohort → Cohort) : (s.updCohort k f).agenda = s.agenda := rfl
@[simp] theorem State.updCohort_tick (s : State) (k : Nat) (f : Cohort → Cohort) : (s.updCohort k f).tick = s.tick := rfl
@[simp] theorem State.updCohort_cur (s : State) (k : Nat) (f : Cohort → Cohort) : (s.updCohort k f).cur = s.cur := rfl
@[simp] theorem State.updCohort_answer (s : State) (k : Nat) (f : Cohort → Cohort) : (s.updCohort k f).answer = s.answer := rfl

/-! ### setBlock -/

@[simp] theorem State.setBlock_mem (s : State) (b : Nat) (x : Block) : (s.setBlock b x).mem = s.mem := rfl
@[simp] theorem State.setBlock_lineKeys (s : State) (b : Nat) (x : Block) : (s.setBlock b x).lineKeys = s.lineKeys := rfl
@[simp] theorem State.setBlock_granules (s : State) (b : Nat) (x : Block) : (s.setBlock b x).granules = s.granules := rfl
@[simp] theorem State.setBlock_cohorts (s : State) (b : Nat) (x : Block) : (s.setBlock b x).cohorts = s.cohorts := rfl
@[simp] theorem State.setBlock_blocks (s : State) (b : Nat) (x : Block) : (s.setBlock b x).blocks = s.blocks.put b x := rfl
@[simp] theorem State.setBlock_launches (s : State) (b : Nat) (x : Block) : (s.setBlock b x).launches = s.launches := rfl
@[simp] theorem State.setBlock_cores (s : State) (b : Nat) (x : Block) : (s.setBlock b x).cores = s.cores := rfl
@[simp] theorem State.setBlock_clusters (s : State) (b : Nat) (x : Block) : (s.setBlock b x).clusters = s.clusters := rfl
@[simp] theorem State.setBlock_dies (s : State) (b : Nat) (x : Block) : (s.setBlock b x).dies = s.dies := rfl
@[simp] theorem State.setBlock_vfs (s : State) (b : Nat) (x : Block) : (s.setBlock b x).vfs = s.vfs := rfl
@[simp] theorem State.setBlock_ports (s : State) (b : Nat) (x : Block) : (s.setBlock b x).ports = s.ports := rfl
@[simp] theorem State.setBlock_reds (s : State) (b : Nat) (x : Block) : (s.setBlock b x).reds = s.reds := rfl
@[simp] theorem State.setBlock_msix (s : State) (b : Nat) (x : Block) : (s.setBlock b x).msix = s.msix := rfl
@[simp] theorem State.setBlock_released (s : State) (b : Nat) (x : Block) : (s.setBlock b x).released = s.released := rfl
@[simp] theorem State.setBlock_curVf (s : State) (b : Nat) (x : Block) : (s.setBlock b x).curVf = s.curVf := rfl
@[simp] theorem State.setBlock_lastVf (s : State) (b : Nat) (x : Block) : (s.setBlock b x).lastVf = s.lastVf := rfl
@[simp] theorem State.setBlock_sliceCnt (s : State) (b : Nat) (x : Block) : (s.setBlock b x).sliceCnt = s.sliceCnt := rfl
@[simp] theorem State.setBlock_stopping (s : State) (b : Nat) (x : Block) : (s.setBlock b x).stopping = s.stopping := rfl
@[simp] theorem State.setBlock_frontClk (s : State) (b : Nat) (x : Block) : (s.setBlock b x).frontClk = s.frontClk := rfl
@[simp] theorem State.setBlock_nextAge (s : State) (b : Nat) (x : Block) : (s.setBlock b x).nextAge = s.nextAge := rfl
@[simp] theorem State.setBlock_nextId (s : State) (b : Nat) (x : Block) : (s.setBlock b x).nextId = s.nextId := rfl
@[simp] theorem State.setBlock_nextKey (s : State) (b : Nat) (x : Block) : (s.setBlock b x).nextKey = s.nextKey := rfl
@[simp] theorem State.setBlock_grotto (s : State) (b : Nat) (x : Block) : (s.setBlock b x).grotto = s.grotto := rfl
@[simp] theorem State.setBlock_agenda (s : State) (b : Nat) (x : Block) : (s.setBlock b x).agenda = s.agenda := rfl
@[simp] theorem State.setBlock_tick (s : State) (b : Nat) (x : Block) : (s.setBlock b x).tick = s.tick := rfl
@[simp] theorem State.setBlock_cur (s : State) (b : Nat) (x : Block) : (s.setBlock b x).cur = s.cur := rfl
@[simp] theorem State.setBlock_answer (s : State) (b : Nat) (x : Block) : (s.setBlock b x).answer = s.answer := rfl

/-! ### updBlock -/

@[simp] theorem State.updBlock_mem (s : State) (b : Nat) (f : Block → Block) : (s.updBlock b f).mem = s.mem := rfl
@[simp] theorem State.updBlock_lineKeys (s : State) (b : Nat) (f : Block → Block) : (s.updBlock b f).lineKeys = s.lineKeys := rfl
@[simp] theorem State.updBlock_granules (s : State) (b : Nat) (f : Block → Block) : (s.updBlock b f).granules = s.granules := rfl
@[simp] theorem State.updBlock_cohorts (s : State) (b : Nat) (f : Block → Block) : (s.updBlock b f).cohorts = s.cohorts := rfl
@[simp] theorem State.updBlock_blocks (s : State) (b : Nat) (f : Block → Block) : (s.updBlock b f).blocks = s.blocks.upd b f := rfl
@[simp] theorem State.updBlock_launches (s : State) (b : Nat) (f : Block → Block) : (s.updBlock b f).launches = s.launches := rfl
@[simp] theorem State.updBlock_cores (s : State) (b : Nat) (f : Block → Block) : (s.updBlock b f).cores = s.cores := rfl
@[simp] theorem State.updBlock_clusters (s : State) (b : Nat) (f : Block → Block) : (s.updBlock b f).clusters = s.clusters := rfl
@[simp] theorem State.updBlock_dies (s : State) (b : Nat) (f : Block → Block) : (s.updBlock b f).dies = s.dies := rfl
@[simp] theorem State.updBlock_vfs (s : State) (b : Nat) (f : Block → Block) : (s.updBlock b f).vfs = s.vfs := rfl
@[simp] theorem State.updBlock_ports (s : State) (b : Nat) (f : Block → Block) : (s.updBlock b f).ports = s.ports := rfl
@[simp] theorem State.updBlock_reds (s : State) (b : Nat) (f : Block → Block) : (s.updBlock b f).reds = s.reds := rfl
@[simp] theorem State.updBlock_msix (s : State) (b : Nat) (f : Block → Block) : (s.updBlock b f).msix = s.msix := rfl
@[simp] theorem State.updBlock_released (s : State) (b : Nat) (f : Block → Block) : (s.updBlock b f).released = s.released := rfl
@[simp] theorem State.updBlock_curVf (s : State) (b : Nat) (f : Block → Block) : (s.updBlock b f).curVf = s.curVf := rfl
@[simp] theorem State.updBlock_lastVf (s : State) (b : Nat) (f : Block → Block) : (s.updBlock b f).lastVf = s.lastVf := rfl
@[simp] theorem State.updBlock_sliceCnt (s : State) (b : Nat) (f : Block → Block) : (s.updBlock b f).sliceCnt = s.sliceCnt := rfl
@[simp] theorem State.updBlock_stopping (s : State) (b : Nat) (f : Block → Block) : (s.updBlock b f).stopping = s.stopping := rfl
@[simp] theorem State.updBlock_frontClk (s : State) (b : Nat) (f : Block → Block) : (s.updBlock b f).frontClk = s.frontClk := rfl
@[simp] theorem State.updBlock_nextAge (s : State) (b : Nat) (f : Block → Block) : (s.updBlock b f).nextAge = s.nextAge := rfl
@[simp] theorem State.updBlock_nextId (s : State) (b : Nat) (f : Block → Block) : (s.updBlock b f).nextId = s.nextId := rfl
@[simp] theorem State.updBlock_nextKey (s : State) (b : Nat) (f : Block → Block) : (s.updBlock b f).nextKey = s.nextKey := rfl
@[simp] theorem State.updBlock_grotto (s : State) (b : Nat) (f : Block → Block) : (s.updBlock b f).grotto = s.grotto := rfl
@[simp] theorem State.updBlock_agenda (s : State) (b : Nat) (f : Block → Block) : (s.updBlock b f).agenda = s.agenda := rfl
@[simp] theorem State.updBlock_tick (s : State) (b : Nat) (f : Block → Block) : (s.updBlock b f).tick = s.tick := rfl
@[simp] theorem State.updBlock_cur (s : State) (b : Nat) (f : Block → Block) : (s.updBlock b f).cur = s.cur := rfl
@[simp] theorem State.updBlock_answer (s : State) (b : Nat) (f : Block → Block) : (s.updBlock b f).answer = s.answer := rfl

/-! ### setLaunch -/

@[simp] theorem State.setLaunch_mem (s : State) (l : Nat) (x : Launch) : (s.setLaunch l x).mem = s.mem := rfl
@[simp] theorem State.setLaunch_lineKeys (s : State) (l : Nat) (x : Launch) : (s.setLaunch l x).lineKeys = s.lineKeys := rfl
@[simp] theorem State.setLaunch_granules (s : State) (l : Nat) (x : Launch) : (s.setLaunch l x).granules = s.granules := rfl
@[simp] theorem State.setLaunch_cohorts (s : State) (l : Nat) (x : Launch) : (s.setLaunch l x).cohorts = s.cohorts := rfl
@[simp] theorem State.setLaunch_blocks (s : State) (l : Nat) (x : Launch) : (s.setLaunch l x).blocks = s.blocks := rfl
@[simp] theorem State.setLaunch_launches (s : State) (l : Nat) (x : Launch) : (s.setLaunch l x).launches = s.launches.put l x := rfl
@[simp] theorem State.setLaunch_cores (s : State) (l : Nat) (x : Launch) : (s.setLaunch l x).cores = s.cores := rfl
@[simp] theorem State.setLaunch_clusters (s : State) (l : Nat) (x : Launch) : (s.setLaunch l x).clusters = s.clusters := rfl
@[simp] theorem State.setLaunch_dies (s : State) (l : Nat) (x : Launch) : (s.setLaunch l x).dies = s.dies := rfl
@[simp] theorem State.setLaunch_vfs (s : State) (l : Nat) (x : Launch) : (s.setLaunch l x).vfs = s.vfs := rfl
@[simp] theorem State.setLaunch_ports (s : State) (l : Nat) (x : Launch) : (s.setLaunch l x).ports = s.ports := rfl
@[simp] theorem State.setLaunch_reds (s : State) (l : Nat) (x : Launch) : (s.setLaunch l x).reds = s.reds := rfl
@[simp] theorem State.setLaunch_msix (s : State) (l : Nat) (x : Launch) : (s.setLaunch l x).msix = s.msix := rfl
@[simp] theorem State.setLaunch_released (s : State) (l : Nat) (x : Launch) : (s.setLaunch l x).released = s.released := rfl
@[simp] theorem State.setLaunch_curVf (s : State) (l : Nat) (x : Launch) : (s.setLaunch l x).curVf = s.curVf := rfl
@[simp] theorem State.setLaunch_lastVf (s : State) (l : Nat) (x : Launch) : (s.setLaunch l x).lastVf = s.lastVf := rfl
@[simp] theorem State.setLaunch_sliceCnt (s : State) (l : Nat) (x : Launch) : (s.setLaunch l x).sliceCnt = s.sliceCnt := rfl
@[simp] theorem State.setLaunch_stopping (s : State) (l : Nat) (x : Launch) : (s.setLaunch l x).stopping = s.stopping := rfl
@[simp] theorem State.setLaunch_frontClk (s : State) (l : Nat) (x : Launch) : (s.setLaunch l x).frontClk = s.frontClk := rfl
@[simp] theorem State.setLaunch_nextAge (s : State) (l : Nat) (x : Launch) : (s.setLaunch l x).nextAge = s.nextAge := rfl
@[simp] theorem State.setLaunch_nextId (s : State) (l : Nat) (x : Launch) : (s.setLaunch l x).nextId = s.nextId := rfl
@[simp] theorem State.setLaunch_nextKey (s : State) (l : Nat) (x : Launch) : (s.setLaunch l x).nextKey = s.nextKey := rfl
@[simp] theorem State.setLaunch_grotto (s : State) (l : Nat) (x : Launch) : (s.setLaunch l x).grotto = s.grotto := rfl
@[simp] theorem State.setLaunch_agenda (s : State) (l : Nat) (x : Launch) : (s.setLaunch l x).agenda = s.agenda := rfl
@[simp] theorem State.setLaunch_tick (s : State) (l : Nat) (x : Launch) : (s.setLaunch l x).tick = s.tick := rfl
@[simp] theorem State.setLaunch_cur (s : State) (l : Nat) (x : Launch) : (s.setLaunch l x).cur = s.cur := rfl
@[simp] theorem State.setLaunch_answer (s : State) (l : Nat) (x : Launch) : (s.setLaunch l x).answer = s.answer := rfl

/-! ### updLaunch -/

@[simp] theorem State.updLaunch_mem (s : State) (l : Nat) (f : Launch → Launch) : (s.updLaunch l f).mem = s.mem := rfl
@[simp] theorem State.updLaunch_lineKeys (s : State) (l : Nat) (f : Launch → Launch) : (s.updLaunch l f).lineKeys = s.lineKeys := rfl
@[simp] theorem State.updLaunch_granules (s : State) (l : Nat) (f : Launch → Launch) : (s.updLaunch l f).granules = s.granules := rfl
@[simp] theorem State.updLaunch_cohorts (s : State) (l : Nat) (f : Launch → Launch) : (s.updLaunch l f).cohorts = s.cohorts := rfl
@[simp] theorem State.updLaunch_blocks (s : State) (l : Nat) (f : Launch → Launch) : (s.updLaunch l f).blocks = s.blocks := rfl
@[simp] theorem State.updLaunch_launches (s : State) (l : Nat) (f : Launch → Launch) : (s.updLaunch l f).launches = s.launches.upd l f := rfl
@[simp] theorem State.updLaunch_cores (s : State) (l : Nat) (f : Launch → Launch) : (s.updLaunch l f).cores = s.cores := rfl
@[simp] theorem State.updLaunch_clusters (s : State) (l : Nat) (f : Launch → Launch) : (s.updLaunch l f).clusters = s.clusters := rfl
@[simp] theorem State.updLaunch_dies (s : State) (l : Nat) (f : Launch → Launch) : (s.updLaunch l f).dies = s.dies := rfl
@[simp] theorem State.updLaunch_vfs (s : State) (l : Nat) (f : Launch → Launch) : (s.updLaunch l f).vfs = s.vfs := rfl
@[simp] theorem State.updLaunch_ports (s : State) (l : Nat) (f : Launch → Launch) : (s.updLaunch l f).ports = s.ports := rfl
@[simp] theorem State.updLaunch_reds (s : State) (l : Nat) (f : Launch → Launch) : (s.updLaunch l f).reds = s.reds := rfl
@[simp] theorem State.updLaunch_msix (s : State) (l : Nat) (f : Launch → Launch) : (s.updLaunch l f).msix = s.msix := rfl
@[simp] theorem State.updLaunch_released (s : State) (l : Nat) (f : Launch → Launch) : (s.updLaunch l f).released = s.released := rfl
@[simp] theorem State.updLaunch_curVf (s : State) (l : Nat) (f : Launch → Launch) : (s.updLaunch l f).curVf = s.curVf := rfl
@[simp] theorem State.updLaunch_lastVf (s : State) (l : Nat) (f : Launch → Launch) : (s.updLaunch l f).lastVf = s.lastVf := rfl
@[simp] theorem State.updLaunch_sliceCnt (s : State) (l : Nat) (f : Launch → Launch) : (s.updLaunch l f).sliceCnt = s.sliceCnt := rfl
@[simp] theorem State.updLaunch_stopping (s : State) (l : Nat) (f : Launch → Launch) : (s.updLaunch l f).stopping = s.stopping := rfl
@[simp] theorem State.updLaunch_frontClk (s : State) (l : Nat) (f : Launch → Launch) : (s.updLaunch l f).frontClk = s.frontClk := rfl
@[simp] theorem State.updLaunch_nextAge (s : State) (l : Nat) (f : Launch → Launch) : (s.updLaunch l f).nextAge = s.nextAge := rfl
@[simp] theorem State.updLaunch_nextId (s : State) (l : Nat) (f : Launch → Launch) : (s.updLaunch l f).nextId = s.nextId := rfl
@[simp] theorem State.updLaunch_nextKey (s : State) (l : Nat) (f : Launch → Launch) : (s.updLaunch l f).nextKey = s.nextKey := rfl
@[simp] theorem State.updLaunch_grotto (s : State) (l : Nat) (f : Launch → Launch) : (s.updLaunch l f).grotto = s.grotto := rfl
@[simp] theorem State.updLaunch_agenda (s : State) (l : Nat) (f : Launch → Launch) : (s.updLaunch l f).agenda = s.agenda := rfl
@[simp] theorem State.updLaunch_tick (s : State) (l : Nat) (f : Launch → Launch) : (s.updLaunch l f).tick = s.tick := rfl
@[simp] theorem State.updLaunch_cur (s : State) (l : Nat) (f : Launch → Launch) : (s.updLaunch l f).cur = s.cur := rfl
@[simp] theorem State.updLaunch_answer (s : State) (l : Nat) (f : Launch → Launch) : (s.updLaunch l f).answer = s.answer := rfl

/-! ### updGrotto -/

@[simp] theorem State.updGrotto_mem (s : State) (f : Grotto → Grotto) : (s.updGrotto f).mem = s.mem := rfl
@[simp] theorem State.updGrotto_lineKeys (s : State) (f : Grotto → Grotto) : (s.updGrotto f).lineKeys = s.lineKeys := rfl
@[simp] theorem State.updGrotto_granules (s : State) (f : Grotto → Grotto) : (s.updGrotto f).granules = s.granules := rfl
@[simp] theorem State.updGrotto_cohorts (s : State) (f : Grotto → Grotto) : (s.updGrotto f).cohorts = s.cohorts := rfl
@[simp] theorem State.updGrotto_blocks (s : State) (f : Grotto → Grotto) : (s.updGrotto f).blocks = s.blocks := rfl
@[simp] theorem State.updGrotto_launches (s : State) (f : Grotto → Grotto) : (s.updGrotto f).launches = s.launches := rfl
@[simp] theorem State.updGrotto_cores (s : State) (f : Grotto → Grotto) : (s.updGrotto f).cores = s.cores := rfl
@[simp] theorem State.updGrotto_clusters (s : State) (f : Grotto → Grotto) : (s.updGrotto f).clusters = s.clusters := rfl
@[simp] theorem State.updGrotto_dies (s : State) (f : Grotto → Grotto) : (s.updGrotto f).dies = s.dies := rfl
@[simp] theorem State.updGrotto_vfs (s : State) (f : Grotto → Grotto) : (s.updGrotto f).vfs = s.vfs := rfl
@[simp] theorem State.updGrotto_ports (s : State) (f : Grotto → Grotto) : (s.updGrotto f).ports = s.ports := rfl
@[simp] theorem State.updGrotto_reds (s : State) (f : Grotto → Grotto) : (s.updGrotto f).reds = s.reds := rfl
@[simp] theorem State.updGrotto_msix (s : State) (f : Grotto → Grotto) : (s.updGrotto f).msix = s.msix := rfl
@[simp] theorem State.updGrotto_released (s : State) (f : Grotto → Grotto) : (s.updGrotto f).released = s.released := rfl
@[simp] theorem State.updGrotto_curVf (s : State) (f : Grotto → Grotto) : (s.updGrotto f).curVf = s.curVf := rfl
@[simp] theorem State.updGrotto_lastVf (s : State) (f : Grotto → Grotto) : (s.updGrotto f).lastVf = s.lastVf := rfl
@[simp] theorem State.updGrotto_sliceCnt (s : State) (f : Grotto → Grotto) : (s.updGrotto f).sliceCnt = s.sliceCnt := rfl
@[simp] theorem State.updGrotto_stopping (s : State) (f : Grotto → Grotto) : (s.updGrotto f).stopping = s.stopping := rfl
@[simp] theorem State.updGrotto_frontClk (s : State) (f : Grotto → Grotto) : (s.updGrotto f).frontClk = s.frontClk := rfl
@[simp] theorem State.updGrotto_nextAge (s : State) (f : Grotto → Grotto) : (s.updGrotto f).nextAge = s.nextAge := rfl
@[simp] theorem State.updGrotto_nextId (s : State) (f : Grotto → Grotto) : (s.updGrotto f).nextId = s.nextId := rfl
@[simp] theorem State.updGrotto_nextKey (s : State) (f : Grotto → Grotto) : (s.updGrotto f).nextKey = s.nextKey := rfl
@[simp] theorem State.updGrotto_grotto (s : State) (f : Grotto → Grotto) : (s.updGrotto f).grotto = f s.grotto := rfl
@[simp] theorem State.updGrotto_agenda (s : State) (f : Grotto → Grotto) : (s.updGrotto f).agenda = s.agenda := rfl
@[simp] theorem State.updGrotto_tick (s : State) (f : Grotto → Grotto) : (s.updGrotto f).tick = s.tick := rfl
@[simp] theorem State.updGrotto_cur (s : State) (f : Grotto → Grotto) : (s.updGrotto f).cur = s.cur := rfl
@[simp] theorem State.updGrotto_answer (s : State) (f : Grotto → Grotto) : (s.updGrotto f).answer = s.answer := rfl

/-! ### mark -/

@[simp] theorem State.mark_mem (s : State) (w : Bool) : (s.mark w).mem = s.mem := rfl
@[simp] theorem State.mark_lineKeys (s : State) (w : Bool) : (s.mark w).lineKeys = s.lineKeys := rfl
@[simp] theorem State.mark_granules (s : State) (w : Bool) : (s.mark w).granules = s.granules := rfl
@[simp] theorem State.mark_cohorts (s : State) (w : Bool) : (s.mark w).cohorts = s.cohorts := rfl
@[simp] theorem State.mark_blocks (s : State) (w : Bool) : (s.mark w).blocks = s.blocks := rfl
@[simp] theorem State.mark_launches (s : State) (w : Bool) : (s.mark w).launches = s.launches := rfl
@[simp] theorem State.mark_cores (s : State) (w : Bool) : (s.mark w).cores = s.cores := rfl
@[simp] theorem State.mark_clusters (s : State) (w : Bool) : (s.mark w).clusters = s.clusters := rfl
@[simp] theorem State.mark_dies (s : State) (w : Bool) : (s.mark w).dies = s.dies := rfl
@[simp] theorem State.mark_vfs (s : State) (w : Bool) : (s.mark w).vfs = s.vfs := rfl
@[simp] theorem State.mark_ports (s : State) (w : Bool) : (s.mark w).ports = s.ports := rfl
@[simp] theorem State.mark_reds (s : State) (w : Bool) : (s.mark w).reds = s.reds := rfl
@[simp] theorem State.mark_msix (s : State) (w : Bool) : (s.mark w).msix = s.msix := rfl
@[simp] theorem State.mark_released (s : State) (w : Bool) : (s.mark w).released = s.released := rfl
@[simp] theorem State.mark_curVf (s : State) (w : Bool) : (s.mark w).curVf = s.curVf := rfl
@[simp] theorem State.mark_lastVf (s : State) (w : Bool) : (s.mark w).lastVf = s.lastVf := rfl
@[simp] theorem State.mark_sliceCnt (s : State) (w : Bool) : (s.mark w).sliceCnt = s.sliceCnt := rfl
@[simp] theorem State.mark_stopping (s : State) (w : Bool) : (s.mark w).stopping = s.stopping := rfl
@[simp] theorem State.mark_frontClk (s : State) (w : Bool) : (s.mark w).frontClk = s.frontClk := rfl
@[simp] theorem State.mark_nextAge (s : State) (w : Bool) : (s.mark w).nextAge = s.nextAge := rfl
@[simp] theorem State.mark_nextId (s : State) (w : Bool) : (s.mark w).nextId = s.nextId := rfl
@[simp] theorem State.mark_nextKey (s : State) (w : Bool) : (s.mark w).nextKey = s.nextKey := rfl
@[simp] theorem State.mark_grotto (s : State) (w : Bool) : (s.mark w).grotto = s.grotto := rfl
@[simp] theorem State.mark_agenda (s : State) (w : Bool) : (s.mark w).agenda = s.agenda := rfl
@[simp] theorem State.mark_tick (s : State) (w : Bool) : (s.mark w).tick = s.tick := rfl
@[simp] theorem State.mark_cur (s : State) (w : Bool) : (s.mark w).cur = { s.cur with waited := w } := rfl
@[simp] theorem State.mark_answer (s : State) (w : Bool) : (s.mark w).answer = s.answer := rfl

/-! ### Accessors -/

theorem State.core_setCore (s : State) (c d : Nat) (x : Core) : (s.setCore c x).core d = if d = c then x else s.core d := by
  simp only [State.core, State.setCore_cores, SMap.get_put]

theorem State.core_updCore (s : State) (c d : Nat) (g : Core → Core) :
    (s.updCore c g).core d = if d = c then g (s.core c) else s.core d := s.core_setCore c d (g (s.core c))

theorem State.cluster_setCluster (s : State) (c d : Nat) (x : Cluster) : (s.setCluster c x).cluster d = if d = c then x else s.cluster d := by
  simp only [State.cluster, State.setCluster_clusters, SMap.get_put]

theorem State.cluster_updCluster (s : State) (c d : Nat) (g : Cluster → Cluster) :
    (s.updCluster c g).cluster d = if d = c then g (s.cluster c) else s.cluster d := s.cluster_setCluster c d (g (s.cluster c))

theorem State.die_setDie (s : State) (c d : Nat) (x : Die) : (s.setDie c x).die d = if d = c then x else s.die d := by
  simp only [State.die, State.setDie_dies, SMap.get_put]

theorem State.die_updDie (s : State) (c d : Nat) (g : Die → Die) :
    (s.updDie c g).die d = if d = c then g (s.die c) else s.die d := s.die_setDie c d (g (s.die c))

theorem State.port_setPort (s : State) (c d : Nat) (x : Port) : (s.setPort c x).port d = if d = c then x else s.port d := by
  simp only [State.port, State.setPort_ports, SMap.get_put]

theorem State.port_updPort (s : State) (c d : Nat) (g : Port → Port) :
    (s.updPort c g).port d = if d = c then g (s.port c) else s.port d := s.port_setPort c d (g (s.port c))

theorem State.vf_setVf (s : State) (c d : Nat) (x : Vf) : (s.setVf c x).vf d = if d = c then x else s.vf d := by
  simp only [State.vf, State.setVf_vfs, SMap.get_put]

theorem State.vf_updVf (s : State) (c d : Nat) (g : Vf → Vf) :
    (s.updVf c g).vf d = if d = c then g (s.vf c) else s.vf d := s.vf_setVf c d (g (s.vf c))

theorem State.cohort_setCohort (s : State) (i j : Nat) (x : Cohort) :
    (s.setCohort i x).cohort j = if j = i then some x else s.cohort j := SMap.look_put _ _ _ _

theorem State.cohort_updCohort_self (s : State) (i : Nat) (g : Cohort → Cohort) :
    (s.updCohort i g).cohort i = (s.cohort i).map g := SMap.look_upd_self _ _ _

theorem State.cohort_updCohort_ne (s : State) {i j : Nat} (g : Cohort → Cohort) (h : j ≠ i) :
    (s.updCohort i g).cohort j = s.cohort j := SMap.look_upd_ne _ _ h

theorem State.block_setBlock (s : State) (i j : Nat) (x : Block) :
    (s.setBlock i x).block j = if j = i then some x else s.block j := SMap.look_put _ _ _ _

theorem State.block_updBlock_self (s : State) (i : Nat) (g : Block → Block) :
    (s.updBlock i g).block i = (s.block i).map g := SMap.look_upd_self _ _ _

theorem State.block_updBlock_ne (s : State) {i j : Nat} (g : Block → Block) (h : j ≠ i) :
    (s.updBlock i g).block j = s.block j := SMap.look_upd_ne _ _ h

theorem State.launch_setLaunch (s : State) (i j : Nat) (x : Launch) :
    (s.setLaunch i x).launch j = if j = i then some x else s.launch j := SMap.look_put _ _ _ _

theorem State.launch_updLaunch_self (s : State) (i : Nat) (g : Launch → Launch) :
    (s.updLaunch i g).launch i = (s.launch i).map g := SMap.look_upd_self _ _ _

theorem State.launch_updLaunch_ne (s : State) {i j : Nat} (g : Launch → Launch) (h : j ≠ i) :
    (s.updLaunch i g).launch j = s.launch j := SMap.look_upd_ne _ _ h

end Sys2Proof.Machine
end

