-- ==== Sys2Proof/Laws/Memory.lean ====
section
/-! SUPPORT. Laws of device memory: what a write leaves in the other parts of the state, what a byte reads as after it, and the
canonical form of every store kept. -/

namespace Sys2Proof.Machine

/-! ### What a write touches -/

/-- One byte stored changes the bytes of memory and the key of its line, and nothing else. -/
theorem State.physStore_frame (s : State) (key pa : Nat) (b : Byte) :
    { s.physStore key pa b with mem := s.mem, lineKeys := s.lineKeys } = s := by
  unfold State.physStore
  split <;> rfl

theorem State.physBytes_frame (bs : List Byte) (s : State) (key pa : Nat) :
    { s.physBytes key pa bs with mem := s.mem, lineKeys := s.lineKeys } = s := by
  induction bs generalizing s pa with
  | nil => rfl
  | cons b bs ih =>
    have h1 := s.physStore_frame key pa b
    have h2 := ih (s.physStore key pa b) (pa + 1)
    simp only [State.physBytes]
    calc _ = { { (s.physStore key pa b).physBytes key (pa + 1) bs with
                  mem := (s.physStore key pa b).mem, lineKeys := (s.physStore key pa b).lineKeys } with
                  mem := s.mem, lineKeys := s.lineKeys } := rfl
      _ = { s.physStore key pa b with mem := s.mem, lineKeys := s.lineKeys } := by rw [h2]
      _ = s := h1

/-- A write changes memory, line keys, and the open transactions of other agents (R277); nothing else. -/
theorem State.physWrite_frame (s : State) (key : Nat) (writer : Option Nat) (pa : Nat) (bs : List Byte) :
    { s.physWrite key writer pa bs with mem := s.mem, lineKeys := s.lineKeys, cohorts := s.cohorts } = s := by
  have h := State.physBytes_frame bs (s.noteWrite writer pa bs.length) key pa
  unfold State.physWrite
  calc _ = { { (s.noteWrite writer pa bs.length).physBytes key pa bs with
                mem := (s.noteWrite writer pa bs.length).mem, lineKeys := (s.noteWrite writer pa bs.length).lineKeys } with
                cohorts := s.cohorts } := rfl
    _ = { s.noteWrite writer pa bs.length with cohorts := s.cohorts } := by rw [h]
    _ = s := rfl

theorem State.physStore_cohorts (s : State) (key pa : Nat) (b : Byte) : (s.physStore key pa b).cohorts = s.cohorts := by
  unfold State.physStore
  split <;> rfl

theorem State.physBytes_cohorts (bs : List Byte) (s : State) (key pa : Nat) :
    (s.physBytes key pa bs).cohorts = s.cohorts := by
  induction bs generalizing s pa with
  | nil => rfl
  | cons b bs ih => exact (ih _ _).trans (s.physStore_cohorts key pa b)

theorem State.physStore_tick (s : State) (key pa : Nat) (b : Byte) : (s.physStore key pa b).tick = s.tick := by
  unfold State.physStore
  split <;> rfl

theorem State.physStore_cores (s : State) (key pa : Nat) (b : Byte) : (s.physStore key pa b).cores = s.cores := by
  unfold State.physStore
  split <;> rfl

theorem State.physBytes_cores (bs : List Byte) (s : State) (key pa : Nat) :
    (s.physBytes key pa bs).cores = s.cores := by
  induction bs generalizing s pa with
  | nil => rfl
  | cons b bs ih => exact (ih _ _).trans (s.physStore_cores key pa b)

/-! ### What a byte reads as after a write -/

theorem cellAt_dropLine (m : List Host.Cell) (line a : Nat) :
    cellAt (dropLine m line) a = if a / 64 = line then none else cellAt m a := by
  induction m with
  | nil => simp [dropLine, cellAt]
  | cons q m ih =>
    obtain ⟨k, v⟩ := q
    simp only [dropLine] at ih
    simp only [dropLine, List.filter_cons]
    by_cases hk : k / 64 = line
    · simp only [hk, bne_self_eq_false, Bool.false_eq_true, if_false, ih, cellAt]
      by_cases h : a / 64 = line
      · simp [h]
      · have : k ≠ a := fun e => h (e ▸ hk)
        simp [h, this]
    · have : (k / 64 != line) = true := by simpa using hk
      simp only [this, if_true, cellAt, ih]
      by_cases h : k = a
      · subst h
        simp [hk]
      · simp [h]

/-- A byte stored reads back under the key that stored it (R323). -/
theorem State.physByte_physStore_self (s : State) (key pa : Nat) (b : Byte) :
    (s.physStore key pa b).physByte key pa = b := by
  unfold State.physStore State.physByte
  by_cases h : (inHbm pa && s.lineKeys.look (pa / 64) != some key) = true
  · simp only [h, if_true, SMap.look_put_self, bne_self_eq_false, Bool.and_false, Bool.false_eq_true, if_false,
      cellAt_cellPut, Option.getD_some]
  · simp only [h, Bool.false_eq_true, if_false, cellAt_cellPut, if_true, Option.getD_some]

/-- Every other byte reads as before under that key, and a byte of another line under any key. -/
theorem State.physByte_physStore_ne (s : State) (key k pa a : Nat) (b : Byte) (h : a ≠ pa) (hk : k = key ∨ a / 64 ≠ pa / 64) :
    (s.physStore key pa b).physByte k a = s.physByte k a := by
  unfold State.physStore State.physByte
  by_cases hs : (inHbm pa && s.lineKeys.look (pa / 64) != some key) = true
  · simp only [hs, if_true]
    have hs' := hs
    simp only [Bool.and_eq_true, bne_iff_ne, ne_eq] at hs'
    by_cases hl : a / 64 = pa / 64
    · have hk : k = key := hk.resolve_right (fun e => e hl)
      subst hk
      have ha : inHbm a = true := by
        have h1 := hs'.1
        simp only [inHbm, aperture, beq_iff_eq] at h1 ⊢
        have e1 : a / 2 ^ 48 = a / 64 / 2 ^ 42 := by omega
        have e2 : pa / 2 ^ 48 = pa / 64 / 2 ^ 42 := by omega
        rw [e1, hl, ← e2]
        exact h1
      simp only [hl, SMap.look_put_self, bne_self_eq_false, Bool.and_false, Bool.false_eq_true, if_false, ha, Bool.true_and,
        cellAt_cellPut, h, cellAt_dropLine, if_true, Option.getD_none]
      rw [if_pos (by simpa using hs'.2)]
    · simp only [SMap.look_put_ne _ _ hl, cellAt_cellPut, h, if_false, cellAt_dropLine, hl]
  · simp only [hs, Bool.false_eq_true, if_false, cellAt_cellPut, h]

/-- Bytes written read back in order (R5). -/
theorem State.physByte_physBytes (bs : List Byte) (s : State) (key pa a : Nat) :
    (s.physBytes key pa bs).physByte key a = if pa ≤ a ∧ a < pa + bs.length then bs.getD (a - pa) 0 else s.physByte key a := by
  induction bs generalizing s pa with
  | nil =>
    simp only [State.physBytes, List.length_nil, Nat.add_zero]
    rw [if_neg (by omega)]
  | cons b bs ih =>
    simp only [State.physBytes, ih, List.length_cons]
    by_cases h1 : pa + 1 ≤ a ∧ a < pa + 1 + bs.length
    · rw [if_pos h1, if_pos (by omega)]
      have : a - pa = (a - (pa + 1)) + 1 := by omega
      rw [this, List.getD_cons_succ]
    · rw [if_neg h1]
      by_cases h2 : a = pa
      · subst h2
        rw [if_pos (by omega), s.physByte_physStore_self]
        simp
      · rw [if_neg (by omega), s.physByte_physStore_ne key key pa a b h2 (.inl rfl)]

theorem State.physByte_noteWrite (s : State) (writer : Option Nat) (pa n key a : Nat) :
    (s.noteWrite writer pa n).physByte key a = s.physByte key a := rfl

/-- A write's bytes read back, and every other byte reads as before, under the key that wrote. -/
theorem State.physByte_physWrite (s : State) (key : Nat) (writer : Option Nat) (pa : Nat) (bs : List Byte) (a : Nat) :
    (s.physWrite key writer pa bs).physByte key a = if pa ≤ a ∧ a < pa + bs.length then bs.getD (a - pa) 0 else s.physByte key a := by
  unfold State.physWrite
  rw [State.physByte_physBytes]
  rfl

/-! ### Canonical forms -/

theorem State.physStore_wf (s : State) (key pa : Nat) (b : Byte) (h : Memory.wf s.mem = true) :
    Memory.wf (s.physStore key pa b).mem = true := by
  unfold State.physStore
  split
  · exact cellsSorted_cellPut _ _ _ (cellsSorted_filter _ _ h)
  · exact cellsSorted_cellPut _ _ _ h

theorem State.physBytes_wf (bs : List Byte) (s : State) (key pa : Nat) (h : Memory.wf s.mem = true) :
    Memory.wf (s.physBytes key pa bs).mem = true := by
  induction bs generalizing s pa with
  | nil => exact h
  | cons b bs ih => exact ih _ _ (s.physStore_wf key pa b h)

theorem State.physWrite_wf (s : State) (key : Nat) (writer : Option Nat) (pa : Nat) (bs : List Byte)
    (h : Memory.wf s.mem = true) : Memory.wf (s.physWrite key writer pa bs).mem = true :=
  State.physBytes_wf bs _ key pa h

theorem State.physStore_linesWf (s : State) (key pa : Nat) (b : Byte) (h : s.lineKeys.wf = true) :
    (s.physStore key pa b).lineKeys.wf = true := by
  unfold State.physStore
  split
  · exact SMap.wf_put _ _ _ h
  · exact h

end Sys2Proof.Machine
end

