-- ==== Sys2Proof/Laws/Issue.lean ====
section
/-! SUPPORT. What one issue of an instruction row comes to: its cell's own description, once the checks of R192 that every
instruction makes have passed; and what each of the ways it can end does to the state. -/

namespace Sys2Proof.Machine

/-- The description of a cell, by major opcode. -/
def bodyOf : Nat → Env → Eff
  | 0x01 => movBody
  | 0x02 => movlBody
  | 0x03 => getsBody
  | 0x04 => setsBody
  | 0x05 => selBody
  | 0x06 => laneofBody
  | 0x07 => nopBody
  | 0x10 => braBody
  | 0x11 => brxBody
  | 0x12 => callBody
  | 0x13 => callxBody
  | 0x14 => retBody
  | 0x15 => meetBody
  | 0x16 => waitjBody
  | 0x17 => exitBody
  | 0x18 => trapBody
  | 0x19 => bkptBody
  | 0x1A => xretBody
  | 0x20 => iaddBody
  | 0x21 => isubBody
  | 0x22 => imulBody
  | 0x23 => imulhBody
  | 0x24 => imadBody
  | 0x25 => idivBody
  | 0x26 => iremBody
  | 0x27 => iminBody
  | 0x28 => imaxBody
  | 0x29 => iabsBody
  | 0x2A => inegBody
  | 0x2B => iadd64Body
  | 0x2C => imad64Body
  | 0x2D => leaBody
  | 0x2E => lea64Body
  | 0x30 => andBody
  | 0x31 => orBody
  | 0x32 => xorBody
  | 0x33 => notBody
  | 0x34 => andnBody
  | 0x35 => shlBody
  | 0x36 => shrBody
  | 0x37 => sarBody
  | 0x38 => rotBody
  | 0x39 => popcBody
  | 0x3A => clzBody
  | 0x3B => ctzBody
  | 0x3C => brevBody
  | 0x3D => bfeBody
  | 0x3E => bfiBody
  | 0x3F => permbBody
  | 0x40 => isetBody
  | 0x41 => fsetBody
  | 0x42 => fclsBody
  | 0x43 => pandBody
  | 0x44 => porBody
  | 0x45 => pxorBody
  | 0x46 => pnotBody
  | 0x47 => ptovBody
  | 0x48 => vtopBody
  | 0x50 => lxchIdxBody
  | 0x51 => lxchUpBody
  | 0x52 => lxchDownBody
  | 0x53 => lxchXorBody
  | 0x54 => bcastBody
  | 0x55 => voteAllBody
  | 0x56 => voteAnyBody
  | 0x57 => voteBalBody
  | 0x58 => matchLanesBody
  | 0x59 => lcompBody
  | 0x5A => regroupBody
  | 0x5B => regroupRestoreBody
  | 0x60 => faddBody
  | 0x61 => fsubBody
  | 0x62 => fmulBody
  | 0x63 => ffmaBody
  | 0x64 => fminBody
  | 0x65 => fmaxBody
  | 0x66 => fabsBody
  | 0x67 => fnegBody
  | 0x68 => frndBody
  | 0x69 => fdivBody
  | 0x6A => fsqrtBody
  | 0x6B => frcpBody
  | 0x6C => frsqBody
  | 0x6D => setfpBody
  | 0x70 => fex2Body
  | 0x71 => flg2Body
  | 0x72 => fsinBody
  | 0x73 => fcosBody
  | 0x74 => ftanhBody
  | 0x75 => phaddBody
  | 0x76 => phmulBody
  | 0x77 => phfmaBody
  | 0x78 => pbaddBody
  | 0x79 => pbmulBody
  | 0x7A => pbfmaBody
  | 0x80 => cvtBody
  | 0x81 => qntBody
  | 0x82 => dqntBody
  | 0x83 => pk6Body
  | 0x84 => upk6Body
  | 0x85 => pkbBody
  | 0x86 => upkbBody
  | 0x90 => ldBody
  | 0x91 => stBody
  | 0x92 => ldqBody
  | 0x93 => ldsBody
  | 0x94 => stsBody
  | 0x95 => ldsPeerBody
  | 0x96 => stsPeerBody
  | 0x97 => ldwBody
  | 0xA0 => atomAddBody
  | 0xA1 => atomFaddBody
  | 0xA2 => atomMinBody
  | 0xA3 => atomMaxBody
  | 0xA4 => atomAndBody
  | 0xA5 => atomOrBody
  | 0xA6 => atomXorBody
  | 0xA7 => atomXchgBody
  | 0xA8 => atomCasBody
  | 0xB0 => redAddBody
  | 0xB1 => redFaddBody
  | 0xB2 => redMinBody
  | 0xB3 => redMaxBody
  | 0xB4 => redAndBody
  | 0xB5 => redOrBody
  | 0xB6 => redXorBody
  | 0xC0 => fenceCohBody
  | 0xC1 => fenceBlkBody
  | 0xC2 => fenceCoreBody
  | 0xC3 => fenceCluBody
  | 0xC4 => fenceDieBody
  | 0xC5 => fenceDevBody
  | 0xC6 => fenceSysBody
  | 0xC8 => barInitBody
  | 0xC9 => barArrBody
  | 0xCA => barWaitBody
  | 0xCB => barXinBody
  | 0xCC => barXoutBody
  | 0xD0 => cpyBody
  | 0xD1 => cpymBody
  | 0xD2 => cpyoBody
  | 0xD3 => cpypBody
  | 0xD4 => waitocBody
  | 0xD5 => rdwpBody
  | 0xD6 => waitwpBody
  | 0xD8 => txbBody
  | 0xD9 => txcBody
  | 0xDA => txaBody
  | 0xDB => txwBody
  | 0xDC => gchkBody
  | 0xE0 => dsetBody
  | 0xE1 => dgetBody
  | 0xE2 => tzeroBody
  | 0xE3 => trdBody
  | 0xE4 => twrBody
  | 0xE5 => tcvtBody
  | 0xE8 => mmaE4m3Body
  | 0xE9 => mmaE5m2Body
  | 0xEA => mmaI8Body
  | 0xEB => mmaBf16Body
  | 0xEC => mmaQ4aBody
  | 0xED => mmagBody
  | 0xEE => mmasBody
  | 0xEF => cmprBody
  | 0xF0 => mvtBody
  | 0xF1 => vgaBody
  | 0xF2 => nresBody
  | 0xF3 => allocregBody
  | 0xF4 => freeregBody
  | 0xF5 => walletBody
  | 0xF6 => boostBody
  | 0xF7 => permitsBody
  | 0xF8 => cycleBody
  | _ => fun e => .ok e.s

/-- Whether the LEN of a row's word is one its cell allows (R188). -/
def lenOkOf (i : Instr) : Bool :=
  match i.word with
  | some (.base c w) => c.lenOk false w.lit.isSome
  | some (.ext c w) => c.lenOk true w.lit.isSome
  | _ => false

/-- Every row of a cell is one issue of the cell's description. -/
theorem exec_eq_issue (i : Instr) (s : State) {c : Cell} {w : ExtWord} {n : Nat} (h : i.form = some (c, w, n)) :
    exec i s = issue c (lenOkOf i) w n (bodyOf c.opc) s := by
  cases i <;> simp only [Instr.form, Instr.word, Option.some.injEq, Prod.mk.injEq, reduceCtorEq] at h <;>
    (obtain ⟨rfl, rfl, rfl⟩ := h; rfl)

/-- What the fields of an issue's environment are. -/
theorem State.envFor_some {s : State} {i : Instr} {e : Env} (h : s.envFor i = some e) :
    ∃ c w n x, i.form = some (c, w, n) ∧ s.issuer = some x ∧
      e = envOf s x.slot x.co x.blk c w ((c.ty w).getD .b32) x.group n := by
  unfold State.envFor at h
  split at h
  · rename_i c w n x hf hx
    exact ⟨c, w, n, x, hf, hx, (Option.some.inj h).symm⟩
  · cases h

/-- What the cursor names, field by field. -/
theorem State.issuer_some {s : State} {x : Issuer} (h : s.issuer = some x) :
    s.cohort s.cur.slot = some x.co ∧ s.block x.co.blk = some x.blk ∧ x.slot = s.cur.slot ∧
      x.group = s.cur.group &&& x.co.live ∧ x.group ≠ 0 ∧ x.pc = (x.co.lane (lowest x.group)).pc := by
  unfold State.issuer at h
  cases hco : s.cohort s.cur.slot with
  | none => simp [hco] at h
  | some co =>
    cases hb : s.block co.blk with
    | none => simp [hco, hb] at h
    | some b =>
      simp only [hco, hb, bind, Option.bind] at h
      split at h
      · cases h
      · rename_i hg
        cases h
        exact ⟨rfl, hb, rfl, rfl, hg, rfl⟩

/-- An issue by a group that the cursor names ends as its effect does. -/
theorem issue_of_issuer (c : Cell) (lenOk : Bool) (w : ExtWord) (n : Nat) (body : Env → Eff) (s : State) {x : Issuer}
    (h : s.issuer = some x) :
    issue c lenOk w n body s =
      .next (finish (envOf s x.slot x.co x.blk c w ((c.ty w).getD .b32) x.group n)
        (issueEff (envOf s x.slot x.co x.blk c w ((c.ty w).getD .b32) x.group n) lenOk body)) := by
  obtain ⟨hco, hb, hs, hg, hne, -⟩ := State.issuer_some h
  unfold issue
  rw [hco]
  simp only [hb, ← hg, hne, if_false, hs]

theorem issuer_of_envFor {s : State} {i : Instr} {e : Env} (h : s.envFor i = some e) : ∃ x, s.issuer = some x := by
  obtain ⟨_, _, _, x, _, hx, _⟩ := State.envFor_some h
  exact ⟨x, hx⟩

/-- A row of a cell that the cursor's group issues ends as its effect does. -/
theorem exec_of_env {s : State} {i : Instr} {e : Env} (h : s.envFor i = some e) :
    exec i s = .next (finish e (issueEff e (lenOkOf i) (bodyOf e.cell.opc))) := by
  obtain ⟨c, w, n, x, hf, hx, rfl⟩ := State.envFor_some h
  rw [exec_eq_issue i s hf, issue_of_issuer c _ w n _ s hx]
  rfl

/-- A well-formed row of a cell has a LEN and fields that its cell allows. -/
theorem wellFormed_form {i : Instr} {c : Cell} {w : ExtWord} {n : Nat} (hf : i.form = some (c, w, n)) (h : i.WellFormed) :
    lenOkOf i = true ∧ c.encOk w = true := by
  unfold Instr.form at hf
  unfold Instr.WellFormed Instr.wellFormed at h
  unfold lenOkOf
  split at hf
  · rename_i hw
    cases hf
    simp only [hw, Bool.and_eq_true] at h ⊢
    exact h
  · rename_i hw
    cases hf
    simp only [hw, Bool.and_eq_true] at h ⊢
    exact h
  · cases hf

/-- An instruction that passes the checks of R192 ends as its own description says. -/
theorem exec_passes {s : State} {i : Instr} {e : Env} (h : s.Passes i e) :
    exec i s = .next (finish e (bodyOf e.cell.opc e)) := by
  rw [exec_of_env h.env]
  obtain ⟨c, w, n, x, hf, hx, rfl⟩ := State.envFor_some h.env
  obtain ⟨hl, he⟩ := wellFormed_form hf h.form
  have hn := h.names
  have ha := h.active
  have hr := h.ready
  unfold issueEff
  simp only [envOf] at hn ha hr ⊢
  simp only [hl, he, hn, ha, hr, Bool.and_self, Bool.not_true, Bool.false_eq_true, if_false]

/-- What the environment of an issue is made of. -/
theorem envFor_facts {s : State} {i : Instr} {e : Env} (h : s.envFor i = some e) :
    e.s = s ∧ e.slot = s.cur.slot ∧ s.cohort e.slot = some e.co ∧ s.block e.co.blk = some e.blk ∧
      e.group = s.cur.group &&& e.co.live ∧ e.group ≠ 0 ∧ e.act = guardMask e.co e.w e.group ∧
      e.pc = (e.co.lane (lowest e.group)).pc := by
  obtain ⟨c, w, n, x, hf, hx, rfl⟩ := State.envFor_some h
  obtain ⟨hco, hb, hs, hg, hne, -⟩ := State.issuer_some hx
  simp only [envOf, hs]
  exact ⟨trivial, trivial, hco, hb, hg, hne, trivial, trivial⟩

/-! ### How an issue ends -/

theorem finish_ok (e : Env) (t : State) : finish e (.ok t) = e.completes t := rfl
theorem finish_branch (e : Env) (t : State) (dst : List (Mask × W32)) : finish e (.branch t dst) = e.branches t dst := rfl
theorem finish_trap (e : Env) (t : TrapInfo) : finish e (.trap t) = e.traps t := rfl

end Sys2Proof.Machine
end

