-- ==== Sys2Proof/Laws/Slices.lean ====
section
/-! SUPPORT. Laws of the save area: what a save changes of memory, and that memory keeps its canonical form. -/

namespace Sys2Proof.Machine

/-- The cells of a stream stand in rising order from its first address on. -/
theorem streamCells_sorted (a : Nat) (x : Stream) :
    (streamCells a x).Pairwise (fun c d => c.1 < d.1) ∧ ∀ c ∈ streamCells a x, a ≤ c.1 := by
  induction x generalizing a with
  | nil => exact ⟨List.Pairwise.nil, fun c h => absurd h (List.not_mem_nil)⟩
  | cons b x ih =>
    obtain ⟨hp, hm⟩ := ih (a + 1)
    cases b with
    | none => exact ⟨hp, fun c h => Nat.le_of_succ_le (hm c h)⟩
    | some b =>
      refine ⟨List.pairwise_cons.2 ⟨fun c h => hm c h, hp⟩, fun c h => ?_⟩
      rcases List.mem_cons.1 h with rfl | h
      · exact Nat.le_refl _
      · exact Nat.le_of_succ_le (hm c h)

/-- A stream's write keeps the canonical form of memory. -/
theorem State.writeStream_wf (s : State) (key base n : Nat) (x : Stream) (h : Memory.wf s.mem = true) :
    Memory.wf (s.writeStream key base n x).mem = true := by
  have hs : s.mem.Pairwise (fun a b => a.1 < b.1) := (cellsSorted_iff _).1 h
  obtain ⟨hp, -⟩ := streamCells_sorted base x
  refine (cellsSorted_iff _).2 ?_
  show List.Pairwise _ (s.mem.filter _ ++ (streamCells base x).filter _ ++ s.mem.filter _)
  rw [List.pairwise_append, List.pairwise_append]
  refine ⟨⟨hs.filter _, hp.filter _, ?_⟩, hs.filter _, ?_⟩
  · intro a ha b hb
    have h1 := (List.mem_filter.1 ha).2
    have h2 := (List.mem_filter.1 hb).2
    simp only [decide_eq_true_eq, inArea, Bool.and_eq_true] at h1 h2
    omega
  · intro a ha b hb
    have h2 := (List.mem_filter.1 hb).2
    rcases List.mem_append.1 ha with ha | ha
    · have h1 := (List.mem_filter.1 ha).2
      simp only [decide_eq_true_eq] at h1 h2
      omega
    · have h1 := (List.mem_filter.1 ha).2
      simp only [decide_eq_true_eq, inArea, Bool.and_eq_true] at h1 h2
      omega

/-- A stream's write changes memory and line keys only. -/
theorem State.writeStream_frame (s : State) (key base n : Nat) (x : Stream) :
    { s.writeStream key base n x with mem := s.mem, lineKeys := s.lineKeys } = s := rfl

theorem State.scramble_frame (s : State) (base n : Nat) :
    { s.scramble base n with mem := s.mem, lineKeys := s.lineKeys } = s := rfl

theorem State.scramble_wf (s : State) (base n : Nat) (h : Memory.wf s.mem = true) : Memory.wf (s.scramble base n).mem = true :=
  cellsSorted_filter _ _ h

/-- An image's write changes memory and line keys only (R357). -/
theorem State.writeImage_frame (s : State) (v : Nat) (i : SavedImage) :
    { s.writeImage v i with mem := s.mem, lineKeys := s.lineKeys } = s := rfl

theorem State.writeImage_wf (s : State) (v : Nat) (i : SavedImage) (h : Memory.wf s.mem = true) :
    Memory.wf (s.writeImage v i).mem = true := s.writeStream_wf _ _ _ _ h

/-- So does the write of a swap pool (R364). -/
theorem State.writePool_frame (s : State) (v : Nat) :
    { s.writePool v with mem := s.mem, lineKeys := s.lineKeys } = s := rfl

theorem State.writePool_wf (s : State) (v : Nat) (h : Memory.wf s.mem = true) : Memory.wf (s.writePool v).mem = true :=
  s.writeStream_wf _ _ _ _ h

end Sys2Proof.Machine
end

