-- ==== Sys2Proof/Laws/Translations.lean ====
section
/-! SUPPORT. Laws of the TLBs: what an invalidation leaves in each of them. -/

namespace Sys2Proof.Machine

/-- What an invalidation leaves of a TLB of a die: a die without clocks keeps all. -/
def State.leftOf (s : State) (keep : TlbEntry → Bool) (die : Nat) (l : List TlbEntry) : List TlbEntry :=
  if s.clocked die then l.filter keep else l

theorem State.filterTlbs_core (s : State) (keep : TlbEntry → Bool) (c : Nat) :
    ((s.filterTlbs keep).core c).tlb = s.leftOf keep (dieOf c) (s.core c).tlb := by
  simp only [State.filterTlbs, State.core, SMap.get, SMap.look_mapVals, State.leftOf]
  cases s.cores.look c with
  | none => simp
  | some x => simp only [Option.map_some, Option.getD_some]; split <;> rfl

theorem State.filterTlbs_cluster (s : State) (keep : TlbEntry → Bool) (c : Nat) :
    ((s.filterTlbs keep).cluster c).tlb = s.leftOf keep (clusterDie c) (s.cluster c).tlb := by
  simp only [State.filterTlbs, State.cluster, SMap.get, SMap.look_mapVals, State.leftOf]
  cases s.clusters.look c with
  | none => simp
  | some x => simp only [Option.map_some, Option.getD_some]; split <;> rfl

theorem State.filterTlbs_die (s : State) (keep : TlbEntry → Bool) (d : Nat) :
    ((s.filterTlbs keep).die d).tlb = s.leftOf keep d (s.die d).tlb := by
  simp only [State.filterTlbs, State.die, SMap.get, SMap.look_mapVals, State.leftOf]
  cases s.dies.look d with
  | none => simp
  | some x => simp only [Option.map_some, Option.getD_some]; split <;> rfl

/-- An invalidation touches the TLBs and nothing else. -/
theorem State.filterTlbs_frame (s : State) (keep : TlbEntry → Bool) :
    { s.filterTlbs keep with cores := s.cores, clusters := s.clusters, dies := s.dies } = s := rfl

end Sys2Proof.Machine
end

