-- ==== Sys2Proof/Machine/EngineEvents.lean ====
section
/-! DEFINITION. The events of the agents that are no lanes (spec/05_memory_model.md R113, R124, R125): copy channels, matrix engines
with CMPR, Aster engines, reduction units, the Helictite agents' copies, the front end, the host and Lumak peers. -/

namespace Sys2Proof.Machine

/-! ### Copies (R99, R100, R103, R107, R271) -/

/-- The events of a channel's copy, of act `k`. -/
def Copy.event (c : Copy) (core ch k : Nat) (kind : MemKind) (bytes : List MemLoc) : MemEvent :=
  { who := { agent := .copy core ch, core := core, blk := some c.blk }, kind := kind, act := k, bytes := bytes, place := c.prog }

/-- The byte at a virtual address, as a channel or an agent with some TLBs reaches it. -/
def State.locsAt (s : State) (tlbs : List TlbEntry) (vf : Nat) (va : W64) (acc : Access) (n : Nat) : List MemLoc :=
  match s.xlatRange tlbs vf va acc (piecesOf va.toNat n) with
  | .ok l => l.flatMap (fun p => deviceLocs p.1 p.2.2)
  | .error _ => []

/-- What the reads of a copy's next unit take: the source bytes and, in decode mode, its scale entry. -/
def State.copySources (s : State) (core : Nat) (c : Copy) : List (List MemLoc) :=
  match s.block c.blk with
  | none => []
  | some b =>
    let tl := s.coreTlbs core
    match c.kind with
    | .cpyo | .cpyp => [aspLocs c.blk (c.src.toNat + c.prog) 1]
    | _ =>
      if c.dec then
        s.locsAt tl b.vf c.data .read 1 :: (match s.translate tl b.vf c.data .read with
          | .ok x => match qfmtOf x.fattr with
            | some q =>
              if q.efmt ≤ 2 then [s.locsAt tl b.vf (BitVec.ofNat 64 (x.page + q.scaleOff (c.data.toNat - x.page) c.half)) .read 4]
              else []
            | none => []
          | .error _ => [])
      else [s.locsAt tl b.vf (c.src + BitVec.ofNat 64 c.prog) .read 1]

/-- Where a copy's next unit lands, one list for each receiver (R103). -/
def State.copyTargets (s : State) (core : Nat) (c : Copy) : List (List MemLoc) :=
  match c.kind with
  | .cpyo => match s.block c.blk with
    | some b => [s.locsAt (s.coreTlbs core) b.vf (c.dst + BitVec.ofNat 64 c.prog) .write 1]
    | none => []
  | k =>
    let off := (if k = .cpyp then peerOffset (c.dst.setWidth 32) else c.dst.toNat) + c.prog
    c.dstBlks.map (fun b => if c.toWbf then wbfLocs b off c.unit else aspLocs b off c.unit)

/-- The events of a copy's next unit: its reads, and its write in each receiver. -/
def State.unitReads (s : State) (core ch k : Nat) (c : Copy) : List MemEvent := (s.copySources core c).map (c.event core ch k .read)
def State.unitWrites (s : State) (core ch k : Nat) (c : Copy) : List MemEvent := (s.copyTargets core c).map (c.event core ch k .write)

/-- The event of a decrement of an object, which the core makes atomically (R105, R107). -/
def Copy.counts (c : Copy) (core ch k blk off : Nat) : MemEvent := { c.event core ch k .rmw (aspLocs blk off 16) with whole := true }

/-- The channel delivers a unit: the events of COPY_DELIVER with one unit, where the copy has gone on. -/
def State.deliverEvents (s t : State) (core ch : Nat) (act : Nat → Nat) : List MemEvent :=
  match s.runningCopy core ch, t.runningCopy core ch with
  | some c, some c' => if c'.id = c.id && c'.prog != c.prog then s.unitReads core ch (act c.id) c ++ s.unitWrites core ch (act c.id) c else []
  | _, _ => []

/-- The channel reads the last unit, and counts the sender's object down. -/
def State.lastReadEvents (s t : State) (core ch : Nat) (act : Nat → Nat) : List MemEvent :=
  match s.runningCopy core ch, t.runningCopy core ch with
  | some c, some c' =>
    if c'.srcDone && !c.srcDone then
      s.unitReads core ch (act c.id) c ++ (if c.snd then [c.counts core ch (act c.id) c.blk c.sobj] else [])
    else []
  | _, _ => []

/-- A copy has left its channel complete: its last unit has landed. -/
def State.copyLeft (s t : State) (core ch : Nat) : Option Copy :=
  (s.runningCopy core ch).filter (fun c => c.srcDone && ((t.core core).chan ch).all (fun k => k.id != c.id))

/-- The last unit lands, and the receivers' objects are counted down. -/
def State.landEvents (s t : State) (core ch : Nat) (act : Nat → Nat) : List MemEvent :=
  match s.copyLeft t core ch with
  | none => []
  | some c =>
    s.unitWrites core ch (act c.id) c ++ (if c.rcv then c.dstBlks.map (fun b => c.counts core ch (act c.id) b c.robj) else [])

/-- The stopped copy that a SKIP completes, with the state in which the command finds it (R272, R349). -/
def State.skipped (s : State) (vf slot : Nat) : Option (State × Copy) :=
  let v := s.viewOf vf
  if s.commandBarred vf opSkip slot || s.commandWaits vf opSkip slot then none
  else
    match (v.slotOf vf slot).bind (fun p => p.1.park) with
    | none => none
    | some r => if r.copy then (v.stoppedCopy slot r.ch).map (fun c => (v, c)) else none

/-- The objects that a SKIPped copy still counts down: the sender's unless it has fallen before, and the receivers' (R107, R272). -/
def Copy.skipCounts (c : Copy) : List (Nat × Nat × Bool) :=
  (if c.snd && !c.srcDone then [(c.blk, c.sobj, false)] else []) ++ (if c.rcv then c.dstBlks.map (fun b => (b, c.robj, true)) else [])

/-- A SKIPped copy's decrements. -/
def State.skipEvents (s : State) (vf slot : Nat) (act : Nat → Nat) : List MemEvent :=
  match s.skipped vf slot with
  | none => []
  | some (_, c) => c.skipCounts.map (fun o => c.counts (coreOf slot) c.ch (act c.id) o.1 o.2.1)

/-! ### The matrix family and CMPR (R290, R292 to R295) -/

/-- The locations of bytes of a descriptor's region of a block. -/
def Dsc.locs (d : Dsc) (blk off n : Nat) : List MemLoc :=
  if d.space = 2 then wbfLocs blk (d.base + off) n else aspLocs blk (d.base + off) n

/-- The events of a matrix operation. -/
def MatOp.event (m : MatOp) (cluster k : Nat) (kind : MemKind) (bytes : List MemLoc) : MemEvent :=
  { who := { agent := .matrix cluster, blk := some m.blk }, kind := kind, act := k, bytes := bytes }

/-- The bytes of A that a pass takes from memory: none where MMAG has gathered its rows before (R290, R293). -/
def MatOp.passA (m : MatOp) (p : Nat) : List MemLoc :=
  let k := kTotal m.fmt m.passes
  let d := Dsc.of m.da
  let r := rowsA m.fmt k (m.opc == 0xEE) (m.opc == 0xED)
  let (k0, kn) := passRange m.fmt p
  let g := groupOf m.grp
  let spans : List (Nat × Nat) :=
    if m.fmt = .q4a then ((List.range (k / g)).filter (fun x => k0 < (x + 1) * g && (x + 1) * g ≤ k0 + kn)).map (fun x => (x * g, g))
    else if m.opc = 0xEE then [(k0 / 2 * elemBytes m.fmt, kn / 2 * elemBytes m.fmt)]
    else [(k0 * elemBytes m.fmt, kn * elemBytes m.fmt)]
  if m.opc = 0xED then []
  else (List.range 128).flatMap (fun i => spans.flatMap (fun x => d.locs m.blk (i * d.stride r + x.1) x.2))

/-- The bytes of B that a pass takes, the scale entries of a .q4a operation among them (R165, R290). -/
def MatOp.passB (m : MatOp) (p : Nat) : List MemLoc :=
  let k := kTotal m.fmt m.passes
  let d := Dsc.of m.db
  let r := rowsB m.fmt k m.grp
  let (k0, kn) := passRange m.fmt p
  let g := groupOf m.grp
  if m.fmt = .q4a then
    ((List.range (k / g)).filter (fun x => k0 < (x + 1) * g && (x + 1) * g ≤ k0 + kn)).flatMap (fun x =>
      (List.range 128).flatMap (fun j => d.locs m.blk (j * d.stride r + x * g / 2) (g / 2) ++
        d.locs m.blk (128 * d.stride r + 4 * (j * (k / g) + x)) 4))
  else (List.range kn).flatMap (fun j => d.locs m.blk ((k0 + j) * d.stride r) r.len)

/-- A pass is written: it has read its operands and the tile, and writes the tile (R290). -/
def State.passEvents (s t : State) (cluster op : Nat) (act : Nat → Nat) : List MemEvent :=
  match (s.cluster cluster).mat.find? (fun m => m.id == op && m.opc != 0xEF) with
  | none => []
  | some m =>
    if (t.cluster cluster).mat.any (fun x => x.id == op && x.written == m.written) || (s.block m.blk).isNone then []
    else
      let ev := m.event cluster (act op)
      (if m.opc = 0xED then [] else [ev .read (m.passA m.written)]) ++
        [ev .read (m.passB m.written), ev .read (tileLocs m.blk m.tile 0 16384), ev .write (tileLocs m.blk m.tile 0 16384)]

/-- MMAG gathers its rows when its first pass is granted, one event for each row (R293). -/
def State.gatherEvents (s t : State) (cluster : Nat) (act : Nat → Nat) : List MemEvent :=
  match (s.cluster cluster).mat.find? (fun m => m.opc == 0xED && m.granted == 0 &&
      (t.cluster cluster).mat.any (fun x => x.id == m.id && x.granted == 1)) with
  | none => []
  | some m =>
    let d := Dsc.of m.da
    let r := rowsA m.fmt (kTotal m.fmt m.passes) false true
    m.idx.map (fun x => m.event cluster (act m.id) .read (d.locs m.blk (x.toNat * d.stride r) r.len))

/-- CMPR reads each group of eight of its rows and writes the four that it keeps (R295). -/
def State.cmprEvents (s t : State) (cluster op : Nat) (act : Nat → Nat) : List MemEvent :=
  match (s.cluster cluster).mat.find? (fun m => m.id == op && m.opc == 0xEF) with
  | none => []
  | some m =>
    if (t.cluster cluster).mat.any (fun x => x.id == op) || (s.block m.blk).isNone then []
    else
      let k := kTotal m.fmt m.passes
      let eb := elemBytes m.fmt
      let da := Dsc.of m.da
      let db := Dsc.of m.db
      (List.range m.rows).flatMap (fun r => (List.range (k / 8)).flatMap (fun g =>
        [m.event cluster (act op) .read (db.locs m.blk (r * db.stride { n := m.rows, len := k * eb } + 8 * g * eb) (8 * eb)),
         m.event cluster (act op) .write (da.locs m.blk (r * da.stride { n := m.rows, len := k / 2 * eb } + 4 * g * eb) (4 * eb))]))

/-! ### VGA (R296 to R300) -/

/-- The events of a stream's next word: its read and, for a position word, the read of the element it names. -/
def State.wordEvents (s : State) (v : VgaOp) (cluster k : Nat) : List MemEvent :=
  let ev (l : List MemLoc) : MemEvent := { who := { agent := .aster cluster, blk := some v.blk }, kind := .read, act := k, bytes := l }
  let da := Dsc.of v.da
  let db := Dsc.of v.db
  match s.block v.blk with
  | none => []
  | some b =>
    let off := 4 * v.cursor
    if da.extent < off + 4 then []
    else
      let w := (leW 32 (s.dscRead b da off 4)).toNat
      ev (da.locs v.blk off 4) ::
        (if w / 2 ^ 16 = 0 && v.values != 0 && w % 2 ^ 16 < db.extent / 4 then [ev (db.locs v.blk (4 * (w % 2 ^ 16)) 4)] else [])

/-- The events of up to a number of words. -/
def State.wordsEvents (s : State) (cluster k : Nat) : Nat → VgaOp → List MemEvent
  | 0, _ => []
  | n + 1, v =>
    s.wordEvents v cluster k ++ (match s.vgaWord v with
      | .more v => s.wordsEvents cluster k n v
      | _ => [])

/-- The engine reads on in its first VGA, or finishes it. -/
def State.asterEvents (s t : State) (cluster n : Nat) (act : Nat → Nat) : List MemEvent :=
  match (s.cluster cluster).vga with
  | [] => []
  | v :: _ => if (t.cluster cluster).vga == (s.cluster cluster).vga then [] else s.wordsEvents cluster (act v.id) n v

/-! ### Reductions (R111) -/

/-- A request is applied at its partition, whole (R111). -/
def State.redEvents (s t : State) (req : Nat) (act : Nat → Nat) : List MemEvent :=
  match s.reds[req]? with
  | none => []
  | some r =>
    if s.reds.length ≤ t.reds.length || r.lost || (s.physFault r.pa).isSome then []
    else [{ who := { agent := .reduction (homeDie r.pa) 0, blk := (s.cohort r.slot).map (·.blk) }, kind := .rmw, act := act r.id,
            bytes := deviceLocs r.pa r.ty.bytes, whole := true }]

/-! ### The tree engine's copies (R54, R61, R66, R70) -/

/-- The events of a cluster's agent for a block. -/
def treeEvent (cluster blk k : Nat) (kind : MemKind) (bytes : List MemLoc) : MemEvent :=
  { who := { agent := .helictite cluster, blk := some blk }, kind := kind, act := k, bytes := bytes }

/-- The bytes of device memory that a step has changed. -/
def State.changed (s t : State) : List MemLoc :=
  (t.mem.filter (fun p => cellAt s.mem p.1 != some p.2)).map (fun p => .device p.1)

/-- The launches whose completion records a step has written (R335). -/
def State.doneLaunches (s t : State) : List (Nat × Launch) :=
  s.launches.filter (fun p => (t.launch p.1).isNone && (t.vf p.2.vf).launches != (s.vf p.2.vf).launches)

/-- The bytes of a launch's completion record. -/
def State.recordLocs (s : State) (l : Launch) : List MemLoc :=
  match s.translate [] l.vf l.crec .write with
  | .error _ => []
  | .ok x => deviceLocs x.pa 64

/-- What an agent's step has written: the headers of frames, slots and results (R56, R58, R61). The completion records that the front
end writes with the step are not the agent's. -/
def State.treeWrites (s t : State) : List MemLoc :=
  let front := (s.doneLaunches t).flatMap (fun p => s.recordLocs p.2)
  (s.changed t).filter (fun b => !front.contains b)

/-- The events of what an agent's step writes for a launch, outside any block (R56, R58). -/
def State.serveEvents (s t : State) (cluster k : Nat) : List MemEvent :=
  if (s.treeWrites t).isEmpty then []
  else [{ who := { agent := .helictite cluster }, kind := .write, act := k, bytes := s.treeWrites t }]

/-- The hand-off of a block reads its RESBUF or its OUTBOX and writes a result, slots and the header that counts it (R56, R61, R66). -/
def State.handOffEvents (s t : State) (bi : Nat) (b : Block) (k : Nat) : List MemEvent :=
  let read := match b.phase with
    | .up => aspLocs bi b.resbuf b.rcd.rb
    | .down => aspLocs bi b.outbox (b.rcd.nchild * b.rcd.cslot)
  (if read.isEmpty then [] else [treeEvent b.taker bi k .read read]) ++
    (if (s.treeWrites t).isEmpty then [] else [treeEvent b.taker bi k .write (s.treeWrites t)])

/-- The dispatches of a launch that wait for cores. -/
def State.dispatches (s : State) (lid : Nat) : List Dispatch :=
  (s.clusters.flatMap (fun c => c.2.waiting.filter (fun d => d.launch == lid))) ++ ((s.launch lid).map (·.search)).getD []

/-- The input copy of a node that a dispatch makes before its block (R70). -/
def State.inputCopyEvents (s t : State) (bi : Nat) (b : Block) (k : Nat) : List MemEvent :=
  let copied (u : State) : Option Nat := ((u.launch b.launch).bind (fun l => l.nodes.look b.node)).bind (·.copySlot)
  match t.launch b.launch, copied s, copied t with
  | some l, none, some c =>
    let tl := s.clusterTlbs b.dispatcher
    match (s.dispatches b.launch).findSome? (fun d => (List.zip d.nodes d.inboxes).find? (fun p => p.1 == b.node && d.phase == b.phase)) with
    | some (_, some a, n) =>
      [treeEvent b.dispatcher bi k .read (s.locsAt tl b.vf (BitVec.ofNat 64 a) .read n),
       treeEvent b.dispatcher bi k .write (s.locsAt tl b.vf (l.copyAddr c) .write n)]
    | some (_, none, n) => [treeEvent b.dispatcher bi k .write (s.locsAt tl b.vf (l.copyAddr c) .write n)]
    | none => []
  | _, _, _ => []

/-- The INBOX copy of a block, by the agent that dispatched it (R54, R59, R61, R66). -/
def State.inboxEvents (s t : State) (bi k : Nat) : List MemEvent :=
  match s.block bi, t.block bi with
  | some b, some b' =>
    if b.inboxDone || !b'.inboxDone then []
    else
      let cl := b.dispatcher
      (match b.inboxAddr with
       | some a => [treeEvent cl bi k .read (s.locsAt (s.clusterTlbs cl) b.vf (BitVec.ofNat 64 a) .read b.inboxLen)]
       | none => []) ++ [treeEvent cl bi k .write (aspLocs bi b.inbox b.inboxLen)]
  | _, _ => []

/-! ### The front end (R329, R335, R336) -/

/-- The completion record of a launch: its other fields, and then DONE as a system-scope release. -/
def State.doneEvents (s : State) (l : Launch) (k : Nat) : List MemEvent :=
  match s.translate [] l.vf l.crec .write with
  | .error _ => []
  | .ok x =>
    let ev (off n : Nat) : MemEvent := { who := { agent := .frontEnd }, kind := .write, act := k, bytes := deviceLocs (x.pa + off) n }
    [ev 0 14, ev 16 40, { ev 0x38 8 with rel := true, scope := .sys, whole := true }]

/-- The write, or the atomic add, of a SIGNALMEM as a system-scope release. -/
def State.signalEvents (s : State) (vf : Nat) (bs : List Byte) (k : Nat) : List MemEvent :=
  let add := fld bs 24 1 = 1
  match s.translate [] vf (BitVec.ofNat 64 (fld bs 8 8)) (if add then .rmw else .write) with
  | .error _ => []
  | .ok x => [{ who := { agent := .frontEnd }, kind := if add then .rmw else .write, act := k, bytes := deviceLocs x.pa 8, rel := true,
                scope := .sys, whole := true }]

/-- A fault record that goes to its ring (R348). -/
def State.faultRingEvents (s t : State) (k : Nat) : List MemEvent :=
  if (s.changed t).isEmpty then []
  else [{ who := { agent := .frontEnd }, kind := .write, act := k, bytes := s.changed t, scope := .sys }]

/-! ### The host and the peers (R323, R337, R338) -/

/-- The events of an access from outside by an agent. Whether it orders anything, and which lane of a peer makes it, is for the other
side to say. -/
def outsideEvents (agent : MemAgent) (pa : Nat) (acc : BusAccess) (k : Nat) : List MemEvent :=
  let ev (kind : MemKind) (n : Nat) : MemEvent := { who := { agent := agent }, kind := kind, act := k, bytes := deviceLocs pa n, scope := .sys }
  match acc with
  | .read n => [ev .read n]
  | .write bs => [ev .write bs.length]
  | .atomic _ ty _ _ => [ev .rmw (((Ty.ofCode ty).map Ty.bytes).getD 1)]

/-- The events of an action of the host or of a peer. -/
def State.actionEvents (s : State) (a : Action) (k : Nat) : List MemEvent :=
  match a with
  | .hostStore addr bs => if addr + bs.length ≤ 2 ^ 48 then outsideEvents .host (2 ^ 48 + addr) (.write bs) k else []
  | .peerStore port off bs =>
    if port < 12 && off + bs.length ≤ 2 ^ 48 then outsideEvents (.peer port 0) ((2 + port) * 2 ^ 48 + off) (.write bs) k else []
  | .event (.hostMemAccess addr acc) =>
    let n := match acc with
      | .read n => n
      | .write bs => bs.length
      | .atomic _ _ _ _ => hbmSize + 1
    if s.released && addr + n ≤ hbmSize && (List.range n).all (fun i => (s.granules.look ((addr + i) / 2 ^ 30)).isSome) then
      outsideEvents .host addr acc k
    else []
  | .event (.lumakInbound port addr acc) =>
    let n := match acc with
      | .read n => n
      | .write bs => bs.length
      | .atomic _ ty _ _ => ((Ty.ofCode ty).map Ty.bytes).getD 1
    if s.released && (s.port port).accepts addr n then outsideEvents (.peer port 0) addr acc k else []
  | _ => []

end Sys2Proof.Machine
end

