-- ==== Sys2Proof/Machine/Outcomes.lean ====
section
/-! DEFINITION. Which acts and events a step of the machine is, which executions a program has, and its outcomes
(spec/05_memory_model.md R113, R116, R121, R122, R129). An execution of a program follows a run of the machine step by step, but every
read takes the value that the execution gives it: a load, an atomic or an engine computes what it computes from the values its
own reads take, whatever the machine's coherent store holds. -/

namespace Sys2Proof.Machine

/-! ### The acts of a step -/

/-- An act with its events, which carry its place among the acts. -/
abbrev Piece := Act × (Nat → List MemEvent)

/-- An act without events. -/
def quiet (a : Act) : Piece := (a, fun _ => [])

/-- The acts and the events of some pieces, numbered from `k`. -/
def numbered (k : Nat) (l : List Piece) : List Act × List MemEvent := (l.map (·.1), l.zipIdx.flatMap (fun p => p.1.2 (k + p.2)))

/-- The joins released between two states, with the lanes that each gathers (R25, R28). -/
def State.joinPieces (s t : State) : List Piece :=
  s.cohorts.flatMap (fun p => (List.range 8).filterMap (fun n =>
    let m := (p.2.j n).1 &&& p.2.live
    if m != 0 && ((t.cohort p.1).map (fun co => (co.j n).1 == 0)).getD false then
      some (quiet { kind := .join, blk := p.2.blk, cohort := p.2.cohid, active := p.2.tids m })
    else none))

/-- The lanes of a block that have not exited. -/
def State.liveTids (s : State) (bi : Nat) : List Nat := (s.blockCohorts bi).flatMap (fun p => p.2.tids p.2.live)

/-- The move of a REGROUP or REGROUP.RESTORE (R33, R34). -/
def State.movePieces (s t : State) (bi : Nat) : List Piece :=
  if ((s.block bi).any (·.coll.isSome)) && ((t.block bi).all (·.coll.isNone)) then
    [quiet { kind := .regroup, blk := bi, active := s.liveTids bi }]
  else []

/-- The opening of an object that an arrival or a decrement completes (R108). -/
def State.openPieces (s : State) (bi off : Nat) (f : Bar → Bar) : List Piece :=
  match s.block bi with
  | none => []
  | some b =>
    let o := s.bar b off
    if (f o).due && !o.due then [quiet { kind := .opening (objId bi off) o.gen, launch := b.launch, blk := bi }] else []

/-- A copy's decrement of an object, and the opening it may complete (R107, R108). -/
def State.countPieces (s : State) (c : Copy) (bi off : Nat) (inn : Bool) : List Piece :=
  let a : Act := { kind := .decrement (objId bi off) c.id inn (c.kind == .cpym || c.kind == .cpyp),
                   launch := ((s.block bi).map (·.launch)).getD 0, blk := bi }
  quiet a :: s.openPieces bi off (fun o => if inn then { o with inn := o.inn - 1 } else { o with out := o.out - 1 })

/-- The issue of a clock, which ends in state `t`: its act with its events, the copy of an NRES, and the opening that a BAR.ARR may
complete. A clock that raises VGLIMIT (R299) leaves the handler registers behind. -/
def issuePieces (p t : State) (hit : Env → Nat → Bool) : List Piece :=
  match p.issuer with
  | none =>
    match p.cohort p.cur.slot with
    | none => []
    | some co => [quiet { blk := co.blk, cohort := co.cohid, active := co.tids co.live, flows := [{ sets := sXpc :: trapRegs }] }]
  | some i =>
    let e := p.envHere i
    let a := issueAct i e t
    let copied (k : Nat) : List MemEvent := match a.kind with
      | .nres _ => p.handOffEvents t i.co.blk i.blk k
      | _ => []
    (a, fun k => (e.map (fun e => e.events i k (hit e) t)).getD [] ++ copied k) ::
      (match a.kind, e with
       | .arrive _ _, some e => p.openPieces ((e.barTarget.1.map (·.1)).getD 0) e.barTarget.2 (fun o => { o with pend := o.pend - 1 })
       | _, _ => [])

/-- The end of a block as its last cohort releases its slot (R36, R61, R69, R77): the commit of a guard that passes, and the
hand-off where NRES has not made it. -/
def State.endPieces (s t : State) (slot : Nat) : List Piece :=
  match (s.cohort slot).bind (fun co => (s.block co.blk).map (fun b => (co.blk, b))) with
  | none => []
  | some (bi, b) =>
    if b.ended || b.killed || !((t.block bi).all (·.ended)) then []
    else
      let finish (s : State) : List Piece :=
        if b.handed then []
        else [({ kind := .blockEnd b.node, launch := b.launch, blk := bi }, fun k => s.handOffEvents t bi b k)]
      if !b.surrogate then finish s
      else if !s.guardPasses b then []
      else
        match s.guardCommit b with
        | .error _ => []
        | .ok s' =>
          ({ kind := .commit, launch := b.launch, blk := bi, active := List.range b.nlanes }, fun k =>
            commitEvents s b.core b { agent := .lane bi 0, core := b.core, blk := some bi } k .write) :: finish s'

/-- The nodes whose hand-offs a block receives (R69): its children in the up phase; in the down phase its parent, and through SKIP
nodes the parent's parents. -/
def Launch.above (l : Launch) : Nat → Nat → List Nat
  | 0, _ => []
  | n + 1, i =>
    match l.nodes.look i with
    | none => []
    | some x => x.parent :: (if ((l.nodes.look x.parent).map (·.rcd.kind)) == some kSkip then l.above n x.parent else [])
def Launch.givers (l : Launch) (b : Block) : List Nat :=
  match b.phase with
  | .up => (List.range b.rcd.nchild).map (b.rcd.first.toNat + ·)
  | .down => if b.node = 0 then [] else l.above (b.depth + 1) b.node

/-- The start of the blocks that a step has admitted, with the input copies made for them (R69, R70). -/
def State.startPieces (s t : State) : List Piece :=
  (t.blocks.filter (fun p => (s.block p.1).isNone)).map (fun p =>
    ({ kind := .blockStart (((t.launch p.2.launch).map (·.givers p.2)).getD []), launch := p.2.launch, blk := p.1 },
     fun k => s.inputCopyEvents t p.1 p.2 k))

/-- What an agent's step writes for a launch (R56, R58). -/
def State.servePieces (s t : State) (cluster lid : Nat) : List Piece :=
  if (s.treeWrites t).isEmpty then [] else [({ launch := lid }, fun k => s.serveEvents t cluster k)]

/-- A dispatch: the starts of its blocks, or what an input copy that failed had written before (R59, R70). -/
def State.dispatchPieces (s t : State) (cluster lid : Nat) : List Piece :=
  if (s.startPieces t).isEmpty then s.servePieces t cluster lid else s.startPieces t

/-- A SKIPped copy's decrements, and the openings they complete (R107, R108, R272). -/
def State.skipPieces (s : State) (vf slot : Nat) : List Piece :=
  match s.skipped vf slot with
  | none => []
  | some (v, c) => c.skipCounts.flatMap (fun o => v.countPieces c o.1 o.2.1 o.2.2)

/-- The end of a launch's up phase (R68). -/
def State.turnPieces (s t : State) (lid : Nat) : List Piece :=
  if (s.launch lid).any (·.phase == .up) && (t.launch lid).any (·.phase == .down) then [quiet { kind := .turn, launch := lid }] else []

/-- The completion records that a step has written (R335). -/
def State.donePieces (s t : State) : List Piece :=
  (s.doneLaunches t).map (fun p =>
    ({ kind := .completed p.2.vf p.2.queue, launch := p.1 }, fun k => s.doneEvents p.2 k))

/-- A packet that starts (R329): a launch, or a release of what came before it. -/
def State.packetPieces (s : State) (vf q : Nat) : List Piece :=
  match s.parse vf ((s.vf vf).queue q) with
  | .ok p =>
    if !s.canStart vf ((s.vf vf).queue q) p then []
    else if p.kind = pkLaunch then [quiet { kind := .launched vf q, launch := s.nextId }]
    else if p.kind = pkSignalmem then [({ kind := .signal vf q }, fun k => s.signalEvents vf p.bs k)]
    else if p.kind = pkFence then [quiet { kind := .signal vf q }]
    else []
  | _ => []

/-- The packets of a fetch (R326). -/
def State.fetchPieces (s : State) (vf q : Nat) : Nat → List Piece
  | 0 => []
  | n + 1 => s.packetPieces vf q ++ (if (s.fetchOne vf q).2 then (s.fetchOne vf q).1.fetchPieces vf q n else [])

/-- The packet of a row that starts one. -/
def State.rowPieces (s t : State) (vf q : Nat) : List Piece :=
  if ((s.vf vf).queue q).qrd = ((t.vf vf).queue q).qrd then [] else s.packetPieces vf q

/-- A store to a notify word that is taken (R325), by NOTIFY or as a write of the word's register. -/
def State.notifyPieces (s t : State) (vf q : Nat) : List Piece :=
  if s.released && !((s.vf vf).queue q).stop && !((t.vf vf).queue q).stop then [quiet { kind := .notify vf q }] else []

/-- The acts of the step that takes `s` to `t`, in their order, with the events that are theirs. -/
def State.pieces (s t : State) (hit : Env → Nat → Bool) : List Piece :=
  let u := s.nextAction.2
  (match s.nextAction.1 with
   | .quarter core q _ => u.joinPieces (u.prepare core q) ++ (match s.issuing t with
     | some p => issuePieces p t hit
     | none => [])
   | .event (.joinRelease _ _) => u.joinPieces t
   | .event (.regroupMove b) => u.movePieces t b
   | .event (.regroupRestoreMove b) => u.movePieces t b
   | .event (.copySourceReadDone core ch) => match u.runningCopy core ch, t.runningCopy core ch with
     | some c, some c' => if c'.srcDone && !c.srcDone && c.snd then u.countPieces c c.blk c.sobj false else []
     | _, _ => []
   | .event (.copyComplete core ch) => match u.copyLeft t core ch with
     | some c => if c.rcv then c.dstBlks.flatMap (fun b => u.countPieces c b c.robj true) else []
     | none => []
   | .event (.cohortSlotRelease slot) => u.endPieces t slot
   | .event (.take cl l) => u.servePieces t cl l
   | .event (.downTake cl l) => u.servePieces t cl l
   | .event (.steal cl l) => u.servePieces t cl l
   | .event (.leapfrog cl l _) => u.servePieces t cl l
   | .event (.blockDispatch cl) => u.dispatchPieces t cl ((((u.cluster cl).waiting.head?).map (·.launch)).getD 0)
   | .event (.placementSearch l) => u.dispatchPieces t ((((u.launch l).bind (fun x => x.search.head?)).map (·.taker)).getD 0) l
   | .event (.skip vf slot) => u.skipPieces vf slot
   | .event (.registerWrite false vf off _) =>
     if 0x10000 ≤ off && off < 0x50000 && off % 0x1000 = 0 then u.notifyPieces t vf ((off - 0x10000) / 0x1000) else []
   | .event (.faultRecordPost _) => if (u.changed t).isEmpty then [] else [({}, fun k => u.faultRingEvents t k)]
   | .event (.phaseTurn l) => u.turnPieces t l
   | .event (.notify vf q _) => u.notifyPieces t vf q
   | .event .queueFetch => match u.curVf with
     | some v => match (u.vf v).nextPending with
       | some q => if u.frontRuns v then u.fetchPieces v q 16 else []
       | none => []
     | none => []
   | .event (.launch vf q) => u.rowPieces t vf q
   | .event (.signalmem vf q) => u.rowPieces t vf q
   | .event (.fence vf q) => u.rowPieces t vf q
   | .hostFence => [quiet { kind := .storeFence }]
   | a => if (u.actionEvents a 0).isEmpty then [] else [({}, u.actionEvents a)]) ++ u.donePieces t

/-- Up to `n` units delivered, one after another. -/
def State.unitsEvents (s : State) (core ch : Nat) (act : Nat → Nat) : Nat → List MemEvent
  | 0 => []
  | n + 1 =>
    let t := s.deliver core ch 1
    if (s.deliverEvents t core ch act).isEmpty then []
    else s.deliverEvents t core ch act ++ t.unitsEvents core ch act n

/-- The events of a step that belong to earlier acts: to the post of an operation, by the operation's name, and to the start of a
block. -/
def State.engineEvents (s t : State) (act start : Nat → Nat) : List MemEvent :=
  let u := s.nextAction.2
  match s.nextAction.1 with
  | .event (.copyDeliver core ch n) => u.unitsEvents core ch act n
  | .event (.copySourceReadDone core ch) => u.lastReadEvents t core ch act
  | .event (.copyComplete core ch) => u.landEvents t core ch act
  | .event (.matrixPassGrant cl) => u.gatherEvents t cl act
  | .event (.matrixPassWrite cl op) => u.passEvents t cl op act
  | .event (.cmprComplete cl op) => u.cmprEvents t cl op act
  | .event (.vgaComplete cl) => u.asterEvents t cl 32769 act
  | .aster cl n => u.asterEvents t cl n act
  | .event (.redApply req) => u.redEvents t req act
  | .event (.inboxCopy b) => u.inboxEvents t b (start b)
  | .event (.skip vf slot) => u.skipEvents vf slot act
  | _ => []

/-! ### What a location holds -/

/-- Whether what stands at a device address can be read by someone: a line of HBM under a key that has been discarded gives every reader
unspecified bytes (R323, R359). -/
def State.keyed (s : State) (pa : Nat) : Bool :=
  !inHbm pa || (s.lineKeys.look (pa / 64)).any (fun k => (List.range 64).any (fun v => (s.vf v).key == k))

/-- The save image that holds a block, with its VF (R349). -/
def State.savedOf (s : State) (bi : Nat) : Option (Nat × SavedImage) :=
  s.vfs.findSome? (fun v => (v.2.image.filter (fun i => (i.blocks.look bi).isSome)).map (fun i => (v.1, i)))

/-- What a location holds; none where the machine gives it no value. The scratchpad of a block that has been saved is in its image. -/
def State.content (s : State) : MemLoc → Option Nat
  | .device pa => if s.keyed pa then (cellAt s.mem pa).map (·.toNat) else none
  | .asp bi off => match s.block bi with
    | some b => some (leNat (s.aspRead b off 1))
    | none => (s.savedOf bi).map (fun x => leNat (bufRead (x.2.asp.get bi []) off 1))
  | .wbf bi off => (s.block bi).map (fun b => leNat (s.wbfRead b off 1))
  | .tile bi e => (s.block bi).map (fun b => (b.tile (e / 16384) (e % 16384)).toNat)

/-- Whether a location belongs to a block that has got its name since a moment: a block that comes back keeps its name. -/
def MemLoc.since (n : Nat) : MemLoc → Bool
  | .device _ => false
  | .asp bi _ | .wbf bi _ | .tile bi _ => n ≤ bi

/-- The key under which an agent reads a device address (R323, R359): its VF's; for the host, that of the owner of the granule; for a
peer, that of its port's VF. -/
def State.keyFor (s : State) (w : MemWho) (pa : Nat) : Nat :=
  let vf : Option Nat := match w.agent with
    | .host => s.granules.look (pa / 2 ^ 30)
    | .peer p _ => some (s.port p).linVf
    | _ => match w.blk.bind s.block with
      | some b => some b.vf
      | none => s.curVf
  (vf.map (fun v => (s.vf v).key)).getD 0

/-- A location made to hold a value, for an agent: a byte of HBM stands there under the agent's key. -/
def State.hold (s : State) (w : MemWho) (p : MemLoc × Nat) : State :=
  match p.1 with
  | .device pa => s.physStore (s.keyFor w pa) pa (BitVec.ofNat 8 p.2)
  | .asp bi off => match s.block bi with
    | some b => s.aspWrite b off [BitVec.ofNat 8 p.2]
    | none => match s.savedOf bi with
      | some (v, i) =>
        let i := { i with asp := i.asp.put bi (bufPut (i.asp.get bi []) off (BitVec.ofNat 8 p.2)) }
        (s.updVf v (fun x => { x with image := some i })).writeImage v i
      | none => s
  | .wbf bi off => match s.block bi with
    | some b => s.wbfWrite b off [BitVec.ofNat 8 p.2]
    | none => s
  | .tile bi e => s.updBlock bi (fun b => b.setTile (e / 16384) (e % 16384) (BitVec.ofNat 32 p.2))

/-- The locations that some events read, with who reads them and the values they take; and those that the events write. -/
def valuesRead (l : List MemEvent) : List (MemWho × MemLoc × Nat) :=
  l.flatMap (fun e => if e.reads then (e.bytes.zip e.rd).map (fun p => (e.who, p)) else [])
def writtenLocs (l : List MemEvent) : List MemLoc := l.flatMap (fun e => if e.writes then e.bytes else [])

/-- A state in which the locations that some events read hold the values they take. -/
def State.see (s : State) (l : List MemEvent) : State := (valuesRead l).foldl (fun s p => s.hold p.1 p.2) s

/-- A line of memory as it stands in another state, with its key. -/
def State.lineOf (t s : State) (line : Nat) : State :=
  { t with mem := (s.mem.filter (fun c => c.1 / 64 == line)).foldl (fun m c => cellPut m c.1 c.2) (dropLine t.mem line),
           lineKeys := match s.lineKeys.look line with
             | some k => t.lineKeys.put line k
             | none => t.lineKeys.del line }

/-- A byte of device memory that has only been seen, as it was before. Where the line stood under another key, all of it comes back,
but where something has been written to it: then the seen byte goes alone, for the rest of the line went with the write. -/
def State.forget (t s : State) (written : List MemLoc) (pa : Nat) : State :=
  if inHbm pa && t.lineKeys.look (pa / 64) != s.lineKeys.look (pa / 64) then
    if written.any (fun b => match b with
      | .device x => x / 64 == pa / 64
      | _ => false) then { t with mem := cellDel t.mem pa }
    else t.lineOf s (pa / 64)
  else { t with mem := match cellAt s.mem pa with
    | some b => cellPut t.mem pa b
    | none => cellDel t.mem pa }

/-- What was only read holds again what it held before. -/
def State.unsee (t s : State) (l : List MemEvent) : State :=
  let written := writtenLocs l
  ((valuesRead l).filter (fun p => !written.contains p.2.1)).foldl (fun t p => match p.2.1 with
    | .device pa => t.forget s written pa
    | b => match s.content b with
      | some v => t.hold p.1 (b, v)
      | none => t) t

/-! ### What a lane computes from its own reads (R113, R122) -/

/-- An instruction whose lanes each compute from what they read themselves. -/
def Env.readsAlone (e : Env) : Bool :=
  (0x90 ≤ e.cell.opc && e.cell.opc ≤ 0x97) || isAtom e.cell.opc || (0xE2 ≤ e.cell.opc && e.cell.opc ≤ 0xE5) || e.cell.opc == 0xF0

/-- The events that a lane makes as an issue of its cohort. -/
def Env.mine (e : Env) (l : Nat) (evs : List MemEvent) : List MemEvent := evs.filter (fun v => v.who.agent == (e.who l).agent)

/-- The state at an issue with one lane of the cohort alone, which sees what its own events read. -/
def Env.alone (e : Env) (l : Nat) (evs : List MemEvent) : State :=
  let s := e.s.updCohort e.slot (fun co => { co with exited := ~~~ (Mask.one l) })
  { s with cur := { slot := e.slot, group := Mask.one l } }.see (e.mine l evs)

/-- What the instruction comes to for a lane. -/
noncomputable def Env.laneEnd (e : Env) (l : Nat) (evs : List MemEvent) : State :=
  match (e.alone l evs).issueHere with
  | .next t => t
  | _ => e.alone l evs

/-- A lane of a register set. -/
def VVal.setLane (v : VVal) (l : Nat) (x : W32) : VVal := VVal.ofFn (fun i => if i = l then x else v.at i)

/-- The registers of the destination with what each active lane has computed. -/
noncomputable def Env.takeLanes (e : Env) (t : State) (evs : List MemEvent) : State :=
  if !e.readsAlone then t
  else
    e.lanes.foldl (fun t l => e.dests.foldl (fun t r => match r with
      | .v n => t.updCohort e.slot (fun co =>
          co.setV n ((co.v n).setLane l ((((e.laneEnd l evs).cohort e.slot).map (fun c => (c.v n).at l)).getD 0)))
      | _ => t) t) t

/-- The value in memory that a lane's ATOM.CAS takes is the one it compares with (R263). -/
def Env.casHit (e : Env) (evs : List MemEvent) (l : Nat) : Bool :=
  ((e.mine l evs).head?.map (fun v => leNat (v.rd.map (BitVec.ofNat 8 ·)) == leNat (storeBytes e.co e.w.b.toNat e.ty.bytes l))).getD false

/-! ### Runs -/

/-- An event without what a run decides, or what the other side of the link or of the host's bus says of it. -/
def MemEvent.bare (e : MemEvent) : MemEvent :=
  match e.who.agent with
  | .host => { e with rd := [], wr := [], acq := false, rel := false, scope := .sys }
  | .peer p _ => { e with rd := [], wr := [], acq := false, rel := false, scope := .sys, who := { e.who with agent := .peer p 0 } }
  | _ => { e with rd := [], wr := [] }

/-- An event has as many values as it reads and writes. -/
def MemEvent.filled (e : MemEvent) : Prop :=
  e.rd.length = (if e.reads then e.bytes.length else 0) ∧ e.wr.length = (if e.writes then e.bytes.length else 0)

/-- What the writes among some events write is what their locations hold in a state. -/
def State.wrote (t : State) (l : List MemEvent) : Prop := ∀ e ∈ l, e.writes = true → e.wr.map some = e.bytes.map t.content

namespace Execution

/-- The place of the act that has posted an operation, and of the start of a block. -/
def postOf (x : Execution) (op : Nat) : Nat := x.acts.findIdx (fun a => match a.kind with
  | .post _ _ o => o == op
  | _ => false)
def startOf (x : Execution) (bi : Nat) : Nat := x.acts.findIdx (fun a => match a.kind with
  | .blockStart _ => a.blk == bi
  | _ => false)

/-- The events of a step among those of an execution. -/
def slice (x : Execution) (i j : Nat) : List MemEvent := (x.ev.drop i).take (j - i)

/-- What a step computes for the lanes of the instruction that it issues: their writes, and the registers they load. -/
noncomputable def laneWrites (p : State) (evs : List MemEvent) : Prop :=
  ∀ i e, p.issuer = some i → p.envHere i = some e → e.readsAlone = true →
    ∀ l ∈ e.lanes, (e.laneEnd l evs).wrote (e.mine l evs)
noncomputable def laneLoads (p t : State) (evs : List MemEvent) : State :=
  match p.issuer.bind p.envHere with
  | some e => e.takeLanes t evs
  | none => t

/-- An event whose written values the whole step gives: not one of a lane that computes from its own reads. -/
def ofStep (p : Option State) (v : MemEvent) : Bool :=
  match p.bind (fun p => p.issuer.bind p.envHere) with
  | some e => !(e.readsAlone && v.who.agent.isLane)
  | none => true

/-- A step of an execution from a state, with `k` acts and `i` events before it and `k'` and `i'` after it, to a state `t`: the
machine's own step, made in a state in which what the step reads holds what the execution gives it. -/
def Steps (x : Execution) (s : State) (k i : Nat) (t : State) (k' i' : Nat) : Prop :=
  ∃ t0, step (s.see (x.slice i i')) = .next t0 ∧ k ≤ k' ∧ i ≤ i' ∧ i' ≤ x.ev.length ∧
    let v := s.see (x.slice i i')
    let evs := x.slice i i'
    let ps := v.pieces t0 (fun e => e.casHit evs)
    let own := numbered k ps
    (x.acts.drop k).take (k' - k) = own.1 ∧
    evs.map (·.bare) = (v.engineEvents t0 x.postOf x.startOf ++ own.2).map (·.bare) ∧
    (∀ e ∈ evs, e.filled) ∧
    t0.wrote (evs.filter (ofStep (v.issuing t0))) ∧
    (∀ p, v.issuing t0 = some p → laneWrites p evs) ∧
    (∀ b w, b.since s.nextId = true → t0.content b = some w → x.initial b = w) ∧
    t = (match v.issuing t0 with
      | some p => laneLoads p (t0.unsee s evs) evs
      | none => t0.unsee s evs)

/-- Some steps one after another. -/
inductive Follows (x : Execution) : State → Nat → Nat → State → Nat → Nat → Prop where
  | none {s : State} {k i : Nat} : Follows x s k i s k i
  | step {s t u : State} {k i k' i' k'' i'' : Nat} : x.Steps s k i t k' i' → Follows x t k' i' u k'' i'' → Follows x s k i u k'' i''

/-- An execution of the machine from a state to a state: its acts and events are those of the steps between, and what memory holds
at the beginning are its initial values. -/
def Runs (x : Execution) (s t : State) : Prop :=
  (∀ b v, s.content b = some v → x.initial b = v) ∧ x.Follows s 0 0 t x.acts.length x.ev.length

/-- The value a location holds at the end: that of the last write in its coherence order, or the initial one. -/
def Final (x : Execution) (b : MemLoc) (v : Nat) : Prop :=
  (∃ w, w < x.ev.length ∧ x.written w b = some v ∧ (x.at_ w).writes = true ∧ ∀ u, (b, w, u) ∉ x.co) ∨
    ((∀ w, w < x.ev.length → b ∈ (x.at_ w).bytes → (x.at_ w).writes = false) ∧ v = x.initial b)

end Execution

/-- AN OUTCOME of a program that stands in a state (R121): the registers of a state that an allowed execution of it reaches, and
what memory then holds. -/
def State.mayReach (s t : State) (mem : List (MemLoc × Nat)) : Prop :=
  ∃ x : Execution, x.Runs s t ∧ x.allowed ∧ ∀ p ∈ mem, x.Final p.1 p.2

end Sys2Proof.Machine
end

