-- ==== Sys2Proof/Tests/Slice0.lean ====
section
/-! SUPPORT. Tests of the model. Words are those that spec/ writes out; the expected results of the small runs are worked out by
hand from the rules named beside them. The witnesses at the end show, for every statement with hypotheses, states and operands
that meet them. -/


namespace Sys2Proof.Tests

set_option Elab.async false

open Sys2Proof.Machine

/-! ### Helpers -/

/-- Little-endian bytes of 32-bit words. -/
def words (ws : List Nat) : List Byte := ws.flatMap (fun w => bytesLE 4 w)

/-- The answer of the decoder on words, checked. -/
noncomputable def reads (ws : List Nat) (i : Instr) : Bool :=
  match decode (words ws) with
  | .ok j n => j == i && n == 4 * ws.length
  | .refused _ => false

/-- A base word by its fields. -/
def bw (d a b : Nat) (lit : Option W64 := none) (gn : Bool := false) (gp : Nat := 0) : BaseWord :=
  { gn := gn, gp := BitVec.ofNat 3 gp, d := BitVec.ofNat 6 d, a := BitVec.ofNat 6 a, b := BitVec.ofNat 6 b, lit := lit }

/-- An extended word by its fields. -/
def xw (d a b : Nat) (c : Nat := 0) (fmt : Nat := 0) (sub : Nat := 0) (lit : Option W64 := none) (moda : Nat := 0)
    (modb : Nat := 0) (gn : Bool := false) (gp : Nat := 0) : ExtWord :=
  { fmt := BitVec.ofNat 4 fmt, sub := BitVec.ofNat 10 sub, gn := gn, gp := BitVec.ofNat 7 gp, moda := BitVec.ofNat 10 moda,
    a := BitVec.ofNat 11 a, d := BitVec.ofNat 11 d, modb := BitVec.ofNat 8 modb, ru := 0, c := BitVec.ofNat 11 c,
    b := BitVec.ofNat 11 b, lit := lit }

/-! ### Ill-formed terms, one for each check (R177 to R190) -/

theorem test_wf_len : Instr.wellFormed (.nop (bw 0 0 0 (some 0))) = false ∧ Instr.wellFormed (.movl (bw 1 0 0)) = false ∧
    Instr.wellFormed (.iadd (bw 1 0 0 (some 5))) = true := by decide +kernel

theorem test_wf_guard : Instr.wellFormed (.exitExt (xw 0 0 0 0 0 0 none 0 0 false 96)) = false ∧
    Instr.wellFormed (.exitExt (xw 0 0 0 0 0 0 none 0 0 true 95)) = true := by decide +kernel

theorem test_wf_type : Instr.wellFormed (.iaddExt (xw 1 2 3 0 4)) = false ∧ Instr.wellFormed (.leaExt (xw 1 2 3 0 7)) = false ∧
    Instr.wellFormed (.nopExt (xw 0 0 0 0 1)) = false ∧ Instr.wellFormed (.iaddExt (xw 1 2 3 0 2)) = true := by decide +kernel

theorem test_wf_conversion : Instr.wellFormed (.cvt (xw 4 5 0 0 1 0x310)) = false ∧
    Instr.wellFormed (.qnt (xw 6 7 8 0 1 0x310)) = false ∧ Instr.wellFormed (.cvt (xw 4 5 0 0 2 0x318)) = false ∧
    Instr.wellFormed (.cvt (xw 4 5 0 0 2 0x310)) = true := by decide +kernel

theorem test_wf_sub : Instr.wellFormed (.andExt (xw 1 2 3 0 0 1)) = false ∧ Instr.wellFormed (.iaddExt (xw 1 2 3 0 0 1)) = false ∧
    Instr.wellFormed (.isetExt (xw 1 2 3 0 0 6)) = false ∧ Instr.wellFormed (.fsetExt (xw 1 2 3 0 0 14)) = false ∧
    Instr.wellFormed (.ldExt (xw 1 2 0 0 0 0x10)) = false ∧ Instr.wellFormed (.ldExt (xw 1 2 0 0 0 0x68)) = false ∧
    Instr.wellFormed (.leaExt (xw 1 2 3 0 0 8)) = false ∧ Instr.wellFormed (.fcls (xw 1 2 0 0 0 512)) = false ∧
    Instr.wellFormed (.pkbExt (xw 1 2 3 0 0 2)) = false ∧ Instr.wellFormed (.upkbExt (xw 1 2 0 0 0 8)) = false ∧
    Instr.wellFormed (.barArrExt (xw 1 2 0 0 0 2)) = false ∧ Instr.wellFormed (.cpyo (xw 1 2 3 0 0 1)) = false ∧
    Instr.wellFormed (.dsetExt (xw 1 2 3 0 0 4)) = false ∧ Instr.wellFormed (.tcvt (xw 1 2 3 0 3 8)) = false := by decide +kernel

theorem test_wf_modes : Instr.wellFormed (.mmaE4m3 (xw 0 0 1 0 0 0 none 16)) = false ∧
    Instr.wellFormed (.mmaQ4a (xw 0 0 1 0 0 0 none 48)) = false ∧ Instr.wellFormed (.mvt (xw 16 0 30 0 0 0 none 512)) = false ∧
    Instr.wellFormed (.cmpr (xw 32 2 1 0 2 0 none 0 128)) = false ∧ Instr.wellFormed (.iaddExt (xw 1 2 3 0 0 0 none 1)) = false := by
  decide +kernel

theorem test_wf_literal : Instr.wellFormed (.iadd (bw 1 2 0 (some 0x100000000))) = false ∧
    Instr.wellFormed (.bra (bw 0 0 0 (some 0x42))) = false ∧ Instr.wellFormed (.iadd64 (bw 2 4 0 (some 0x100000000))) = true := by
  decide +kernel

theorem test_wf_fields : Instr.wellFormed (.iaddExt (xw 1536 2 3)) = false ∧ Instr.wellFormed (.iaddExt (xw 2047 2 1535)) = true ∧
    Instr.wellFormed (.ptovExt (xw 1 96 0)) = false ∧ Instr.wellFormed (.meet (bw 8 0 0 (some 0x40))) = false ∧
    Instr.wellFormed (.tzero (bw 24 0 0)) = false ∧ Instr.wellFormed (.dgetExt (xw 4 16 0)) = false ∧
    Instr.wellFormed (.rdwp (bw 1 8 0)) = false ∧ Instr.wellFormed (.waitoc (bw 0 4 1)) = false ∧
    Instr.wellFormed (.gets (bw 1 28 0)) = false ∧ Instr.wellFormed (.sets (bw 22 1 0)) = false ∧
    Instr.wellFormed (.freereg (bw 0 32 0)) = true ∧ Instr.wellFormed (.freeregExt (xw 0 64 0)) = false ∧ Instr.wellFormed (.exit (bw 1 0 0)) = false ∧
    Instr.wellFormed (.hint 0x20 (bw 0 0 0)) = false := by decide +kernel

theorem test_wf_indices : Instr.wellFormed (.tokenInject 2) = false ∧ Instr.wellFormed (.ringStation 0 8) = false ∧
    Instr.wellFormed (.copyStart 63 8) = false ∧ Instr.wellFormed (.copyStart 63 7) = true ∧
    Instr.wellFormed (.retry 63 4096) = false ∧ Instr.wellFormed (.lumakInbound 12 0 (.read 1)) = false := by decide +kernel

/-! ### Words (R170 to R191, and the tables of encodings of spec/08_formats_opcode_map.md to spec/12_isa_engines_system.md) -/

theorem test_decode_moves : reads [0x0000000C] (.gets (bw 0 0 0)) = true ∧
    reads [0x0050400C] (.gets (bw 1 5 0)) = true ∧
    reads [0x0000000D, 0x00006100, 0] (.getsExt (xw 256 12 0)) = true ∧
    reads [0x0000000B, 0x00000100, 0, 0x10, 0] (.movlExt (xw 256 0 0 0 0 0 (some 0x10))) = true := by decide +kernel

theorem test_decode_integer : reads [0x10314480] (.iadd (bw 5 3 4 none false 1)) = true ∧
    reads [0x00004080] (.iadd (bw 1 0 0)) = true ∧ reads [0x00000088] (.imul (bw 0 0 0)) = true ∧
    reads [0x00000085, 0x00000001, 0x00000100] (.isubExt (xw 1 0 256)) = true ∧
    reads [0x20100881, 0x0000101E, 0x0000012D] (.iaddExt (xw 30 2 301 0 2 4 none 0 0 false 2)) = true := by decide +kernel

theorem test_decode_logic : reads [0x000000FB, 0x00001807, 0x00000004, 0x00000804, 0] (.bfi (xw 7 3 4 0 0 0 (some 0x804))) = true :=
  by decide +kernel

theorem test_decode_predicates : reads [0x70080101, 0x00000001, 0x00000100] (.isetExt (xw 1 0 256 0 7 2)) = true ∧
    reads [0x70000103, 0x00000001, 0, 0, 0] (.isetExt (xw 1 0 0 0 7 0 (some 0))) = true ∧
    reads [0x00280105, 0x00001802, 0x00000004] (.fsetExt (xw 2 3 4 0 0 10)) = true ∧
    reads [0x06040109, 0x00001001, 0] (.fcls (xw 1 2 0 0 0 0x181)) = true := by decide +kernel

theorem test_decode_lanes : reads [0x0082414E, 0x10, 0] (.lxchXor (bw 9 8 0 (some 16))) = true ∧
    reads [0x0053015C] (.voteBal (bw 12 5 0)) = true := by decide +kernel

theorem test_decode_control : reads [0x00000056, 0x58, 0] (.meet (bw 0 0 0 (some 0x58))) = true ∧
    reads [0x00002442, 0x4C, 0] (.bra (bw 0 0 0 (some 0x4C) true 1)) = true ∧
    reads [0x0005004A, 0x200, 0] (.call (bw 20 0 0 (some 0x200))) = true ∧ reads [0x0000005C] (.exit (bw 0 0 0)) = true ∧
    reads [0x00002C5C] (.exit (bw 0 0 0 none true 3)) = true := by decide +kernel

theorem test_decode_float : reads [0x0C204180] (.fadd (bw 1 2 3)) = true ∧
    reads [0x0004018D, 0x00000805, 0x00006809] (.ffma (xw 5 1 9 13 0 1)) = true ∧
    reads [0x000001DF, 0x0000580A, 0x0000000C, 0x3C003C00, 0] (.phfma (xw 10 11 12 0 0 0 (some 0x3C003C00))) = true := by
  decide +kernel

theorem test_decode_conversions : reads [0x4C600201, 0x00002804, 0] (.cvt (xw 4 5 0 0 4 0x318)) = true ∧
    reads [0x8C400205, 0x00003806, 0x00000008] (.qnt (xw 6 7 8 0 8 0x310)) = true ∧
    reads [0x00180219, 0x00002003, 0] (.upkbExt (xw 3 4 0 0 0 6)) = true := by decide +kernel

theorem test_decode_memory : reads [0x01404240] (.ld (bw 1 20 0)) = true ∧
    reads [0x01A00245, 0x0000A000, 0x00000009] (.stExt (xw 0 20 9 0 0 0x68)) = true ∧
    reads [0x0090024D, 0x0009B801, 0] (.ldsExt (xw 1 311 0 0 0 0x24)) = true ∧
    reads [0x000002A1, 0x0000A001, 0x00004808] (.atomCas (xw 1 20 8 9)) = true ∧
    reads [0x054002C4] (.redFadd (bw 0 20 1)) = true ∧ reads [0x00000651, 0x00080000, 0x00000001] (.stsExt (xw 0 256 1 0 0 0 none 0 0 false 1)) = true := by
  decide +kernel

theorem test_decode_synchronisers : reads [0x00000314] (.fenceDev (bw 0 0 0)) = true ∧
    reads [0x00C08324] (.barArr (bw 2 12 0)) = true ∧ reads [0x08C00328] (.barWait (bw 0 12 2)) = true ∧
    reads [0x00000341, 0x00082802, 0x00084106] (.cpy (xw 2 261 262 264)) = true ∧
    reads [0x00000359, 0x00001000, 0x0000010A] (.waitwpExt (xw 0 2 266)) = true ∧
    reads [0x04100350] (.waitoc (bw 0 1 1)) = true ∧ reads [0x00004362, 0x80, 0] (.txb (bw 1 0 0 (some 0x80))) = true := by
  decide +kernel

theorem test_decode_engines : reads [0x00040381, 0x0008C001, 0x00000119] (.dsetExt (xw 1 280 281 0 0 1)) = true ∧
    reads [0x00000388] (.tzero (bw 0 0 0)) = true ∧ reads [0x0000038D, 0x00000004, 0x0000011B] (.trdExt (xw 4 0 283)) = true ∧
    reads [0x30000395, 0x00000001, 0x00000100] (.tcvt (xw 1 0 256 0 3)) = true ∧
    reads [0x000003A1, 0, 0x00000001] (.mmaE4m3 (xw 0 0 1)) = true ∧
    reads [0x000003AD, 0x03C01003, 0x00000005] (.mmaBf16 (xw 3 2 5 0 0 0 none 15)) = true ∧
    reads [0x000003B5, 0x00400002, 0x00006001] (.mmag (xw 2 0 1 12 0 0 none 1)) = true ∧
    reads [0x200003B9, 0x00400001, 0x00004001] (.mmas (xw 1 0 1 8 2 0 none 1)) = true ∧
    reads [0x200003BD, 0x00001020, 0x0F000001] (.cmpr (xw 32 2 1 0 2 0 none 0 15)) = true ∧
    reads [0x000003C1, 0x4DC00010, 0x0000012C] (.mvt (xw 16 0 300 0 0 0 none 0x137)) = true ∧
    reads [0x000003C5, 0x00001814, 0x00000004] (.vga (xw 20 3 4)) = true := by decide +kernel

theorem test_decode_system : reads [0x000003C8] (.nres (bw 0 0 0)) = true ∧ reads [0x0070C3CC] (.allocreg (bw 3 7 0)) = true ∧
    reads [0x000183E0] (.cycle (bw 6 0 0)) = true := by decide +kernel

theorem test_decode_hint : reads [0x000003E4] (.hint 0xF9 (bw 0 0 0)) = true := by decide +kernel

theorem test_decode_refusals : decode (words [0]) = .refused .reservedCell ∧
    decode (words [0xFFFFFFFF, 0xFFFFFFFF, 0xFFFFFFFF, 0xFFFFFFFF, 0xFFFFFFFF]) = .refused .reservedCell ∧
    decode (words [0x90]) = .refused .badLen ∧ decode (words [0x1E, 0, 0]) = .refused .badLen ∧
    decode (words [0x01, 0]) = .refused .truncated := by decide +kernel

/-- The words of the table of R190's examples that decode and are ILLEGAL at issue: GP = 100, a name of 1,600, and .ns on FP32. -/
theorem test_illegal_fields : (Instr.wellFormed (.nopExt (xw 0 0 0 0 0 0 none 0 0 false 100)) = false) ∧
    Instr.wellFormed (.faddExt (xw 1 0 1600)) = false ∧ Instr.wellFormed (.faddExt (xw 1 0 2 0 0 8)) = false ∧
    Instr.wellFormed (.faddExt (xw 1 0 2 0 0 2)) = true := by decide +kernel

theorem test_table_word : decodeTableWord 32 0x00004080 = some (.iadd (bw 1 0 0)) ∧ decodeTableWord 32 0 = none := by decide +kernel

/-- A kernel with a handler at 0x400. -/
def kern : KernelEntry := { fetchKernel with csize := 0x1000, handler := 0x400 }

/-- A block of core 0 with a scratchpad and a weight buffer of 4 KiB and a transaction buffer of four lines. -/
def blk0 : Block := { fetchBlock with aspSize := 4096, aspBound := 4096, wbfSize := 4096, wbfBound := 4096, bufLines := 4 }

/-- A cohort of 32 lanes: V1 is the lane number, V2 is 5, V3 is −3, V4 is the lane number times 3 mod 7, V6:V7 is 0x100. -/
def c0 : Cohort :=
  { (Cohort.fresh 0 0 32 256) with vregs := [(1, .a 0 1), (2, .u 5), (3, .u 0xFFFFFFFD),
      (4, .g ((List.range 32).map (fun l => BitVec.ofNat 32 (l * 3 % 7)))), (6, .u 0x100)] }

/-- The same with more registers, in rising order of number above 8. -/
def cWith (rs : SMap VVal) : Cohort := { c0 with vregs := c0.vregs ++ rs }

/-- Core 0 with 500 tokens in its wallet and the first page of device memory in its TLB. -/
def core0 : Core :=
  { wallet := 500, tlb := [{ vf := 0, page := 0, size := 4096, ipa := 0, phys := 0, p1 := 7, p2 := 7, fattr := 0, s1 := 4096 }] }

/-- A cohort in slot 0 that is about to issue with all its lanes; the page of device address 0 is mapped. -/
def st (co : Cohort) (b : Block := blk0) : State :=
  { (State.reset) with
    released := true, curVf := some 0, launches := [(0, { fetchLaunch with kernels := [(0, kern)] })], blocks := [(0, b)],
    cohorts := [(0, co)], nextId := 1, cur := { slot := 0, group := BitVec.allOnes 32 },
    cores := [(0, core0)] }

/-- The state with `n` in the four bytes of device memory at an address. -/
def memW (s : State) (a n : Nat) : State := s.physBytes 0 a (bytesLE 4 n)

/-- What an instruction makes of a state; a stop leaves it. -/
def after (i : Instr) (s : State) : State :=
  match exec i s with
  | .next t => t
  | _ => s

/-- The cohort after an instruction. -/
def aco (i : Instr) (s : State) : Cohort := ((after i s).cohort 0).getD default

/-- Register `n` of lane `l` after an instruction. -/
def val (i : Instr) (s : State) (n l : Nat) : W32 := ((aco i s).v n).at l

/-- Predicate `n` after an instruction. -/
def prd (i : Instr) (s : State) (n : Nat) : Mask := (aco i s).p n

/-- The result of a one-register instruction `i` that writes V10 from V8 and V9, and FPCTL, lane 0. -/
def flt (i : Instr) (a b : W32) (fp : W32 := 0) : W32 × W32 :=
  let t := aco i (st { cWith [(8, .u a), (9, .u b)] with fpctl := fp })
  ((t.v 10).at 0, t.fpctl)

/-! ### Moves, integers, predicates, lanes -/

theorem test_mov_shape : (aco (.mov (bw 10 1 0)) (st c0)).v 10 = .a 0 1 := by decide +kernel
theorem test_movl : (aco (.movl (bw 10 0 0 (some 0x12345678))) (st c0)).v 10 = .u 0x12345678 := by decide +kernel
theorem test_gets_laneid : (aco (.gets (bw 10 0 0)) (st c0)).v 10 = .a 0 1 := by decide +kernel
theorem test_sets_fpctl : (aco (.sets (bw 20 2 0)) (st c0)).fpctl = 5 := by decide +kernel
theorem test_sel : val (.sel (xw 10 2 3 1)) (st { c0 with preds := [(1, 0x2)] }) 10 0 = 0xFFFFFFFD ∧
    val (.sel (xw 10 2 3 1)) (st { c0 with preds := [(1, 0x2)] }) 10 1 = 5 := by decide +kernel
theorem test_laneof : val (.laneof (bw 10 1 0)) (st { c0 with preds := [(1, 0x50)] }) 10 0 = 4 ∧
    val (.laneof (bw 10 1 0)) (st c0) 10 9 = 32 := by decide +kernel
theorem test_nop_pc : ((aco (.nop (bw 0 0 0)) (st c0)).lane 31).pc = 4 := by decide +kernel

/-- A wrap at the top of i32, and a clamp with SAT under .sat (R151, R152). -/
theorem test_iadd : val (.iadd (bw 10 8 2)) (st (cWith [(8, .u 0x7FFFFFFE)])) 10 0 = 0x80000003 ∧
    val (.iaddExt (xw 10 8 2 0 0 4)) (st (cWith [(8, .u 0x7FFFFFFE)])) 10 0 = 0x7FFFFFFF := by decide +kernel
/-- The guard of a base word leaves the other lanes as they were (R174). -/
theorem test_iadd_guard : val (.iadd (bw 10 2 2 none true 1)) (st { cWith [(10, .u 99)] with preds := [(1, 1)] }) 10 0 = 99 ∧
    val (.iadd (bw 10 2 2 none true 1)) (st { cWith [(10, .u 99)] with preds := [(1, 1)] }) 10 1 = 10 := by decide +kernel
theorem test_isub : val (.isub (bw 10 2 3)) (st c0) 10 7 = 8 ∧ (aco (.isub (bw 10 2 1)) (st c0)).v 10 = .a 5 0xFFFFFFFF := by
  decide +kernel
theorem test_imul : val (.imul (bw 10 2 3)) (st c0) 10 0 = 0xFFFFFFF1 := by decide +kernel
theorem test_imulh : val (.imulh (bw 10 8 2)) (st (cWith [(8, .u 0x80000000)])) 10 0 = 0xFFFFFFFD ∧
    val (.imulhExt (xw 10 8 2 0 7)) (st (cWith [(8, .u 0x80000000)])) 10 0 = 2 := by decide +kernel
theorem test_imad : val (.imad (xw 10 2 3 1)) (st c0) 10 4 = 0xFFFFFFF5 := by decide +kernel
/-- Division truncates; by zero it gives all ones and the dividend is the remainder (R206). -/
theorem test_idiv : val (.idiv (bw 10 3 0 (some 2))) (st c0) 10 0 = 0xFFFFFFFF ∧ val (.idiv (bw 10 2 0 (some 0))) (st c0) 10 0 = 0xFFFFFFFF := by
  decide +kernel
theorem test_irem : val (.irem (bw 10 3 0 (some 2))) (st c0) 10 0 = 0xFFFFFFFF ∧ val (.irem (bw 10 2 0 (some 0))) (st c0) 10 0 = 5 := by
  decide +kernel
theorem test_imin : val (.imin (bw 10 2 3)) (st c0) 10 0 = 0xFFFFFFFD ∧ val (.iminExt (xw 10 2 3 0 7)) (st c0) 10 0 = 5 := by decide +kernel
theorem test_imax : val (.imax (bw 10 2 3)) (st c0) 10 0 = 5 := by decide +kernel
theorem test_iabs : val (.iabs (bw 10 8 0)) (st (cWith [(8, .u 0x80000000)])) 10 0 = 0x80000000 ∧
    val (.iabs (bw 10 3 0)) (st c0) 10 0 = 3 := by decide +kernel
theorem test_ineg : (aco (.ineg (bw 10 1 0)) (st c0)).v 10 = .a 0 0xFFFFFFFF := by decide +kernel
theorem test_iadd64 : val (.iadd64 (bw 10 8 0 (some 1))) (st (cWith [(8, .u 0xFFFFFFFF), (9, .u 7)])) 11 3 = 8 ∧
    val (.iadd64 (bw 10 8 0 (some 1))) (st (cWith [(8, .u 0xFFFFFFFF), (9, .u 7)])) 10 3 = 0 := by decide +kernel
theorem test_imad64 : val (.imad64 (xw 10 3 2 6)) (st c0) 10 0 = 0xF1 ∧ val (.imad64 (xw 10 3 2 8 0 0)) (st c0) 11 0 = 0xFFFFFFFF := by
  decide +kernel
theorem test_lea : (aco (.leaExt (xw 10 2 1 0 0 3)) (st c0)).v 10 = .a 5 8 := by decide +kernel
theorem test_lea64 : val (.lea64Ext (xw 10 6 3 0 0 4)) (st c0) 10 0 = 0xD0 ∧ val (.lea64Ext (xw 10 6 3 0 0 4)) (st c0) 11 0 = 0 := by
  decide +kernel
theorem test_logic : val (.and (bw 10 2 3)) (st c0) 10 0 = 5 ∧ val (.or (bw 10 2 3)) (st c0) 10 0 = 0xFFFFFFFD ∧
    val (.xor (bw 10 2 3)) (st c0) 10 0 = 0xFFFFFFF8 ∧ val (.not (bw 10 2 0)) (st c0) 10 0 = 0xFFFFFFFA ∧
    val (.andn (bw 10 3 2)) (st c0) 10 0 = 0xFFFFFFF8 := by decide +kernel
/-- Counts of 32 and more shift everything out (R211). -/
theorem test_shifts : val (.shl (bw 10 2 0 (some 32))) (st c0) 10 0 = 0 ∧ val (.shr (bw 10 3 0 (some 28))) (st c0) 10 0 = 0xF ∧
    val (.sar (bw 10 3 0 (some 40))) (st c0) 10 0 = 0xFFFFFFFF ∧ val (.rot (bw 10 2 0 (some 31))) (st c0) 10 0 = 0x80000002 := by
  decide +kernel
theorem test_counts : val (.popc (bw 10 3 0)) (st c0) 10 0 = 31 ∧ val (.clz (bw 10 2 0)) (st c0) 10 0 = 29 ∧
    val (.ctz (bw 10 5 0)) (st c0) 10 0 = 32 ∧ val (.brev (bw 10 2 0)) (st c0) 10 0 = 0xA0000000 := by decide +kernel
theorem test_bfe : val (.bfe (xw 10 8 9 2 3)) (st (cWith [(8, .u 0x1F00), (9, .u 8)])) 10 0 = 0xFFFFFFFF := by decide +kernel
theorem test_bfi : val (.bfi (xw 10 2 8 0 0 0 (some 0x0804))) (st (cWith [(8, .u 0xFFFFFFFF)])) 10 0 = 0xFFFFF05F := by decide +kernel
/-- The examples of R215. -/
theorem test_permb : val (.permb (xw 10 8 9 0 0 0 (some 0x00010203))) (st (cWith [(8, .u 0x11223384)])) 10 0 = 0x84332211 ∧
    val (.permb (xw 10 8 9 0 0 0 (some 0x11110100))) (st (cWith [(8, .u 0x11228044)])) 10 0 = 0xFFFF8044 ∧
    val (.permb (xw 10 8 9 0 0 0 (some 0x08080504))) (st (cWith [(8, .u 1), (9, .u 0xAABBCCDD)])) 10 0 = 0x0000CCDD := by decide +kernel

theorem test_iset : prd (.iset (bw 1 1 2)) (st c0) 1 = 0x20 ∧ prd (.isetExt (xw 1 3 2 0 0 2)) (st c0) 1 = 0xFFFFFFFF ∧
    prd (.isetExt (xw 1 3 2 0 7 2)) (st c0) 1 = 0 := by decide +kernel
theorem test_predicate_logic : prd (.pand (bw 3 1 2)) (st { c0 with preds := [(1, 0xC), (2, 0xA)] }) 3 = 0x8 ∧
    prd (.por (bw 3 1 2)) (st { c0 with preds := [(1, 0xC), (2, 0xA)] }) 3 = 0xE ∧
    prd (.pxor (bw 3 1 2)) (st { c0 with preds := [(1, 0xC), (2, 0xA)] }) 3 = 0x6 ∧
    prd (.pnot (bw 3 1 0)) (st { c0 with preds := [(1, 0xC)] }) 3 = 0xFFFFFFF3 := by decide +kernel
theorem test_p0_discards : prd (.pand (bw 0 1 1)) (st c0) 0 = 0xFFFFFFFF := by decide +kernel
theorem test_ptov : val (.ptov (bw 10 1 0)) (st { c0 with preds := [(1, 2)] }) 10 1 = 1 := by decide +kernel
theorem test_vtop : prd (.vtop (bw 3 1 0)) (st c0) 3 = 0xFFFFFFFE := by decide +kernel
theorem test_fset : prd (.fset (bw 1 8 9)) (st (cWith [(8, .u 0x80000000)])) 1 = 0xFFFFFFFF ∧
    prd (.fsetExt (xw 1 8 9 0 0 1)) (st (cWith [(8, .u 0x7FC00001)])) 1 = 0 ∧
    prd (.fsetExt (xw 1 8 9 0 0 9)) (st (cWith [(8, .u 0x7FC00001)])) 1 = 0xFFFFFFFF := by decide +kernel
theorem test_fcls : prd (.fcls (xw 1 8 0 0 0 0x020)) (st (cWith [(8, .u 1)])) 1 = 0xFFFFFFFF ∧
    prd (.fcls (xw 1 8 0 0 0 0x008)) (st c0) 1 = 0 := by decide +kernel

theorem test_exchanges : val (.lxchIdx (bw 10 4 0 (some 3))) (st c0) 10 0 = 2 ∧ val (.lxchUp (bw 10 4 0 (some 1))) (st c0) 10 1 = 0 ∧
    val (.lxchUp (bw 10 4 0 (some 1))) (st c0) 10 0 = 0 ∧ val (.lxchDown (bw 10 4 0 (some 1))) (st c0) 10 0 = 3 ∧
    val (.lxchXor (bw 10 4 0 (some 16))) (st c0) 10 16 = 0 := by decide +kernel
theorem test_bcast : (aco (.bcast (bw 10 4 0 (some 3))) (st c0)).v 10 = .u 2 := by decide +kernel
theorem test_votes : prd (.voteAll (bw 3 1 0)) (st { c0 with preds := [(1, 0xC)] }) 3 = 0 ∧
    prd (.voteAny (bw 3 1 0)) (st { c0 with preds := [(1, 0xC)] }) 3 = 0xFFFFFFFF ∧
    val (.voteBal (bw 10 1 0)) (st { c0 with preds := [(1, 0xC)] }) 10 5 = 0xC := by decide +kernel
/-- Lane 0 holds 0; so do lanes 7, 14, 21 and 28. -/
theorem test_match : val (.matchLanes (bw 10 4 0)) (st c0) 10 0 = 0x10204081 := by decide +kernel
theorem test_lcomp : val (.lcomp (bw 10 1 1)) (st { c0 with preds := [(1, 0x50)] }) 10 1 = 6 ∧
    val (.lcomp (bw 10 1 1)) (st { c0 with preds := [(1, 0x50)] }) 10 2 = 0 := by decide +kernel

/-! ### Floating point: the results that R241, R244, R246 and R253 write out -/

theorem test_fdiv : flt (.fdiv (bw 10 8 9)) 0x3F800000 0x40400000 = (0x3EAAAAAB, 1) ∧
    flt (.fdivExt (xw 10 8 9 0 0 1)) 0x3F800000 0x40400000 = (0x3EAAAAAA, 1) := by decide +kernel
theorem test_fadd : flt (.fadd (bw 10 8 9)) 0x3F800000 0x3F800000 = (0x40000000, 0) ∧
    flt (.faddExt (xw 10 8 9 0 0 2)) 0x3F800000 0x00000001 = (0x3F800001, 1) := by decide +kernel
/-- ∞ − ∞ gives the canonical NaN and NV. -/
theorem test_fsub : flt (.fsub (bw 10 8 9)) 0x7F800000 0x7F800000 = (0x7FC00000, 0x10) := by decide +kernel
theorem test_fmul : flt (.fmul (bw 10 8 9)) 0x7F7FFFFF 0x40000000 = (0x7F800000, 0x5) ∧
    flt (.fmulExt (xw 10 8 9 0 0 4)) 0x7F7FFFFF 0x40000000 = (0x7F7FFFFF, 0x5) := by decide +kernel
/-- (1 + 2^-12)^2 − 1 − 2^-11 is 2^-24, which a rounded product would lose. -/
theorem test_ffma : flt (.ffma (xw 10 8 8 9)) 0x3F800800 0xBF801000 = (0x33800000, 0) := by decide +kernel
theorem test_fmin : flt (.fmin (bw 10 8 9)) 0x80000000 0 = (0x80000000, 0) ∧ flt (.fmin (bw 10 8 9)) 0x7FC00001 0x3F800000 = (0x3F800000, 0) := by
  decide +kernel
theorem test_fmax : flt (.fmax (bw 10 8 9)) 0x80000000 0 = (0, 0) := by decide +kernel
theorem test_fabs : flt (.fabs (bw 10 8 0)) 0xFFC00001 0 = (0x7FC00001, 0) := by decide +kernel
theorem test_fneg : flt (.fneg (bw 10 8 0)) 0x7FC00001 0 = (0xFFC00001, 0) := by decide +kernel
theorem test_frnd : flt (.frnd (bw 10 8 0)) 0xBF000000 0 = (0x80000000, 1) ∧ flt (.frndExt (xw 10 8 0 0 0 2)) 0x3F800001 0 = (0x40000000, 1) := by
  decide +kernel
theorem test_fsqrt : flt (.fsqrt (bw 10 8 0)) 0xBF800000 0 = (0x7FC00000, 0x10) ∧ flt (.fsqrt (bw 10 8 0)) 0x40800000 0 = (0x40000000, 0) := by
  decide +kernel
theorem test_frcp : flt (.frcp (bw 10 8 0)) 1 0 = (0x7F800000, 0x5) := by decide +kernel
theorem test_frsq : flt (.frsq (bw 10 8 0)) 0x80000000 0 = (0xFF800000, 0x8) := by decide +kernel
theorem test_fex2 : flt (.fex2 (bw 10 8 0)) 0x43000000 0 = (0x7F800000, 0x5) ∧ flt (.fex2 (bw 10 8 0)) 0xC3150000 0 = (1, 0) := by
  decide +kernel
theorem test_flg2 : flt (.flg2 (bw 10 8 0)) 0x41000000 0 = (0x40400000, 0) := by decide +kernel
/-- TNF: an infinite result raises NONFINITE, and nothing is written (R163). -/
theorem test_tnf : (aco (.fex2 (bw 10 8 0)) (st { cWith [(8, .u 0x43000000), (10, .u 7)] with fpctl := 0x80000000 })).xcause = 9 ∧
    val (.fex2 (bw 10 8 0)) (st { cWith [(8, .u 0x43000000), (10, .u 7)] with fpctl := 0x80000000 }) 10 0 = 7 := by decide +kernel
theorem test_setfp : (aco (.setfp (bw 10 8 9)) (st { cWith [(8, .u 0x3F), (9, .u 0)] with fpctl := 0x20 })).fpctl = 0 ∧
    val (.setfp (bw 10 8 9)) (st { cWith [(8, .u 0x3F), (9, .u 0)] with fpctl := 0x20 }) 10 0 = 0x20 := by decide +kernel
theorem test_phadd : flt (.phadd (bw 10 8 9)) 0x3C007BFF 0x3C003C00 = (0x40007BFF, 1) := by decide +kernel
theorem test_phmul : flt (.phmul (bw 10 8 9)) 0x40003C00 0x42003C00 = (0x46003C00, 0) := by decide +kernel
theorem test_phfma : flt (.phfma (xw 10 8 9 8)) 0x40003C00 0x42003C00 = (0x48004000, 0) := by decide +kernel
theorem test_pbadd : flt (.pbadd (bw 10 8 9)) 0x3F803F80 0x3F804000 = (0x40004040, 0) := by decide +kernel
theorem test_pbmul : flt (.pbmul (bw 10 8 9)) 0x40004000 0x40404000 = (0x40C04080, 0) := by decide +kernel
theorem test_pbfma : flt (.pbfma (xw 10 8 9 8)) 0x3F803F80 0x40003F80 = (0x40404000, 0) := by decide +kernel
/-- −200.7 to i8 under .rtz; 200 to i8, and under .sat; 2^40 to f16, and under .sat. -/
theorem test_cvt : flt (.cvt (xw 10 8 0 0 1 0x111)) 0xC348B333 0 = (0xFFFFFF80, 0x10) ∧ flt (.cvt (xw 10 8 0 0 1 0x070)) 200 0 = (0xFFFFFFC8, 0) ∧
    flt (.cvt (xw 10 8 0 0 1 0x074)) 200 0 = (127, 0x20) ∧ flt (.cvt (xw 10 8 0 0 2 0x280)) 0 0x100 = (0x7C00, 0x5) ∧
    flt (.cvt (xw 10 8 0 0 2 0x284)) 0 0x100 = (0x7BFF, 0x5) := by decide +kernel
/-- 3.0 at scale 0.5 and zero point 8 is 14; 5.0 clamps to 15 with SAT. -/
theorem test_qnt : flt (.qnt (xw 10 8 9 0 8 0x310)) 0x40400000 0x00083800 = (14, 0) ∧
    flt (.qnt (xw 10 8 9 0 8 0x310)) 0x40A00000 0x00083800 = (15, 0x20) := by decide +kernel
theorem test_dqnt : flt (.dqnt (xw 10 8 9 0 1 0x380)) 11 0x00083800 = (0x3FC00000, 0) := by decide +kernel
theorem test_pk6 : flt (.pk6 (bw 10 8 0)) 0x1F04280C 0 = (0x007C4A0C, 0) ∧ flt (.upk6 (bw 10 8 0)) 0x007C4A0C 0 = (0x1F04280C, 0) := by
  decide +kernel
theorem test_pkb : flt (.pkb (bw 10 8 9)) 0x1234 0x5678 = (0x7834, 0) ∧ flt (.pkbExt (xw 10 8 9 0 0 1)) 0x1234 0x5678 = (0x56781234, 0) := by
  decide +kernel
theorem test_upkb : flt (.upkbExt (xw 10 8 0 0 0 6)) 0x00801234 0 = (0xFFFFFF80, 0) := by decide +kernel

/-! ### Control flow, traps, system registers -/

theorem test_bra : ((aco (.bra (bw 0 0 0 (some 0x40) false 1)) (st { c0 with preds := [(1, 1)] })).lane 0).pc = 0x40 ∧
    ((aco (.bra (bw 0 0 0 (some 0x40) false 1)) (st { c0 with preds := [(1, 1)] })).lane 1).pc = 12 := by decide +kernel
theorem test_brx : ((aco (.brx (bw 0 8 0)) (st (cWith [(8, .a 0x40 4)]))).lane 3).pc = 0x4C ∧
    (aco (.brx (bw 0 1 0)) (st c0)).xmask = 0xEEEEEEEE ∧ (aco (.brx (bw 0 1 0)) (st c0)).xaddr = 1 := by decide +kernel
theorem test_call : ((aco (.call (bw 10 0 0 (some 0x200))) (st c0)).lane 7).pc = 0x200 ∧ val (.call (bw 10 0 0 (some 0x200))) (st c0) 10 7 = 12 := by
  decide +kernel
theorem test_callx : val (.callx (bw 8 8 0)) (st (cWith [(8, .u 0x80)])) 8 0 = 4 ∧
    ((aco (.callx (bw 8 8 0)) (st (cWith [(8, .u 0x80)]))).lane 0).pc = 0x80 := by decide +kernel
theorem test_ret : ((aco (.ret (bw 0 8 0)) (st (cWith [(8, .u 0x80)]))).lane 0).pc = 0x80 := by decide +kernel
theorem test_meet : (aco (.meet (bw 2 0 0 (some 0x58))) (st c0)).j 2 = (0xFFFFFFFF, 0x58) ∧
    ((aco (.meet (bw 2 0 0 (some 0x58))) (st c0)).lane 0).mr = 0x58 ∧
    ((aco (.meet (bw 2 0 0 (some 0x58))) (st c0)).lane 0).meets = [0xFFFFFFFF] := by decide +kernel
theorem test_waitj : ((aco (.waitj (bw 2 0 0)) (st { c0 with joins := [(2, (1, 0x58))] })).lane 0).waitj = some (2, 4) ∧
    ((aco (.waitj (bw 2 0 0)) (st { c0 with joins := [(2, (1, 0x58))] })).lane 1).pc = 4 := by decide +kernel
/-- Lane 0, the one member of J2, is held at its WAITJ: the release pops its MR and lets it go on (R24, R26). -/
theorem test_join_release :
    let co := { c0 with
      joins := [(2, (1, 0x58))], exited := 0xFFFFFFFE,
      lanes := c0.lanes.map (fun x => { x with mr := 0x58, meets := [0xFFFFFFFF], waitj := some (2, 4) }) }
    ((aco (.joinRelease 0 2) (st co)).lane 0).pc = 4 ∧ ((aco (.joinRelease 0 2) (st co)).lane 0).mr = 0xFFFFFFFF ∧
      (aco (.joinRelease 0 2) (st co)).j 2 = (0, 0x58) := by decide +kernel
theorem test_exit : (aco (.exit (bw 0 0 0 none false 1)) (st { c0 with preds := [(1, 0xFF)] })).exited = 0xFF ∧
    (aco (.exit (bw 0 0 0 none false 1)) (st { c0 with preds := [(1, 0xFF)] })).slices = 0xE := by decide +kernel
theorem test_trap : (aco (.trap (bw 0 9 0)) (st c0)).xcause = 11 ∧ (aco (.trap (bw 0 9 0)) (st c0)).xaddr = 9 ∧
    ((aco (.trap (bw 0 9 0)) (st c0)).lane 5).pc = 0x400 ∧ (aco (.trap (bw 0 9 0)) (st c0)).hlanes = 0xFFFFFFFF := by decide +kernel
theorem test_bkpt : (aco (.bkpt (bw 0 0 0)) (st c0)).xcause = 10 := by decide +kernel
/-- A trap inside the handler parks the cohort: one record of class T with NEST (R345). -/
theorem test_nested_trap : ((aco (.bkpt (bw 0 0 0)) (st { c0 with hmode := true, hlanes := 0xFFFFFFFF })).park.map (fun r => (r.code, r.cls, r.nest))) =
    some (10, 1, true) := by decide +kernel
theorem test_xret : (aco (.xret (bw 0 0 0)) (st { c0 with hmode := true, hlanes := 0xF, xpc := 0x20 })).hmode = false ∧
    ((aco (.xret (bw 0 0 0)) (st { c0 with hmode := true, hlanes := 0xF, xpc := 0x20 })).lane 3).pc = 0x20 := by decide +kernel
theorem test_illegal_encoding : (aco .illegalEncoding (st c0)).xcause = 1 ∧ (aco .illegalEncoding (st c0)).xmask = 0xFFFFFFFF := by decide +kernel
theorem test_fetch_fault : (aco (.fetchFault .pastEnd) (st { c0 with lanes := c0.lanes.map (fun x => { x with pc := 0x1000 }) })).xcause = 1 := by
  decide +kernel
theorem test_hint : ((aco (.hint 0xF9 (bw 0 0 0)) (st c0)).lane 0).pc = 4 ∧ ((aco (.hintExt 0xFE (xw 0 0 0)) (st c0)).lane 0).pc = 12 := by
  decide +kernel
/-- A name above the block's narrow names is ILLEGAL, and a general result for a narrow name is SHAPE (R132, R137). -/
theorem test_names : (aco (.iaddExt (xw 10 300 2)) (st c0 { blk0 with n := 8 })).xcause = 1 ∧ (aco (.iaddExt (xw 256 4 2)) (st c0)).xcause = 2 := by
  decide +kernel
theorem test_scoreboard : (after (.iadd (bw 10 2 2)) (st { c0 with pending := [{ op := 9, first := 10, count := 1 }] })).cur.waited = true ∧
    ((aco (.iadd (bw 10 2 2)) (st { c0 with pending := [{ op := 9, first := 10, count := 1 }] })).lane 0).pc = 0 := by decide +kernel

/-! ### Memory -/

theorem test_ld : val (.ld (bw 10 6 0)) (memW (st c0) 0x100 0x11223344) 10 5 = 0x11223344 ∧
    val (.ldExt (xw 10 6 0 0 1)) (memW (st c0) 0x100 0x11223384) 10 5 = 0xFFFFFF84 := by decide +kernel
/-- A device address of 2^52 or more has no translation: the cohort parks with PAGE. -/
theorem test_ld_unmapped : ((aco (.ld (bw 10 8 0)) (st (cWith [(9, .u 0x100000)]))).park.map (fun r => (r.code, r.cls, r.addr))) =
    some (16, 2, 0x10000000000000) := by decide +kernel
theorem test_ld_misaligned : (aco (.ld (bw 10 8 0)) (st (cWith [(8, .u 0x102)]))).xcause = 4 := by decide +kernel
theorem test_st : (after (.st (bw 0 6 2)) (st c0)).physByte 0 0x100 = 5 ∧ (after (.st (bw 0 6 2)) (st c0)).physByte 0 0x101 = 0 := by
  decide +kernel
/-- The highest lane that stores to an address wins. -/
theorem test_st_order : (after (.st (bw 0 6 1)) (st c0)).physByte 0 0x100 = 31 := by decide +kernel
theorem test_lds_sts : bufAt ((after (.stsExt (xw 0 8 2)) (st (cWith [(8, .u 0x20)]))).core 0).asp 0x20 = 5 ∧
    val (.ldsExt (xw 10 8 0)) { st (cWith [(8, .u 0x20)]) with cores := [(0, { asp := [(0x20, 7), (0x21, 1)] })] } 10 0 = 0x107 := by
  decide +kernel
theorem test_lds_bound : (aco (.lds (bw 10 8 0)) (st (cWith [(8, .u 0x1000)]))).xcause = 3 := by decide +kernel
theorem test_ldw : val (.ldw (bw 10 8 0)) { st (cWith [(8, .u 0x20)]) with cores := [(0, { wbf := [(0x20, 7)] })] } 10 0 = 7 := by decide +kernel
theorem test_peer_outside_gang : (aco (.ldsPeer (xw 10 8 0)) (st c0)).xcause = 1 ∧ (aco (.stsPeer (xw 0 8 2)) (st c0)).xcause = 1 := by decide +kernel
/-- Thirty-two lanes add 5 one after another. -/
theorem test_atom_add : (after (.atomAdd (bw 10 6 2)) (memW (st c0) 0x100 1)).physByte 0 0x100 = 161 ∧
    val (.atomAdd (bw 10 6 2)) (memW (st c0) 0x100 1) 10 31 = 156 := by decide +kernel
theorem test_atoms : (after (.atomMin (bw 10 6 3)) (memW (st c0) 0x100 1)).physByte 0 0x100 = 0xFD ∧
    (after (.atomMax (bw 10 6 3)) (memW (st c0) 0x100 1)).physByte 0 0x100 = 1 ∧
    (after (.atomAnd (bw 10 6 2)) (memW (st c0) 0x100 6)).physByte 0 0x100 = 4 ∧
    (after (.atomOr (bw 10 6 2)) (memW (st c0) 0x100 6)).physByte 0 0x100 = 7 ∧
    (after (.atomXchg (bw 10 6 2)) (memW (st c0) 0x100 6)).physByte 0 0x100 = 5 := by decide +kernel
theorem test_atom_xor : (after (.atomXor (bw 10 6 2 none false 1)) (memW (st { c0 with preds := [(1, 1)] }) 0x100 6)).physByte 0 0x100 = 3 := by
  decide +kernel
theorem test_atom_fadd : (after (.atomFadd (bw 10 6 8 none false 1)) (memW (st { cWith [(8, .u 0x3F800000)] with preds := [(1, 1)] }) 0x100 0x3F800000)).physByte 0 0x103 = 0x40 := by
  decide +kernel
theorem test_atom_cas : (after (.atomCas (xw 10 6 2 3)) (memW (st c0) 0x100 5)).physByte 0 0x100 = 0xFD ∧
    val (.atomCas (xw 10 6 2 3)) (memW (st c0) 0x100 5) 10 0 = 5 ∧ val (.atomCas (xw 10 6 2 3)) (memW (st c0) 0x100 5) 10 1 = 0xFFFFFFFD := by
  decide +kernel
theorem test_reductions : (aco (.redAdd (bw 0 6 2)) (st c0)).ocCount 3 = 1 ∧ ((after (.redMax (bw 0 6 2)) (st c0)).core 0).wallet = 496 ∧
    (after (.redAdd (bw 0 6 2)) (st c0)).reds ≠ [] := by decide +kernel
theorem test_red_apply : (after (.redApply 0) { memW (st c0) 0x100 6 with
      reds := [{ id := 9, slot := 0, vf := 0, opc := 0xB0, ty := .b32, va := 0x100, pa := 0x100, value := 5 }] }).physByte 0 0x100 = 11 := by
  decide +kernel

/-! ### Synchronisers and copies -/

/-- V8 names the object at offset 0x20; V9 holds generation 0, bits above 3 ignored, V11 generation 1. -/
def cBar : Cohort := cWith [(8, .u 0x20), (9, .u 0x10), (11, .u 1)]
theorem test_bar_init : (after (.barInit (bw 0 8 0 (some 5))) (st cBar)).bar blk0 0x20 = { gen := 0, pend := 5, exp := 5, inn := 0, out := 0 } := by
  decide +kernel
theorem test_bar_arr : (after (.barArr (bw 10 8 0)) (after (.barInit (bw 0 8 0 (some 1))) (st cBar))).bar blk0 0x20 =
    { gen := 1, pend := 1, exp := 1, inn := 0, out := 0 } := by decide +kernel
theorem test_bar_wait : (after (.barWait (bw 0 8 9)) (after (.barInit (bw 0 8 0 (some 1))) (st cBar))).cur.waited = true ∧
    (after (.barWait (bw 0 8 11)) (after (.barInit (bw 0 8 0 (some 1))) (st cBar))).cur.waited = false := by decide +kernel
theorem test_bar_counts : (after (.barXin (bw 0 8 0 (some 7))) (after (.barInit (bw 0 8 0 (some 1))) (st cBar))).bar blk0 0x20 =
    { gen := 0, pend := 1, exp := 1, inn := 7, out := 0 } ∧
    (after (.barXout (bw 0 8 0 (some 7))) (after (.barInit (bw 0 8 0 (some 1))) (st cBar))).bar blk0 0x20 =
    { gen := 0, pend := 1, exp := 1, inn := 0, out := 7 } := by decide +kernel
theorem test_fences : ((aco (.fenceSys (bw 0 0 0)) (st c0)).lane 0).pc = 4 ∧ ((aco (.fenceCohExt (xw 0 0 0)) (st c0)).lane 0).pc = 12 := by
  decide +kernel
/-- CPY CH2 of 8 bytes from device address 0x100 to scratchpad offset 0x20: two tokens, and the write pointer at the start. -/
theorem test_cpy : ((aco (.cpy (xw 2 8 10 12)) (st (cWith [(8, .u 0x20), (10, .u 0x100), (12, .u 8)]))).ptr 2) = 0x20 ∧
    (aco (.cpy (xw 2 8 10 12)) (st (cWith [(8, .u 0x20), (10, .u 0x100), (12, .u 8)]))).ocCount 0 = 1 ∧
    ((after (.cpy (xw 2 8 10 12)) (st (cWith [(8, .u 0x20), (10, .u 0x100), (12, .u 8)]))).core 0).wallet = 498 := by decide +kernel
/-- The copy runs: started, seven bytes delivered, the last read, and landed with the completion. -/
noncomputable def copied : State :=
  let s := memW (memW (st (cWith [(8, .u 0x20), (10, .u 0x100), (12, .u 8)])) 0x100 0x04030201) 0x104 0x08070605
  let s := after (.copyStart 0 2) (after (.cpy (xw 2 8 10 12)) s)
  after (.copySourceReadDone 0 2) (after (.copyDeliver 0 2 7) s)
theorem test_copy_delivers : bufAt (copied.core 0).asp 0x26 = 7 ∧ bufAt (copied.core 0).asp 0x27 = 0 := by decide +kernel
theorem test_copy_completes : bufAt ((after (.copyComplete 0 2) copied).core 0).asp 0x27 = 8 ∧
    ((aco (.copyComplete 0 2) copied).ocCount 0) = 0 ∧ (aco (.copyComplete 0 2) copied).ptr 2 = 0x28 := by decide +kernel
theorem test_waitoc : (after (.waitoc (bw 0 1 0)) (st { c0 with ocMat := [{ id := 9 }] })).cur.waited = true ∧
    (after (.waitoc (bw 0 1 1)) (st { c0 with ocMat := [{ id := 9 }] })).cur.waited = false := by decide +kernel
theorem test_rdwp : val (.rdwp (bw 10 2 0)) (st { c0 with wptrs := [(2, { copy := 9, s := 0x20, n := 8, prog := 3 })] }) 10 0 = 0x23 := by decide +kernel
theorem test_waitwp : (after (.waitwp (bw 0 2 0 (some 0x24))) (st { c0 with wptrs := [(2, { copy := 9, s := 0x20, n := 8, prog := 3 })] })).cur.waited = true := by
  decide +kernel
theorem test_txb : ((aco (.txb (bw 10 0 0 (some 0x80))) (st c0)).tx.map (fun x => (x.abort, x.vd))) = some (0x80, 10) := by decide +kernel
/-- A store in a transaction stands in the buffer until TXC writes it. -/
noncomputable def inTx : State := after (.st (bw 0 6 2)) (memW (after (.txb (bw 10 0 0 (some 0x80))) (st c0)) 0x100 0)
theorem test_tx_buffers : inTx.physByte 0 0x100 = 0 ∧ (after (.txc (bw 0 0 0)) inTx).physByte 0 0x100 = 5 := by decide +kernel
theorem test_txa : ((aco (.txa (bw 0 0 0)) inTx).lane 0).pc = 0x80 ∧ val (.txa (bw 0 0 0)) inTx 10 0 = 1 ∧ (aco (.txa (bw 0 0 0)) inTx).tx = none := by
  decide +kernel
theorem test_txw : ((aco (.txw (bw 0 6 0)) inTx).tx.map (fun x => x.watch.length)) = some 1 := by decide +kernel
theorem test_tx_conflict : ((aco (.txConflict 0) (st { c0 with tx := some { abort := 0x80, vd := 10, conflict := true } })).lane 3).pc = 0x80 ∧
    (aco (.txConflict 0) (st { c0 with tx := some { abort := 0x80, vd := 10, conflict := true } })).v 10 = .u 2 := by decide +kernel
theorem test_gchk : (((after (.gchk (bw 0 8 0)) (st (cWith [(8, .u 0xC0000000)]) { blk0 with surrogate := true })).block 0).map (·.resid)) = some 0x40000000 ∧
    (aco (.gchk (bw 0 8 0)) (st c0)).xcause = 1 := by decide +kernel

/-! ### Engines and registers of the core -/

theorem test_dset : (aco (.dsetExt (xw 1 8 9 0 0 1)) (st (cWith [(8, .u 0x1000), (9, .u 0x800)]))).d 1 = 0x00000002000000000000080000001000 := by
  decide +kernel
theorem test_dget : val (.dget (bw 12 1 0)) (st { c0 with descs := [(1, 0x00000002000000030000080000001000)] }) 14 0 = 3 ∧
    val (.dget (bw 12 1 0)) (st { c0 with descs := [(1, 0x00000002000000030000080000001000)] }) 12 0 = 0x1000 := by decide +kernel
theorem test_tzero : (((after (.tzero (bw 1 0 0)) (st c0 { blk0 with tiles := [(16384, 7), (32768, 8)] })).block 0).map (·.tiles)) = some [(32768, 8)] := by
  decide +kernel
theorem test_trd : val (.trd (bw 10 1 0 (some 32))) (st c0 { blk0 with tiles := [(16384 + 34, 7)] }) 10 2 = 7 := by decide +kernel
theorem test_twr : (((after (.twr (bw 1 2 0 (some 32) false 1)) (st { c0 with preds := [(1, 4)] })).block 0).map (·.tiles)) = some [(16384 + 34, 5)] := by
  decide +kernel
theorem test_mma_posts : (aco (.mmaE4m3 (xw 0 0 1)) (st { c0 with descs := [(0, 0x00000001000000000000100000000000), (1, 0x00000002000000000000100000000000)] })).ocCount 1 = 1 ∧
    ((after (.mmaE4m3 (xw 0 0 1)) (st { c0 with descs := [(0, 0x00000001000000000000100000000000), (1, 0x00000002000000000000100000000000)] })).core 0).wallet = 452 := by
  decide +kernel
/-- The footprint of R285's example: 128 rows of 64 bytes from 0x2000 pass an extent of 0x1000. -/
theorem test_mma_desc : (aco (.mmaE4m3 (xw 0 0 1 0 0 0 none 1)) (st { c0 with descs := [(0, 0x00000001000000000000100000002000), (1, 0x00000002000000000000200000000000)] })).xcause = 3 := by
  decide +kernel
/-- One row of 1.0 and 2.0 by the inputs 1.0 and 2.0. -/
theorem test_mvt : val (.mvt (xw 16 8 10 0 0 0 none 0x001)) { st (cWith [(8, .u 0x3F800000), (9, .u 0x40000000), (10, .u 0)]) with
      cores := [(0, { core0 with wbf := [(2, 0x80), (3, 0x3F), (7, 0x40)] })] } 16 0 = 0x40A00000 := by decide +kernel
theorem test_wallet : val (.wallet (bw 10 0 8)) (st (cWith [(8, .u 500)])) 10 0 = 500 ∧ (after (.wallet (bw 10 0 8)) (st (cWith [(8, .u 501)]))).cur.waited = true := by
  decide +kernel
theorem test_boost : (((after (.boost (bw 10 0 8)) (st (cWith [(8, .u 2)]))).block 0).map (·.boost)) = some 2 ∧ (aco (.boost (bw 10 0 2)) (st c0)).xcause = 1 := by
  decide +kernel
/-- POOL is 64 and no cluster holds a step. -/
theorem test_permits : val (.permits (bw 10 0 0)) (st c0) 10 0 = (st c0).permits 0 ∧ ((st c0).permits 0).toNat % 256 = 64 := by decide +kernel
theorem test_cycle : val (.cycle (bw 10 0 0)) { st c0 with cores := [(0, { cycle := 0x200000003 })] } 11 0 = 2 ∧
    val (.cycle (bw 10 0 0)) { st c0 with cores := [(0, { cycle := 0x200000003 })] } 10 0 = 3 := by decide +kernel
theorem test_allocreg : (aco (.allocreg (bw 3 7 0)) (st { c0 with g := 8 })).g = 64 ∧ prd (.allocreg (bw 3 7 0)) (st { c0 with g := 8 }) 3 = 0xFFFFFFFF := by
  decide +kernel
theorem test_freereg : (aco (.freereg (bw 0 0 0)) (st c0)).g = 8 ∧ (aco (.freereg (bw 0 0 0)) (st (cWith [(200, .u 1)]))).v 200 = .u 0 := by decide +kernel
theorem test_nres : (((after (.nres (bw 0 0 0)) (st c0)).block 0).map (·.handed)) = some true := by decide +kernel
theorem test_regroup : (((after (.regroup (bw 0 1 0)) (st c0)).block 0).map (fun b => b.coll.isSome)) = some true ∧
    (aco (.regroup (bw 0 1 0)) (st { c0 with joins := [(0, (1, 0x40))] })).xcause = 1 := by decide +kernel

/-! ### What the hypotheses of the statements ask of an issue -/

/-- What an instruction sees when the cohort at the cursor issues it. -/
def envAt (i : Instr) (s : State) : Env :=
  match i.form, s.issuer with
  | some (c, w, n), some x => envOf s x.slot x.co x.blk c w ((c.ty w).getD .b32) x.group n
  | _, _ => envOf s 0 default default default (xw 0 0 0) .b32 0 0

/-- The instruction passes the common checks in the state. -/
def passesB (i : Instr) (s : State) : Bool :=
  i.form.isSome && s.issuer.isSome && i.wellFormed && (envAt i s).namesOk && (envAt i s).act != 0 && !(envAt i s).held

theorem envFor_at {i : Instr} {s : State} (h : (i.form.isSome && s.issuer.isSome) = true) : s.envFor i = some (envAt i s) := by
  unfold State.envFor envAt
  cases hf : i.form with
  | none => simp [hf] at h
  | some f =>
    cases hx : s.issuer with
    | none => simp [hf, hx] at h
    | some x => rfl

theorem passes_of {i : Instr} {s : State} (h : passesB i s = true) : s.Passes i (envAt i s) := by
  simp only [passesB, Bool.and_eq_true, bne_iff_ne, Bool.not_eq_true', ne_eq] at h
  obtain ⟨⟨⟨⟨⟨h1, h2⟩, h3⟩, h4⟩, h5⟩, h6⟩ := h
  exact ⟨envFor_at (by rw [h1, h2]; rfl), h3, h4, h5, h6⟩

/-- Every instruction of the list passes the common checks in the state, is one of the cells, and has a destination that takes
any result. -/
def Issues (s : State) (L : List Instr) (cells : List Cell) : Prop :=
  ∀ i ∈ L, s.Passes i (envAt i s) ∧ (envAt i s).cell ∈ cells ∧ ∀ u, (envAt i s).destTakes u

theorem takes_of {s : State} {L : List Instr} {cells : List Cell}
    (h : L.all (fun i => passesB i s && cells.contains (envAt i s).cell && decide ((envAt i s).w.d.toNat < 256)) = true) :
    Issues s L cells := by
  intro i hi
  have h := List.all_eq_true.mp h i hi
  simp only [Bool.and_eq_true, decide_eq_true_eq, List.contains_iff_mem] at h
  exact ⟨passes_of h.1.1, h.1.2, fun u => Or.inr (Or.inl h.2)⟩

/-- Every instruction of the list passes the common checks in the state, and a condition holds of it. -/
def IssuesWith (s : State) (L : List Instr) (p : Env → Bool) : Prop :=
  ∀ i ∈ L, s.Passes i (envAt i s) ∧ p (envAt i s) = true

theorem holds_of {s : State} {L : List Instr} {p : Env → Bool} (h : L.all (fun i => passesB i s && p (envAt i s)) = true) :
    IssuesWith s L p := by
  intro i hi
  have h := List.all_eq_true.mp h i hi
  simp only [Bool.and_eq_true] at h
  exact ⟨passes_of h.1, h.2⟩

/-- Where an active lane's address lies. -/
def xlOf (e : Env) (acc : Access) (l : Nat) : Xlat :=
  match e.s.translate (e.s.coreTlbs e.core) e.blk.vf (e.devAddr l) acc with
  | .ok x => x
  | .error _ => default

/-- Every active lane's device address is aligned, translates, and lies in no poisoned line. -/
def placedB (e : Env) (acc : Access) : Bool :=
  (List.range 32).all (fun l => !e.act.has l || ((e.devAddr l).toNat % e.ty.bytes == 0 &&
    (match e.s.translate (e.s.coreTlbs e.core) e.blk.vf (e.devAddr l) acc with
     | .ok x => !e.s.poisoned x.pa
     | .error _ => false)))

theorem placed_of {e : Env} {acc : Access} (h : placedB e acc = true) :
    e.Aligned (fun l => (e.devAddr l).toNat) ∧ e.Translates acc (xlOf e acc) ∧ e.Clean (xlOf e acc) := by
  have h := List.all_eq_true.mp h
  refine ⟨fun l hl ha => ?_, fun l hl ha => ?_, fun l hl ha => ?_⟩ <;>
    have h := h l (List.mem_range.mpr hl) <;> simp only [ha, Bool.not_true, Bool.false_or, Bool.and_eq_true, beq_iff_eq] at h <;>
    obtain ⟨h1, h2⟩ := h
  · exact h1
  · unfold xlOf
    split at h2
    · rename_i x hx; rw [hx]
    · cases h2
  · unfold xlOf
    split at h2
    · simpa using h2
    · cases h2

/-- An answer that is a next state. -/
def isNext (r : Res) : Bool :=
  match r with
  | .next _ => true
  | _ => false

theorem next_of {r : Res} (h : isNext r = true) : ∃ t, r = .next t := by
  cases r with
  | next t => exact ⟨t, rfl⟩
  | fault f => cases h
  | refused f => cases h

/-! ### Witnesses: states and operands that meet the hypotheses of the statements -/

/-- Numbers at which the modes part: 464 is half way above the largest E4M3 value, 465 is beyond it; one half is nowhere near. -/
theorem test_witness_RoundIsCorrect : (XVal.fin false 465 0 false).Stands 465 ∧ fmtE4.Overflows .rne false 465 ∧
    (XVal.fin true 1 (-1) false).Stands (-(1 / 2)) ∧ ¬ fmtE4.Overflows .rtz true (-(1 / 2)) ∧
    (XVal.fin false (2 ^ 40) (-40) true).Stands (1 + (2 : ℝ) ^ (-41 : Int)) ∧
    (XVal.fin true 0 (-200) true).Stands (-(2 : ℝ) ^ (-201 : Int)) := by
  have h1 : fmtE4.value fmtE4.maxBits = .fin false 14 5 false := by decide
  have h2 : fmtE4.value (fmtE4.maxBits - 1) = .fin false 13 5 false := by decide
  have h3 : ((XVal.fin false 14 5 false).rat : ℚ) = 448 := by norm_num [XVal.rat]
  have h4 : ((XVal.fin false 13 5 false).rat : ℚ) = 416 := by norm_num [XVal.rat]
  refine ⟨?_, ?_, ?_, ?_, ?_, ?_⟩
  · norm_num [XVal.Stands, XVal.rat]
  · simp only [Fmt.Overflows, Fmt.largest, Fmt.topStep, h1, h2, h3, h4]; norm_num
  · norm_num [XVal.Stands, XVal.rat]
  · simp only [Fmt.Overflows, Fmt.largest, Fmt.topStep, h1, h2, h3, h4]; norm_num [abs_of_neg]
  · simp only [XVal.Stands]; norm_num [abs_of_pos]
  · simp only [XVal.Stands]; norm_num [abs_of_neg]

/-- The classes of values that the special cases name, and a number that is no integer and no power of two. -/
theorem test_witness_ExactOperations : ((0 : Nat) < 3 ∧ 3 < 2 ^ 64 ∧ v32 0x7FC00001 = .nan ∧ v32 0xFF800000 = .inf true ∧ v32 0x7F800000 = .inf false ∧
    v32 0x80000000 = .fin true 0 (-149) false ∧ v32 0xBF800000 = .fin true 0x800000 (-23) false) ∧
    (v32 0x41000000).rat = ((8 : Int) : ℚ) ∧ (v32 0x41000000).rat = (2 : ℚ) ^ (3 : Int) ∧ (0 : ℚ) < (v32 0x3FC00000).rat ∧
    (∀ i : Int, (v32 0x3FC00000).rat ≠ i) ∧ ∀ i : Int, (v32 0x3FC00000).rat ≠ (2 : ℚ) ^ i := by
  have h1 : v32 0x41000000 = .fin false 0x800000 (-20) false := by decide
  have h2 : v32 0x3FC00000 = .fin false 0xC00000 (-23) false := by decide
  have h3 : (v32 0x3FC00000).rat = 3 / 2 := by rw [h2]; norm_num [XVal.rat]
  have h4 : (v32 0x41000000).rat = 8 := by rw [h1]; norm_num [XVal.rat]
  refine ⟨by decide, by rw [h4]; norm_num, by rw [h4]; norm_num, by rw [h3]; norm_num, fun i h => ?_, fun i h => ?_⟩
  · rw [h3] at h
    have : (3 : ℚ) = ((2 * i : Int) : ℚ) := by push_cast; linarith
    have : (3 : Int) = 2 * i := by exact_mod_cast this
    omega
  · rw [h3] at h
    rcases lt_or_ge i 1 with hi | hi
    · have : (2 : ℚ) ^ i ≤ 2 ^ (0 : Int) := zpow_le_zpow_right₀ (by norm_num) (by omega)
      rw [zpow_zero] at this; linarith
    · have : (2 : ℚ) ^ (1 : Int) ≤ 2 ^ i := zpow_le_zpow_right₀ (by norm_num) hi
      rw [zpow_one] at this; linarith

/-- Sources of each class, scales of each class, and a finite FRND operand below and at 2^23. -/
theorem test_witness_Conversions : (Ty.f16.isFloat = true ∧ Ty.n64.isInt = true ∧ Ty.q8a ∈ [Ty.q8a, Ty.q4a] ∧
    (fmtOf .f32).value (0x7FC00001 % 2 ^ (fmtOf .f32).width) = .nan ∧ (fmtOf .f32).value (0xFF800000 % 2 ^ (fmtOf .f32).width) = .inf true ∧
    ((fmtOf .f32).value (0xC348B333 % 2 ^ (fmtOf .f32).width)).isFin = true ∧
    (fmt16.value (0x7C00 % 2 ^ 16)).isFin = false ∧ fmt16.value (0x3800 % 2 ^ 16) = .fin false 1024 (-11) false) ∧
    (fmt16.value (0x3800 % 2 ^ 16)).rat ≠ 0 ∧ (fmt16.value (0x8000 % 2 ^ 16)).rat = 0 ∧ 2 ^ 23 ≤ |(v32 0x4B000000).rat| := by
  have h1 : fmt16.value (0x3800 % 2 ^ 16) = .fin false 1024 (-11) false := by decide
  have h2 : fmt16.value (0x8000 % 2 ^ 16) = .fin true 0 (-24) false := by decide
  have h3 : v32 0x4B000000 = .fin false 0x800000 0 false := by decide
  refine ⟨by decide, ?_, ?_, ?_⟩
  · rw [h1]; norm_num [XVal.rat]
  · rw [h2]; norm_num [XVal.rat]
  · rw [h3]; norm_num [XVal.rat]

theorem test_witness_EncodingRoundTrips : Instr.WellFormed (.iaddExt (xw 1535 2047 0)) ∧ Instr.word (.iaddExt (xw 1535 2047 0)) ≠ none ∧
    decode (words [0x10314480]) = .ok (.iadd (bw 5 3 4 none false 1)) 4 := by decide +kernel

/-- Code at address 0 whose first word is `w`. -/
def coded (w : Nat) : State := State.reset.placeCode (words [w, 0, 0, 0, 0])

theorem test_witness_ReservedWordsTrap : (rawWord (words [0]) = some (.base 0 (bw 0 0 0)) ∧ cellOf 0 = none ∧
    rawWord (words [0x90]) = some (.base 0x24 (bw 0 0 0)) ∧ cellOf 0x24 = some Cells.imad ∧ Cells.imad.lenOk false false = false) ∧
    (∃ x bs, (coded 0).issuer = some x ∧ (coded 0).fetch x = .ok bs ∧ decode bs = .refused .reservedCell) ∧
    (∃ x, (st { c0 with lanes := c0.lanes.map (fun x => { x with pc := 0x1000 }) }).issuer = some x ∧
      (st { c0 with lanes := c0.lanes.map (fun x => { x with pc := 0x1000 }) }).fetch x = .pastEnd) ∧
    ∃ x va err, ({ st c0 with launches := [(0, { fetchLaunch with kernels := [(0, { kern with code := 0x10000000000000 })] })] }).issuer = some x ∧
      ({ st c0 with launches := [(0, { fetchLaunch with kernels := [(0, { kern with code := 0x10000000000000 })] })] }).fetch x = .fault va err :=
  ⟨by decide +kernel, ⟨_, _, rfl, rfl, by decide +kernel⟩, ⟨_, rfl, rfl⟩, ⟨_, _, _, rfl, rfl⟩⟩

/-- The clock of the quarter of a placed IADD V1, V0, V0. -/
theorem test_witness_StepRunsDecodedInstruction :
    let s := coded 0x00004080
    let s1 := s.nextAction.2
    let s2 := s1.prepare 0 0
    let s3 := s2.choose 0 (BitVec.allOnes 32)
    s.nextAction = (.quarter 0 0 false, s1) ∧ s1.coreRuns 0 = true ∧ s2.candidates 0 0 = [0] ∧
      ∃ co x bs t, s2.cohort 0 = some co ∧ co.vglimit = [] ∧ co.groupOrder false = [BitVec.allOnes 32] ∧ s3.issuer = some x ∧
        s3.fetch x = .ok bs ∧ decode bs = .ok (.iadd (bw 1 0 0)) 4 ∧ exec (.iadd (bw 1 0 0)) s3 = .next t ∧ t.cur.waited = false :=
  ⟨rfl, by decide +kernel, by decide +kernel, _, _, _, _, rfl, by decide +kernel, by decide +kernel, rfl, rfl, by decide +kernel,
    rfl, by decide +kernel⟩

theorem test_witness_EveryStepGoesOn : (coded 0x00004080).cohorts.wf = true := by decide +kernel

theorem test_witness_StepKeepsStores : (coded 0x00004080).storesOk ∧ ∃ t, step (coded 0x00004080) = .next t :=
  ⟨⟨by decide +kernel, by decide +kernel⟩, next_of (by decide +kernel)⟩

/-- A name above the narrow names; an undefined SUB; an unset guard; a held register; a general result for a narrow name. -/
theorem test_witness_ChecksAtIssue :
    (st c0 { blk0 with n := 8 }).envFor (.iaddExt (xw 10 300 2)) = some (envAt (.iaddExt (xw 10 300 2)) (st c0 { blk0 with n := 8 })) ∧
    (envAt (.iaddExt (xw 10 300 2)) (st c0 { blk0 with n := 8 })).namesOk = false ∧
    ¬ Instr.WellFormed (.iaddExt (xw 10 2 2 0 0 8)) ∧
    (st c0).envFor (.iadd (bw 10 2 2 none false 1)) = some (envAt (.iadd (bw 10 2 2 none false 1)) (st c0)) ∧
    (Instr.WellFormed (.iadd (bw 10 2 2 none false 1)) ∧ (envAt (.iadd (bw 10 2 2 none false 1)) (st c0)).namesOk = true ∧
    (envAt (.iadd (bw 10 2 2 none false 1)) (st c0)).act = 0 ∧
    (envAt (.iadd (bw 10 2 2)) (st { c0 with pending := [{ op := 9, first := 10, count := 1 }] })).held = true ∧
    (envAt (.iadd (bw 10 2 2)) (st { c0 with pending := [{ op := 9, first := 10, count := 1 }] })).act ≠ 0) ∧
    (st { c0 with preds := [(1, 2)] }).Passes (.iaddExt (xw 300 2 2 0 0 0 none 0 0 false 1))
      (envAt (.iaddExt (xw 300 2 2 0 0 0 none 0 0 false 1)) (st { c0 with preds := [(1, 2)] })) ∧
    (envAt (.iaddExt (xw 300 2 2 0 0 0 none 0 0 false 1)) (st { c0 with preds := [(1, 2)] })).full = false :=
  ⟨envFor_at (by decide +kernel), by decide +kernel, by decide +kernel, envFor_at (by decide +kernel), by decide +kernel,
    passes_of (by decide +kernel), by decide +kernel⟩

theorem test_witness_IntegerArithmetic : Issues (st c0)
  [.iadd (bw 10 2 3), .isubExt (xw 10 2 3 0 0 4), .imul (bw 10 2 3), .imulh (bw 10 2 3), .imad (xw 10 2 3 4), .idiv (bw 10 2 0 (some 0)),
    .irem (bw 10 2 3), .imin (bw 10 2 3), .imax (bw 10 2 3), .iabs (bw 10 3 0), .ineg (bw 10 3 0)]
  [Cells.iadd, Cells.isub, Cells.imul, Cells.imulh, Cells.imad, Cells.idiv, Cells.irem, Cells.imin, Cells.imax,
      Cells.iabs, Cells.ineg] := takes_of (by decide +kernel)

theorem test_witness_AddressAndPairArithmetic : Issues (st c0)
  [.leaExt (xw 10 2 1 0 0 7), .iadd64 (bw 10 6 0 (some 1)), .imad64 (xw 10 3 2 6), .lea64Ext (xw 10 6 3 0 0 4)]
  [Cells.lea, Cells.iadd64, Cells.imad64, Cells.lea64] := takes_of (by decide +kernel)

theorem test_witness_LogicShiftsAndFields : Issues (st c0)
  [.and (bw 10 2 3), .or (bw 10 2 3), .xor (bw 10 2 3), .andn (bw 10 2 3), .not (bw 10 2 0),
    .shl (bw 10 2 3), .shr (bw 10 2 0 (some 32)), .sar (bw 10 2 3), .rot (bw 10 2 3), .popc (bw 10 2 0), .clz (bw 10 5 0), .ctz (bw 10 5 0),
    .brev (bw 10 2 0), .bfe (xw 10 2 3 4), .bfi (xw 10 2 3 4), .permb (xw 10 2 3 4)]
  [Cells.and, Cells.or, Cells.xor, Cells.andn, Cells.not, Cells.shl, Cells.shr, Cells.sar, Cells.rot, Cells.popc, Cells.clz, Cells.ctz,
    Cells.brev, Cells.bfe, Cells.bfi, Cells.permb] := takes_of (by decide +kernel)

theorem test_witness_Predicates : Issues (st c0)
  [.iset (bw 1 2 3), .isetExt (xw 0 2 3), .pand (bw 1 2 3), .por (bw 1 2 3), .pxor (bw 1 2 3), .pnot (bw 1 2 0), .vtop (bw 1 2 0),
    .voteAll (bw 1 2 0), .voteAny (bw 1 2 0), .fsetExt (xw 1 2 3 0 0 13), .fcls (xw 1 2 0 0 0 0x1FF)]
  [Cells.iset, Cells.pand, Cells.por, Cells.pxor, Cells.pnot, Cells.vtop, Cells.voteAll, Cells.voteAny, Cells.fset, Cells.fcls] := takes_of (by decide +kernel)

/-- An affine value. -/
def isA : VVal → Bool
  | .a _ _ => true
  | _ => false

/-- One factor affine, the other uniform. -/
def scaledB (e : Env) : Bool := (isA e.va && e.vb.isU) || (e.va.isU && isA e.vb)

/-- V8 is 7 + 2L, V1 is L, V2 and V3 are uniform, V4 is general. -/
theorem test_witness_AffineShapes :
    IssuesWith (st (cWith [(8, .a 7 2)]))
      [.iadd (bw 10 8 2), .iadd (bw 10 2 8), .iadd (bw 10 8 1), .isub (bw 10 2 8), .isub (bw 10 8 2), .isub (bw 10 8 1),
        .leaExt (xw 10 2 8 0 0 1), .lea (bw 10 8 1), .ineg (bw 10 8 0), .imul (bw 10 8 2), .imul (bw 10 2 8), .imad (xw 10 8 2 1),
        .imad (xw 10 2 3 8), .shl (bw 10 8 2), .mov (bw 10 8 0)]
      (fun e => e.full && decide (e.w.d.toNat ≠ zv) && (e.cell == Cells.lea || (e.ty.bits == 32 && !e.w.satField)) &&
        (if [Cells.iadd, Cells.isub, Cells.lea].contains e.cell then e.va.line.isSome && e.vb.line.isSome && !(e.va.isU && e.vb.isU)
         else if e.cell == Cells.imul then scaledB e
         else if e.cell == Cells.imad then (scaledB e && e.vc.line.isSome) || (e.va.isU && e.vb.isU && isA e.vc)
         else if e.cell == Cells.shl then isA e.va && e.vb.isU
         else isA e.va)) ∧
    IssuesWith (st c0) [.iadd (bw 10 2 3), .isub (bw 10 2 3), .lea (bw 10 2 3), .ineg (bw 10 2 0), .imul (bw 10 2 3), .shl (bw 10 2 3),
        .imad (xw 10 2 3 2)] (fun e => e.full && e.sourcesU) ∧
    IssuesWith (st (cWith [(8, .a 7 2)])) [.iadd (bw 10 4 2), .ineg (bw 10 4 0), .imad (xw 10 2 3 4), .imul (bw 10 8 1), .shl (bw 10 2 8)]
      (fun e => e.full && decide (e.w.d.toNat < 256) &&
        (if e.cell == Cells.imul then isA e.va && isA e.vb else if e.cell == Cells.shl then isA e.vb
         else if e.cell == Cells.imad then e.vc.isG else e.va.isG)) :=
  ⟨holds_of (by decide +kernel), holds_of (by decide +kernel), holds_of (by decide +kernel)⟩

theorem test_witness_MovesAndExchanges : Issues (st c0)
  [.mov (bw 10 4 0), .movl (bw 10 0 0 (some 1)), .sel (xw 10 2 3 1), .laneof (bw 10 1 0), .ptov (bw 10 1 0), .lxchIdx (bw 10 4 2),
    .lxchUp (bw 10 4 2), .lxchDown (bw 10 4 2), .lxchXor (bw 10 4 2), .voteBal (bw 10 1 0), .matchLanes (bw 10 4 0), .lcomp (bw 10 4 1),
    .bcast (bw 10 4 2), .bcast (bw 10 4 1)]
  [Cells.mov, Cells.movl, Cells.sel, Cells.laneof, Cells.ptov, Cells.lxchIdx, Cells.lxchUp, Cells.lxchDown, Cells.lxchXor,
    Cells.voteBal, Cells.matchLanes, Cells.lcomp, Cells.bcast] := takes_of (by decide +kernel)

/-- A source lane number that is uniform, with the source lane not active, and one that is not uniform. -/
theorem test_witness_Broadcast : (envAt (.bcast (bw 10 4 2 none false 1)) (st { c0 with preds := [(1, 1)] })).vb.isU = true ∧
    (envAt (.bcast (bw 10 4 2 none false 1)) (st { c0 with preds := [(1, 1)] })).va.isG = true ∧
    (envAt (.bcast (bw 10 4 2 none false 1)) (st { c0 with preds := [(1, 1)] })).act.has (5 % 32) = false ∧
    (envAt (.bcast (bw 10 4 1)) (st c0)).vb.isU = false := by decide +kernel

theorem test_witness_FloatArithmetic : Issues (st c0)
  [.fadd (bw 10 2 3), .fsub (bw 10 2 3), .fmul (bw 10 2 3), .ffma (xw 10 2 3 4), .frnd (bw 10 2 0), .fdiv (bw 10 2 3), .fsqrt (bw 10 2 0),
    .frcp (bw 10 2 0), .frsq (bw 10 2 0), .fex2 (bw 10 2 0), .flg2 (bw 10 2 0), .fsin (bw 10 2 0), .fcos (bw 10 2 0), .ftanh (bw 10 2 0),
    .phadd (bw 10 2 3), .phmul (bw 10 2 3), .phfma (xw 10 2 3 4), .pbadd (bw 10 2 3), .pbmul (bw 10 2 3), .pbfma (xw 10 2 3 4),
    .cvt (xw 10 2 0 0 2 0x310), .cvt (xw 10 2 0 0 4 0x111), .qnt (xw 10 2 3 0 8 0x310), .dqnt (xw 10 2 3 0 1 0x380)]
  [Cells.fadd, Cells.fsub, Cells.fmul, Cells.ffma, Cells.frnd, Cells.fdiv, Cells.fsqrt, Cells.frcp, Cells.frsq,
    Cells.fex2, Cells.flg2, Cells.fsin, Cells.fcos, Cells.ftanh, Cells.phadd, Cells.phmul, Cells.phfma, Cells.pbadd, Cells.pbmul,
    Cells.pbfma, Cells.cvt, Cells.qnt, Cells.dqnt] := takes_of (by decide +kernel)

/-- Under TNF an infinite result is a trap, and without TNF it is none. -/
theorem test_witness_NonFiniteTrap :
    (envAt (.fex2 (bw 10 8 0)) (st { cWith [(8, .u 0x43000000)] with fpctl := 0x80000000 })).NonFiniteTrap ∧
    ¬ (envAt (.fex2 (bw 10 8 0)) (st (cWith [(8, .u 0x43000000)]))).NonFiniteTrap :=
  ⟨⟨by decide +kernel, 0, by decide, by decide +kernel, by decide +kernel⟩, fun h => absurd h.1 (by decide +kernel)⟩

theorem test_witness_SelectionAndPacking : Issues (st { c0 with fpctl := 0x80000000 })
  [.fmin (bw 10 2 4), .fmax (bw 10 2 4), .fabs (bw 10 3 0), .fneg (bw 10 3 0), .pk6 (bw 10 2 0), .upk6 (bw 10 2 0), .pkb (bw 10 2 3), .upkb (bw 10 2 0)]
  [Cells.fmin, Cells.fmax, Cells.fabs, Cells.fneg, Cells.pk6, Cells.upk6, Cells.pkb, Cells.upkb] := takes_of (by decide +kernel)

/-- The operands of that FMIN are finite in every lane. -/
theorem test_witness_finite : ∀ l < 32, ((envAt (.fmin (bw 10 2 4)) (st { c0 with fpctl := 0x80000000 })).fpA l).isFin = true ∧
    ((envAt (.fmin (bw 10 2 4)) (st { c0 with fpctl := 0x80000000 })).fpB l).isFin = true := by decide +kernel

/-- Both operands infinite, with TNF set. -/
theorem test_witness_SelectionTraps : IssuesWith (st { cWith [(8, .u 0x7F800000)] with fpctl := 0x80000000 }) [.fmin (bw 10 8 8), .fmax (bw 10 8 8)]
    (fun e => tnf e.co.fpctl && e.act.has 0 && e.va.at 0 == 0x7F800000 && e.vb.at 0 == 0x7F800000) ∧
    PickSpec true 0x7F800000 0x7F800000 0x7F800000 ∧ PickSpec false 0x7F800000 0x7F800000 0x7F800000 ∧ (v32 0x7F800000).isFin = false :=
  ⟨holds_of (by decide +kernel), by unfold PickSpec; decide +kernel, by unfold PickSpec; decide +kernel, by decide +kernel⟩

theorem test_witness_NopsFencesAndBranches : IssuesWith (st c0)
  [.nop (bw 0 0 0), .fenceCoh (bw 0 0 0), .fenceBlk (bw 0 0 0), .fenceCore (bw 0 0 0), .fenceClu (bw 0 0 0), .fenceDie (bw 0 0 0),
    .fenceDev (bw 0 0 0), .fenceSys (bw 0 0 0)]
  (fun e => [Cells.nop, Cells.fenceCoh, Cells.fenceBlk, Cells.fenceCore, Cells.fenceClu, Cells.fenceDie, Cells.fenceDev,
      Cells.fenceSys].contains e.cell) := holds_of (by decide +kernel)

theorem test_witness_issuer : ∃ x, (st c0).issuer = some x := ⟨_, rfl⟩

theorem test_witness_NopsFencesAndBranches_targets : Issues (st (cWith [(8, .a 0x40 4)]))
  [.bra (bw 0 0 0 (some 0x40)), .brx (bw 0 8 0), .call (bw 10 0 0 (some 0x40)), .callx (bw 10 8 0), .ret (bw 0 8 0), .brx (bw 0 1 0)]
  [Cells.bra, Cells.brx, Cells.call, Cells.callx, Cells.ret] := takes_of (by decide +kernel)

/-- Targets that are multiples of 4 in every lane, and some that are not. -/
theorem test_witness_targets : (∀ l < 32, ((envAt (.brx (bw 0 8 0)) (st (cWith [(8, .a 0x40 4)]))).va.at l).toNat % 4 = 0) ∧
    ((envAt (.brx (bw 0 1 0)) (st c0)).va.at 1).toNat % 4 ≠ 0 := by decide +kernel

theorem test_witness_Joins : (st c0).Passes (.meet (bw 7 0 0 (some 0x40))) (envAt (.meet (bw 7 0 0 (some 0x40))) (st c0)) ∧
    (((envAt (.meet (bw 7 0 0 (some 0x40))) (st c0)).co.j 7).1 = 0 ∧
      (∀ l < 32, ((envAt (.meet (bw 7 0 0 (some 0x40))) (st c0)).co.lane l).depth < 64) ∧
      (({ c0 with joins := [(7, (1, 0x58))] } : Cohort).j 7).1 ≠ 0 ∧ (({ c0 with joins := [(7, (1, 0x58))] } : Cohort).j 7).2 ≠ 0x40) ∧
    (st c0).Passes (.waitj (bw 0 0 0)) (envAt (.waitj (bw 0 0 0)) (st c0)) :=
  ⟨passes_of (by decide +kernel), by decide +kernel, passes_of (by decide +kernel)⟩

/-- Lane 5 stands at its meeting point, in J2 for another address; lane 6 is the one member of J3 and stands at its meeting point. -/
def atMeet : Cohort :=
  { c0 with joins := [(2, (0x20, 0x80)), (3, (0x40, 0x44))],
            lanes := c0.lanes.mapIdx (fun l x => if l = 5 then { x with pc := 0x40, mr := 0x40, meets := [0x80] }
              else if l = 6 then { x with pc := 0x44, mr := 0x44 } else x) }
theorem test_witness_Joins_alone : (st atMeet).cohort 0 = some atMeet ∧ atMeet.park = none ∧ atMeet.live.has 5 = true ∧
    (atMeet.lane 5).waitj = none ∧ (atMeet.lane 5).pc = (atMeet.lane 5).mr ∧ (∀ n < 8, (atMeet.j n).1.has 5 = true → (atMeet.j n).2 ≠ 0x40) ∧
    (0x80#32 ≠ (atMeet.lane 5).pc) ∧ atMeet.hmode = false ∧ atMeet.joinDue 3 = true ∧ atMeet.joinDue 2 = false ∧ atMeet.serial = false ∧
    (st atMeet).cohorts.wf = true ∧ (st atMeet).coreRuns (coreOf 0) = true := by decide +kernel
theorem test_lone_release : (((st atMeet).settleCohort 0).cohort 0).map (fun co => ((co.lane 5).mr, (co.lane 6).mr, (co.j 3).1)) =
    some (0x80, 0xFFFFFFFF, 0) := by decide +kernel

/-- Lanes at the deepest meet depth there is. -/
theorem test_witness_deepMeet :
    let s := st { c0 with lanes := c0.lanes.map (fun x => { x with meets := List.replicate 64 0 }) }
    s.Passes (.meet (bw 7 0 0 (some 0x40))) (envAt (.meet (bw 7 0 0 (some 0x40))) s) ∧
      ((envAt (.meet (bw 7 0 0 (some 0x40))) s).co.j 7).1 = 0 ∧ ((envAt (.meet (bw 7 0 0 (some 0x40))) s).co.lane 0).depth = 64 ∧
      (envAt (.meet (bw 7 0 0 (some 0x40))) s).act.has 0 = true :=
  ⟨passes_of (by decide +kernel), by decide +kernel⟩

/-- A join all of whose members wait, one of them at a WAITJ. -/
theorem test_witness_joinDue :
    let co := { c0 with
      joins := [(2, (3, 0x58))]
      lanes := c0.lanes.map (fun x => { x with pc := 0x58, mr := 0x58, meets := [0xFFFFFFFF], waitj := if x.tid = 0 then some (2, 4) else none }) }
    co.joinDue 2 = true ∧ co.park = none ∧ (st co).cohort 0 = some co ∧ (st co).coreRuns 0 = true := by decide +kernel

theorem test_witness_ExitEndsLanes : (st c0).Passes (.exit (bw 0 0 0)) (envAt (.exit (bw 0 0 0)) (st c0)) ∧ c0.tx = none ∧
    (st { c0 with tx := some { abort := 0x80, vd := 10 } }).Passes (.exit (bw 0 0 0))
      (envAt (.exit (bw 0 0 0)) (st { c0 with tx := some { abort := 0x80, vd := 10 } })) :=
  ⟨passes_of (by decide +kernel), rfl, passes_of (by decide +kernel)⟩

theorem test_witness_HandlerEntryAndReturn : (st c0).Passes (.trap (bw 0 9 0)) (envAt (.trap (bw 0 9 0)) (st c0)) ∧
    (st c0).Passes (.bkpt (bw 0 0 0)) (envAt (.bkpt (bw 0 0 0)) (st c0)) ∧
    (st c0).handlerOf (envAt (.bkpt (bw 0 0 0)) (st c0)).blk = some 0x400 ∧ c0.hmode = false ∧
    (st { c0 with hmode := true, hlanes := 0xF, xpc := 0x20 }).Passes (.xret (bw 0 0 0))
      (envAt (.xret (bw 0 0 0)) (st { c0 with hmode := true, hlanes := 0xF, xpc := 0x20 })) ∧
    (st c0).Passes (.xret (bw 0 0 0)) (envAt (.xret (bw 0 0 0)) (st c0)) :=
  ⟨passes_of (by decide +kernel), passes_of (by decide +kernel), by decide +kernel, rfl, passes_of (by decide +kernel), passes_of (by decide +kernel)⟩

theorem test_witness_TrapsThatPark :
    let s := { st c0 with launches := [(0, { fetchLaunch with kernels := [(0, { kern with handler := 0xFFFFFFFF })] })] }
    s.envFor (.bkpt (bw 0 0 0)) = some (envAt (.bkpt (bw 0 0 0)) s) ∧ s.handlerOf (envAt (.bkpt (bw 0 0 0)) s).blk = none ∧
      (envAt (.bkpt (bw 0 0 0)) s).co.tx = none ∧ (envAt (.bkpt (bw 0 0 0)) s).co.park = none :=
  ⟨envFor_at (by decide +kernel), by decide +kernel, by decide +kernel, by decide +kernel⟩

theorem test_witness_SystemRegisters : Issues (st (cWith [(8, .u 0x3F), (9, .u 0x40)]))
  [.gets (bw 10 0 0), .gets (bw 10 1 0), .gets (bw 10 26 0), .sets (bw 21 1 0), .sets (bw 20 8 0), .sets (bw 20 9 0), .sets (bw 21 9 0),
    .setfp (bw 10 8 9), .setfp (bw 10 1 9), .setfp (bw 10 9 9)]
  [Cells.gets, Cells.sets, Cells.setfp] := takes_of (by decide +kernel)

/-- Sources that are uniform, with and without a reserved FPCTL bit, and one that is not. -/
theorem test_witness_fpctlSources :
    let s := st (cWith [(8, .u 0x3F), (9, .u 0x40)])
    (envAt (.sets (bw 20 8 0)) s).va.isU = true ∧ (envAt (.sets (bw 20 8 0)) s).va.at 0 &&& 0x7FFFFFC0#32 = 0 ∧
      (envAt (.sets (bw 20 9 0)) s).va.at 0 &&& 0x7FFFFFC0#32 ≠ 0 ∧ (envAt (.sets (bw 21 1 0)) s).va.isU = false ∧
      (envAt (.setfp (bw 10 8 9)) s).va.isU = true ∧ (envAt (.setfp (bw 10 8 9)) s).vb.isU = true := by decide +kernel

/-! #### Memory, synchronisers, engines -/

/-- V8:V9 is 0xFF8 in every lane, the last eight bytes of the page; V10 is the lane number times 4. -/
def cMem : Cohort := cWith [(8, .u 0xFF8), (10, .a 0 4)]
/-- The same with an empty transaction, and its state with the buffer's line for 0xFC0 present. -/
def cTx : Cohort := { cMem with tx := some { abort := 0x80, vd := 11 } }
def stTx : State := st cTx { blk0 with holder := some 0, buf := [(0xFF8, 1)] }

theorem test_witness_GlobalLoads : IssuesWith (st cMem) [.ldExt (xw 12 8 0 0 12)]
    (fun e => e.cell == Cells.ld && !e.buffered && decide (e.w.d.toNat < 256) && placedB e .read) ∧
    IssuesWith stTx [.ldExt (xw 12 8 0)]
    (fun e => e.cell == Cells.ld && e.buffered && e.w.ord == 0 && decide (e.w.d.toNat < 256) && placedB e .read) :=
  ⟨holds_of (by decide +kernel), holds_of (by decide +kernel)⟩

/-- A page of INT8 elements in blocks of 256 bytes: bytes 252 to 255 are its last data bytes, byte 256 is of the scale table. -/
def stQ (a : Nat) : State :=
  let c : Core := { tlb := [{ vf := 0, page := 0, size := 4096, ipa := 0, phys := 0, p1 := 7, p2 := 7, fattr := 0x10, s1 := 4096 }] }
  { st (cWith [(8, .u (BitVec.ofNat 32 a))]) with cores := [(0, c)] }

/-- The scale entry of the element read translates, too. -/
theorem test_witness_DecodingLoads :
    IssuesWith (stQ 252) [.ldq (xw 12 8 2)] (fun e => e.cell == Cells.ldq && placedB e .read && !e.buffered &&
      (List.range 32).all (fun l =>
        match qfmtOf (xlOf e .read l).fattr with
        | some q => q.isData 252 4096 &&
          (match e.s.translate (e.s.coreTlbs e.core) e.blk.vf (BitVec.ofNat 64 (q.scaleOff 252 1)) .read with
           | .ok y => !e.s.poisoned y.pa
           | .error _ => false)
        | none => false)) ∧
    IssuesWith (stQ 256) [.ldq (xw 12 8 2)] (fun e => placedB e .read && e.co.park.isNone && e.co.tx.isNone &&
      (List.range 32).all (fun l => match qfmtOf (xlOf e .read l).fattr with
        | some q => !q.isData 256 4096
        | none => false)) := ⟨holds_of (by decide +kernel), holds_of (by decide +kernel)⟩

/-- Four members of a gang on cores 0 to 3; V8 names offset 0xFF8 of member 3, the last eight bytes of its allocation. -/
def gang : State :=
  let b (m : Nat) : Block := { blk0 with core := m, member := some m, gang := some 5, aspBase := 1024 * m, node := 4 + m }
  { st (cWith [(8, .u 0xC00FF8), (10, .u 0xFF8), (12, .u 8), (14, .u 0x100)]) (b 0) with
    blocks := [(0, b 0), (1, b 1), (2, b 2), (3, b 3)] }
/-- The same with V8 naming another peer address. -/
def gangAt (a : Nat) : State := { gang with cohorts := [(0, cWith [(8, .u (BitVec.ofNat 32 a))])] }

theorem test_witness_LocalAccesses :
    IssuesWith (st cMem) [.ldsExt (xw 12 8 0 0 12), .ldwExt (xw 12 8 0 0 12), .stsExt (xw 0 8 2 0 12)]
      (fun e => decide (e.w.d.toNat < 256) && (List.range 32).all (fun l => (e.va.at l).toNat % 8 == 0 &&
        decide ((e.va.at l).toNat + e.ty.bytes ≤ min e.blk.aspBound e.blk.wbfBound))) ∧
    IssuesWith gang [.ldsPeer (xw 12 8 0), .stsPeer (xw 0 8 2)]
      (fun e => e.blk.member.isSome && !e.buffered && (List.range 32).all (fun l => (e.va.at l).toNat % 4 == 0 &&
        !e.peerBad (e.va.at l) 4 && (e.peerBlock (e.va.at l)).isSome)) := ⟨holds_of (by decide +kernel), holds_of (by decide +kernel)⟩

theorem test_witness_GlobalStores : IssuesWith (st cMem) [.stExt (xw 0 8 2 0 12)] (fun e => placedB e .write && !e.buffered) ∧
    IssuesWith stTx [.stExt (xw 0 8 2 0 12)] (fun e => placedB e .write && e.buffered && e.w.ord == 0 &&
      (List.range 32).all (fun l => e.blk.buf.any (fun p => p.1 / 64 == (e.devAddr l).toNat / 64))) :=
  ⟨holds_of (by decide +kernel), holds_of (by decide +kernel)⟩

/-- V1 is the lane number: addresses that no width above one byte divides. -/
theorem test_witness_MisalignedAccesses : IssuesWith (st (cWith [(8, .a 0 1)]))
    [.ld (bw 12 8 0), .st (bw 0 8 2), .lds (bw 12 8 0), .sts (bw 0 8 2), .ldw (bw 12 8 0), .atomAdd (bw 12 8 2), .atomFadd (bw 12 8 2),
      .atomMin (bw 12 8 2), .atomMax (bw 12 8 2), .atomAnd (bw 12 8 2), .atomOr (bw 12 8 2), .atomXor (bw 12 8 2), .atomXchg (bw 12 8 2),
      .atomCas (xw 12 8 2 3), .redAdd (bw 0 8 2), .redFadd (bw 0 8 2), .redMin (bw 0 8 2), .redMax (bw 0 8 2), .redAnd (bw 0 8 2),
      .redOr (bw 0 8 2), .redXor (bw 0 8 2)]
    (fun e => !e.buffered && decide (e.w.d.toNat < 256) && (e.devAddr 1).toNat % e.ty.bytes != 0) := holds_of (by decide +kernel)

/-- Through a peer window: an address that is not aligned, and one of four bytes at the last two of the allocation of member 3. -/
theorem test_witness_MisalignedAccesses_peer :
    IssuesWith (gangAt 0xC00FFA) [.ldsPeer (xw 12 8 0), .stsPeer (xw 0 8 2)]
      (fun e => e.blk.member.isSome && !e.buffered && (e.va.at 0).toNat % e.ty.bytes != 0) ∧
    IssuesWith (gangAt 0xC01000) [.ldsPeer (xw 12 8 0), .stsPeer (xw 0 8 2)]
      (fun e => e.blk.member.isSome && !e.buffered && (List.range 32).all (fun l => (e.va.at l).toNat % e.ty.bytes == 0) && e.peerBad (e.va.at 0) e.ty.bytes) ∧
    IssuesWith (st (cWith [(8, .u 0x1000)])) [.lds (bw 12 8 0), .sts (bw 0 8 2), .ldw (bw 12 8 0)]
      (fun e => (List.range 32).all (fun l => (e.va.at l).toNat % e.ty.bytes == 0) && decide (e.blk.aspBound < (e.va.at 0).toNat + e.ty.bytes) &&
        decide (e.blk.wbfBound < (e.va.at 0).toNat + e.ty.bytes)) :=
  ⟨holds_of (by decide +kernel), holds_of (by decide +kernel), holds_of (by decide +kernel)⟩

/-- General results of full issues for V300, from V1, which is affine, and V4, which is general. -/
def generalResults : List Instr :=
  ([.sel (xw 300 2 3 1), .ptovExt (xw 300 1 0), .matchLanesExt (xw 300 4 0), .lcompExt (xw 300 4 1), .getsExt (xw 300 27 0),
    .movExt (xw 300 4 0), .inegExt (xw 300 4 0), .iaddExt (xw 300 4 2), .isubExt (xw 300 2 4), .leaExt (xw 300 4 2), .imulExt (xw 300 1 1),
    .shlExt (xw 300 2 1), .imad (xw 300 1 1 2), .iaddExt (xw 300 1 2 0 0 4)] : List Instr) ++
  [.iabsExt (xw 300 1 0), .notExt (xw 300 1 0), .lxchIdxExt (xw 300 1 2), .fabsExt (xw 300 1 0), .frndExt (xw 300 1 0), .fex2Ext (xw 300 1 0),
    .pk6Ext (xw 300 1 0), .imulhExt (xw 300 2 1), .andExt (xw 300 2 1), .faddExt (xw 300 2 1), .fminExt (xw 300 2 1), .phaddExt (xw 300 2 1),
    .qnt (xw 300 2 1 0 8 0x310), .bfe (xw 300 2 2 1), .ffma (xw 300 2 2 1), .iadd64Ext (xw 300 4 6), .imad64 (xw 300 2 2 4),
    .lea64Ext (xw 300 6 1), .cvt (xw 300 1 0 0 2 0x310)]
theorem test_witness_ChecksAtIssue_full :
    IssuesWith (st c0) generalResults (fun e => decide (256 ≤ e.w.d.toNat ∧ e.w.d.toNat ≠ zv) && e.full) ∧
    (c0.v 1).isU = false ∧ (c0.v 4).isG = true ∧ c0.pairU 4 = false := ⟨holds_of (by decide +kernel), by decide +kernel⟩
theorem test_general_to_narrow : generalResults.all (fun i => match exec i (st c0) with
    | .next t => (t.cohort 0).map (fun co => (co.xcause.toNat, co.xmask)) == some (2, 0xFFFFFFFF#32)
    | _ => false) = true := by decide +kernel

/-- Narrow destinations of partial issues, and of loads and atomics. -/
theorem test_witness_ChecksAtIssue_shapes :
    let narrow (e : Env) : Bool := decide (256 ≤ e.w.d.toNat ∧ e.w.d.toNat ≠ zv)
    IssuesWith (st { cBar with preds := [(1, 2)] })
      [.callExt (xw 300 0 0 0 0 0 (some 0x40) 0 0 false 1), .callxExt (xw 300 8 0 0 0 0 none 0 0 false 1), .walletExt (xw 300 0 2 0 0 0 none 0 0 false 1),
        .boostExt (xw 300 0 2 0 0 0 none 0 0 false 1), .bcastExt (xw 300 4 2 0 0 0 none 0 0 false 1), .barArrExt (xw 300 8 0 0 0 0 none 0 0 false 1)]
      (fun e => narrow e && !e.full && !e.w.peer) ∧
    IssuesWith (st cMem) [.ldExt (xw 300 10 0), .ldq (xw 300 10 2), .ldsExt (xw 300 10 0), .ldwExt (xw 300 10 0), .atomAddExt (xw 300 10 2), .atomCas (xw 300 10 2 3),
        .trdExt (xw 300 1 2)] (fun e => narrow e && !e.buffered) ∧
    IssuesWith gang [.ldsPeer (xw 300 8 0)] (fun e => narrow e && e.blk.member.isSome) :=
  ⟨holds_of (by decide +kernel), holds_of (by decide +kernel), holds_of (by decide +kernel)⟩

/-- Each lane has an element of its own at V10. -/
theorem test_witness_Atomics : IssuesWith (st (cWith [(10, .a 0 4)]))
    [.atomAdd (bw 12 10 2), .atomFadd (bw 12 10 2), .atomMin (bw 12 10 2), .atomMax (bw 12 10 2), .atomAnd (bw 12 10 2), .atomOr (bw 12 10 2),
      .atomXor (bw 12 10 2), .atomXchg (bw 12 10 2), .atomCas (xw 12 10 2 3)]
    (fun e => !e.buffered && decide (e.w.d.toNat < 256) && placedB e .rmw) := holds_of (by decide +kernel)

theorem test_witness_Reductions : IssuesWith (st (cWith [(10, .a 0 4)]))
    [.redAdd (bw 0 10 2), .redFadd (bw 0 10 2), .redMin (bw 0 10 2), .redMax (bw 0 10 2), .redAnd (bw 0 10 2), .redOr (bw 0 10 2), .redXor (bw 0 10 2)]
    (fun e => !e.buffered && placedB e .rmw && decide (e.co.ocCount 3 < 63) && e.s.firstInLine e.slot e.co e.pc &&
      decide (cdiv (popc e.act) 8 ≤ (e.s.core e.core).wallet)) := holds_of (by decide +kernel)

/-- The last request of a burst, the one operation its cohort counts. -/
theorem test_witness_redApply :
    let r : RedReq := { id := 9, slot := 0, vf := 0, opc := 0xB6, ty := .b64, va := 0x100, pa := 0x100, value := 5 }
    let s := { st { c0 with ocRed := [{ id := 9 }] } with reds := [r] }
    (s.reds[0]? = some r ∧ 0xB0 ≤ r.opc ∧ r.opc ≤ 0xB6 ∧ r.ty.bits ∈ [32, 64] ∧ (r.opc = 0xB1 → r.ty.bits = 32) ∧
      s.clocked (dieOf (coreOf r.slot)) = true ∧ s.clocked (homeDie r.pa) = true ∧ s.physFault r.pa = none ∧
      s.physFault (2 * 2 ^ 48) = some 17 ∧ inHbm (2 * 2 ^ 48) = false ∧
      (if ({ r with lost := true } : RedReq).lost then some 17 else none) = some 17) ∧
      (∃ c, s.cohort 0 = some c ∧ c.park = none ∧ ∃ o, c.ocRed = [o] ∧ o.id = r.id) :=
  ⟨by decide +kernel, _, rfl, rfl, _, rfl, rfl⟩
/-- Requests at a line of the other die, whose clocks stand, and at a port, from a cohort of it. -/
theorem test_witness_redWaits :
    let cold : State := { st c0 with dies := [(1, { tstate := .emergency })] }
    inHbm 0x140 = true ∧ cold.clocked (dieOf (coreOf 0)) = true ∧ cold.clocked (homeDie 0x140) = false ∧ cold.clocked (dieOf (coreOf 2048)) = false := by
  decide +kernel

/-- The object operand of a BAR instruction passes its checks. -/
theorem barReady_of {e : Env} {bi off : Nat} {b : Block} (h : (e.va.isU && (e.va.at 0).toNat % 16 == 0 && !e.w.peer &&
    decide ((e.va.at 0).toNat + 16 ≤ e.blk.aspBound) && e.barTarget == (some (bi, b), off) && e.s.block bi == some b) = true) :
    e.BarReady bi b off := by
  simp only [Bool.and_eq_true, beq_iff_eq, decide_eq_true_eq, Bool.not_eq_true'] at h
  obtain ⟨⟨⟨⟨⟨h1, h2⟩, h3⟩, h4⟩, h5⟩, h6⟩ := h
  exact ⟨h1, h2, fun _ => h4, (by simp [h3]), h5, h6⟩

/-- An object at offset 0x20 in a state in which BAR.INIT has set it up for one arrival. -/
theorem test_witness_Barriers :
    (∀ i ∈ [Instr.barInit (bw 0 8 0 (some 65535)), .barArr (bw 12 8 0), .barWait (bw 0 8 11), .barXin (bw 0 8 0 (some 7)), .barXout (bw 0 8 0 (some 7))],
      (st cBar).Passes i (envAt i (st cBar)) ∧ (envAt i (st cBar)).BarReady 0 blk0 0x20 ∧ (envAt i (st cBar)).surr = false) ∧
    ((after (.barInit (bw 0 8 0 (some 1))) (st cBar)).bar blk0 0x20).rsv = 0 ∧
    ((after (.barInit (bw 0 8 0 (some 1))) (st cBar)).bar blk0 0x20).exp ≠ 0 ∧
    ((after (.barInit (bw 0 8 0 (some 1))) (st cBar)).bar blk0 0x20).pend ≠ 0 := by
  refine ⟨?_, by decide +kernel, by decide +kernel, by decide +kernel⟩
  simp only [List.forall_mem_cons, List.not_mem_nil, false_implies, implies_true, and_true]
  exact ⟨⟨passes_of (by decide +kernel), barReady_of (by decide +kernel), by decide +kernel⟩,
    ⟨passes_of (by decide +kernel), barReady_of (by decide +kernel), by decide +kernel⟩,
    ⟨passes_of (by decide +kernel), barReady_of (by decide +kernel), by decide +kernel⟩,
    ⟨passes_of (by decide +kernel), barReady_of (by decide +kernel), by decide +kernel⟩,
    ⟨passes_of (by decide +kernel), barReady_of (by decide +kernel), by decide +kernel⟩⟩

/-- The hypotheses of CopiesArePosted on the operands. -/
def copyOk (k : CopyKind) (e : Env) : Bool :=
  e.fieldU (k == .cpyo) e.w.a.toNat && e.fieldU (k == .cpy || k == .cpym) e.w.b.toNat && e.fieldU (e.cRcv || e.cSnd) e.w.c.toNat &&
    (!e.cDec || (e.cLen % 2 == 0 && (e.va.at 0).toNat % 2 == 0)) && (e.copyDesc k).isNone && !e.buffered &&
    (e.copyMembers k).all (fun m => (e.s.memberBlock e.co.blk e.blk m).isSome) && decide (e.co.ocCount 0 < 63) &&
    e.s.firstInLine e.slot e.co e.pc && decide (2 * cdiv e.cLen 4096 ≤ (e.s.core e.core).wallet)

/-- Copies of eight bytes to or from the last eight bytes of an allocation. -/
theorem test_witness_CopiesArePosted :
    IssuesWith gang [.cpy (xw 2 10 14 12)] (fun e => e.cell == Cells.cpy && copyOk .cpy e) ∧
    IssuesWith gang [.cpym (xw 2 10 14 12)] (fun e => e.cell == Cells.cpym && e.blk.member.isSome && copyOk .cpym e) ∧
    IssuesWith gang [.cpyo (xw 2 14 10 12)] (fun e => e.cell == Cells.cpyo && copyOk .cpyo e) ∧
    IssuesWith gang [.cpyp (xw 2 8 10 12)] (fun e => e.cell == Cells.cpyp && e.blk.member.isSome && copyOk .cpyp e) :=
  ⟨holds_of (by decide +kernel), holds_of (by decide +kernel), holds_of (by decide +kernel), holds_of (by decide +kernel)⟩

theorem test_witness_WaitsConflictsAndWaves : IssuesWith (st c0) [.waitoc (bw 0 3 0), .waitwp (bw 0 7 2), .rdwp (bw 12 0 0)]
    (fun e => decide (e.w.d.toNat < 256) && (e.cell.opc != 0xD6 || e.vb.isU)) ∧
    IssuesWith (st c0) [.waitwp (bw 0 7 1)] (fun e => !e.vb.isU) ∧
    (∃ x, ({ c0 with tx := some { abort := 0x80, vd := 11, conflict := true } } : Cohort).tx = some x ∧ x.conflict = true) ∧ (st c0).clocked 0 = true ∧
    (({ st c0 with clusters := [(0, { waves := [{ slots := [1, 2, 3], size := 2 }] })] }).cluster 0).waves = [{ slots := [1, 2, 3], size := 2 }] :=
  ⟨holds_of (by decide +kernel), holds_of (by decide +kernel), ⟨_, rfl, rfl⟩, by decide +kernel, by decide +kernel⟩

theorem test_witness_TransactionsAndGuards :
    IssuesWith (st c0) [.txb (bw 10 0 0 (some 0x80))] (fun e => !e.surr && e.co.tx.isNone && e.full && e.blk.holder.isNone) ∧
    IssuesWith stTx [.txb (bw 10 0 0 (some 0x80)), .txa (bw 0 0 0), .txc (bw 0 0 0)] (fun e => !e.surr && e.co.tx.isSome && e.full) ∧
    IssuesWith (st { cTx with tx := some { abort := 0x80, vd := 11, conflict := true } }) [.txc (bw 0 0 0)]
      (fun e => !e.surr && (e.co.tx.map (·.conflict)) == some true && e.full) ∧
    IssuesWith (st { cTx with preds := [(1, 1)] }) [.txw (bw 0 8 0 none false 1)]
      (fun e => !e.surr && (e.co.tx.map (fun x => decide (x.watch.length + popc e.act ≤ 16))) == some true && placedB e .read) ∧
    IssuesWith (st c0 { blk0 with surrogate := true }) [.gchk (bw 0 2 0), .gchk (bw 0 4 0)] (fun e => e.surr) ∧
    IssuesWith (st c0) [.gchk (bw 0 2 0)] (fun e => !e.surr) :=
  ⟨holds_of (by decide +kernel), holds_of (by decide +kernel), holds_of (by decide +kernel), holds_of (by decide +kernel),
    holds_of (by decide +kernel), holds_of (by decide +kernel)⟩

/-- The buffered byte of a transaction translates. -/
theorem test_witness_commit : ∃ l, stTx.commitXlat (stTx.coreTlbs 0) 0 .rmw [(0xFF8, 1)] = .ok l ∧ (l.map Prod.fst).Nodup :=
  ⟨[(0xFF8, 1)], rfl, by decide +kernel⟩

theorem test_witness_DescriptorsAndTiles : IssuesWith (st (cWith [(8, .u 1), (9, .u 0x800), (10, .u 16352)]))
    [.dsetExt (xw 15 8 9 0 0 1), .dget (bw 12 15 0), .tzero (bw 23 0 0), .twr (bw 23 2 10), .trd (bw 12 23 10), .tcvt (xw 1 0 8 0 4 0)]
    (fun e => e.blk.tiles.wf && (e.cell.opc != 0xE1 || decide (e.w.d.toNat < 256)) &&
      (e.cell.opc != 0xE0 || (e.va.isU && e.fieldU (e.w.sub.getLsbD 1) e.w.b.toNat)) &&
      (!([0xE3, 0xE4].contains e.cell.opc) || (e.vb.isU && decide ((e.vb.at 0).toNat ≤ 16352))) && (e.cell.opc != 0xE5 || e.vb.isU)) :=
  holds_of (by decide +kernel)

/-- D0 and D2 lie in the scratchpad, D1 is 8 KiB of the weight buffer; V8 to V11 are a run of metadata with four kept of
eight. -/
def cMat : Cohort :=
  { cWith [(8, .u 0x0F0F0F0F), (9, .u 0x0F0F0F0F), (10, .u 0x0F0F0F0F), (11, .u 0x0F0F0F0F)] with
    descs := [(0, 0x00000001000000000000400000000000), (1, 0x00000002000000000000200000000000), (2, 0x00000001000000000000080000000000),
      (3, 0x00000001000000000000001800000000), (4, 0x00000001000000000000000800000100)] }

def stMat : State := st cMat { blk0 with aspBound := 0x4000, aspSize := 0x4000, wbfBound := 0x4000, wbfSize := 0x4000 }

/-- The hypotheses of EngineOperationsArePosted on a matrix operation. -/
def matReady (e : Env) : Bool :=
  let k := kTotal e.matTy e.w.passes
  let a := Dsc.of (e.co.d e.w.a.toNat)
  let b := Dsc.of (e.co.d e.w.b.toNat)
  let sparse := e.cell == Cells.mmas
  let gather := e.cell == Cells.mmag
  let ra := rowsA e.matTy k sparse gather
  let rb := rowsB e.matTy k e.w.grp
  let c := e.s.cluster (clusterOf e.core)
  e.full && e.co.gone == 0 && (e.matTy != .q4a || k % groupOf e.w.grp == 0) && !a.misaligned ra && !e.dscBad a [1] ra &&
    !b.misaligned rb && !e.dscBad b [2] rb && (!gather || e.gatherIdx.all (fun x => decide (x.toNat * a.stride ra + ra.len ≤ a.extent))) &&
    (!sparse || (List.range 128).all (fun r => (List.range (k / 8)).all (fun g => popByte (metaByte e.cReg r g) == 4))) &&
    decide (e.co.ocCount 1 < 63) && e.placeFree 1 (16 - c.tableUse) && e.s.firstInLine e.slot e.co e.pc &&
    decide ((if sparse then 28 else 48) * e.w.passes ≤ (e.s.core e.core).wallet)

theorem test_witness_EngineOperationsArePosted : IssuesWith stMat
    [.mmaE4m3 (xw 23 0 1), .mmaE5m2 (xw 0 0 1), .mmaI8 (xw 0 0 1), .mmaBf16 (xw 0 0 1), .mmaQ4a (xw 0 0 1), .mmag (xw 0 0 1 16), .mmas (xw 0 0 1 8)]
    matReady ∧
    IssuesWith stMat [.cmpr (xw 32 2 1 0 2 0 none 0 15)] (fun e =>
      let a := Dsc.of (e.co.d e.w.a.toNat)
      let b := Dsc.of (e.co.d e.w.b.toNat)
      let n := e.w.modb.toNat % 128 + 1
      let kk := kTotal e.ty e.w.passes
      let ra : Rows := { n := n, len := kk / 2 * elemBytes e.ty }
      let rb : Rows := { n := n, len := kk * elemBytes e.ty }
      e.full && e.co.gone == 0 && !a.misaligned ra && !e.dscBad a [1] ra && !b.misaligned rb && !e.dscBad b [1, 2] rb &&
        decide (e.co.ocCount 1 < 63) && e.s.firstInLine e.slot e.co e.pc && decide (8 ≤ (e.s.core e.core).wallet)) ∧
    IssuesWith stMat [.vga (xw 20 3 4)] (fun e =>
      let a := Dsc.of (e.co.d e.w.a.toNat)
      let b := Dsc.of (e.co.d e.w.b.toNat)
      decide (e.w.d.toNat < 256) && a.base % 4 == 0 && b.base % 4 == 0 && !e.dscBad a [1, 2] { n := 1, len := a.extent } &&
        !e.dscBad b [1, 2] { n := 1, len := b.extent } && decide (a.extent ≤ 131072) && decide (b.extent / 4 ≤ 65535) &&
        decide (e.co.ocCount 2 < 63) && e.placeFree 2 32 && e.s.firstInLine e.slot e.co e.pc &&
        decide (4 + cdiv (cdiv a.extent 4) 64 ≤ (e.s.core e.core).wallet)) :=
  ⟨holds_of (by decide +kernel), holds_of (by decide +kernel), holds_of (by decide +kernel)⟩

theorem test_witness_MatrixVector : IssuesWith { st (cWith [(8, .u 0x3F800000), (9, .u 0x40000000), (10, .u 4088)]) with
      cores := [(0, { core0 with wbf := [(0xFFA, 0x80), (0xFFB, 0x3F), (0xFFF, 0x40)] })] } [.mvt (xw 16 8 10 0 0 0 none 0x001)]
    (fun e => (List.range 32).all (fun l => (e.vb.at l).toNat % 4 == 0 && decide ((e.vb.at l).toNat + 8 ≤ e.blk.wbfBound)) &&
      e.s.firstInLine e.slot e.co e.pc && decide (1 + cdiv (2 * 32) 16 ≤ (e.s.core e.core).wallet)) := holds_of (by decide +kernel)

theorem test_witness_TokensBoostAndTime : IssuesWith (st (cWith [(8, .u 500), (9, .u 501), (10, .u 1024)]))
    [.wallet (bw 12 0 8), .wallet (bw 12 0 9), .wallet (bw 12 0 10), .boost (bw 12 0 10), .boost (bw 12 0 11), .permits (bw 12 0 0), .cycle (bw 12 0 0)]
    (fun e => decide (e.w.d.toNat < 256) && e.vb.isU) := holds_of (by decide +kernel)

/-- Allocations of 64 and 256 registers in a cohort of 64, in a core with room and in one whose registers another block holds. -/
def full : State :=
  { st { c0 with g := 64 } with
    cohorts := (0, { c0 with g := 64 }) :: (List.range 32).map (fun i => (i + 1, Cohort.fresh 1 0 32 256)) }

/-- The agent that took the node is on die 1, which stands still. -/
def takerCold : State := { st c0 { blk0 with taker := 9 } with dies := [(1, { tstate := .emergency })] }

theorem test_witness_RegistersAndEarlyResult :
    IssuesWith (st { c0 with g := 64 }) [.freereg (bw 0 7 0), .freereg (bw 0 0 0), .allocreg (bw 3 7 0), .allocreg (bw 3 31 0), .nres (bw 0 0 0)]
      (fun e => e.blk.table.isNone && e.full && !e.surr && !e.laterInPool && decide ((256 - e.co.g) * e.co.liveSlices ≤ e.s.slicePool e.core)) ∧
    IssuesWith (st { c0 with g := 64 }) [.freereg (bw 0 32 0), .allocreg (bw 3 63 0)] (fun e => decide (256 < 8 * (e.w.a.toNat + 1))) ∧
    IssuesWith (st { c0 with g := 64 }) [.freereg (bw 0 8 0)] (fun e => decide (e.co.g < 8 * (e.w.a.toNat + 1))) ∧
    IssuesWith full [.allocreg (bw 3 31 0)] (fun e => decide (e.s.slicePool e.core < (256 - e.co.g) * e.co.liveSlices)) ∧
    IssuesWith (st c0 { blk0 with table := some [] }) [.freereg (bw 0 7 0), .allocreg (bw 3 7 0)] (fun e => e.blk.table.isSome) ∧
    IssuesWith (st c0 { blk0 with surrogate := true }) [.nres (bw 0 0 0)] (fun e => e.surr) ∧
    IssuesWith (st c0 { blk0 with handed := true }) [.nres (bw 0 0 0)] (fun e => e.blk.handed && !e.surr) ∧
    IssuesWith (st c0) [.nres (bw 0 0 0)] (fun e => !e.blk.handed && !e.surr && e.s.takerRuns e.blk) ∧
    IssuesWith takerCold [.nres (bw 0 0 0)] (fun e => !e.blk.handed && !e.surr && !e.s.takerRuns e.blk) :=
  ⟨holds_of (by decide +kernel), holds_of (by decide +kernel), holds_of (by decide +kernel), holds_of (by decide +kernel), holds_of (by decide +kernel),
    holds_of (by decide +kernel), holds_of (by decide +kernel), holds_of (by decide +kernel), holds_of (by decide +kernel)⟩
/-- A count above 256 traps where a lane is active (R303). -/
theorem test_freereg_count : (aco (.freereg (bw 0 32 0)) (st c0)).xcause.toNat % 256 = 1 ∧ (aco (.freereg (bw 0 8 0)) (st c0)).g = 72 := by
  decide +kernel

/-- A block and its cohorts in order, checked. -/
def blockOkB (s : State) (bi : Nat) (b : Block) : Bool :=
  s.block bi == some b &&
  s.cohorts.wf &&
  (List.range b.slots.length).all (fun k => match b.slots.getD k none with
    | none => true
    | some sl => match s.cohort sl with
      | some co => co.blk == bi && co.cohid == k
      | none => false) &&
  s.cohorts.all (fun p => p.2.blk != bi || (b.slots.getD p.2.cohid none == some p.1 && p.2.lanes.length == 32 && decide (p.2.g ≤ 256) &&
    (List.range 32).all (fun l => decide ((p.2.lane l).depth ≤ 8) && (!p.2.live.has l || p.2.slices.getLsbD (l / 8)))))

theorem blockOk_of {s : State} {bi : Nat} {b : Block} (h : blockOkB s bi b = true) : s.BlockOk bi b := by
  simp only [blockOkB, Bool.and_eq_true, beq_iff_eq, List.all_eq_true, List.mem_range] at h
  obtain ⟨⟨⟨h1, h0⟩, h2⟩, h3⟩ := h
  have ofLook {sl : Nat} {co : Cohort} (hc : s.cohort sl = some co) (hb : co.blk = bi) := by
    have := h3 _ (SMap.mem_of_look hc)
    simpa only [hb, bne_self_eq_false, Bool.false_or, Bool.and_eq_true, beq_iff_eq, decide_eq_true_eq, List.all_eq_true, List.mem_range] using this
  refine ⟨h1, h0, fun k sl hk => ?_, fun sl co hc hb => (ofLook hc hb).1.1.1, fun sl co hc hb => ?_⟩
  · have hlt : k < b.slots.length := by
      by_contra hn
      rw [List.getD_eq_default _ _ (by omega)] at hk
      cases hk
    have := h2 k hlt
    rw [hk] at this
    dsimp only at this
    split at this
    · rename_i co hc
      simp only [Bool.and_eq_true, beq_iff_eq] at this
      exact ⟨co, hc, this⟩
    · cases this
  · obtain ⟨⟨⟨-, h4⟩, h5⟩, h6⟩ := ofLook hc hb
    refine ⟨h4, h5, fun l hl => ?_⟩
    obtain ⟨h7, h8⟩ := h6 l hl
    refine ⟨h7, fun hv => ?_⟩
    rw [hv] at h8
    simpa using h8

/-- A first cohort has arrived at offset 0, and at offset 8; and a cohort alone at REGROUP.RESTORE of a block that is regrouped. -/
def atColl (off : Nat) : State :=
  st c0 { blk0 with coll := some { restore := false, offset := BitVec.ofNat 32 off, next := 4, key := 1, g := 256, arrived := [] } }
def regroupedS : State := st c0 { blk0 with table := some (List.range 32) }

theorem test_witness_Regrouping : IssuesWith (st c0) [.regroup (bw 0 1 0), .regroupRestore (bw 0 0 0)]
      (fun e => e.full && e.blk.table.isNone && e.blk.coll.isNone &&
        (List.range 32).all (fun l => (e.co.lane l).depth == 0) && (List.range 8).all (fun n => (e.co.j n).1 == 0)) ∧
    IssuesWith regroupedS [.regroupRestore (bw 0 0 0)] (fun e => e.full && e.blk.table.isSome && e.blk.coll.isNone) ∧
    IssuesWith (st { c0 with joins := [(7, (1, 0x40))] }) [.regroup (bw 0 1 0)] (fun e => (e.co.j 7).1 != 0) ∧
    IssuesWith (atColl 0) [.regroup (bw 0 1 0)] (fun e => (e.blk.coll.map (fun c => (c.offset, c.g))) == some (e.pc, e.co.g)) ∧
    IssuesWith (atColl 8) [.regroup (bw 0 1 0)] (fun e => (e.blk.coll.map (fun c => c.offset != e.pc)) == some true) ∧
    ((st c0).cohorts.wf = true ∧ c0.idleEngines = true ∧ c0.vglimit = [] ∧ (st c0).coreRuns 0 = true) ∧ (st c0).BlockOk 0 blk0 ∧
    regroupedS.BlockOk 0 { blk0 with table := some (List.range 32) } :=
  ⟨holds_of (by decide +kernel), holds_of (by decide +kernel), holds_of (by decide +kernel), holds_of (by decide +kernel), holds_of (by decide +kernel),
    by decide +kernel, blockOk_of (by decide +kernel), blockOk_of (by decide +kernel)⟩

/-- The moves once the one cohort of the block has arrived; every lane of a launch stands at its own position. -/
theorem test_witness_moves :
    (∃ b c, (after (.regroup (bw 0 1 0)) (st c0)).collReady 0 false = some (b, c) ∧ (after (.regroup (bw 0 1 0)) (st c0)).BlockOk 0 b) ∧
    ∃ b c, (after (.regroupRestore (bw 0 0 0)) regroupedS).collReady 0 true = some (b, c) ∧
      (after (.regroupRestore (bw 0 0 0)) regroupedS).BlockOk 0 b ∧
      (∀ l < 32, ((after (.regroupRestore (bw 0 0 0)) regroupedS).laneOf { slot := 0, cohid := 0, lane := l }).tid = l) ∧
      b.slots.getD 0 none = some 0 ∧ (after (.regroupRestore (bw 0 0 0)) regroupedS).cohorts.map Prod.fst = [0] :=
  ⟨⟨_, _, rfl, blockOk_of (by decide +kernel)⟩, _, _, rfl, blockOk_of (by decide +kernel), by decide +kernel⟩

/-! #### What the part does on its own -/

/-- A priced instruction at offset 0 that waits for tokens: sixteen have passed it, and it has waited 32 ring clocks first in line. -/
def waiting : Cohort := { c0 with waits := [{ pc := 0, kind := .tokens, need := 48, since := 3, passed := 16, revs := 32 }] }

/-- An ALLOCREG P3, 256 at offset 0 of a core whose registers are all held. -/
def stuck : State :=
  let r : WaitRec := { pc := 0, kind := .registers, need := 768, since := 3 }
  let s := (State.reset.placeCode (words [0x01F0C3CC, 0, 0, 0, 0]))
  { s with
    cohorts := (0, { fetchCohort with g := 64, waits := [r] }) ::
      (List.range 32).map (fun i => (i + 1, { Cohort.fresh 0 0 32 256 with waits := [r], vacant := true, absent := 0 })) }

/-- A state whose dies have no clocks. -/
def gated (s : State) : State := { s with dies := [(0, { tstate := .emergency }), (1, { tstate := .emergency })] }

theorem test_witness_CoreHousekeeping :
    ((st { c0 with idle := 1024 }).cohort 0 = some { c0 with idle := 1024 } ∧ (st c0).coreRuns (coreOf 0) = true ∧
    (let s := { st { c0 with aged := some 5 } with cohorts := [(0, { c0 with aged := some 5 }), (1, { c0 with aged := some 3 })] }
     (1, { c0 with aged := some 3 }) ∈ s.coreCohorts 0 ∧ s.mayIssue { c0 with aged := some 3 } = true ∧ s.candidates 0 0 = [1, 0]) ∧
    (waiting.waits.find? WaitRec.dueFirst).isSome = true ∧
    (((st waiting).line 0).head?.map (fun x => x.2.2.revs)) = some 32 ∧ (st waiting).clocked 0 = true ∧ (gated (st waiting)).clocked 0 = false ∧
    ((gated (st waiting)).line 0).head?.isSome = true ∧
    (st { c0 with exited := 0xFFFFFFFF }).mayRelease { c0 with exited := 0xFFFFFFFF } blk0 = true ∧
    takerCold.mayRelease { c0 with exited := 0xFFFFFFFF } { blk0 with taker := 9 } = true ∧ takerCold.takerRuns { blk0 with taker := 9 } = false ∧
    ({ blk0 with taker := 9, slots := setAt blk0.slots 0 none } : Block).ended = true ∧ takerCold.clocked 0 = true ∧
    ({ blk0 with slots := setAt [some 0, some 1] 0 none } : Block).ended = false ∧
    ((0, { fetchCohort with g := 64, waits := [{ pc := 0, kind := .registers, need := 768, since := 3 }] }) ∈ stuck.coreCohorts 0) ∧
    ((stuck.coreCohorts 0).filter (fun p => !p.2.vacant)).map (fun p => (p.1, p.2.inAllocreg.map (·.need))) = [(0, some 768)] ∧
    stuck.slicePool 0 < 768 ∧ stuck.coreRuns 0 = true ∧
    ((st c0).coreCohorts 0).map (fun p => (p.2.vacant, p.2.inAllocreg)) = [(false, none)]) ∧
    ∃ bs, stuck.fetchAt 0 0 0 20 0 = .ok bs ∧ rawWord bs = some (.base 0xF3 (bw 3 31 0)) :=
  ⟨by decide +kernel, _, rfl, by decide +kernel⟩

/-- Two waits that have become first in line, and one of a block of higher rank that has not. -/
theorem test_witness_firstInLine :
    let r (since : Nat) (p : Option Nat) : WaitRec := { pc := 0, kind := .tokens, need := 48, since := since, passed := if p.isSome then 16 else 3, promoted := p }
    let a : Cohort := { c0 with cohid := 2, waits := [r 3 (some 8)] }
    let b : Cohort := { c0 with cohid := 1, waits := [r 4 (some 9)] }
    let s : State := { st c0 with cohorts := [(0, { c0 with waits := [r 5 none] }), (1, b), (2, a)] }
    (2, a, r 3 (some 8)) ∈ s.allWaits ∧ (r 3 (some 8)).priced = true ∧ (s.coreCohorts 0).map (·.1) = [0, 1, 2] ∧
      (s.line 0).map (·.1) = [2, 1, 0] ∧ s.holdsPrice 2 a 0 48 = true ∧ s.holdsPrice 0 { c0 with waits := [r 5 none] } 0 48 = false := by
  decide +kernel

theorem test_issue_aging : (aco (.issueAging 0) (st { c0 with idle := 1024 })).aged = some 1 ∧ (aco (.issueAging 0) (st { c0 with idle := 1023 })).aged = none := by
  decide +kernel
theorem test_price_line_aging : (aco (.priceLineAging 0) (st waiting)).waits.map (·.promoted) = [some 1] ∧
    (aco (.priceLineAging 0) (gated (st waiting))).waits.map (·.promoted) = [none] := by decide +kernel
theorem test_wallet_starved : ((after (.walletStarved 0) (st waiting)).core 0).starved = some 3 ∧
    ((after (.walletStarved 0) (gated (st waiting))).core 0).starved = none := by decide +kernel
theorem test_cohort_slot_release : (after (.cohortSlotRelease 0) (st { c0 with exited := 0xFFFFFFFF })).cohort 0 = none := by decide +kernel
theorem test_allocreg_deadlock : ((aco (.allocregDeadlock 0) stuck).lane 0).pc = 4 ∧ (aco (.allocregDeadlock 0) stuck).p 3 = 0 := by decide +kernel

/-- One token before station 0, whose four wallets are full but the third, which is starved at 1,022 for an instruction that waits
since 3. -/
def ring : State :=
  { st c0 with
    cores := [(0, { wallet := 1023 }), (1, { wallet := 1023 }), (2, { wallet := 1022, starved := some 3 }), (3, { wallet := 1023 })],
    cohorts := [(128, waiting)], dies := [(0, { slots := [(0, 1), (8, 9)] })] }

theorem test_witness_TokenRing : ring.clocked 0 = true ∧ (ring.die 0).slots.get 1 0 = 0 ∧ (∀ i < 4, (ring.core i).wallet ≤ 1023) ∧
    ((st c0).die 0).slots.get 0 0 = 0 ∧ ring.starvedNow 2 = true ∧ (ring.core 2).wallet < 1023 ∧
    (∀ j < 4, j ≠ 2 → ring.starvedNow j = false ∧ ring.line j = []) := by decide +kernel
/-- RATE 0x1000 is 256 tokens a ring clock; half of it in THROTTLE. -/
theorem test_token_inject : ((after (.tokenInject 0) (st c0)).die 0).slots.get 0 0 = 256 ∧
    ((after (.tokenInject 0) { st c0 with dies := [(0, { tstate := .throttle })] }).die 0).slots.get 0 0 = 128 := by decide +kernel
theorem test_ring_station : ((after (.ringStation 0 0) ring).core 2).wallet = 1023 ∧ ((after (.ringStation 0 0) ring).die 0).slots.get 1 0 = 0 := by
  decide +kernel
theorem test_token_withdraw : ((after (.tokenWithdraw 0) ring).die 0).tokLost = 9 := by decide +kernel

/-- A claim of 2 on cluster 0, which holds under forward bias, and one on cluster 1, which asks. -/
def boosting : State :=
  { st c0 { blk0 with boost := 2 } with
    blocks := [(0, { blk0 with boost := 2 }), (1, { blk0 with core := 4, boost := 1 })],
    clusters := [(0, { holding := true, bias := .forward, settled := true })],
    dies := [(0, { pool := 8 })] }

theorem test_witness_BoostAndBias : boosting.clocked 0 = true ∧ boosting.holders 0 < 2 ∧ 0 < boosting.claim 1 ∧
    (boosting.cluster 1).holding = false ∧ (boosting.cluster 1).falling = false ∧ 8 ≤ (boosting.die 0).pool ∧
    (boosting.cluster 0).holding = true ∧ (boosting.cluster 0).falling = false ∧ (boosting.die 0).tstate = .normal := by decide +kernel
theorem test_pool_boundary : ((after (.poolBoundary 0) boosting).die 0).pool = 9 ∧ ((after (.poolBoundary 0) boosting).cluster 1).holding = true := by
  decide +kernel
theorem test_cluster_boundary : ((after (.clusterBoundary 0) boosting).cluster 0).step = 2 ∧ ((after (.clusterBoundary 0) boosting).die 0).pool = 6 := by
  decide +kernel
/-- The same before forward bias: the step up waits until the bias has settled. -/
def rising : State := { boosting with clusters := [(0, { holding := true, settled := false })] }
theorem test_rising : ((after (.clusterBoundary 0) rising).cluster 0).step = 0 ∧ ((after (.clusterBoundary 0) rising).cluster 0).bias = .forward ∧
    ((after (.biasSettle 0) (after (.clusterBoundary 0) rising)).cluster 0).step = 2 := by decide +kernel
theorem test_witness_bias : (rising.cluster 0).bias ≠ .forward ∧ rising.claim 0 = 2 ∧
    (let s : State := { st c0 with clusters := [(0, { bias := .reverse })] }
     s.clocked (clusterDie 0) = true ∧ (s.cluster 0).bias = .reverse ∧ (s.cluster 0).waiting = [] ∧ (∀ p ∈ s.launches, p.2.search = []) ∧
      s.curVf = some 0 ∧ (s.vf 0).swapped = []) ∧
    ({ st c0 with dies := [(0, { tstate := .emergency })] } : State).clocked (clusterDie 0) = false := by decide +kernel
theorem test_bias_settle : ((after (.biasSettle 0) { st c0 with clusters := [(0, { settled := false })] }).cluster 0).settled = true := by decide +kernel

theorem test_witness_ThermalAndPosted : (st c0).released = true ∧
    (∃ p rest, (after (.powerPost false 0 0 0x1F40) (st c0)).grotto.posted = p :: rest ∧ p.ras = false ∧ p.off = 0) ∧
    (∃ p rest, (after (.powerPost false 0 4 0x006E6932) (st c0)).grotto.posted = p :: rest ∧ p.ras = false ∧ p.off = 4) :=
  ⟨rfl, ⟨_, _, rfl, rfl, rfl⟩, ⟨_, _, rfl, rfl, rfl⟩⟩
theorem test_thermal_sample : ((after (.thermalSample 0 105) (st c0)).die 0).tstate = .emergency ∧
    ((after (.thermalSample 0 90) { st c0 with dies := [(0, { samples := 19 })] }).die 0).tstate = .warm ∧
    ((after (.thermalSample 0 90) { st c0 with dies := [(0, { samples := 18 })] }).die 0).tstate = .normal := by decide +kernel
/-- A rate of 8,000 beside 0x1000 stands; 8,001 is refused. -/
theorem test_grotto_apply : ((after .grottoApply (after (.powerPost false 0 0 8000) (st c0))).die 0).rate = 8000 ∧
    ((after .grottoApply (after (.powerPost false 0 0 8001) (st c0))).die 0).refused = true := by decide +kernel
theorem test_witness_latch : ((st c0).die 1).latchHeld = false ∧ ((st c0).grottoEnergy 1 false).released = true ∧
    (((st c0).grottoEnergy 1 false).die 1).latchHeld = true := by decide +kernel
theorem test_energylo_read : (after (.energyloRead 1) (st c0)).answer.isSome = true := by decide +kernel

/-- An E4M3 pass over one block's descriptors, and one of another block that has waited 4,096 clocks. -/
def op9 : MatOp := { id := 9, slot := 0, blk := 0, opc := 0xE8, fmt := .e4m3, tile := 0, da := cMat.d 0, db := cMat.d 1, passes := 1 }
def arbiter : State := { stMat with clusters := [(0, { mat := [op9, { op9 with id := 10, blk := 1, waited := 4096 }] })] }

theorem test_witness_MatrixGrants : ({ stMat with clusters := [(0, { mat := [op9] })] } : State).clocked 0 = true ∧
    [op9].any MatOp.dueAge = false ∧ ([op9].map (·.id)).Nodup ∧ matAllowed [op9] op9 = true ∧
    { op9 with id := 10, blk := 1, waited := 4096 } ∈ (arbiter.cluster 0).mat ∧ MatOp.dueAge { op9 with id := 10, blk := 1, waited := 4096 } = true := by
  decide +kernel
/-- A gather whose first row is row 2 and whose others are row 0; a byte of row 2. -/
def gathering : State :=
  { stMat with clusters := [(0, { mat := [{ op9 with opc := 0xED, idx := 2 :: List.replicate 127 0 }] })], cores := [(0, { core0 with asp := [(64, 7)] })] }
theorem test_witness_gather : ((gathering.cluster 0).mat.map (fun m => (m.opc, m.granted))) = [(0xED, 0)] ∧ (gathering.block 0).isSome = true := by
  decide +kernel
/-- The latch keeps the rows at 32 bytes each (R293). -/
theorem test_gather : (((after (.matrixPassGrant 0) gathering).cluster 0).mat.map (fun m => (m.granted, m.latch.headD 0))) = [(1, 7)] := by decide +kernel
theorem test_matrix_grant : (((after (.matrixPassGrant 0) { stMat with clusters := [(0, { mat := [op9] })] }).cluster 0).mat.map (·.granted)) = [1] := by
  decide +kernel
theorem test_matrix_aging : (((after (.matrixRequestAging 0 10) arbiter).cluster 0).mat.map (fun m => m.aged.isSome)) = [false, true] ∧
    arbiter.clocked 0 = true ∧ (gated arbiter).clocked 0 = false ∧
    (((after (.matrixRequestAging 0 10) (gated arbiter)).cluster 0).mat.map (fun m => m.aged.isSome)) = [false, false] := by decide +kernel

/-- A granted INT8 pass over empty buffers, a CMPR, and a VGA at its last row. -/
def engines : State :=
  let s := st { cMat with ocMat := [{ id := 9 }], pending := [{ op := 11, first := 32, count := 4 }, { op := 12, first := 20, count := 1 }] }
    { blk0 with aspBound := 0x4000, aspSize := 0x4000, wbfBound := 0x4000, wbfSize := 0x4000 }
  let v : VgaOp := { id := 12, slot := 0, blk := 0, vd := 20, mask := 0xFFFFFFFF, da := cMat.d 3, db := cMat.d 4, rows := List.replicate 31 0, cursor := 3 }
  { s with clusters := [(0, {
      mat := [{ op9 with opc := 0xEA, fmt := .i8, granted := 1 }, { op9 with id := 11, opc := 0xEF, fmt := .i8, da := cMat.d 2, rows := 16, run := 32 }],
      vga := [v] })] }

/-- The stream of four words whose last ends the row. -/
def vgaStream : State := { engines with cores := [(0, { core0 with asp := [(15, 0x80)] })] }

theorem test_witness_EngineResults :
    ((engines.cluster 0).mat.find? (fun m => m.id == 9 && m.opc != 0xEF)).isSome = true ∧ engines.clocked 0 = true ∧
    ((engines.block 0).map (fun b => b.tiles.wf)) = some true ∧
    ((engines.cluster 0).mat.find? (fun m => m.id == 11 && m.opc == 0xEF)).map (fun m => (m.rows, m.run)) = some (16, 32) ∧
    ((vgaStream.cluster 0).vga.map (fun v => match vgaStream.vgaRun 32769 v with | .done _ => true | _ => false)) = [true] ∧
    ((engines.cluster 0).vga.map (fun v => match engines.vgaRun 32769 v with | .fault _ => true | _ => false)) = [true] ∧ cMat.live ≠ 0 ∧
    ((vgaStream.cohort 0).map (fun co => co.stale)) = some [] ∧ (12, 20) ∈ ({ cMat with stale := [(12, 20)] } : Cohort).stale :=
  by decide +kernel

/-- A granted pass of each of MMAS, MMAG and .q4a. -/
def passesS : State :=
  { engines with clusters := [(0, { mat :=
      [{ op9 with id := 21, opc := 0xEE, mdata := List.replicate 512 0x0F0F0F0F, granted := 1 },
       { op9 with id := 22, opc := 0xED, tile := 1, idx := List.replicate 128 0, latch := List.replicate 4096 0, granted := 1 },
       { op9 with id := 23, opc := 0xEC, fmt := .q4a, tile := 2, granted := 1 }] })] }
theorem test_witness_passes : (passesS.cluster 0).mat.all (fun m =>
      decide (m.written < m.granted ∧ m.written < m.passes ∧ m.tile < 24 ∧ m.grp ≤ 2) && kTotal m.fmt m.passes % groupOf m.grp == 0 &&
      (m.opc != 0xEE || (List.range 128).all (fun i => (List.range (kTotal m.fmt m.passes / 8)).all (fun g => popByte (m.metaOf i g) == 4)))) = true ∧
    ((passesS.cluster 0).mat.map (fun m => (m.opc, m.fmt))) = [(0xEE, .e4m3), (0xED, .e4m3), (0xEC, .q4a)] := by decide +kernel
/-- The dense operand of a CMPR lies in the weight buffer, its run inside the allocation, and its rows apart. -/
theorem test_witness_cmpr : ((engines.cluster 0).mat.find? (fun m => m.id == 11)).map (fun m =>
    decide (m.rows ≤ 128 ∧ m.run ≠ zv ∧ m.run + 4 * cdiv (kTotal m.fmt m.passes) 32 ≤ cMat.g ∧ cMat.g ≤ 256 ∧
      kTotal m.fmt m.passes / 2 * elemBytes m.fmt ≤ (Dsc.of m.da).stride { n := m.rows, len := kTotal m.fmt m.passes / 2 * elemBytes m.fmt } ∧
      (Dsc.of m.db).space = 2) && m.fmt == .i8) = some true := by decide +kernel

/-- Thirty-two products 1.0 · 0.5 on +0.0 (spec/01_tutorial.md); a clamp at the top of 32 bits; the group of 32 with a = 2, q = 11,
zp = 8 and s = 0.5 of spec/07_number_formats.md. -/
theorem test_pass_elements : chunk .e4m3 0 (List.replicate 32 (0x38, 0x30)) = (0x41800000, false) ∧
    chunk .i8 0x7FFFFFFF [(1, 1)] = (0x7FFFFFFF, true) ∧ groupQ4 0 (List.replicate 32 (2, 11)) 0x00083800 = 0x42C00000 := by decide +kernel
/-- Of eight equal elements the first four are kept (R295). -/
theorem test_cmpr_complete : metaByte (fun r l => ((aco (.cmprComplete 0 11) engines).v (32 + r)).at l) 0 0 = 0x0F := by decide +kernel
theorem test_vga_complete : ((after (.vgaComplete 0) vgaStream).cluster 0).vga = [] ∧ ((aco (.vgaComplete 0) vgaStream).v 20).at 31 = 0 := by decide +kernel
theorem test_vga_malformed : (aco (.vgaComplete 0) engines).vglimit.length = 1 := by decide +kernel

/-- Copies: one not yet started, one with its last byte to read, one with it read, one whose source has no translation. -/
def cp (f : Copy → Copy) : State :=
  let c : Copy := { id := 9, slot := 0, blk := 0, ch := 2, kind := .cpy, dst := 0x20, src := 0x100, len := 2, dstBlks := [0], started := true }
  { st { c0 with ocCopy := [{ id := 9 }], wptrs := [(2, { copy := 9, s := 0x20, n := 2 })] } with
    cores := [(0, { core0 with chans := [(2, [f c])] })] }

/-- The head of channel 2, with what its next unit gives. -/
def unitOk (s : State) (p : Copy → Bool) : Bool :=
  match s.runningCopy 0 2 with
  | some c => !c.srcDone && (s.copyPoison 0 c).isNone && (match s.copyRead 0 c with
    | .ok _ => true
    | .error _ => false) && p c
  | none => false

/-- Decode mode: the first INT8 element of a decodable page with its scale entry. -/
def cpDec : State :=
  let s := cp (fun c => { c with dec := true, len := 4 })
  { s with cores := s.cores.mapVals (fun _ c => { c with tlb := c.tlb.map (fun e => { e with fattr := 0x10 }) }) }
/-- A CPYM to the four members of a gang. -/
def cpGang : State := { gang with cores := (cp (fun c => { c with kind := .cpym, dstBlks := [0, 1, 2, 3] })).cores }

theorem test_witness_CopyChannels :
    (∃ c, ((cp (fun c => { c with started := false })).core 0).chan 2 = [c] ∧ c.started = false) ∧
    (unitOk (cp id) (fun c => c.kind == .cpy && decide (c.prog + c.unit < c.len)) = true ∧
    unitOk cpGang (fun c => c.kind == .cpym && c.dstBlks.all (fun b => (cpGang.block b).map (·.core) == some b)) = true ∧
    unitOk (cp (fun c => { c with kind := .cpyp, dst := 0x400020 })) (fun c => c.kind == .cpyp) = true ∧
    unitOk (cp (fun c => { c with kind := .cpyo, dstBlks := [] })) (fun c => c.kind == .cpyo && !c.dec && decide (c.prog + 1 < c.len)) = true ∧
    unitOk (cp (fun c => { c with toWbf := true })) (fun c => c.toWbf) = true ∧
    unitOk (cp (fun c => { c with prog := 1, snd := true, sobj := 0x40 })) (fun c => c.snd && c.len ≤ c.prog + c.unit) = true) ∧
    (∃ c, (cp (fun c => { c with prog := 1, srcDone := true, last := [7], rcv := true, robj := 0x40 })).runningCopy 0 2 = some c ∧ c.last = [7] ∧
      c.srcDone = true ∧ c.dst.toNat + c.prog + 1 ≤ c.robj) ∧
    (∃ c, (cp (fun c => { c with kind := .cpyo, dstBlks := [], prog := 1, srcDone := true, last := [7] })).runningCopy 0 2 = some c ∧ c.last = [7] ∧
      c.dstBlks = []) ∧
    (∃ c, (cp (fun c => { c with lost := some (0x300, 0x300, false) })).startedCopy 0 2 = some c ∧ c.lost = some (0x300, 0x300, false)) ∧
    ∃ c a e acc, (cp (fun c => { c with src := 0x10000000000000 })).startedCopy 0 2 = some c ∧ c.lost = none ∧
      (cp (fun c => { c with src := 0x10000000000000 })).copyFailure 0 c = some (a, e, acc) :=
  ⟨⟨_, rfl, rfl⟩, by decide +kernel, ⟨_, rfl, rfl, rfl, by decide +kernel⟩, ⟨_, rfl, rfl, rfl⟩, ⟨_, rfl, rfl⟩, ⟨_, _, _, _, rfl, rfl, rfl⟩⟩
/-- The data byte, its page, its format and its scale entry in decode mode. -/
theorem test_witness_decode : unitOk cpDec (fun c => c.dec && decide (c.prog + c.unit < c.len) &&
    (match cpDec.translate (cpDec.coreTlbs 0) 0 c.data .read with
     | .ok x => (match qfmtOf x.fattr with
       | some q => decide (x.page ≤ c.data.toNat ∧ c.data.toNat < x.page + x.size ∧ x.page + x.size ≤ 2 ^ 52 ∧ q.efmt ≤ 2) &&
          q.isData (c.data.toNat - x.page) x.size &&
          (match cpDec.translate (cpDec.coreTlbs 0) 0 (BitVec.ofNat 64 (x.page + q.scaleOff (c.data.toNat - x.page) c.half)) .read with
           | .ok _ => true
           | .error _ => false)
       | none => false)
     | .error _ => false)) = true := by decide +kernel
theorem test_copy_fault : ((aco (.copyFault 0 2) (cp (fun c => { c with src := 0x10000000000000 }))).park.map (fun r => (r.code, r.copy, r.ch))) =
    some (16, true, 2) := by decide +kernel
/-- A copy whose link has dropped stops with PERM at its address. -/
theorem test_copy_lost : ((aco (.copyFault 0 2) (cp (fun c => { c with lost := some (0x300, 0x300, false) }))).park.map (fun r => (r.code, r.addr))) =
    some (17, 0x300) ∧ (aco (.copyFault 0 2) (cp (fun c => { c with lost := some (0x300, 0x300, false) }))).xaddr = 0x300 := by decide +kernel

/-! #### The front end and the tree engine -/

/-- Stage tables of VF 0 that map the first 256 MiB to themselves with every permission (R351, R352). -/
def mapped (s : State) : State :=
  { s with
    mem := [(0x10000, 1), (0x10001, 0), (0x10002, 2), (0x10003, 0), (0x10004, 0), (0x10005, 0), (0x10006, 0), (0x10007, 0),
      (0x20000, 0x1f), (0x20001, 0), (0x20002, 0), (0x20003, 0), (0x20004, 0), (0x20005, 0), (0x20006, 0), (0x20007, 0),
      (0x30000, 1), (0x30001, 0), (0x30002, 4), (0x30003, 0), (0x30004, 0), (0x30005, 0), (0x30006, 0), (0x30007, 0),
      (0x40000, 0x1f), (0x40001, 0), (0x40002, 0), (0x40003, 0), (0x40004, 0), (0x40005, 0), (0x40006, 0), (0x40007, 0)],
    lineKeys := [(0x400, 0), (0x800, 0), (0xC00, 0), (0x1000, 0)],
    vfs := [(0, { s1root := 0x30000, s2root := 0x10000 })] }

/-- The words of a packet at the head of queue 63, whose ring begins at 0x1000. -/
def packet (ws : List Nat) : State :=
  let s := mapped (st c0)
  let s := s.physBytes 0 0x1000 (words (ws ++ List.replicate (16 - ws.length) 0))
  s.updVf 0 (fun v => { v with queues := [(63, { qbase := 0x1000, en := true, qwr := 64, pending := true })] })

/-- The packet of queue 63, of a kind, can start. -/
def starts (kind : Nat) (s : State) : Bool :=
  let q := (s.vf 0).queue 63
  s.frontRuns 0 && q.pending && (match s.parse 0 q with
    | .ok p => p.kind == kind && s.canStart 0 q p
    | _ => false)

def padPkt : State := packet [0x100]
def launchPkt : State := (packet [0x101, 0x7, 0x2000, 0, 0x3000, 0, 3]).physBytes 0 0x2000 (words (List.replicate 32 0))
def waitPkt (v : Nat) : State := (packet [0x102, 0, 0x4000, 0, 5, 0, 0xFFFFFFFF, 0, 0]).physBytes 0 0x4000 (words [v, 0])
def signalPkt : State := (packet [0x103, 0, 0x4000, 0, 5, 0, 1]).physBytes 0 0x4000 (words [0xFFFFFFFE, 0])

theorem test_witness_QueuesAndPackets : padPkt.released = true ∧ (padPkt.vf 0).nextPending = some 63 ∧ starts 0 padPkt = true ∧
    starts 1 launchPkt = true ∧ starts 2 (waitPkt 5) = true ∧ starts 3 signalPkt = true ∧ starts 4 (packet [0x104]) = true ∧
    starts 5 (packet [0x105, 0, 0, 63]) = true ∧ starts 5 (packet [0x105, 0, 1]) = true ∧
    (waitPkt 4).waitHolds 0 (words ([0x102, 0, 0x4000, 0, 5, 0, 0xFFFFFFFF, 0, 0] ++ List.replicate 7 0)) = false ∧
    (padPkt.updQueue 0 63 (fun q => { q with en := false })).frontRuns 0 = true ∧
    ((padPkt.updQueue 0 63 (fun q => { q with en := false })).vf 0).nextPending = some 63 ∧
    (match (packet [0x106]).parse 0 (((packet [0x106]).vf 0).queue 63) with | .bad c _ => c == 3 | _ => false) = true := by decide +kernel
/-- Packets that each check of R330 refuses, and one that is still to come; the queue's ring has 4,096 bytes. -/
def codeAt (s : State) : Nat :=
  match s.parse 0 ((s.vf 0).queue 63) with
  | .bad c _ => c
  | .none => 100
  | .ok _ => 200
theorem test_witness_LaunchAndPacketChecks : codeAt (padPkt.updQueue 0 63 (fun q => { q with qbase := 0x8000000000000000 })) = 6 ∧
    codeAt (packet [0x4100]) = 1 ∧ codeAt ((packet [0]).physBytes 0 0x1FC0 (words (0x200 :: List.replicate 15 0)) |>.updQueue 0 63 (fun q => { q with qrd := 4032 })) = 2 ∧
    codeAt (packet [0x106]) = 3 ∧ codeAt (packet [0x200]) = 100 ∧ codeAt (packet [0x001]) = 4 ∧ codeAt (packet [0x101, 0, 0x2020]) = 4 ∧
    codeAt (packet [0x103, 0, 0, 0x80000000]) = 6 ∧ codeAt padPkt = 200 ∧ codeAt (padPkt.updQueue 0 63 (fun q => { q with qwr := 0 })) = 100 ∧
    ((padPkt.vf 0).queue 63).size = 4096 := by decide +kernel
/-- PAD, WAITMEM and FENCE behind a packet that runs. -/
theorem test_can_start : (fun k => padPkt.canStart 0 { flight := [default] } { kind := k, tag := 0, bar := false, size := 64, bs := [] }) <$> [0, 4] = [true, false] := by
  decide +kernel
theorem test_notify : (((after (.notify 0 63 128) padPkt).vf 0).queue 63).qwr = 128 ∧ (((after (.notify 0 63 4096) padPkt).vf 0).queue 63).code = 5 := by
  decide +kernel
theorem test_pad : (((after (.pad 0 63) padPkt).vf 0).queue 63).qrd = 64 ∧ (((after .queueFetch padPkt).vf 0).queue 63).qrd = 64 := by decide +kernel
theorem test_launch : ((after (.launch 0 63) launchPkt).launch 1).map (fun l => (l.tag, l.prio, l.lrec)) = some (7, 3, 0x2000) := by decide +kernel
theorem test_waitmem : (((after (.waitmem 0 63) (waitPkt 5)).vf 0).queue 63).qrd = 64 ∧ (((after (.waitmem 0 63) (waitPkt 4)).vf 0).queue 63).qrd = 0 := by
  decide +kernel
/-- 0xFFFF_FFFE + 5 carries into the upper word. -/
theorem test_signalmem : (after (.signalmem 0 63) signalPkt).physByte 0 0x4000 = 3 ∧ (after (.signalmem 0 63) signalPkt).physByte 0 0x4004 = 1 := by
  decide +kernel
theorem test_fence : (((after (.fence 0 63) (packet [0x104])).vf 0).queue 63).qrd = 64 := by decide +kernel
theorem test_qctl : (after (.qctlIntr 0 63) (packet [0x105, 0, 0, 63])).msix = [(some 0, 63)] ∧
    (((after (.qctlStop 0 63) (packet [0x105, 0, 1])).vf 0).queue 63).stop = true := by decide +kernel
theorem test_queue_reset : (((after (.queueReset 0 63) padPkt).vf 0).queue 63).qwr = 0 := by decide +kernel
theorem test_waitmem_poll : (((after (.waitmemPoll 0 63) ((waitPkt 5).updQueue 0 63 (fun q => { q with pending := false, blocked := true }))).vf 0).queue 63).pending = true := by
  decide +kernel

/-- A launch whose record is all zero: BADLAUNCH, since D lies below 1. -/
def badLaunch : State :=
  { launchPkt with launches := [(7, { vf := 0, queue := 63, tag := 7, prio := 3, swapq := 0, crec := 0x3000, lrec := 0x2000, off := 0 })], blocks := [], cohorts := [] }
theorem test_witness_launchStart : badLaunch.frontRuns 0 = true ∧ badLaunch.hasBlock 7 = false ∧
    (match (badLaunch.launch 7).map badLaunch.checkLaunch with | some (.error n) => n == 6 | _ => false) = true := by decide +kernel
/-- A record of an implicit UP launch with one kernel, and the checks in turn: a good one, a stack and a context that are too
small, an entry with no code, and a record that is all zero. -/
def recordS (stk ctxsz code : Nat) : State :=
  let r := [0, 0, 0, 0x4, 1, 0x20, 0, 0, stk, 0, 1, 64, 0, 0, 0, 0, 0, 0, 1, 0, 0x100000, 0, ctxsz, 0] ++ List.replicate 8 0
  badLaunch.physBytes 0 0x2000 (words (r ++ [0, 0, code, 8] ++ List.replicate 3 0 ++ [0xFFFFFFFF] ++ List.replicate 8 0))
def checkOf (s : State) : Nat :=
  match (s.launch 7).map s.checkLaunch with
  | some (.error n) => n
  | some (.ok _) => 100
  | none => 200
theorem test_witness_checkLaunch : checkOf badLaunch = 6 ∧ checkOf (recordS 0x1000 0x1C40000 0) = 6 ∧ checkOf (recordS 0 0x1C40000 4) = 4 ∧
    checkOf (recordS 0x1000 0x1000 4) = 5 := by decide +kernel
theorem test_launch_start : (after (.launchStart 7) badLaunch).launch 7 = none ∧ (after (.launchStart 7) badLaunch).physByte 0 0x3000 = 6 ∧
    (after (.launchStart 7) badLaunch).physByte 0 0x3038 = 1 := by decide +kernel

/-- A BOTH launch of an implicit tree of two leaves whose stack begins at 0x8000. -/
def treeLaunch : Launch :=
  { vf := 0, queue := 63, tag := 0, prio := 0, swapq := 1, crec := 0x3000, lrec := 0x2000, off := 0, started := true, sweep := 2, implicit := true,
    swap := true, nleaf := 2, llanes := 32, lrb := 4, stack := 0x8000, d := 4, f := 1024, result := 0x5000, input := 0x6000,
    kernels := [(0, { kern with gregs := 8, narrow := 0, tiles := 0 }), (1, kern)] }

/-- The launch before its root is taken, after that, and after cluster 0 has taken a leaf. -/
def tree0 : State := { mapped (st c0) with launches := [(7, treeLaunch)], blocks := [], cohorts := [] }
noncomputable def tree1 : State := after (.take 0 7) tree0
noncomputable def tree2 : State := after (.take 0 7) tree1

/-- The top frame of cluster 0, as an agent reads it. -/
noncomputable def topFrame (s : State) (cl : Nat) : Option Frame :=
  match (s.launch 7).map (fun l => s.readFrame { lid := 7, vf := 0, cl := cl, node := 0 } l (0, 0)) with
  | some (.ok x) => some x
  | _ => none

theorem test_witness_TreeTakes : ((tree0.launch 7).map (fun l => tree0.agentFree 0 l && !l.rootTaken && l.implicit && (l.stackOf 0).isEmpty && l.pops.isEmpty)) = some true ∧
    ((tree1.launch 7).map (fun l => tree1.agentFree 0 l && l.rootTaken && l.top 0 == some (0, 0) && (l.frameNode (0, 0)).isSome)) = some true ∧
    topFrame tree1 0 = some ⟨0, 0xFFFFFFFF, 1, 3, 2, 0, 0, 0, 0, 1⟩ ∧
    ((tree1.launch 7).map (fun l => (l.stackOf 1).isEmpty && (match tree1.victim { lid := 7, vf := 0, cl := 1, node := 0 } l (stealOrder 1) with
      | .ok (some fr) => fr == (0, 0) | _ => false))) = some true := by decide +kernel
/-- What an engine keeps of a running root. -/
def nodeRec : Node := { state := .running, rcd := {}, taker := 0, childix := 0, depth := 0, parent := 0 }

/-- A launch with a root of two children, one of which runs in block 9 while the other has handed up; its frame lies at 0x8000. -/
def handS (l : Launch → Launch) (b : Block → Block) (fr : Frame) : State :=
  let root : Node := { nodeRec with state := .gathering, frame := some (0, 0), rcd := { first := 1, nchild := 2, cslot := 16 } }
  let child : Node := { nodeRec with pframe := some (0, 0), depth := 1, rcd := { parent := 0, rb := 8 } }
  { tree0 with
    launches := [(7, l { treeLaunch with implicit := false, heights := [(0, [0])], nodes := [(0, root), (1, child)] })],
    blocks := [(9, b { blk0 with launch := 7, node := 1, depth := 1, rcd := { parent := 0, rb := 8 } })] }.physBytes 0 0x8000 fr.bytes
def explicitFrame : Frame := ⟨0, 0xFFFFFFFF, 3, 3, 1, 0, 1, 0, 16, 2⟩
/-- The same with the root's own block, in the up and in the down phase, and for an implicit tree. -/
def rootUp : State := handS id (fun b => { b with node := 0, depth := 0, rcd := { rb := 8 } }) explicitFrame
def rootDown : State :=
  handS (fun l => { l with phase := .down, heights := [] }) (fun b => { b with node := 0, phase := .down, rcd := { first := 1, nchild := 2, cslot := 16 } })
    explicitFrame
def implicitUp : State :=
  handS (fun l => { l with implicit := true, nodes := l.nodes.mapVals (fun _ n => { n with rcd := { n.rcd with kind := if n.frame.isSome then kSkip else 0, cslot := 0 } }) })
    id ⟨0, 0xFFFFFFFF, 3, 3, 1, 0, 1, 0, 0, 1⟩

/-- The writes of a hand-off can be made. -/
def handsOff (s : State) (p : Launch → Block → Node → Bool) : Bool :=
  match s.block 9, s.launch 7 with
  | some b, some l => (match l.nodes.look b.node with
    | some n => !b.handed && b.launch == 7 && l.stop.isNone && p l b n
    | none => false)
  | _, _ => false
def engOk {α : Type} (x : Eng α) : Bool := match x with
  | .ok _ => true
  | .error _ => false
def srv (node : Nat) : Serve := { lid := 7, vf := 0, cl := 0, node := node }

theorem test_witness_HandOffs :
    handsOff rootUp (fun l b _ => b.phase == .up && b.node == 0 && !l.implicit && engOk (rootUp.engWrite (srv 0) l.result (rootUp.aspRead b b.resbuf b.rcd.rb))) = true ∧
    (let s := handS id id explicitFrame
     handsOff s (fun l b n => b.phase == .up && b.node == 1 && !l.implicit && n.parent != b.node && n.pframe == some (0, 0) &&
      (match s.readFrame (srv 1) l (0, 0), s.engWrite (srv 1) (l.slotAddr (0, 0) 16 n.childix) (s.aspRead b b.resbuf b.rcd.rb) with
       | .ok x, .ok s1 => x == explicitFrame && engOk (s1.writeFrame (srv 1) l (0, 0) { x with join := 0, state := fComplete })
       | _, _ => false) && (l.nodes.look n.parent).map (fun p => p.rcd.kind != kSkip) == some true) = true) ∧
    handsOff implicitUp (fun l b n => b.phase == .up && l.implicit && n.parent == 0 && decide (1 ≤ b.depth) &&
      (match implicitUp.engWrite (srv 1) (l.result + BitVec.ofNat 64 ((b.node - 1) * l.lrb)) (implicitUp.aspRead b b.resbuf b.rcd.rb) with
       | .ok s1 => (match s1.readFrame (srv 1) l (0, 0) with
         | .ok x => x.join == 1 && engOk (s1.writeFrame (srv 1) l (0, 0) { x with join := 0, state := fComplete })
         | .error _ => false)
       | .error _ => false) && (l.nodes.look 0).map (fun p => p.rcd.kind) == some kSkip) = true ∧
    handsOff rootDown (fun l b n => b.phase == .down && l.phase == .down && b.rcd.nchild != 0 && decide (64 * 2 ≤ l.f ∧ 0 < l.d) && n.rcd.nchild == 2 &&
      engOk (rootDown.engWrite (srv 0) (l.frameAddr (0, 0)) (explicitFrame.bytes ++ rootDown.aspRead b b.outbox (b.rcd.nchild * b.rcd.cslot)))) = true := by
  decide +kernel
/-- The last child's hand-off lets the root be dispatched, and the implicit root is done with it. -/
theorem test_hand_off : (((handS id id explicitFrame).handOff 9).cluster 0).waiting.map (fun d => (d.nodes, d.pop)) = [([0], some (0, 0))] := by
  decide +kernel
theorem test_hand_off_root : ((implicitUp.handOff 9).launch 7).map (fun l => (l.rootDone, l.stackOf 0)) = some (true, []) := by decide +kernel

theorem test_take : ((tree2.cluster 0).waiting.map (fun d => d.nodes)) = [[1]] ∧ ((topFrame tree2 0).map (fun x => (x.next, x.join, x.state))) = some (2, 2, 0) := by
  decide +kernel
theorem test_steal : ((after (.steal 1 7) tree2).cluster 1).waiting.map (fun d => d.nodes) = [[2]] ∧
    ((topFrame (after (.steal 1 7) tree2) 0).map (fun x => (x.thieves, x.state))) = some (2, 1) := by decide +kernel

/-- The dispatch of that leaf, and its block once it is resident. -/
noncomputable def tree3 : State := after (.blockDispatch 0) tree2
theorem test_block_dispatch : (tree3.blocks.map (fun p => (p.2.node, p.2.core, p.2.nlanes))) = [(1, 0, 32)] ∧ (tree3.cluster 0).rot = 1 ∧
    ((tree3.cohort 0).map (fun co => (co.g, co.live, (co.lane 5).tid))) = some (8, 0xFFFFFFFF, 5) := by decide +kernel
theorem test_inbox_copy : (((after (.inboxCopy ((tree3.blocks.headD default).1)) tree3).blocks.headD default).2.inboxDone) = true := by decide +kernel
theorem test_phase_turn : (((after (.phaseTurn 7) { tree0 with launches := [(7, { treeLaunch with rootTaken := true, rootDone := true })] }).launch 7).map (fun l => l.phase)) = some .down := by
  decide +kernel

/-- The dispatch waits in its launch's search, and at a cluster under reverse bias. -/
noncomputable def searching : State :=
  (tree2.updLaunch 7 (fun l => { l with search := (tree2.cluster 0).waiting })).updCluster 0 (fun c => { c with waiting := [] })
noncomputable def reversed : State := tree2.updCluster 0 (fun c => { c with bias := .reverse })
theorem test_witness_search :
    (match searching.launch 7 with
     | some l => (l.search.findSome? (fun d =>
          if searching.clocked (clusterDie d.taker) then (l.dispatchNeeds d).find? (fun p => !p.2.2.2.fitsEmpty) else none)).isNone &&
        (match searching.findSearch l [] l.search with
         | some (d, rest, [(c, _)]) => d.nodes == [1] && rest.isEmpty && c == 0
         | _ => false)
     | none => false) = true ∧
    (match (reversed.cluster 0).waiting, reversed.launch 7 with
     | d :: _, some l => reversed.engineRuns l && l.stop.isNone && l.copiesFree (l.dispatchNeeds d) && !reversed.swappedFirst l d && (reversed.cluster 0).bias == .reverse &&
        (match reversed.placeOn 0 (reversed.coreOrder 0) (l.dispatchNeeds d) with
         | some [(c, _)] => clusterOf c == 0
         | _ => false) && (reversed.placeNow 0 (reversed.coreOrder 0) (l.dispatchNeeds d)).isNone
     | _, _ => false) = true := by decide +kernel
theorem test_bias_lift : ((after (.biasSettle 0) reversed).cluster 0).bias = .none ∧
    ((after (.biasSettle 0) (reversed.updLaunch 7 (fun l => { l with stop := some (3, 0, 1) }))).cluster 0).bias = .reverse := by decide +kernel

/-- The block pops the frame that another block's copy is still to read; and the block is killed. -/
noncomputable def popsLast : State :=
  let b := (tree3.blocks.headD default).2
  let s := tree3.updLaunch 7 (fun l => { l with pops := [(b.headNode, (0, 0))] })
  { s with blocks := s.blocks ++ [(1000, { b with node := 2, inboxAddr := some 0x8040 })] }
theorem test_witness_copyWaits :
    (match popsLast.blocks, popsLast.launch 7 with
     | (_, b) :: _, some l => popsLast.copyWaits l b && !b.inboxDone && !b.ended && popsLast.clocked (dieOf b.core)
     | _, _ => false) = true ∧
    ((tree3.updBlock (tree3.blocks.headD default).1 (fun b => { b with killed := true })).blocks.map (fun p => (p.2.killed, p.2.inboxDone))) =
      [(true, false)] := by decide +kernel
theorem test_copy_waits : ((after (.inboxCopy (popsLast.blocks.headD default).1) popsLast).blocks.map (fun p => p.2.inboxDone)) = [false, false] := by
  decide +kernel

/-- The dispatch of a launch that has stopped, and of one that is gone. -/
noncomputable def stoppedTree : State := tree2.updLaunch 7 (fun l => { l with stop := some (3, 0, 1) })
theorem test_witness_dropped : stoppedTree.clocked 0 = true ∧
    ((stoppedTree.launch 7).map (fun l => stoppedTree.engineRuns l && l.stop.isSome)) = some true ∧
    ((stoppedTree.cluster 0).waiting.map (fun d => d.launch)) = [7] ∧ ({ tree2 with launches := [] } : State).launch 7 = none := by decide +kernel
theorem test_dropped : ((after (.blockDispatch 0) stoppedTree).cluster 0).waiting.length = 0 := by decide +kernel

theorem test_witness_BlockDispatch :
    (match (tree2.cluster 0).waiting, tree2.launch 7 with
     | [d], some l => d.nodes == [1] && d.inboxes.length == 1 && tree2.engineRuns l && l.stop.isNone && (l.nodes.look 1).isSome &&
        l.copiesFree (l.dispatchNeeds d) && !l.idemp && !tree2.swappedFirst l d &&
        ((tree2.placeNow 0 (tree2.coreOrder 0) (l.dispatchNeeds d)).map (fun p => p.map (fun x => x.1))) == some [0]
     | _, _ => false) = true ∧
    (match tree3.blocks, tree3.launch 7 with
     | [(_, b)], some l => !b.inboxDone && !b.ended && !b.killed && tree3.curVf == some b.vf && tree3.clocked (dieOf b.core) && tree3.clocked (b.dispatcher / 8) && !tree3.copyWaits l b &&
        (match tree3.inputBytes { lid := 7, vf := 0, cl := 0, node := 1 } l b.inboxAddr b.inboxLen with | .ok _ => true | .error _ => false)
     | _, _ => false) = true ∧
    (let s := { tree0 with launches := [(7, { treeLaunch with rootTaken := true, rootDone := true })] }
     (s.launch 7).map (fun l => s.engineRuns l && l.sweep == 2 && l.phase == .up && l.rootDone && !s.hasBlock 7 && !s.agentsBusy 7 l)) = some true := by
  decide +kernel

/-! #### Outside, the driver, slices, errors, firmware -/

/-- Granule 0 belongs to VF 0; port 3 is trained and takes VF 0's accesses to granules 0 and 1. -/
def outS : State :=
  { st c0 with granules := [(0, 0)], ports := [(3, { trained := true, lanes := 8, linEn := true, linBase := 0, linLim := 1, linVf := 0 }), (4, { training := true })] }
/-- The same with a queue enabled. -/
def outQ : State := outS.updVf 0 (fun v => { v with queues := [(5, { en := true, qbase := 0x3000 })] })

theorem test_witness_OutsideAccesses : outS.released = true ∧ (0x100 + [(1 : Byte), 2].length ≤ hbmSize) ∧
    (∀ i < 2, outS.granules.look ((2 ^ 30 + i) / 2 ^ 30) = none) ∧ (∀ i < 2, outS.granules.look ((0x100 + i) / 2 ^ 30) = some 0) ∧
    (∀ i < 2, outS.poisoned (0x100 + i) = false) ∧ (outS.port 3).linEn = true ∧ (outS.port 3).trained = true ∧
    (outS.port 3).linBase ≤ 0x100 / 2 ^ 30 ∧ (0x100 + 2 - 1) / 2 ^ 30 ≤ (outS.port 3).linLim ∧ (outS.port 4).linEn = false ∧
    (outS.port 4).trained = false ∧ aperture (5 * 2 ^ 48) = 3 + 2 ∧ ((outQ.vf 0).queue 5).en = true ∧ ((outQ.vf 0).queue 4).en = false ∧
    (outS.port 4).training = true ∧ (outS.port 3).training = false ∧
    (State.reset).released = false ∧ (0x80000001#64).getLsbD 31 = true ∧
    peerAtomics[0]? = some .add ∧ Ty.ofCode 7 = some .n32 ∧ (outS.port 3).accepts 0x100 4 = true ∧ (outS.port 4).accepts 0x100 4 = false := by decide +kernel
/-- Counters, the energy latch held and free, and one entry of the event log. -/
def readS : State :=
  { outS with
    dies := [(0, { ce := [(2, 7)], kills := 0x500000006 }), (1, { latchHeld := true })],
    grotto := { outS.grotto with sram := [{ plainEntry logKill 0 5 with seq := 1025 }] } }
theorem test_witness_RegisterReads : readS.released = true ∧ (readS.die 0).latchHeld = false ∧ (readS.die 1).latchHeld = true ∧
    readS.grotto.sram.map (fun e => e.seq.toNat % 1024) = [1] := by decide +kernel
/-- KILLS in one read and in halves (R391, R393); LSTAT of a port with eight lanes; SEQ of the entry at place 1 (R394). -/
theorem test_register_read : (readS.registerRead true 0 0x400010 4).answer = some [7, 0, 0, 0] ∧
    (readS.registerRead true 0 0x400048 8).answer = some [6, 0, 0, 0, 5, 0, 0, 0] ∧ (readS.registerRead true 0 0x40004C 4).answer = some [5, 0, 0, 0] ∧
    (readS.registerRead true 0 0x3D0074 4).answer = some [0x80, 1, 0, 0] ∧ (readS.registerRead true 0 0x408020 4).answer = some [1, 4, 0, 0] := by
  decide +kernel
/-- An add of 3 from a peer to 5. -/
theorem test_inbound_atomic : (after (.lumakInbound 3 0x100 (.atomic 0 7 3 0)) (memW outS 0x100 5)).answer = some [5, 0, 0, 0] ∧
    (after (.lumakInbound 3 0x100 (.atomic 0 7 3 0)) (memW outS 0x100 5)).physByte 0 0x100 = 8 := by decide +kernel
/-- The sixteenth failure in a row drops the port. -/
theorem test_replay : ((after (.flitReplay 3 false) (outS.updPort 3 (fun p => { p with failed := 15 }))).port 3).trained = false ∧
    ((after (.flitReplay 3 false) (outS.updPort 3 (fun p => { p with failed := 14 }))).port 3).trained = true := by decide +kernel
theorem test_host_access : (after (.hostMemAccess 0x100 (.write [7, 8])) outS).physByte 0 0x101 = 8 ∧
    (after (.hostMemAccess 0x100 (.read 2)) (after (.hostMemAccess 0x100 (.write [7, 8])) outS)).answer = some [7, 8] ∧
    (after (.hostMemAccess (2 ^ 30) (.read 2)) outS).answer = some [0, 0] := by decide +kernel
theorem test_port : (after (.lumakInbound 3 0x100 (.write [9])) outS).physByte 0 0x100 = 9 ∧
    (after (.lumakInbound 3 (2 ^ 31) (.read 1)) outS).answer = none ∧
    ((after (.flitReplay 3 false) outS).port 3).replays = 1 ∧ ((after (.linkDrop 3) outS).port 3).trained = false ∧
    ((after (.linkTrained 4 12) outS).port 4).lanes = 8 ∧ ((after (.linkTrained 4 0) outS).port 4).trained = false ∧
    ((after (.linkTrained 5 8) outS).port 5).trained = false ∧ ((after (.retrain 3) outS).port 3).trained = false := by decide +kernel
theorem test_register_write : (((after (.registerWrite false 0 0x100 0x5678) outQ).vf 0).queue 4).qbase = 0x5000 ∧
    (((after (.registerWrite false 0 0x140 0x5678) outQ).vf 0).queue 5).qbase = 0x3000 ∧
    ((after (.registerWrite true 0 0x200100 0x8000) outQ).vf 1).s1root = 0x8000 := by decide +kernel

/-- A VF with a fault ring of 64 records at 0x4000 and one waiting record. -/
def ringS : State :=
  let r : FaultInfo := { code := 4, cls := 1, pc := 0x40, mask := 3, addr := 0x1234 }
  { st c0 with vfs := [(2, { key := 9, fqen := true, fqlog2 := 12, fqbase := 0x4000, fqvec := 6, records := [r] })] }
/-- The cohort parked at its PC; VF 0 has the current slice. -/
def parkS : State := st { c0 with park := some { code := 4, cls := 1, pc := 0 } }

theorem test_witness_DriverCommands :
    ((ringS.vf 2).records.map (fun r => (r.code, r.cls))) = [(4, 1)] ∧ (ringS.vf 2).fqen = true ∧ ((ringS.vf 2).fqhead.toNat + 1) % 64 ≠ (ringS.vf 2).fqtail.toNat % 64 ∧
    ((ringS.updVf 2 (fun v => { v with fqen := false })).vf 2).fqen = false ∧
    parkS.released = true ∧ parkS.curVf = some 0 ∧ parkS.slotOf 0 5 = none ∧
    (match parkS.slotOf 0 0, (st c0).slotOf 0 0 with
     | some (co, b), some (free, _) => (co.park.map (fun r => !r.copy && !r.txab && !r.boundary)) == some true && co.later.isEmpty && co.vglimit.isEmpty && co.runnable.has 3 &&
        free.park.isNone && !b.killed && !b.ended && !b.surrogate && (parkS.launch b.launch).map (·.stop) == some none
     | _, _ => false) = true := by decide +kernel
/-- A command of slot 4 runs; and the clocks of die 0 stand. -/
def busyS : State := parkS.updVf 0 (fun v => { v with busy := true, op := 1, cmdslot := 4 })
def coldS : State := { parkS with dies := [(0, { tstate := .emergency })] }
theorem test_witness_commands : (parkS.vf 0).busy = false ∧ (∀ p ∈ parkS.blocks, parkS.clocked (dieOf p.2.core) = true) ∧ busyS.released = true ∧
    (busyS.vf 0).busy = true ∧ (busyS.vf 0).cmdslot ≠ 0 ∧ coldS.released = true ∧ (coldS.vf 0).busy = false ∧ coldS.curVf = some 0 ∧
    (coldS.slotOf 0 0).map (fun x => coldS.clocked (dieOf x.2.core)) = some false := by decide +kernel
theorem test_commands : ((after (.retry 0 0) coldS).vf 0).busy = true ∧ ((after (.retry 0 0) coldS).cohort 0).map (·.park.isSome) = some true ∧
    ((after (.retry 0 0) busyS).cohort 0).map (·.park.isSome) = some true := by decide +kernel
/-- A command for a VF whose cohorts are saved. -/
def savedS : State := { st c0 with curVf := some 0, vfs := [(3, { image := some {} })] }
theorem test_witness_savedCommand : savedS.curVf ≠ some 3 ∧ (savedS.vf 3).image = some {} := by decide +kernel
theorem test_fault_record : ((after (.faultRecordPost 2) ringS).vf 2).fqhead = 1 ∧ (after (.faultRecordPost 2) ringS).number 9 (2 ^ 48 + 0x4000 + 24) 8 = 0x1234 ∧
    (after (.faultRecordPost 2) ringS).msix = [(none, 6)] ∧ ((after (.faultRecordPost 2) ringS).vf 2).parks = 1 := by decide +kernel
theorem test_retry_skip : ((after (.retry 0 0) parkS).cohort 0).map (·.park) = some none ∧
    ((after (.skip 0 0) (memW parkS 0 0)).cohort 0).map (fun co => (co.lane 31).pc) = some 4 ∧
    ((after (.retry 0 0) (st c0)).vf 0).cmdst = 1 ∧ ((after (.skip 0 5) parkS).vf 0).cmdst = 2 := by decide +kernel
theorem test_kill : ((after (.killblk 0 0) parkS).block 0).map (·.killed) = some true ∧
    ((after (.killlaunch 0 0) parkS).launch 0).map (·.stop) = some (some (3, 0, 0)) := by decide +kernel

/-- An entry of VF 0 and one of VF 1 in the TLB of core 0; INVADDR and INVSIZE of VF 0 name its page. -/
def tlbS : State :=
  let e : TlbEntry := { vf := 0, page := 0, size := 4096, ipa := 0, phys := 0, p1 := 7, p2 := 7, fattr := 0, s1 := 4096 }
  { st c0 with cores := [(0, { core0 with tlb := [e, { e with page := 0x100000 }, { e with vf := 1 }] })], vfs := [(0, { invaddr := 0, invsize := 4096 })] }

/-- The same tables with page 0 at intermediate address 2^28, which the second stage leads to the window of an untrained port. -/
def leafOut : State := ((mapped (st c0)).physBytes 0 0x40003 [0x10]).physBytes 0 0x20008 [0x1f, 0, 0, 0, 0, 0, 2, 0]

theorem test_witness_TranslationsAndVfs : tlbS.released = true ∧ (tlbS.vf 0).busy = false ∧ (busyS.vf 0).busy = true ∧ (mapped (st c0)).curVf = some 0 ∧ (mapped (st c0)).clocked (dieOf 0) = true ∧
    (match (mapped (st c0)).walkBoth 0 0x2000 (accNeed .read) with | .ok _ => true | .error _ => false) = true ∧
    (match ((mapped (st c0)).physBytes 0 0x40000 [0]).walkBoth 0 0x2000 (accNeed .read) with | .ok _ => false | .error _ => true) = true ∧
    (match (mapped (st c0)).walkBoth 0 0x2000 (accNeed .read) with
     | .ok e => ((mapped (st c0)).physFault (e.phys + 0x2000 % e.size)).isNone | .error _ => false) = true ∧
    (match leafOut.walkBoth 0 0x2000 (accNeed .read) with
     | .ok e => (leafOut.physFault (e.phys + 0x2000 % e.size)).isSome | .error _ => false) = true ∧
    ((mapped (st c0)).core 0).tlb.length ≤ 256 ∧
    (640 * 2 ^ 20 ≤ (((tlbS.updVf 0 (fun v => { v with savesz := 0x28000000 })).vf 0).savesz).toNat) ∧ ((tlbS.vf 0).savesz).toNat < 640 * 2 ^ 20 := by
  decide +kernel
/-- With no clocks on die 0 an invalidation waits, BUSY, and its entry stands. -/
theorem test_witness_invalWaits :
    let s := gated tlbS
    let t := after (.inval 0) s
    (s.vf 0).busy = false ∧ (t.vf 0).busy = true ∧ (t.vf 0).op = 5 ∧ (t.core 0).tlb = (s.core 0).tlb ∧ after (.invall 0) t = t ∧
      ((after (.inval 0) { t with dies := [] }).vf 0).busy = false ∧ ((after (.invall 1) s).vf 1).busy = true ∧ ((after (.inval 2) s).vf 2).busy = false ∧
      s.cores.wf = true ∧ s.clusters.wf = true ∧ s.dies.wf = true := by decide +kernel
theorem test_witness_invalClocked : ∀ d, tlbS.clocked d = true := by intro d; rfl
theorem test_inval : ((after (.inval 0) tlbS).core 0).tlb.map (fun e => (e.vf, e.page)) = [(0, 0x100000), (1, 0)] ∧
    ((after (.invall 0) tlbS).core 0).tlb.map (fun e => (e.vf, e.page)) = [(1, 0)] := by decide +kernel
theorem test_page_walk : ((after (.pageWalk 0 0x2000 .read) { mapped (st c0) with cores := [] }).core 0).tlb.map (fun e => (e.page, e.phys)) = [(0, 0)] := by
  decide +kernel
theorem test_vrst : (after (.vrst 0) (st c0)).cohorts = [] ∧ (after (.vrst 0) (st c0)).curVf = none ∧ ((after (.vrst 1) (st c0)).vf 1).key = 64 := by
  decide +kernel
theorem test_quantum : ((after (.quantumWrite 0 7) tlbS).vf 0).quantum = 0 ∧
    ((after (.quantumWrite 0 7) (tlbS.updVf 0 (fun v => { v with savesz := 0x28000000 }))).vf 0).quantum = 7 := by decide +kernel

/-- VF 0 runs its slice; VF 1 has a pending queue and takes part in slicing. -/
def sliceS (cnt : Nat) (two : Bool) : State :=
  { st c0 with sliceCnt := cnt, vfs := [(0, { quantum := 1, savesz := 0x28000000 })] ++
      (if two then [(1, { quantum := 1, savesz := 0x28000000, queues := [(0, { pending := true })] })] else []) }
/-- No VF is current; VF 1 is next, idle. -/
def idleS : State :=
  let v : Vf := { quantum := 1, savesz := 0x28000000, savebase := 0x8000, queues := [(0, { pending := true })] }
  { sliceS 0 true with curVf := none, blocks := [], cohorts := [], launches := [], vfs := [(1, v)] }
/-- The same with an image in its save area that needs 65 cores, as another part may have written it. -/
def foreignS : State :=
  let t := idleS.updVf 1 (fun v => { v with image := some {}, state := .saved })
  (t.physBytes 0 0x8000 (bytesLE 4 0x56534852 ++ bytesLE 4 1)).physBytes 0 0x8010 ([65, 0, 0, 0, 0, 0, 0, 0].flatMap (bytesLE 4))

/-- A block and a cohort whose records are small. -/
def blkS : Block := { blk0 with n := 0, k := 0, aspSize := 1024, aspBound := 0, wbfSize := 0, wbfBound := 0, bufLines := 0, inboxDone := true }
def cS : Cohort := { (Cohort.fresh 0 0 32 8) with vregs := [(1, .a 0 1), (2, .u 5)] }
/-- A SWAP launch whose resident block has been on core 0 for its quantum, while a leaf waits at cluster 0, whose four scratchpads are
full. -/
noncomputable def swapS : State :=
  { tree2 with
    frontClk := 1024, cohorts := [(0, cS)],
    blocks := (0, { blkS with launch := 7, aspSize := 4096 * 1024 }) ::
      [1, 2, 3].map (fun c => (c, { blkS with launch := 8, core := c, aspSize := 4096 * 1024, slots := [] })),
    vfs := tree2.vfs.mapVals (fun _ v => { v with savesz := 0x30000000 }) }
/-- The same once the block has left and nothing waits at the cluster. -/
noncomputable def leftS : State := { after (.swapOut 0) swapS with clusters := [] }

theorem test_witness_slices : (sliceS 1024 true).curVf = some 0 ∧ (sliceS 1024 true).stopping = false ∧ ((sliceS 1024 true).vf 0).quantum.toNat * 1024 ≤ 1024 ∧
    ¬ (((sliceS 3 true).vf 0).quantum.toNat * 1024 ≤ (sliceS 3 true).sliceCnt) ∧ (sliceS 3 true).hasWork 0 = true ∧
    (sliceS 1024 false).nextVf 0 = some 0 ∧ (sliceS 1024 true).nextVf 0 ≠ some 0 ∧ (sliceS 1024 true).hasWork 0 = true ∧
    ((sliceS 1024 true).cohort 0).map (fun co => co.tx.isNone) = some true ∧
    idleS.released = true ∧ idleS.curVf = none ∧ idleS.nextVf idleS.lastVf = some 1 ∧
    idleS.clocked 0 = true ∧ idleS.clocked 1 = true ∧ ({ idleS with dies := [(1, { tstate := .emergency })] } : State).clocked 1 = false ∧
    (idleS.imageOf 1).restorable = true ∧ foreignS.released = true ∧ foreignS.curVf = none ∧ foreignS.nextVf foreignS.lastVf = some 1 ∧
    (foreignS.imageOf 1).restorable = false := by decide +kernel
/-- The drained state of a slice that ends, with VF 1 next. -/
def stoppedS : State := { sliceS 1024 true with stopping := true, blocks := [(0, blkS)], cohorts := [(0, cS)] }
theorem test_witness_switch : stoppedS.released = true ∧ stoppedS.curVf = some 0 ∧ stoppedS.stopping = true ∧ stoppedS.drained = true ∧
    stoppedS.clocked 0 = true ∧ stoppedS.clocked 1 = true ∧ stoppedS.settleAllErrors = stoppedS ∧ stoppedS.flushKilled = stoppedS ∧ stoppedS.blocks.wf = true ∧
    (stoppedS.saveVf 0).nextVf 0 = some 1 ∧ ((stoppedS.saveVf 0).imageOf 1).restorable = true ∧ (stoppedS.vf 0).saveAt + saveMin ≤ hbmSize := by
  decide +kernel
theorem test_slice : (after .sliceEnd (sliceS 1024 true)).stopping = true ∧ (after .sliceEnd (sliceS 1024 false)).sliceCnt = 0 ∧
    (after .sliceEnd (sliceS 3 true)).stopping = false ∧
    ((after .sliceSwitch foreignS).vf 1).state = .failed := by decide +kernel
/-- What a save leaves: MAGIC; the offset of core 0's section in units of 64; in the cohort's record, after the headers of 64 and
256 bytes, P0 at +0x540, the tags of V0 to V3 at +0xA40, and then V0 and the base of V1 and its stride (R360, R362, R363). -/
theorem test_save : (stoppedS.writeImage 0 stoppedS.image).number 0 0 4 = 0x56534852 ∧ (stoppedS.writeImage 0 stoppedS.image).number 0 0x100 4 = 8 ∧
    (stoppedS.writeImage 0 stoppedS.image).number 0 (512 + 64 + 256 + 0x540) 4 = 0xFFFFFFFF ∧
    (stoppedS.writeImage 0 stoppedS.image).number 0 (512 + 64 + 256 + 0xA40) 1 = 4 ∧
    (stoppedS.writeImage 0 stoppedS.image).number 0 (512 + 64 + 256 + 0xA80) 8 = 0 ∧
    (stoppedS.writeImage 0 stoppedS.image).number 0 (512 + 64 + 256 + 0xA88) 8 = 0x500000001 := by decide +kernel
theorem test_witness_swaps :
    (match (swapS.syncPool 0).block 0, swapS.launch 7 with
     | some b, some l =>
        let s0 := swapS.syncPool 0
        b.gang.isNone && b.vf == 0 && b.launch == 7 && l.swap && s0.engineRuns l && l.stop.isNone && decide (s0.readExts [(0, b)] = s0) &&
        s0.swappable 7 l [(0, b)] && s0.ownDrained 0 b && decide (swapS.cohorts.wf = true) && swapS.cohorts.all (fun p => p.2.tx.isNone) &&
        !(s0.blocks.any (fun p => p.2.since < b.since)) && b.coll.isNone &&
        ((((s0.stopBlocks (fun i => i == 0)).fresh.2.leave s0.nextId (0, { b with coll := none })).madeRoom s0 7 l [(0, b)]).map
          (fun x => x.1 != s0.nextId)) == some true
     | _, _ => false) = true ∧ (swapS.vf 0).swapped = [] := by decide +kernel
/-- The same block while a reduction of it is under way; and a clock before its quantum is over. -/
noncomputable def drainS : State := { swapS with cohorts := [(0, { cS with ocRed := [{ id := 9 }] })] }
theorem test_witness_leaving :
    (match (drainS.syncPool 0).block 0, drainS.launch 7 with
     | some b, some l => (drainS.syncPool 0).swapsOut b l [(0, b)] && !(drainS.syncPool 0).ownDrained 0 b && !b.leaving && b.gang.isNone &&
        decide (drainS.blocks.wf = true) && decide (drainS.cohorts.wf = true) && decide (1023 < b.since + 1024 * l.swapq)
     | _, _ => false) = true := by decide +kernel
theorem test_leaving : ((after (.swapOut 0) drainS).block 0).map (·.leaving) = some true ∧
    ((after (.swapOut 0) { drainS with frontClk := 1023 }).block 0).map (·.leaving) = some false := by decide +kernel
theorem test_witness_swapIn : leftS.curVf = some 0 ∧ leftS.stopping = false ∧
    (match leftS.poolOf 0 with
     | [r] => r.block.member.isNone && !r.block.alone && r.block.vf == 0 && r.block.launch == 7 && ((leftS.syncPool 0).enter 4 r).isSome && (leftS.cluster 1).bias != .reverse &&
        decide ((r.cohorts.map (·.1)).Nodup) &&
        (match leftS.launch 7 with
         | some l => !((leftS.syncPool 0).admissible 7 l []).any (fun x => decide (x.1 < r.order))
         | none => false)
     | _ => false) = true := by decide +kernel
/-- The leaf that waited has been admitted; the block returns to core 4. -/
theorem test_swap : leftS.block 0 = none ∧ leftS.blocks.length = 4 ∧ ((after (.swapIn 0 4) leftS).block 0).map (·.core) = some 4 ∧
    ((after (.swapIn 0 4) leftS).cohorts.map (fun p => (coreOf p.1, (p.2.v 2).at 9))) = [(0, 0), (4, 5)] := by decide +kernel

/-- A block of an idempotent launch. -/
def againS : State :=
  { st c0 with launches := [(0, { fetchLaunch with kernels := [(0, kern)], idemp := true, nodes := [(0, nodeRec)] })] }
/-- A read of line 5, whose home is die 1, has met poison. -/
def meetsPoison : State := st c0 { blk0 with ecc := some (0, 5) }
theorem test_witness_ErrorsOfStores :
    (match (st c0).cohort 0, (st c0).block 0, (st c0).launch 0, againS.launch 0 with
     | some co, some b, some l, some l' => co.blk == 0 && b.launch == 0 && !b.killed && !b.ended && !b.surrogate && l.stop.isNone &&
        !l.idemp && l'.idemp && l'.stop.isNone && decide (((l'.nodes.look b.node).map (·.relaunch)).getD 0 < 3)
     | _, _, _, _ => false) = true ∧ ((st c0).die 0).frames.get 4 0 + 1 < 16 ∧ ((st c0).die 0).cethr = 16 ∧
    16 ≤ (((st c0).updDie 0 (fun d => { d with frames := [(4, 15)] })).die 0).frames.get 4 0 + 1 ∧
    (((st c0).updDie 0 (fun d => { d with scrubEn := true })).die 0).scrubEn = true ∧
    (((st c0).updDie 0 (fun d => { d with scrubEn := true })).die 0).scrubGap = 256 ∧ (st c0).grotto.flashLog = [] ∧
    meetsPoison.blocks.wf = true ∧ meetsPoison.coreBlocks 0 = [(0, { blk0 with ecc := some (0, 5) })] ∧
    State.reset.released = false ∧ (st c0).clocked (dieOf (coreOf 0)) = true ∧ (gated (st c0)).clocked (dieOf (coreOf 0)) = false ∧
    (gated (st c0)).released = true ∧ ((gated (st c0)).cohort 0).isSome = true := by decide +kernel
theorem test_patrol : ((after (.patrolScrub 0) ((st c0).updDie 0 (fun d => { d with scrubEn := true, scrubClk := 255 }))).die 0).scrubPos = 0 ∧
    (List.range 5).map (scrubLine 1) = [4, 5, 6, 7, 12] := by decide +kernel
/-- The block of a read that has met poison is killed once. -/
theorem test_settle : ((meetsPoison.settleErrors 0).block 0).map (fun b => (b.killed, b.ecc)) = some (true, none) ∧
    (((meetsPoison.settleErrors 0).settleErrors 0).die 1).ue.get 0 0 = 0 ∧ (((st c0).meetPoison 0 0 5).die 1).ue.get 0 0 = 1 := by
  decide +kernel
theorem test_ue : ((after (.eccUncorrectable (.hbmRead 0 5)) (st c0)).launch 0).map (·.stop) = some (some (2, 0, 0)) ∧
    ((after (.eccUncorrectable (.hbmRead 0 5)) againS).launch 0).map (·.stop) = some none ∧
    ((after (.eccUncorrectable (.hbmWalk 5)) (st c0)).die 1).ue.get 0 0 = 1 := by decide +kernel
theorem test_ce : ((after (.eccCorrectable 0 0 4) ((st c0).updDie 0 (fun d => { d with frames := [(4, 15)] }))).grotto.sram.map (fun e => (e.kind, e.addr))) = [(2, 0x4000)] ∧
    ((after (.eccCorrectable 0 1 0) (st c0)).die 0).ce.get 1 0 = 1 := by decide +kernel
theorem test_clr : ((after (.clr 0) ((st c0).updDie 0 (fun d => { d with kills := 5 }))).die 0).kills = 0 := by decide +kernel

/-- The mailbox in a state. -/
def boxS (m : MbState) : State := (st c0).updGrotto (fun g => { g with mbstate := m })
theorem test_witness_Firmware : (boxS .boot).grotto.mbstate = .boot ∧ (boxS .recovery).grotto.mbstate = .recovery ∧
    (boxS .ready).grotto.mbstate = .ready ∧ (boxS .updating).grotto.mbstate = .updating ∧ imageFails (boxS .ready).grotto.svnf [] = some 1 ∧
    ((boxS .updating).updGrotto (fun g => { g with update := some (.check, true) })).grotto.update = some (.check, true) ∧
    ((boxS .updating).updGrotto (fun g => { g with update := some (.write, false) })).grotto.update = some (.write, false) ∧
    ((boxS .ready).updGrotto (fun g => { g with signedHash := some [1] })).grotto.signedHash = some [1] := by decide +kernel
theorem test_reset : (after .coldReset (st c0)).grotto.mbstate = .recovery ∧ (after .warmReset (st c0)).cohorts = [] := by decide +kernel
/-- UPDATE begins, and the check of an empty image refuses it with BADIMAGE (R371, R372). -/
theorem test_mailbox : (after .update (boxS .boot)).grotto.result = 1 ∧ (after .update (boxS .recovery)).grotto.result = 2 ∧
    (after .update (boxS .ready)).grotto.mbstate = .updating ∧ (after .update (boxS .ready)).grottoStep.grotto.result = 3 ∧
    (after .update (boxS .ready)).grottoStep.grotto.mbstate = .ready ∧ (after .recover (boxS .recovery)).grottoStep.grotto.mbstate = .recovery := by
  decide +kernel
theorem test_power_loss : (after (.powerLoss false) (boxS .ready)).released = false ∧ (after (.powerLoss false) (boxS .ready)).grotto.mbstate = .boot := by
  decide +kernel
theorem test_spdm : (after .getVersion (boxS .ready)).grotto.responses.map (fun r => r.req) = [.getVersion] ∧
    ((after (.getMeasurements 0x6FF) (boxS .ready)).grotto.responses.map (fun r => (r.measurements.length, r.rsa.isSome))) = [(5, false)] ∧
    ((after (.getMeasurements 0x704) (boxS .ready)).grotto.responses.map (fun r => (r.measurements.length, r.rsa.isSome))) = [(1, true)] ∧
    ((after (.getMeasurements 0x600) (boxS .ready)).grotto.responses.map (fun r => r.total)) = [some 5] ∧
    ((after (.getMeasurements 0x706) (boxS .ready)).grotto.responses.map (fun r => (r.error, r.rsa.isSome))) = [(true, false)] := by
  decide +kernel
/-- The digest of the bytes "abc" that FIPS 180-4's examples give, by its first eight bytes. -/
theorem test_sha384 : beNat ((sha384 [0x61, 0x62, 0x63]).take 8) = 0xCB00753F45A35E8B ∧
    beNat ((sha512 [0x61, 0x62, 0x63]).take 8) = 0xDDAF35A193617ABA ∧ beNat ((sha256 [0x61, 0x62, 0x63]).take 8) = 0xBA7816BF8F01CFEA := by
  decide +kernel

/-! #### Executions

Small executions without fences and dependencies whose rf, co and fr run with the order of the acts: `Calm` says so by checks over
the lists, and such an execution is allowed. -/

/-- A lane of a block on core 4 × block. -/
def laneOf (blk tid : Nat) : MemWho := { agent := .lane blk tid, core := 4 * blk, blk := some blk }

/-- An event writes a location. -/
def writesAt (x : Execution) (w : Nat) (b : MemLoc) : Bool := (x.at_ w).writes && (x.at_ w).bytes.contains b
/-- A read has no source at a place, or one that a write comes after. -/
def lateRead (x : Execution) (b : MemLoc) (r w : Nat) : Bool :=
  (x.at_ r).reads && (!x.rf.any (fun p => p.1 == b && p.2.2 == r) || x.rf.any (fun p => p.1 == b && p.2.2 == r && x.co.contains (b, p.2.1, w)))
/-- A lane's event stands at an act of its block and cohort in which the lane is active. -/
def laneActs (x : Execution) (i : Nat) : Bool :=
  match x.agentOf i with
  | .lane blk t => (x.actAt (x.actOf i)).blk == blk && (x.actAt (x.actOf i)).active.contains t && (x.at_ i).who.blk == some blk &&
      (x.at_ i).who.cohort == (x.actAt (x.actOf i)).cohort
  | _ => false
/-- The first event's lane stands before the second's in the act. -/
def lanesAsc (x : Execution) (v w : Nat) : Bool :=
  match x.agentOf v, x.agentOf w with
  | .lane _ t, .lane _ u => decide ((x.actAt (x.actOf v)).active.idxOf t < (x.actAt (x.actOf v)).active.idxOf u)
  | _, _ => false

/-- A read takes each byte that a write names too from the write or a later one. -/
def seesAll (x : Execution) (q u : Nat) : Bool :=
  (x.at_ u).bytes.all (fun c => !(x.at_ q).bytes.contains c ||
    x.rf.any (fun p => p.1 == c && p.2.2 == q && (p.2.1 == u || x.co.contains (c, u, p.2.1))))
/-- No place behind a port. -/
def nearLoc : MemLoc → Bool
  | .device a => decide (a / 2 ^ 48 < 2)
  | _ => true

structure Calm (x : Execution) : Prop where
  acts : ∀ a ∈ x.acts, (a.kind = .issue ∨ a.kind = .join ∨ a.kind = .commit) ∧ a.uses = [] ∧ a.branch = false
  evs : ∀ i < x.ev.length, (x.at_ i).kind ≠ .fence ∧ (x.at_ i).whole = false ∧ x.actOf i < x.acts.length ∧ laneActs x i = true
  near : ∀ i < x.ev.length, ∀ b ∈ (x.at_ i).bytes, nearLoc b = true
  noFences : x.fences = []
  noAtom : ∀ i < x.ev.length, (x.at_ i).atom = false
  scopes : ∀ i < x.ev.length, (x.at_ i).scope = .dev
  rf : ∀ p ∈ x.rf, x.actOf p.2.1 < x.actOf p.2.2 ∧ p.2.1 < x.ev.length ∧ p.2.2 < x.ev.length ∧ (x.at_ p.2.1).writes = true ∧
    (x.at_ p.2.2).reads = true ∧ p.1 ∈ (x.at_ p.2.1).bytes ∧ p.1 ∈ (x.at_ p.2.2).bytes ∧ ∀ q ∈ x.rf, q.1 = p.1 → q.2.2 = p.2.2 → q.2.1 = p.2.1
  co : ∀ p ∈ x.co, x.actOf p.2.1 ≤ x.actOf p.2.2 ∧ p.2.1 < x.ev.length ∧ p.2.2 < x.ev.length ∧ (x.at_ p.2.1).writes = true ∧
    (x.at_ p.2.2).writes = true ∧ p.1 ∈ (x.at_ p.2.1).bytes ∧ p.1 ∈ (x.at_ p.2.2).bytes ∧ p.2.1 ≠ p.2.2 ∧
    ∀ q ∈ x.co, q.1 = p.1 → q.2.1 = p.2.2 → (p.1, p.2.1, q.2.2) ∈ x.co
  total : ∀ v < x.ev.length, ∀ w < x.ev.length, ∀ b ∈ (x.at_ v).bytes, (writesAt x v b && writesAt x w b && v != w) = true →
    (x.co.contains (b, v, w) || x.co.contains (b, w, v)) = true
  fr : ∀ r < x.ev.length, ∀ w < x.ev.length, ∀ b ∈ (x.at_ r).bytes, (writesAt x w b && r != w && lateRead x b r w) = true →
    x.actOf r ≤ x.actOf w
  lanes : ∀ v < x.ev.length, ∀ w < x.ev.length, ∀ b ∈ (x.at_ v).bytes,
    (writesAt x v b && writesAt x w b && x.actOf v == x.actOf w && lanesAsc x v w) = true → (b, v, w) ∈ x.co
  valued : ∀ r < x.ev.length, (x.at_ r).reads = true → ∀ b ∈ (x.at_ r).bytes,
    (∃ p ∈ x.rf, p.1 = b ∧ p.2.2 = r ∧ x.written p.2.1 b = valueAt (x.at_ r).bytes (x.at_ r).rd b) ∨
    ((∀ p ∈ x.rf, ¬ (p.1 = b ∧ p.2.2 = r)) ∧ valueAt (x.at_ r).bytes (x.at_ r).rd b = some (x.initial b))
  atomic : ∀ p ∈ x.co, (x.at_ p.2.2).kind = .rmw → ∃ q ∈ x.rf, q.1 = p.1 ∧ q.2.2 = p.2.2 ∧ (q.2.1 = p.2.1 ∨ (p.1, p.2.1, q.2.1) ∈ x.co)
  commits : (∀ i < x.ev.length, (x.actAt (x.actOf i)).kind ≠ .commit) ∨
    (∀ i < x.ev.length, ((x.actAt (x.actOf i)).kind = .commit → x.actOf i = 0) ∧
      (x.actOf i = 0 → (x.at_ i).kind = .write ∧ (x.actAt (x.actOf i)).kind = .commit)) ∧
    ∀ q < x.ev.length, ∀ u < x.ev.length, ((x.at_ q).reads && x.actOf u == 0) = true → seesAll x q u = true

theorem act_all {x : Execution} {p : Act → Prop} (h : ∀ a ∈ x.acts, p a) (hd : p {}) (k : Nat) : p (x.actAt k) := by
  unfold Execution.actAt
  by_cases hk : k < x.acts.length
  · rw [List.getD_eq_getElem _ _ hk]; exact h _ (List.getElem_mem hk)
  · rw [List.getD_eq_default _ _ (by omega)]; exact hd
theorem at_out {x : Execution} {i : Nat} (h : ¬ i < x.ev.length) : (x.at_ i).kind = .fence := by
  unfold Execution.at_; rw [List.getD_eq_default _ _ (by omega)]
theorem reads_in {x : Execution} {i : Nat} (h : (x.at_ i).reads = true) : i < x.ev.length := by
  by_contra hi; simp [MemEvent.reads, at_out hi] at h
theorem writes_in {x : Execution} {i : Nat} (h : (x.at_ i).writes = true) : i < x.ev.length := by
  by_contra hi; simp [MemEvent.writes, at_out hi] at h

namespace Calm
variable {x : Execution} (c : Calm x)
include c

theorem kind (k : Nat) : (x.actAt k).kind = .issue ∨ (x.actAt k).kind = .join ∨ (x.actAt k).kind = .commit :=
  (act_all (p := fun a => (a.kind = .issue ∨ a.kind = .join ∨ a.kind = .commit) ∧ a.uses = [] ∧ a.branch = false) c.acts (by decide) k).1
theorem uses (k : Nat) : (x.actAt k).uses = [] ∧ (x.actAt k).branch = false :=
  (act_all (p := fun a => (a.kind = .issue ∨ a.kind = .join ∨ a.kind = .commit) ∧ a.uses = [] ∧ a.branch = false) c.acts (by decide) k).2

theorem no_dep {i j : Nat} : ¬ Execution.Dep x i j := by
  intro h
  cases h with
  | data _ _ _ _ _ h => simp [Execution.usesFrom, (c.uses _).1] at h
  | control _ _ _ _ _ _ h => simp [Execution.branchesFrom, (c.uses _).2] at h
  | fence _ h _ _ hp _ _ => exact (c.evs _ hp.2.1).1 h
theorem release_self {s w : Nat} (h : x.release s w) : s = w := by
  obtain ⟨-, ⟨h, -⟩ | ⟨h, hp⟩⟩ := h
  · exact h
  · exact absurd h (c.evs _ hp.1).1
theorem acquire_self {t r : Nat} (h : x.acquire t r) : t = r := by
  obtain ⟨-, ⟨h, -⟩ | ⟨h, hp⟩⟩ := h
  · exact h
  · exact absurd h (c.evs _ hp.2.1).1
theorem takes_lt {w r : Nat} (h : x.takesFrom w r) : x.actOf w < x.actOf r := by
  obtain ⟨b, v, h, hr⟩ := h
  have h2 := (c.rf _ hr).1
  obtain rfl | ⟨h, -⟩ := h
  · exact h2
  · have := (c.co _ h).1; dsimp only at *; omega
theorem isLane {i : Nat} (hi : i < x.ev.length) : ∃ b t, x.agentOf i = .lane b t := by
  have := (c.evs i hi).2.2.2
  unfold laneActs at this
  cases ha : x.agentOf i <;> rw [ha] at this <;> simp at this ⊢
theorem noPort {i j : Nat} (h : x.portOrder i j) : False := by
  obtain ⟨hp, a, _, ha, -, h1, -⟩ := h
  have := c.near i hp.1 _ ha
  obtain ⟨b, t, hl⟩ := c.isLane hp.1
  simp only [hl, MemAgent.throughPort, Bool.and_eq_true, decide_eq_true_eq] at h1
  simp only [nearLoc, decide_eq_true_eq] at this; omega
theorem noTree {i : Nat} (hi : i < x.ev.length) (h : (x.agentOf i).ofTree = true) : False := by
  have := (c.evs i hi).2.2.2
  unfold laneActs at this
  cases ha : x.agentOf i <;> rw [ha] at this h <;> simp [MemAgent.ofTree] at this h
theorem noHost {i : Nat} (hi : i < x.ev.length) (h : x.agentOf i = .host) : False := by
  have := (c.evs i hi).2.2.2
  simp [laneActs, h] at this
theorem named_lt {i j : Nat} (h : Execution.Named x i j) : x.actOf i < x.actOf j := by
  cases h with
  | gathers h h2 =>
    cases h with
    | join _ h1 => exact lt_trans h1.2.2 h2.2.1
    | regroup h | pointer _ h | waitoc h => obtain h' | h' | h' := c.kind _ <;> rw [h'] at h <;> cases h
  | released h =>
    cases h with
    | opening h | counted h => obtain h' | h' | h' := c.kind _ <;> rw [h'] at h <;> cases h
  | commit _ h => exact h.2.2
  | agents h => exact absurd h.2.2.1 (by simpa using fun ht => c.noTree h.1 ht)
  | notify h hi => exact (c.noHost hi h).elim
  | post h | tile h | nres h | blockEnd h | turn h | nresCopy h | endCopy h
  | input h | completion h | signal h =>
    obtain h' | h' | h' := c.kind _ <;> rw [h'] at h <;> cases h
theorem hb_lt {i j : Nat} (h : Execution.Hb x i j) : x.actOf i < x.actOf j := by
  induction h with
  | po h => exact h.2.2.2.2
  | xl h => obtain ⟨-, -, _, _, -, -, _, -, -, h, -⟩ := h; exact h
  | host h => exact h.2.2.2.2.1
  | sw h =>
    cases h with
    | releaseAcquire h1 h2 h3 => rw [c.release_self h1, c.acquire_self h2]; exact c.takes_lt h3
    | dependency _ _ _ _ h => exact absurd h c.no_dep
    | fence h => rw [c.noFences] at h; cases h
    | fenceIn hf _ _ hp => exact absurd hf (c.evs _ hp.2.1).1
    | fenceOut _ hg _ hp => exact absurd hg (c.evs _ hp.1).1
    | port h1 => exact (c.noPort h1).elim
    | portRead _ _ _ h => exact (c.noPort h).elim
    | named h => exact c.named_lt h
  | prom h _ h3 => rw [c.release_self h.1]; exact c.takes_lt h3
  | promEarlier h _ h3 _ _ h5 => exact lt_trans h5 (by rw [c.release_self h.1]; exact c.takes_lt h3)
  | trans _ _ h1 h2 => exact lt_trans h1 h2
theorem eco_le {i j : Nat} (h : Execution.Eco x i j) : x.actOf i ≤ x.actOf j := by
  induction h with
  | rf h => obtain ⟨b, h⟩ := h; exact (c.rf _ h).1.le
  | co h => obtain ⟨b, h⟩ := h; exact (c.co _ h).1
  | fr h =>
    obtain ⟨b, hb, hr, hw, hv, hlw, hlr, hne, h⟩ := h
    refine c.fr _ hlr _ hlw b hb ?_
    simp only [writesAt, lateRead, hr, hv, hw, List.contains_eq_mem, decide_true, Bool.true_and, Bool.and_eq_true, bne_iff_ne, ne_eq, hne,
      not_false_eq_true, true_and, Bool.or_eq_true, Bool.not_eq_true', List.any_eq_false, List.any_eq_true, beq_iff_eq, decide_eq_true_eq]
    obtain h | ⟨v, h1, h2⟩ := h
    · refine Or.inl ?_
      rintro ⟨b', v, r'⟩ hp ⟨rfl, rfl⟩; exact h v hp
    · exact Or.inr ⟨_, h1, ⟨rfl, rfl⟩, h2⟩
  | trans _ _ h1 h2 => exact le_trans h1 h2
theorem depRf_lt {i j : Nat} (h : Execution.DepRf x i j) : x.actOf i < x.actOf j := by
  induction h with
  | dep h => exact absurd h c.no_dep
  | rf h => obtain ⟨b, h⟩ := h; exact (c.rf _ h).1
  | trans _ _ h1 h2 => exact lt_trans h1 h2

theorem formed : x.formed := by
  refine ⟨fun b w r h => (c.rf _ h).2 |> fun ⟨h1, h2, h3, h4, h5, h6, _⟩ => ⟨h1, h2, h3, h4, h5, h6⟩, fun b v w r h1 h2 => ?_,
    fun b v w h => (c.co _ h).2 |> fun ⟨h1, h2, h3, h4, h5, h6, _⟩ => ⟨h1, h2, h3, h4, h5, h6⟩, fun b u v w h1 h2 => ?_, fun b v h => ?_,
    fun b v w hv hw h1 h2 h3 h4 h5 => by simpa using c.total v hv w hw b h3 (by simp [writesAt, h1, h2, h3, h4, h5]), ?_, ?_, fun i j hi _ h _ _ => absurd h (c.evs i hi).1⟩
  · exact (c.rf _ h2).2.2.2.2.2.2.2 _ h1 rfl rfl
  · exact (c.co _ h1).2.2.2.2.2.2.2.2 _ h2 rfl rfl
  · exact (c.co _ h).2.2.2.2.2.2.2.1 rfl
  · rw [c.noFences]; rintro i j ⟨⟩
  · rw [c.noFences]; rintro i j k ⟨⟩
theorem placed : x.placed := by
  refine ⟨fun i blk t hi h => ?_, fun i cls ch l hi _ h => ?_, fun i hi h => absurd h (c.evs i hi).1, fun k sc h => ?_, fun k cls n left h => ?_, fun w h => ?_⟩
  · have := c.evs i hi
    simp only [laneActs, h, Bool.and_eq_true, beq_iff_eq, List.contains_eq_mem, decide_eq_true_eq] at this
    exact ⟨this.2.2.1, this.2.2.2.1.1.1, this.2.2.2.1.2, fun _ => ⟨this.2.2.2.1.1.2, this.2.2.2.2⟩⟩
  · obtain h' | h' | h' := c.kind (x.actOf i) <;> rw [h'] at h <;> cases h
  · obtain h' | h' | h' := c.kind k <;> rw [h'] at h <;> cases h
  · obtain h' | h' | h' := c.kind k <;> rw [h'] at h <;> cases h
  · simp only [Execution.committed, Bool.and_eq_true] at h
    exact c.scopes w (writes_in h.1)
theorem laneOrder : x.laneOrder := by
  rintro b v w ⟨hv, hw, ha, h3, h4, _, blk, t, u, hav, haw, hlt⟩
  refine ⟨fun h1 h2 => c.lanes v hv w hw b h3 (by simp [writesAt, lanesAsc, hav, haw, h1, h2, h3, h4, ha, ha ▸ hlt]), fun h => ?_⟩
  rw [c.noAtom v hv] at h; cases h
theorem valuedAll : x.valued := by
  intro r b v hr hb hv
  obtain ⟨p, hp, rfl, rfl, h⟩ | ⟨h1, h2⟩ := c.valued r (reads_in hr) hr b hb
  · exact Or.inl ⟨p.2.1, hp, h.trans hv⟩
  · refine Or.inr ⟨fun w hw => h1 _ hw ⟨rfl, rfl⟩, ?_⟩
    rw [hv] at h2; exact Option.some.inj h2
theorem commitAll : x.commit := by
  have hin : ∀ w, x.committed w = true → (x.at_ w).writes = true ∧ (x.actAt (x.actOf w)).kind = .commit := by
    intro w h; simpa [Execution.committed] using h
  obtain h | h := c.commits
  · exact ⟨fun w _ _ hw => absurd (hin w hw).2 (h w (writes_in (hin w hw).1)),
      fun u _ _ _ _ _ hu => absurd (hin u hu.1).2 (h u (writes_in (hin u hu.1).1))⟩
  · have zero : ∀ w, x.committed w = true → w < x.ev.length ∧ x.actOf w = 0 := fun w hw =>
      ⟨writes_in (hin w hw).1, (h.1 w (writes_in (hin w hw).1)).1 (hin w hw).2⟩
    refine ⟨fun w b r _ _ q _ hq u hu c' hc hcq => ?_, fun u v w w' b d hu _ hco _ => ⟨hu.1, ?_, ?_⟩⟩
    · have hs := h.2 q (reads_in hq) u (zero u hu.1).1 (by simp [hq, (zero u hu.1).2])
      have hs := List.all_eq_true.mp hs c' hc
      simp only [List.contains_eq_mem, hcq, decide_true, Bool.not_true, Bool.false_or, List.any_eq_true, Bool.and_eq_true, beq_iff_eq,
        Bool.or_eq_true, decide_eq_true_eq] at hs
      obtain ⟨p, hp, ⟨rfl, rfl⟩, h'⟩ := hs
      exact ⟨_, hp, h'⟩
    · obtain ⟨hle, h1, -, h3, -⟩ := c.co _ hco
      have h0 : x.actOf w = 0 := by have := (zero u hu.1).2; dsimp only at hle; omega
      simp [Execution.committed, h3, ((h.1 _ h1).2 h0).2]
    · obtain ⟨hle, -⟩ := c.co _ hco
      have := (zero u hu.1).2; dsimp only at hle; omega

theorem deliveryAll : x.delivery := by
  rintro v w b d r ⟨hv, -, -, -, ⟨core, ch, h⟩, -⟩
  obtain ⟨_, _, hl⟩ := c.isLane hv
  rw [hl] at h; cases h

theorem allowed : x.allowed := by
  refine ⟨c.formed, c.placed, c.laneOrder, c.valuedAll, ⟨fun i h => lt_irrefl _ (c.hb_lt h), fun i j h1 h2 => ?_⟩, ⟨?_, ?_⟩,
    fun i h => lt_irrefl _ (c.depRf_lt h), ?_, c.commitAll, c.deliveryAll⟩
  · have := c.hb_lt h1; have := c.eco_le h2; omega
  · intro b m hm _ u hu
    obtain ⟨q, hq, h1, h2, h3⟩ := c.atomic _ hu hm
    obtain ⟨b', v, m'⟩ := q; dsimp only at h1 h2 h3; subst h1; subst h2
    exact ⟨v, hq, h3⟩
  · intro b m v hm hr
    obtain ⟨hlt, h1, h2, h3, -, h5, h6, -⟩ := c.rf _ hr
    dsimp only at hlt h1 h2 h3 h5 h6
    have hw : (x.at_ m).writes = true := by simp [MemEvent.writes, hm]
    have := c.total v h1 m h2 b h5 (by
      simp only [writesAt, h3, hw, List.contains_eq_mem, h5, h6, decide_true, Bool.and_self, Bool.true_and, bne_iff_ne, ne_eq]
      rintro rfl; omega)
    simp only [List.contains_eq_mem, Bool.or_eq_true, decide_eq_true_eq] at this
    obtain h | h := this
    · exact h
    · have := (c.co _ h).1; dsimp only at this; omega
  · refine ⟨fun r h hr => ?_, fun v w b d h _ hco => ?_, fun r _ _ _ h hr => ?_⟩
    · rw [(c.evs r (reads_in hr)).2.1] at h; cases h
    · rw [(c.evs v (c.co _ hco).2.1).2.1] at h; cases h
    · rw [(c.evs r (reads_in hr)).2.1] at h; cases h
end Calm

/-- Message passing: a lane of block 0 writes byte 0 and then releases byte 1; one of block 1 acquires byte 1 and then reads byte 0. -/
def passed : Execution :=
  { acts := [{ active := [0] }, { active := [0] }, { blk := 1, active := [0] }, { blk := 1, active := [0] }],
    ev := [{ who := laneOf 0 0, kind := .write, act := 0, bytes := [.device 0], wr := [7] },
      { who := laneOf 0 0, kind := .write, act := 1, bytes := [.device 1], wr := [1], rel := true },
      { who := laneOf 1 0, kind := .read, act := 2, bytes := [.device 1], rd := [1], acq := true },
      { who := laneOf 1 0, kind := .read, act := 3, bytes := [.device 0], rd := [7] }],
    rf := [(.device 1, 1, 2), (.device 0, 0, 3)] }
/-- A lane stores to ASP before a join that gathers it with another, which then reads the byte. -/
def joined : Execution :=
  { acts := [{ active := [0] }, { kind := .join, active := [0, 1] }, { active := [1] }],
    ev := [{ who := laneOf 0 0, kind := .write, act := 0, bytes := [.asp 0 5], wr := [9] },
      { who := laneOf 0 1, kind := .read, act := 2, bytes := [.asp 0 5], rd := [9] }],
    rf := [(.asp 0 5, 0, 1)] }
/-- Two read-modify-writes of byte 0 after a write of it. -/
def twice : Execution :=
  { acts := [{ active := [0] }, { blk := 1, active := [0] }, { blk := 2, active := [0] }],
    ev := [{ who := laneOf 0 0, kind := .write, act := 0, bytes := [.device 0], wr := [5] },
      { who := laneOf 1 0, kind := .rmw, act := 1, bytes := [.device 0], rd := [5], wr := [6] },
      { who := laneOf 2 0, kind := .rmw, act := 2, bytes := [.device 0], rd := [6], wr := [7] }],
    rf := [(.device 0, 0, 1), (.device 0, 1, 2)], co := [(.device 0, 0, 1), (.device 0, 0, 2), (.device 0, 1, 2)] }
/-- Two lanes of one store write byte 0, and the second then reads it. -/
def oneStore : Execution :=
  { acts := [{ active := [0, 1] }, { active := [1] }],
    ev := [{ who := laneOf 0 0, kind := .write, act := 0, bytes := [.device 0], wr := [1] },
      { who := laneOf 0 1, kind := .write, act := 0, bytes := [.device 0], wr := [2] },
      { who := laneOf 0 1, kind := .read, act := 1, bytes := [.device 0], rd := [2] }],
    rf := [(.device 0, 1, 2)], co := [(.device 0, 0, 1)] }
/-- A commit writes bytes 0 and 1; a lane of another block reads the one and then the other, and then stores to both. -/
def commitOnce : Execution :=
  { acts := [{ kind := .commit, active := [0] }, { blk := 1, active := [0] }, { blk := 1, active := [0] }, { blk := 1, active := [0] }],
    ev := [{ who := laneOf 0 0, kind := .write, act := 0, bytes := [.device 0], wr := [1] },
      { who := laneOf 0 0, kind := .write, act := 0, bytes := [.device 1], wr := [2] },
      { who := laneOf 1 0, kind := .read, act := 1, bytes := [.device 0], rd := [1] },
      { who := laneOf 1 0, kind := .read, act := 2, bytes := [.device 1], rd := [2] },
      { who := laneOf 1 0, kind := .write, act := 3, bytes := [.device 0, .device 1], wr := [5, 6] }],
    rf := [(.device 0, 0, 2), (.device 1, 1, 3)], co := [(.device 0, 0, 4), (.device 1, 1, 4)] }

theorem calm_passed : Calm passed := by constructor <;> decide
theorem calm_joined : Calm joined := by constructor <;> decide
theorem calm_twice : Calm twice := by constructor <;> decide
theorem calm_oneStore : Calm oneStore := by constructor <;> decide
theorem calm_commitOnce : Calm commitOnce := by constructor <;> decide

theorem test_witness_MessagePassing_release : passed.allowed ∧ passed.po 0 1 ∧ passed.release 1 1 ∧ passed.acquire 2 2 ∧ passed.takesFrom 1 2 ∧
    passed.inScope 1 2 ∧ passed.po 2 3 ∧ 0 < passed.ev.length ∧ 3 < passed.ev.length ∧ 0 ≠ 3 ∧ (passed.at_ 0).writes = true ∧
    .device 0 ∈ (passed.at_ 0).bytes ∧ (passed.at_ 3).reads = true ∧ .device 0 ∈ (passed.at_ 3).bytes := by
  refine ⟨calm_passed.allowed, ?_, ⟨rfl, Or.inl ⟨rfl, Or.inl rfl⟩⟩, ⟨rfl, Or.inl ⟨rfl, rfl⟩⟩, ⟨.device 1, 1, Or.inl rfl, by decide⟩, ?_, ?_, ?_⟩
  all_goals first | (unfold Execution.po; decide) | (unfold Execution.inScope; decide) | decide
theorem test_witness_MessagePassing_named : joined.allowed ∧ Execution.Named joined 0 1 ∧ 0 < joined.ev.length ∧ 1 < joined.ev.length ∧ 0 ≠ 1 ∧
    (joined.at_ 0).writes = true ∧ .asp 0 5 ∈ (joined.at_ 0).bytes ∧ (joined.at_ 1).reads = true ∧ .asp 0 5 ∈ (joined.at_ 1).bytes :=
  ⟨calm_joined.allowed, .gathers (.join (k := 1) rfl ⟨by decide, ⟨0, by decide, rfl⟩, by decide⟩) ⟨by decide, by decide, Or.inl ⟨1, by decide, rfl⟩⟩, by decide⟩
theorem test_witness_MessagePassing_atomicity : twice.allowed ∧ 1 ≠ 2 ∧ (twice.at_ 1).kind = .rmw ∧ (twice.at_ 2).kind = .rmw ∧
    (.device 0, 0, 1) ∈ twice.co ∧ (.device 0, 0, 2) ∈ twice.co := ⟨calm_twice.allowed, by decide⟩
theorem test_witness_MessagePassing_lanes : oneStore.allowed ∧ 0 < oneStore.ev.length ∧ 1 < oneStore.ev.length ∧ oneStore.agentOf 0 = .lane 0 0 ∧
    oneStore.agentOf 1 = .lane 0 1 ∧ oneStore.actOf 0 = oneStore.actOf 1 ∧ (oneStore.at_ 0).writes = true ∧ (oneStore.at_ 1).writes = true ∧
    .device 0 ∈ (oneStore.at_ 0).bytes ∧ .device 0 ∈ (oneStore.at_ 1).bytes ∧ (oneStore.actAt (oneStore.actOf 0)).kind ≠ .commit ∧
    (oneStore.actAt (oneStore.actOf 0)).active.idxOf 0 < (oneStore.actAt (oneStore.actOf 0)).active.idxOf 1 ∧ oneStore.po 1 2 ∧
    (oneStore.at_ 2).reads = true ∧ .device 0 ∈ (oneStore.at_ 2).bytes ∧ 2 < oneStore.ev.length := by
  refine ⟨calm_oneStore.allowed, ?_⟩
  unfold Execution.po; decide
theorem test_witness_MessagePassing_commit : commitOnce.allowed ∧ commitOnce.oneCommit 0 1 ∧ (.device 0, 0, 2) ∈ commitOnce.rf ∧
    Execution.Hb commitOnce 2 3 ∧ (commitOnce.at_ 3).reads = true ∧ .device 1 ∈ (commitOnce.at_ 1).bytes ∧
    .device 1 ∈ (commitOnce.at_ 3).bytes ∧ (.device 0, 0, 4) ∈ commitOnce.co ∧ ¬ commitOnce.oneCommit 4 0 ∧
    .device 1 ∈ (commitOnce.at_ 4).bytes := by
  refine ⟨calm_commitOnce.allowed, ?_, by decide, .po ?_, ?_⟩
  all_goals (try unfold Execution.oneCommit); (try unfold Execution.po); decide

end Sys2Proof.Tests
end

/-! PROOFS. Loads from device memory (O27): the rules of register runs, of lane masks, of translated lanes and of the bytes of a
word, and LD assembled from them. -/

namespace Sys2Proof.Machine

/-! ### Lanes and masks -/

theorem mem_maskLanes {m : Mask} {l : Nat} : l ∈ maskLanes m ↔ l < 32 ∧ m.has l = true := by
  simp [maskLanes, lanes32]

theorem Env.mem_lanes {e : Env} {l : Nat} : l ∈ e.lanes ↔ l < 32 ∧ e.act.has l = true := mem_maskLanes

/-- A test that no lane satisfies has the empty mask. -/
theorem maskOf_eq_zero {p : Nat → Bool} (h : ∀ l < 32, p l = false) : maskOf p = 0 := by
  have hfold : ∀ ls : List Nat, (∀ l ∈ ls, p l = false) →
      ls.foldl (fun acc l => if p l then acc + 2 ^ l else acc) 0 = 0 := by
    intro ls hls
    induction ls with
    | nil => rfl
    | cons l ls ih =>
      rw [List.foldl_cons, hls l List.mem_cons_self]
      exact ih (fun k hk => hls k (List.mem_cons_of_mem _ hk))
  rw [maskOf, hfold lanes32 (fun l hl => h l (List.mem_range.1 hl))]
  rfl

/-- A check that every active lane passes goes on. -/
theorem Env.checkLanes_pass {e : Env} {code : Nat} {addr : Nat → W64} {bad : Nat → Bool} {k : Eff}
    (h : ∀ l < 32, e.act.has l = true → bad l = false) : e.checkLanes code addr bad k = k := by
  have hm : e.lanesThat bad = 0 := by
    rw [Env.lanesThat, maskOf_eq_zero]
    · exact BitVec.and_zero
    intro l hl
    cases ha : e.act.has l with
    | false => rfl
    | true => exact h l hl ha
  simp only [Env.checkLanes, hm, bne_self_eq_false, Bool.false_eq_true, if_false]

/-- An entry of a table of lanes is found under its lane. -/
theorem find_lane_entry {α : Type} (f : Nat → α) {ls : List Nat} {l : Nat} (h : l ∈ ls) :
    (ls.map (fun l => (l, f l))).find? (fun r => r.1 == l) = some (l, f l) := by
  induction ls with
  | nil => cases h
  | cons k ls ih =>
    by_cases hk : k = l
    · simp [hk]
    · rw [List.map_cons, List.find?_cons_of_neg (by simpa using hk)]
      exact ih ((List.mem_cons.1 h).resolve_left (Ne.symm hk))

/-! ### Register values, and what a lane holds of them -/

@[simp] theorem VVal.isG_ofFn (f : Nat → W32) : (VVal.ofFn f).isG = true := rfl

theorem VVal.at_ofFn (f : Nat → W32) {l : Nat} (hl : l < 32) : (VVal.ofFn f).at l = f l := by
  simp [VVal.ofFn, VVal.at, lanes32, hl]

/-- A general result in a lane: active lanes take it, the others keep what they hold (R135, R199). -/
theorem Env.at_merge_ofFn (e : Env) (old : VVal) (f : Nat → W32) {l : Nat} (hl : l < 32) :
    (e.merge old (VVal.ofFn f)).at l = if e.act.has l then f l else old.at l := by
  simp [Env.merge, VVal.at_ofFn _ hl]

theorem Cohort.v_setV (co : Cohort) {n : Nat} (hn : n ≠ zv) (x : VVal) (m : Nat) :
    (co.setV n x).v m = if m = n then x else co.v m := by
  by_cases hm : m = n
  · subst hm
    by_cases hx : x = .u 0
    · simp only [Cohort.setV, Cohort.v, hn, hx, SMap.get, SMap.look_del_self, if_true, if_false, Option.getD_none]
    · simp only [Cohort.setV, Cohort.v, hn, hx, SMap.get, SMap.look_put_self, if_true, if_false, Option.getD_some]
  · by_cases hx : x = .u 0
    · simp only [Cohort.setV, Cohort.v, hn, hm, hx, SMap.get, SMap.look_del_ne _ hm, if_true, if_false]
    · simp only [Cohort.setV, Cohort.v, hn, hm, hx, SMap.get, SMap.look_put_ne _ _ hm, if_false]

/-- A register write changes the V registers and nothing else. -/
theorem Cohort.setV_frame (co : Cohort) (n : Nat) (x : VVal) : co.setV n x = { co with vregs := (co.setV n x).vregs } := by
  unfold Cohort.setV
  split <;> rfl

/-- A run of registers written: each holds its own general result, every other register what it held. -/
theorem Env.v_setRun (e : Env) (co : Cohort) {d n : Nat} (hd : d + n ≤ zv) (f : Nat → Nat → W32) (m : Nat) :
    (e.setRun co d n f).v m = if d ≤ m ∧ m < d + n then e.merge (co.v m) (VVal.ofFn (f (m - d))) else co.v m := by
  by_cases hz : d = zv
  · simp only [Env.setRun, hz, if_true]
    rw [if_neg (by omega)]
  · simp only [Env.setRun, hz, if_false]
    induction n with
    | zero => rw [if_neg (by omega)]; rfl
    | succ n ih =>
      rw [List.range_succ, List.foldl_append, List.foldl_cons, List.foldl_nil, Env.setV, Cohort.v_setV _ (by omega)]
      by_cases hm : m = d + n
      · subst hm
        rw [if_pos rfl, if_pos (by omega), ih (by omega), if_neg (by omega), Nat.add_sub_cancel_left]
      · rw [if_neg hm, ih (by omega)]
        exact if_congr (by omega) rfl rfl

/-- A run written changes the V registers and nothing else. -/
theorem Env.setRun_frame (e : Env) (co : Cohort) (d n : Nat) (f : Nat → Nat → W32) :
    e.setRun co d n f = { co with vregs := (e.setRun co d n f).vregs } := by
  by_cases hz : d = zv
  · rw [hz]; rfl
  · simp only [Env.setRun, hz, if_false]
    induction n with
    | zero => rfl
    | succ n ih =>
      rw [List.range_succ, List.foldl_append, List.foldl_cons, List.foldl_nil, Env.setV]
      refine (Cohort.setV_frame _ _ _).trans ?_
      rw [ih]

/-! ### The end of an issue that has changed its cohort only -/

/-- The issuing cohort, once the instruction that made it `co` is complete. -/
def Env.wentOn (e : Env) (co : Cohort) : Cohort :=
  (co.mapLanes (e.group &&& co.live) (fun _ x => { x with pc := e.next })).endWait e.pc

theorem Cohort.lane_mapLanes (co : Cohort) (m : Mask) (f : Nat → Lane → Lane) {l : Nat} (hl : l < 32) :
    (co.mapLanes m f).lane l = if m.has l then f l (co.lane l) else co.lane l := by
  simp [Cohort.mapLanes, Cohort.lane, lanes32, hl]

theorem Env.lane_wentOn (e : Env) (co : Cohort) {l : Nat} (hl : l < 32) :
    (e.wentOn co).lane l = if (e.group &&& co.live).has l then { co.lane l with pc := e.next } else co.lane l :=
  co.lane_mapLanes (e.group &&& co.live) (fun _ x => { x with pc := e.next }) hl

@[simp] theorem Env.v_wentOn (e : Env) (co : Cohort) (n : Nat) : (e.wentOn co).v n = co.v n := rfl

theorem Env.cohort_completes_put (e : Env) (co : Cohort) : (e.completes (e.put co)).cohort e.slot = some (e.wentOn co) := by
  refine (State.cohort_updCohort_self _ _ _).trans ?_
  rw [Env.put, State.cohort_setCohort, if_pos rfl]
  rfl

theorem Env.onlyCohort_completes_put (e : Env) (co : Cohort) : e.OnlyCohort (e.completes (e.put co)) (e.wentOn co) where
  here := e.cohort_completes_put co
  there k hk := by
    refine (State.cohort_updCohort_ne _ _ hk).trans ?_
    rw [Env.put, State.cohort_setCohort, if_neg hk]
  part := rfl
  bytes _ _ := rfl

/-- A run of registers from `d` on is written by an issue that completes: those registers change, in active lanes, and no others. -/
theorem Env.registerFrame_setRun (e : Env) (hg : e.group &&& e.co.live = e.group) {d n : Nat} (hd : d = zv ∨ d + n ≤ zv)
    (f : Nat → Nat → W32) :
    e.RegisterFrame (e.completes (e.put (e.setRun e.co d n f))) (e.wentOn (e.setRun e.co d n f)) ((List.range n).map (d + ·)) [] := by
  have hframe := e.setRun_frame e.co d n f
  refine ⟨e.onlyCohort_completes_put _, fun l hl => ?_, fun m hm => ?_, fun m l hl _ ha => ?_, fun m _ => ?_, fun m l _ => ?_, ?_, ?_⟩
  · have hlive : (e.setRun e.co d n f).live = e.co.live := by rw [hframe]; rfl
    have hlane : (e.setRun e.co d n f).lane l = e.co.lane l := by rw [hframe]; rfl
    rw [e.lane_wentOn _ hl, hlive, hlane, hg]
  · rw [e.v_wentOn]
    rcases hd with rfl | hd
    · rfl
    · rw [e.v_setRun _ hd, if_neg]
      rintro ⟨h1, h2⟩
      exact hm (List.mem_map.2 ⟨m - d, List.mem_range.2 (by omega), by omega⟩)
  · rw [e.v_wentOn]
    rcases hd with rfl | hd
    · rfl
    · rw [e.v_setRun _ hd]
      split
      · rw [e.at_merge_ofFn _ _ hl, ha]; rfl
      · rfl
  · rw [hframe]; rfl
  · rw [hframe]; rfl
  · rw [hframe]
    simp [Env.wentOn, Cohort.endWait, Cohort.mapLanes]
  · rw [hframe]; rfl

/-- What a run that an issue has written holds in its active lanes. -/
theorem Env.at_wentOn_setRun (e : Env) (co : Cohort) {d n : Nat} (hd : d + n ≤ zv) (f : Nat → Nat → W32) {k l : Nat} (hk : k < n)
    (hl : l < 32) (ha : e.act.has l = true) : ((e.wentOn (e.setRun co d n f)).v (d + k)).at l = f k l := by
  rw [e.v_wentOn, e.v_setRun co hd f, if_pos (by omega), e.at_merge_ofFn _ _ hl, ha, if_pos rfl, Nat.add_sub_cancel_left]

/-- The group of an issue is made of lanes that run. -/
theorem group_and_live {s : State} {i : Instr} {e : Env} (h : s.envFor i = some e) : e.group &&& e.co.live = e.group := by
  obtain ⟨-, -, -, -, hg, -⟩ := envFor_facts h
  rw [hg, BitVec.and_assoc, BitVec.and_self]

/-! ### The bytes of a word (R5, R255) -/

/-- The signed reading of a word is its integer. -/
theorem sext_toNat {n : Nat} (x : BitVec (n + 1)) : sext x.toNat (n + 1) = x.toInt := by
  rw [sext, BitVec.toInt_eq_toNat_cond, Nat.mod_eq_of_lt x.isLt, Nat.add_sub_cancel]
  rw [if_congr (by omega : x.toNat < 2 ^ n ↔ 2 * x.toNat < 2 ^ (n + 1)) rfl rfl]
  push_cast
  rfl

/-- A byte below a word. -/
theorem toNat_append_byte {n : Nat} (x : BitVec n) (a : Byte) : (x ++ a).toNat = a.toNat + 256 * x.toNat := by
  rw [BitVec.toNat_append, ← Nat.shiftLeft_add_eq_or_of_lt a.isLt, Nat.shiftLeft_eq]
  omega

theorem leNat_byte (a : Byte) : leNat [a] = a.toNat := by simp [leNat]

theorem leNat_half (a b : Byte) : leNat [a, b] = (b ++ a).toNat := by
  rw [toNat_append_byte, ← leNat_byte b]
  rfl

theorem leNat_word (a b c d : Byte) : leNat [a, b, c, d] = (d ++ c ++ b ++ a).toNat := by
  rw [toNat_append_byte, toNat_append_byte, ← leNat_half c d]
  rfl

/-- A word of `n` bits extended to a register by its type. -/
theorem extend_word {n : Nat} (x : BitVec (n + 1)) (sg : Bool) :
    (if sg then BitVec.ofInt 32 (sext x.toNat (n + 1)) else BitVec.ofNat 32 x.toNat) =
      if sg then x.signExtend 32 else x.setWidth 32 := by
  rw [sext_toNat, BitVec.ofNat_toNat, BitVec.signExtend]

/-- Four bytes of a row of bytes, in order. -/
theorem take_four_map_range (f : Nat → Byte) {i n : Nat} (h : i + 4 ≤ n) :
    (((List.range n).map f).drop i).take 4 = [f i, f (i + 1), f (i + 2), f (i + 3)] := by
  rw [List.range_eq_range', ← List.map_drop, ← List.map_take, List.drop_range',
    show n - i = n - i - 4 + 4 by omega]
  simp [List.range'_succ]

/-- A register of a load that is at least a register wide. -/
theorem loadReg_wide {t : Ty} (ht : 4 ≤ t.bytes) (byte : Nat → Byte) {k : Nat} (hk : 4 * k + 4 ≤ t.bytes) :
    loadReg t ((List.range t.bytes).map byte) k = byte (4 * k + 3) ++ byte (4 * k + 2) ++ byte (4 * k + 1) ++ byte (4 * k) := by
  rw [loadReg, if_neg (by omega), take_four_map_range _ hk, leW, leNat_word, BitVec.ofNat_toNat, BitVec.setWidth_eq]

/-- The widths of types: a byte, a half, whole registers, or less than a byte. -/
theorem width_cases (t : Ty) :
    t.bits = 8 ∧ t.bytes = 1 ∨ t.bits = 16 ∧ t.bytes = 2 ∨ t.bits ≠ 8 ∧ t.bits ≠ 16 ∧ 4 ≤ t.bytes ∧ t.bytes % 4 = 0 ∨ t.bytes = 0 := by
  cases t <;> decide

/-- The word a load places in a register is the one that the bytes of the access make (R5, R255). -/
theorem loadReg_eq_loadWord (t : Ty) (byte : Nat → Byte) {k : Nat} (hk : k < regsOf t.bytes) :
    loadReg t ((List.range t.bytes).map byte) k = loadWord t byte k := by
  rcases width_cases t with ⟨hb, hw⟩ | ⟨hb, hw⟩ | ⟨h8, h16, hw, hm⟩ | hw
  · have h := extend_word (byte 0) t.signed
    rw [← leNat_byte] at h
    rw [loadReg, loadWord, hb, hw, if_pos (by decide)]
    exact h
  · have h := extend_word (byte 1 ++ byte 0) t.signed
    rw [← leNat_half] at h
    rw [loadReg, loadWord, hb, hw, if_pos (by decide)]
    exact h
  · rw [regsOf, cdiv] at hk
    rw [loadReg_wide hw byte (by omega), loadWord]
    split
    next h => exact absurd h h8
    next h => exact absurd h h16
    next => rfl
  · rw [hw] at hk
    exact absurd hk (Nat.not_lt_zero k)

/-- No type is wider than four registers. -/
theorem regsOf_bytes_le (t : Ty) : regsOf t.bytes ≤ 4 := by cases t <;> decide

/-! ### Translated lanes (R256, R388) -/

/-- When every active lane's address translates, the access goes on with the lanes' translations. -/
theorem Env.xlatLanes_ok {e : Env} {s : State} {acc : Access} {va : Nat → W64} {x : Nat → Xlat}
    (h : ∀ l < 32, e.act.has l = true → s.translate (s.coreTlbs e.core) e.blk.vf (va l) acc = .ok (x l)) :
    ∃ y, (∀ l < 32, e.act.has l = true → y l = x l) ∧ ∀ k, e.xlatLanes s acc va k = k y := by
  have hrs : e.lanes.map (fun l => (l, s.translate (s.coreTlbs e.core) e.blk.vf (va l) acc)) =
      e.lanes.map (fun l => (l, Except.ok (x l))) :=
    List.map_congr_left (fun l hl => by
      obtain ⟨hl, ha⟩ := Env.mem_lanes.1 hl
      rw [h l hl ha])
  simp only [Env.xlatLanes, hrs, List.filterMap_map, Function.comp_def, List.filterMap_none]
  refine ⟨_, fun l hl ha => ?_, fun k => rfl⟩
  rw [find_lane_entry _ (Env.mem_lanes.2 ⟨hl, ha⟩)]

/-- When in addition none of the lines is poisoned, a read goes on. -/
theorem Env.readLanes_ok {e : Env} {s : State} {acc : Access} {va : Nat → W64} {x : Nat → Xlat}
    (h : ∀ l < 32, e.act.has l = true → s.translate (s.coreTlbs e.core) e.blk.vf (va l) acc = .ok (x l))
    (hc : ∀ l < 32, e.act.has l = true → s.poisoned (x l).pa = false) :
    ∃ y, (∀ l < 32, e.act.has l = true → y l = x l) ∧ ∀ k, e.readLanes s acc va k = k y := by
  obtain ⟨y, hy, hk⟩ := Env.xlatLanes_ok h
  refine ⟨y, hy, fun k => (hk _).trans ?_⟩
  have hfind : (e.lanes.map (fun l => (y l).pa)).find? s.poisoned = none := by
    rw [List.find?_eq_none]
    intro pa hpa
    obtain ⟨l, hl, rfl⟩ := List.mem_map.1 hpa
    obtain ⟨hl, ha⟩ := Env.mem_lanes.1 hl
    rw [hy l hl ha, hc l hl ha]
    exact Bool.false_ne_true
  rw [Env.unlessPoisoned, hfind]

/-! ### LD (R258) -/

/-- What the reads of some lanes leave in the cohort: an open transaction may have noted them (R277). -/
theorem Env.foldl_noteReads (e : Env) (addr : Nat → W64) (pa : Nat → Nat) (n : Nat) (ls : List Nat) (co : Cohort) :
    ∃ tx, ls.foldl (fun co l => e.noteReads co (addr l) (pa l) n) co = { co with tx := tx } ∧ (co.tx = none → tx = none) := by
  induction ls generalizing co with
  | nil => exact ⟨co.tx, rfl, id⟩
  | cons l ls ih =>
    obtain ⟨tx, htx, hnone⟩ := ih (e.noteReads co (addr l) (pa l) n)
    refine ⟨tx, htx, fun h => hnone ?_⟩
    rw [Env.noteReads, h]
    rfl

/-- LD with its checks passed: each active lane's word goes to its destination, and nothing but the transaction's notes changes
beside it. -/
theorem ldBody_ok {e : Env} {x : Nat → Xlat} (ho : e.buffered = true → e.w.ord = 0) (ht : e.loadTakes)
    (hal : e.Aligned (fun l => (e.devAddr l).toNat)) (hx : e.Translates .read x) (hc : e.Clean x) :
    ∃ tx f, ldBody e = .ok (e.put (e.setRun (e.withTx tx).co e.w.d.toNat (regsOf e.ty.bytes) f)) ∧
      (e.co.tx = none → tx = none) ∧
      ∀ l < 32, e.act.has l = true → ∀ k < regsOf e.ty.bytes,
        f k l = loadWord e.ty (fun j => e.devByte ((e.devAddr l).toNat + j) ((x l).pa + j)) k := by
  have hord : e.ordBad = false := by
    cases hb : e.buffered with
    | false => simp [Env.ordBad, hb]
    | true => simp [Env.ordBad, ho hb]
  have hshape : e.shapeG = false := by
    rcases ht with hz | hlt
    · simp [Env.shapeG, hz]
    · simp [Env.shapeG, Nat.not_le.2 hlt]
  simp only [ldBody, hord, hshape, Bool.false_eq_true, if_false]
  rw [Env.checkLanes_pass (fun l hl ha => by simpa using hal l hl ha)]
  obtain ⟨y, hy, hk⟩ := Env.readLanes_ok hx hc
  obtain ⟨tx, htx, hnone⟩ := e.foldl_noteReads e.devAddr (fun l => (y l).pa) e.ty.bytes e.lanes e.co
  rw [hk, htx]
  refine ⟨tx, _, rfl, hnone, fun l hl ha k hlt => ?_⟩
  rw [← loadReg_eq_loadWord _ _ hlt, ← hy l hl ha]
  simp [lanes32, hl, ha, Env.devRead]

/-- Settles O27: LD is one run of registers, written by an issue that changes its cohort only; each word is that of the lane's own bytes. -/
theorem globalLoads : Obligations.GlobalLoads := by
  unfold Obligations.GlobalLoads
  intro s i e x hp hcell ho ht hal hx hc
  obtain ⟨tx, f, hbody, hnone, hf⟩ := ldBody_ok ho ht hal hx hc
  have hexec := exec_passes hp
  rw [hcell, show bodyOf Cells.ld.opc = ldBody from rfl, hbody, finish_ok] at hexec
  have hg := group_and_live hp.env
  have hn := regsOf_bytes_le e.ty
  have hd : e.w.d.toNat ≠ zv → e.w.d.toNat + regsOf e.ty.bytes ≤ zv := fun h => by
    have := ht.resolve_left h
    unfold zv
    omega
  have hframe := e.setRun_frame (e.withTx tx).co e.w.d.toNat (regsOf e.ty.bytes) f
  refine ⟨_, e.wentOn (e.setRun (e.withTx tx).co e.w.d.toNat (regsOf e.ty.bytes) f), hexec, ?_, ?_, fun h => ?_,
    fun l hl ha h k hk => ?_⟩
  · have htx : (e.wentOn (e.setRun (e.withTx tx).co e.w.d.toNat (regsOf e.ty.bytes) f)).tx = tx := by rw [hframe]; rfl
    rw [htx]
    exact (e.withTx tx).registerFrame_setRun hg (Decidable.or_iff_not_imp_left.2 hd) f
  · rw [hframe]; rfl
  · rw [hframe]; exact hnone h
  · rw [e.at_wentOn_setRun _ (hd h) f hk hl ha, hf l hl ha k hk]

end Sys2Proof.Machine

/-! PROOFS. The step of a quarter (O4): the turn of the first candidate is the issue at the cursor. -/

namespace Sys2Proof.Machine

/-! ### The issue at the cursor (R172, R192) -/

/-- What the cursor's group issues, when the bytes at its PC decode, is that instruction. -/
theorem State.issueHere_of_decode {s : State} {x : Issuer} {bs : List Byte} {i : Instr} {n : Nat} (hx : s.issuer = some x)
    (hf : s.fetch x = .ok bs) (hd : decode bs = .ok i n) : s.issueHere = exec i s := by
  simp only [State.issueHere, hx, hf, runBytes_decode, hd]

/-- A try of a PC-group of a cohort that has no value-group fault to raise. -/
theorem State.tryGroup_of_noVglimit {s : State} {slot : Nat} {co : Cohort} (hco : s.cohort slot = some co) (hv : co.vglimit = [])
    (g : Mask) : s.tryGroup slot g = (s.choose slot g).issueHere := by
  simp only [State.tryGroup, hco, hv]

/-- A cohort whose first group issues has had its turn. -/
theorem State.turn_of_issue {s t : State} {slot : Nat} {co : Cohort} {switch : Bool} {g : Mask} {others : List Mask}
    (hco : s.cohort slot = some co) (hg : co.groupOrder switch = g :: others) (ht : s.tryGroup slot g = .next t)
    (hw : t.cur.waited = false) : s.turn slot switch = .next t := by
  simp only [State.turn, hco, hg, State.tryCohort, ht, hw, Bool.false_eq_true, if_false]

/-- Once the first candidate has issued, the others have their turn without issuing (R20, R21). -/
theorem State.serve_of_turn {s t : State} {switch : Bool} {slot : Nat} (rest : List Nat) (ht : s.turn slot switch = .next t)
    (hw : t.cur.waited = false) :
    s.serve switch false (slot :: rest) = (t.updCohort slot (fun co => { co with idle := 0, aged := none })).serve switch true rest := by
  simp only [State.serve, ht, hw, Bool.false_eq_true, if_false]

/-- A clock of a quarter of a core that runs (R20). -/
theorem step_quarter {s s1 : State} {core q : Nat} {switch : Bool} (ha : s.nextAction = (.quarter core q switch, s1))
    (hc : core < 64) (hq : q < 4) (hr : s1.coreRuns core = true) :
    step s = closeClock (s1.quarterCohorts core q)
      ((s1.prepare core q).serve switch false ((s1.prepare core q).candidates core q)) := by
  simp only [step, ha, State.runAction, hc, hq, decide_true, Bool.and_self, if_true, State.quarterClock, hr, Bool.not_true,
    Bool.false_eq_true, if_false]

/-- Settles O4: the turn of the first candidate is the issue of its first group, which is exec of what its bytes decode to. -/
theorem stepRunsDecodedInstruction : Obligations.StepRunsDecodedInstruction := by
  unfold Obligations.StepRunsDecodedInstruction
  refine ⟨?_, fun s x bs i n hx hf hd => State.issueHere_of_decode hx hf hd⟩
  rintro s s1 _ _ t core q switch slot rest co g others x bs i n ha hc hq hr rfl hcand hco hv hg rfl hx hf hd ht hw
  have htry := (State.tryGroup_of_noVglimit hco hv g).trans ((State.issueHere_of_decode hx hf hd).trans ht)
  rw [step_quarter ha hc hq hr, hcand, State.serve_of_turn rest (State.turn_of_issue hco hg htry hw) hw]

end Sys2Proof.Machine

/-! PROOFS. NOP, hints, fences and branches (O20): masks bit by bit, register results by lane, and the rules of a state in which only the
issuing cohort has changed. -/

namespace Sys2Proof.Machine

/-! ### Masks bit by bit -/

@[simp] theorem Mask.has_and (m n : Mask) (l : Nat) : (m &&& n).has l = (m.has l && n.has l) := BitVec.getLsbD_and ..

/-- The sum of the powers of the numbers that satisfy a test has their bits. -/
theorem testBit_foldl_range (p : Nat → Bool) (n : Nat) :
    (List.range n).foldl (fun acc l => if p l then acc + 2 ^ l else acc) 0 < 2 ^ n ∧
      ∀ l, ((List.range n).foldl (fun acc l => if p l then acc + 2 ^ l else acc) 0).testBit l = (decide (l < n) && p l) := by
  induction n with
  | zero => simp
  | succ n ih =>
    obtain ⟨hlt, hbit⟩ := ih
    rw [List.range_succ, List.foldl_append, List.foldl_cons, List.foldl_nil]
    set x := (List.range n).foldl (fun acc l => if p l then acc + 2 ^ l else acc) 0
    refine ⟨by split <;> omega, fun l => ?_⟩
    rcases Nat.lt_trichotomy l n with hl | rfl | hl
    · have hbit' := hbit l
      split
      · rw [Nat.add_comm, Nat.testBit_two_pow_add_gt hl, hbit']
        simp [hl, Nat.lt_succ_of_lt hl]
      · simp [hbit', hl, Nat.lt_succ_of_lt hl]
    · split
      next hp => rw [Nat.add_comm, Nat.testBit_two_pow_add_eq, Nat.testBit_lt_two_pow hlt]; simp [hp]
      next hp => rw [Nat.testBit_lt_two_pow hlt]; simp [hp]
    · rw [Nat.testBit_lt_two_pow]
      · simp [show ¬ l < n + 1 by omega]
      · have := Nat.pow_le_pow_right (show 0 < 2 by decide) hl
        split <;> omega

theorem has_maskOf (p : Nat → Bool) {l : Nat} (hl : l < 32) : (maskOf p).has l = p l := by
  rw [maskOf, Mask.has, BitVec.getLsbD_ofNat, lanes32, (testBit_foldl_range p 32).2]
  simp [hl]

theorem Mask.has_one {k : Nat} (hk : k < 32) (l : Nat) : (Mask.one k).has l = decide (l = k) := by
  rw [Mask.one, Mask.has, BitVec.getLsbD_ofNat, Nat.testBit_two_pow]
  by_cases h : l = k
  · simp [h, hk]
  · simp [h, Ne.symm h]

theorem mask_ne_zero_iff {m : Mask} : m ≠ 0 ↔ ∃ l < 32, m.has l = true := by
  refine ⟨fun h => ?_, fun ⟨l, _, h⟩ hm => by simp [hm, Mask.has] at h⟩
  by_contra hno
  exact h (BitVec.eq_of_getLsbD_eq (fun l hl => by simpa [Mask.has] using fun h => hno ⟨l, hl, h⟩))

/-- The lowest lane of a mask that has one. -/
theorem lowest_spec {m : Mask} (h : m ≠ 0) : lowest m < 32 ∧ m.has (lowest m) = true ∧ ∀ k < lowest m, m.has k = false := by
  obtain ⟨l, hl, hm⟩ := mask_ne_zero_iff.1 h
  obtain ⟨k, hk⟩ := Option.isSome_iff_exists.1 (List.find?_isSome.2 ⟨l, List.mem_range.2 hl, hm⟩ :
    ((List.range 32).find? (fun l => m.has l)).isSome)
  have hlow : lowest m = k := by rw [lowest, maskLanes, lanes32, List.headD_eq_head?_getD, List.head?_filter, hk, Option.getD_some]
  obtain ⟨hhas, hmem, hbelow⟩ := List.find?_range_eq_some.1 hk
  rw [hlow]
  exact ⟨List.mem_range.1 hmem, hhas, fun j hj => by simpa using hbelow j hj⟩

/-! ### A register result by lane (R135, R199) -/

/-- A register written, ZV discarded (R132). -/
theorem Cohort.v_setV_all (co : Cohort) (n : Nat) (x : VVal) (m : Nat) :
    (co.setV n x).v m = if m = n ∧ n ≠ zv then x else co.v m := by
  by_cases hn : n = zv
  · simp [Cohort.setV, hn]
  · rw [co.v_setV hn]
    exact if_congr (by simp [hn]) rfl rfl

theorem Env.at_merge_active (e : Env) (old new : VVal) {l : Nat} (hl : l < 32) (ha : e.act.has l = true) :
    (e.merge old new).at l = new.at l := by
  unfold Env.merge
  split
  · rfl
  · rw [VVal.at_ofFn _ hl, if_pos ha]

/-- A lane that runs and is not active keeps what it holds: a full issue has no such lane. -/
theorem Env.at_merge_inactive (e : Env) (old new : VVal) {l : Nat} (hl : l < 32) (hv : e.co.live.has l = true)
    (ha : e.act.has l = false) : (e.merge old new).at l = old.at l := by
  unfold Env.merge
  split
  next h =>
    have hfull : e.act = e.co.live := eq_of_beq (Bool.and_eq_true_iff.1 h).1
    rw [hfull, hv] at ha
    cases ha
  next => rw [VVal.at_ofFn _ hl, ha, if_neg Bool.false_ne_true]

/-- The issuing cohort with a register result written: what each register then is. -/
theorem Env.v_setV (e : Env) (co : Cohort) (d : Nat) (new : VVal) (m : Nat) :
    (e.setV co d new).v m = if m = d ∧ d ≠ zv then e.merge (co.v d) new else co.v m := co.v_setV_all d _ m

theorem Env.setV_frame (e : Env) (co : Cohort) (d : Nat) (new : VVal) :
    e.setV co d new = { co with vregs := (e.setV co d new).vregs } := co.setV_frame d _

/-- A register result changes its destination only, and that in active lanes. -/
theorem Env.v_setV_other (e : Env) (co : Cohort) {d n : Nat} (new : VVal) (h : n ≠ d) : (e.setV co d new).v n = co.v n := by
  rw [e.v_setV, if_neg (fun hn => h hn.1)]

theorem Env.v_setV_keep (e : Env) (co : Cohort) (d : Nat) (new : VVal) (n : Nat) {l : Nat} (hl : l < 32)
    (hv : e.co.live.has l = true) (ha : e.act.has l = false) : ((e.setV co d new).v n).at l = (co.v n).at l := by
  rw [e.v_setV]
  split
  next h => rw [h.1, e.at_merge_inactive _ _ hl hv ha]
  next => rfl

theorem Env.v_setV_at (e : Env) (co : Cohort) {d : Nat} (new : VVal) (hd : d ≠ zv) {l : Nat} (hl : l < 32)
    (ha : e.act.has l = true) : ((e.setV co d new).v d).at l = new.at l := by
  rw [e.v_setV, if_pos ⟨rfl, hd⟩, e.at_merge_active _ _ hl ha]

/-- Where a destination takes a result, no SHAPE is raised (R137). -/
theorem Env.shapeTrap_of_destTakes {e : Env} {new : VVal} (h : e.destTakes (!new.isG)) : e.shapeTrap e.w.d.toNat new = false := by
  rcases h with h | h | ⟨hf, hg⟩
  · simp [Env.shapeTrap, h]
  · simp [Env.shapeTrap, Nat.not_le.2 h]
  · simp only [Bool.not_eq_true'] at hg
    simp [Env.shapeTrap, hf, hg]

/-! ### A state in which only the issuing cohort has changed, and its end -/

/-- The issuing cohort `co` once the lanes of its group have gone where a branch sends them. -/
def Env.jumped (e : Env) (co : Cohort) (dst : List (Mask × W32)) : Cohort :=
  (co.mapLanes (e.group &&& co.live) (fun l x => { x with pc := branchTo dst l e.next })).endWait e.pc

theorem Env.jumped_nil (e : Env) (co : Cohort) : e.jumped co [] = e.wentOn co := rfl

theorem Env.lane_jumped (e : Env) (co : Cohort) (dst : List (Mask × W32)) {l : Nat} (hl : l < 32) :
    (e.jumped co dst).lane l =
      if (e.group &&& co.live).has l then { co.lane l with pc := branchTo dst l e.next } else co.lane l :=
  co.lane_mapLanes (e.group &&& co.live) (fun l x => { x with pc := branchTo dst l e.next }) hl

theorem Env.onlyCohort_self {s : State} {i : Instr} {e : Env} (h : s.envFor i = some e) : e.OnlyCohort e.s e.co := by
  obtain ⟨hs, -, hco, -⟩ := envFor_facts h
  exact ⟨hs ▸ hco, fun _ _ => rfl, rfl, fun _ _ => rfl⟩

theorem Env.onlyCohort_put (e : Env) (co : Cohort) : e.OnlyCohort (e.put co) co where
  here := by rw [Env.put, State.cohort_setCohort, if_pos rfl]
  there k hk := by rw [Env.put, State.cohort_setCohort, if_neg hk]
  part := rfl
  bytes _ _ := rfl

/-- A further change of the issuing cohort. -/
theorem Env.OnlyCohort.updCohort {e : Env} {t : State} {co : Cohort} (h : e.OnlyCohort t co) (f : Cohort → Cohort) :
    e.OnlyCohort (t.updCohort e.slot f) (f co) where
  here := by rw [State.cohort_updCohort_self, h.here]; rfl
  there k hk := (State.cohort_updCohort_ne _ _ hk).trans (h.there k hk)
  part := h.part
  bytes := h.bytes

theorem Env.OnlyCohort.mark {e : Env} {t : State} {co : Cohort} (h : e.OnlyCohort t co) (w : Bool) : e.OnlyCohort (t.mark w) co :=
  ⟨h.here, h.there, h.part, h.bytes⟩

theorem Env.OnlyCohort.branches {e : Env} {t : State} {co : Cohort} (h : e.OnlyCohort t co) (dst : List (Mask × W32)) :
    e.OnlyCohort (e.branches t dst) (e.jumped co dst) := (h.updCohort _).mark false

theorem Env.OnlyCohort.completes {e : Env} {t : State} {co : Cohort} (h : e.OnlyCohort t co) :
    e.OnlyCohort (e.completes t) (e.wentOn co) := (h.updCohort _).mark false

/-- The lanes of the group stand at the next instruction when the instruction is complete. -/
theorem Env.movedOn_wentOn {e : Env} (hg : e.group &&& e.co.live = e.group) {co : Cohort} (hl : co.lanes = e.co.lanes)
    (hx : co.live = e.co.live) : e.MovedOn (e.wentOn co) := by
  intro l hlt
  rw [e.lane_wentOn _ hlt, hx, hg, Cohort.lane, hl]
  rfl

/-- An instruction that has changed registers, predicates and sticky bits of its cohort within its frame completes. -/
theorem Env.OnlyCohort.registerFrame {e : Env} {t : State} {co : Cohort} {ds ps : List Nat} (h : e.OnlyCohort t co)
    (hg : e.group &&& e.co.live = e.group)
    (hco : co = { e.co with vregs := co.vregs, preds := co.preds, fpctl := co.fpctl })
    (hregs : ∀ n, n ∉ ds → co.v n = e.co.v n)
    (hvkeep : ∀ n, ∀ l < 32, e.co.live.has l = true → e.act.has l = false → (co.v n).at l = (e.co.v n).at l)
    (hpreds : ∀ n, n ∉ ps → co.p n = e.co.p n) (hpkeep : ∀ n l, e.act.has l = false → (co.p n).has l = (e.co.p n).has l)
    (hsticky : e.co.fpctl &&& co.fpctl = e.co.fpctl ∧ (e.co.fpctl ^^^ co.fpctl) &&& ~~~ 0x3F#32 = 0) :
    e.RegisterFrame (e.completes t) (e.wentOn co) ds ps where
  only := h.completes
  lanes := e.movedOn_wentOn hg (by rw [hco]) (by rw [hco]; rfl)
  regs := hregs
  vkeep := hvkeep
  preds := hpreds
  pkeep := hpkeep
  sticky := hsticky
  other := by rw [hco]; rfl

/-- FPCTL as it was has the sticky bits that it had. -/
theorem sticky_self (x : W32) : x &&& x = x ∧ (x ^^^ x) &&& ~~~ 0x3F#32 = 0 := by
  rw [BitVec.and_self, BitVec.xor_self, BitVec.zero_and]
  exact ⟨rfl, rfl⟩

/-! ### NOP and the fences (R205, R265) -/

/-- An instruction without effect passes. -/
theorem Env.registerFrame_self {s : State} {i : Instr} {e : Env} (h : s.envFor i = some e) :
    e.RegisterFrame (e.completes e.s) (e.wentOn e.co) [] [] :=
  (e.onlyCohort_self h).registerFrame (group_and_live h) rfl (fun _ _ => rfl) (fun _ _ _ _ _ => rfl) (fun _ _ => rfl)
    (fun _ _ _ => rfl) (sticky_self _)

/-- The cells whose instructions only go on. -/
theorem bodyOf_nopOrFence {c : Cell} (hc : c ∈ [Cells.nop, Cells.fenceCoh, Cells.fenceBlk, Cells.fenceCore, Cells.fenceClu,
    Cells.fenceDie, Cells.fenceDev, Cells.fenceSys]) (e : Env) : bodyOf c.opc e = .ok e.s := by
  simp only [List.mem_cons, List.not_mem_nil, or_false] at hc
  rcases hc with rfl | rfl | rfl | rfl | rfl | rfl | rfl | rfl <;> rfl

/-! ### Branches (R226 to R228) -/

/-- An instruction that has changed V registers of its cohort within its frame branches. -/
theorem Env.OnlyCohort.jumps {e : Env} {t : State} {co : Cohort} {dst : List (Mask × W32)} {tg : Nat → W32} {ds : List Nat}
    (h : e.OnlyCohort t co) (hg : e.group &&& e.co.live = e.group)
    (hco : co = { e.co with vregs := co.vregs, curMask := co.curMask, elected := co.elected })
    (hregs : ∀ n, n ∉ ds → co.v n = e.co.v n)
    (hvkeep : ∀ n, ∀ l < 32, e.co.live.has l = true → e.act.has l = false → (co.v n).at l = (e.co.v n).at l)
    (hto : ∀ l < 32, branchTo dst l e.next = if e.act.has l then tg l else e.next) :
    e.Jumps (e.branches t dst) (e.jumped co dst) tg ds where
  only := h.branches dst
  lanes l hl := by
    have hlive : co.live = e.co.live := by rw [hco]; rfl
    have hlane : co.lane l = e.co.lane l := by rw [hco]; rfl
    rw [e.lane_jumped _ _ hl, hlive, hlane, hg, hto l hl]
  regs := hregs
  vkeep := hvkeep
  other := by rw [hco]; rfl

/-- One mask of lanes goes to one offset. -/
theorem branchTo_one (m : Mask) (a : W32) (l : Nat) (next : W32) : branchTo [(m, a)] l next = if m.has l then a else next := rfl

/-- Each lane of a list goes to its own offset. -/
theorem branchTo_lanes (tg : Nat → W32) (next : W32) (l : Nat) (ls : List Nat) (h : ∀ k ∈ ls, k < 32) :
    branchTo (ls.map (fun k => (Mask.one k, tg k))) l next = if l ∈ ls then tg l else next := by
  induction ls with
  | nil => simp [branchTo]
  | cons k ls ih =>
    rw [List.map_cons, branchTo, Mask.has_one (h k List.mem_cons_self), ih (fun j hj => h j (List.mem_cons_of_mem _ hj))]
    by_cases hk : l = k <;> simp [hk]

theorem Env.branchTo_act (e : Env) (tg : Nat → W32) {l : Nat} (hl : l < 32) :
    branchTo (e.lanes.map (fun k => (Mask.one k, tg k))) l e.next = if e.act.has l then tg l else e.next := by
  rw [branchTo_lanes tg e.next l e.lanes (fun k hk => (Env.mem_lanes.1 hk).1)]
  exact if_congr (by simp [Env.mem_lanes, hl]) rfl rfl

/-- The lanes whose targets are no multiple of 4. -/
def Env.strayLanes (e : Env) (tg : Nat → W32) : Mask := e.act &&& maskOf (fun l => (tg l).toNat % 4 != 0)

theorem Env.has_strayLanes (e : Env) (tg : Nat → W32) {l : Nat} (hl : l < 32) :
    (e.strayLanes tg).has l = (e.act.has l && (tg l).toNat % 4 != 0) := by
  rw [Env.strayLanes, Mask.has_and, has_maskOf _ hl]

/-- A branch to per-lane targets with its targets aligned: each active lane goes to its own. -/
theorem Env.branchLanes_aligned (e : Env) (co : Cohort) {tg : Nat → W32}
    (h : ∀ l < 32, e.act.has l = true → (tg l).toNat % 4 = 0) :
    ∃ cm el, e.branchLanes co tg =
      .branch (e.put { co with curMask := cm, elected := el }) (e.lanes.map (fun l => (Mask.one l, tg l))) := by
  have hz : e.strayLanes tg = 0 := by
    by_contra hne
    obtain ⟨l, hl, hl'⟩ := mask_ne_zero_iff.1 hne
    rw [e.has_strayLanes tg hl, Bool.and_eq_true] at hl'
    simp [h l hl hl'.1] at hl'
  rw [Env.strayLanes] at hz
  rw [Env.branchLanes]
  simp only [hz, bne_self_eq_false, Bool.false_eq_true, if_false]
  exact ⟨_, _, rfl⟩

/-- One with a target that is not: ILLEGAL over the lanes that have one, with the lowest one's target (R31). -/
theorem Env.branchLanes_stray (e : Env) (co : Cohort) {tg : Nat → W32}
    (h : ∃ l < 32, e.act.has l = true ∧ (tg l).toNat % 4 ≠ 0) :
    e.strayLanes tg ≠ 0 ∧ e.branchLanes co tg =
      .trap { code := 1, mask := e.strayLanes tg, xaddr := tg (lowest (e.strayLanes tg)) } := by
  obtain ⟨l, hl, ha, ht⟩ := h
  have hne : e.strayLanes tg ≠ 0 := mask_ne_zero_iff.2 ⟨l, hl, by rw [e.has_strayLanes tg hl]; simp [ha, ht]⟩
  refine ⟨hne, ?_⟩
  have hb : (e.strayLanes tg != 0) = true := by simpa using hne
  rw [Env.strayLanes] at hb
  simp only [Env.branchLanes, hb, if_true, Env.strayLanes]
  rfl

/-- The issue of a branch to per-lane targets, its cohort with at most the link register `d` changed: it jumps, or traps where a
target is stray. -/
theorem Env.branchLanes_cases {s : State} {i : Instr} {e : Env} (h : s.Passes i e) (co : Cohort) (tg : Nat → W32) (ds : List Nat)
    (hbody : bodyOf e.cell.opc e = e.branchLanes co tg) (hco : co = { e.co with vregs := co.vregs })
    (hregs : ∀ n, n ∉ ds → co.v n = e.co.v n)
    (hvkeep : ∀ n, ∀ l < 32, e.co.live.has l = true → e.act.has l = false → (co.v n).at l = (e.co.v n).at l) :
    ((∀ l < 32, e.act.has l = true → (tg l).toNat % 4 = 0) →
      ∃ t co', exec i s = .next t ∧ e.Jumps t co' tg ds ∧ co'.vregs = co.vregs) ∧
    ((∃ l < 32, e.act.has l = true ∧ (tg l).toNat % 4 ≠ 0) →
      ∃ info, exec i s = .next (e.traps info) ∧ info.code = 1 ∧
        (∀ l < 32, info.mask.has l = (e.act.has l && (tg l).toNat % 4 != 0)) ∧
        ∃ l < 32, info.mask.has l = true ∧ (∀ k < l, info.mask.has k = false) ∧ info.xaddr = tg l) := by
  have hexec := exec_passes h
  rw [hbody] at hexec
  refine ⟨fun hal => ?_, fun hstray => ?_⟩
  · obtain ⟨cm, el, hbr⟩ := e.branchLanes_aligned co hal
    rw [hbr, finish_branch] at hexec
    have hjumps := (e.onlyCohort_put { co with curMask := cm, elected := el }).jumps (group_and_live h.env) (by rw [hco]) hregs hvkeep
      (fun l hl => e.branchTo_act tg hl)
    exact ⟨_, _, hexec, hjumps, rfl⟩
  · obtain ⟨hne, htrap⟩ := e.branchLanes_stray co hstray
    rw [htrap, finish_trap] at hexec
    obtain ⟨hlt, hhas, hbelow⟩ := lowest_spec hne
    exact ⟨_, hexec, rfl, fun l hl => e.has_strayLanes tg hl, _, hlt, hhas, hbelow, rfl⟩

/-- The issue of a branch to one target, its cohort with at most the link register changed, jumps. -/
theorem Env.branch_jumps {s t : State} {i : Instr} {e : Env} {co : Cohort} {a : W32} {ds : List Nat} (h : s.Passes i e)
    (hbody : bodyOf e.cell.opc e = .branch t [(e.act, a)]) (ht : e.OnlyCohort t co) (hco : co = { e.co with vregs := co.vregs })
    (hregs : ∀ n, n ∉ ds → co.v n = e.co.v n)
    (hvkeep : ∀ n, ∀ l < 32, e.co.live.has l = true → e.act.has l = false → (co.v n).at l = (e.co.v n).at l) :
    ∃ t' co', exec i s = .next t' ∧ e.Jumps t' co' (fun _ => a) ds ∧ co'.vregs = co.vregs := by
  have hexec := exec_passes h
  rw [hbody, finish_branch] at hexec
  exact ⟨_, _, hexec, ht.jumps (group_and_live h.env) (by rw [hco]) hregs hvkeep (fun l _ => branchTo_one _ _ l _), rfl⟩

/-- The cohort with the return offset in the link register (R228). -/
def Env.linked (e : Env) : Cohort := e.setV e.co e.w.d.toNat (.u e.next)

theorem Env.linked_frame (e : Env) : e.linked = { e.co with vregs := e.linked.vregs } := e.setV_frame _ _ _

theorem Env.v_linked_other (e : Env) {n : Nat} (h : n ∉ [e.w.d.toNat]) : e.linked.v n = e.co.v n :=
  e.v_setV_other _ _ (by simpa using h)

theorem Env.v_linked_keep (e : Env) (n l : Nat) (hl : l < 32) (hv : e.co.live.has l = true) (ha : e.act.has l = false) :
    (e.linked.v n).at l = (e.co.v n).at l := e.v_setV_keep _ _ _ n hl hv ha

/-- After a call whose cohort has the link register written, that register holds the return offset in each active lane. -/
theorem Env.link_at {e : Env} {co : Cohort} (h : co.vregs = e.linked.vregs) (hd : e.w.d.toNat ≠ zv) {l : Nat} (hl : l < 32)
    (ha : e.act.has l = true) : (co.v e.w.d.toNat).at l = e.next := by
  rw [show co.v e.w.d.toNat = e.linked.v e.w.d.toNat by unfold Cohort.v; rw [h]]
  exact e.v_setV_at _ _ hd hl ha

theorem callBody_links {e : Env} (h : e.shapeTrap e.w.d.toNat (.u 0) = false) :
    callBody e = .branch (e.put e.linked) [(e.act, e.lit32)] := by
  rw [callBody, h, if_neg Bool.false_ne_true]
  rfl

theorem callxBody_links {e : Env} (h : e.shapeTrap e.w.d.toNat (.u 0) = false) :
    callxBody e = e.branchLanes e.linked e.va.at := by
  rw [callxBody, h, if_neg Bool.false_ne_true]
  rfl

/-- A hint goes on over its word (R191). -/
theorem State.passHint_of_issuer {s : State} {x : Issuer} (hx : s.issuer = some x) (n : Nat) :
    s.passHint n = .next ((s.advance x.slot x.group x.pc (x.pc + BitVec.ofNat 32 n) []).mark false) := by
  simp only [State.passHint, hx]

/-- Settles O20: a NOP or fence changes nothing, a hint passes, and a branch sends its lanes where `branchTo` says. -/
theorem nopsFencesAndBranches : Obligations.NopsFencesAndBranches := by
  unfold Obligations.NopsFencesAndBranches
  refine ⟨fun s i e h hc => ?_, fun s x opc w v hx => ?_, fun s i e h hc hd => ?_⟩
  · have hexec := exec_passes h
    rw [bodyOf_nopOrFence hc, finish_ok] at hexec
    exact ⟨_, _, hexec, e.registerFrame_self h.env, rfl⟩
  · refine ⟨(State.passHint_of_issuer hx _).trans ?_, (State.passHint_of_issuer hx _).trans ?_⟩
    · cases w.lit <;> rfl
    · cases v.lit <;> rfl
  · have hlink (hcall : e.cell ∈ [Cells.call, Cells.callx]) : e.shapeTrap e.w.d.toNat (.u 0) = false :=
      Env.shapeTrap_of_destTakes (hd hcall)
    simp only [List.mem_cons, List.not_mem_nil, or_false] at hc
    have hcases : e.cell = Cells.bra ∨ e.cell = Cells.call ∨ e.cell = Cells.callx ∨ e.cell = Cells.brx ∨ e.cell = Cells.ret := by tauto
    rcases hcases with hc | hc | hc | hc
    · obtain ⟨t, co, hx, hj, -⟩ := e.branch_jumps (ds := []) h (by rw [hc]; rfl) (e.onlyCohort_self h.env) rfl (fun _ _ => rfl)
        (fun _ _ _ _ _ => rfl)
      have ml : e.cell ∉ [Cells.call, Cells.callx] := by rw [hc]; decide
      simp only [if_pos (show e.cell ∈ [Cells.bra, Cells.call] by rw [hc]; decide), if_neg ml]
      exact ⟨fun _ => ⟨t, co, hx, hj, fun hl => absurd hl ml⟩, fun hp => absurd hp (by rw [hc]; decide)⟩
    · have ml : e.cell ∈ [Cells.call, Cells.callx] := by rw [hc]; decide
      obtain ⟨t, co, hx, hj, hv⟩ := e.branch_jumps h (by rw [hc]; exact callBody_links (hlink ml)) (e.onlyCohort_put e.linked)
        e.linked_frame (fun n => e.v_linked_other) e.v_linked_keep
      simp only [if_pos (show e.cell ∈ [Cells.bra, Cells.call] by rw [hc]; decide), if_pos ml]
      exact ⟨fun _ => ⟨t, co, hx, hj, fun _ hd l hl ha => e.link_at hv hd hl ha⟩, fun hp => absurd hp (by rw [hc]; decide)⟩
    · have ml : e.cell ∈ [Cells.call, Cells.callx] := by rw [hc]; decide
      obtain ⟨hal, hstray⟩ := e.branchLanes_cases h e.linked e.va.at [e.w.d.toNat]
        (by rw [hc]; exact callxBody_links (hlink ml)) e.linked_frame (fun n => e.v_linked_other) e.v_linked_keep
      simp only [if_neg (show e.cell ∉ [Cells.bra, Cells.call] by rw [hc]; decide), if_pos ml]
      refine ⟨fun hp => ?_, fun _ => hstray⟩
      obtain ⟨t, co, hx, hj, hv⟩ := hal (hp (by rw [hc]; decide))
      exact ⟨t, co, hx, hj, fun _ hd l hl ha => e.link_at hv hd hl ha⟩
    · obtain ⟨hal, hstray⟩ := e.branchLanes_cases h e.co e.va.at [] (by rcases hc with hc | hc <;> rw [hc] <;> rfl) rfl
        (fun _ _ => rfl) (fun _ _ _ _ _ => rfl)
      have ml : e.cell ∉ [Cells.call, Cells.callx] := by rcases hc with hc | hc <;> rw [hc] <;> decide
      have mf : e.cell ∉ [Cells.bra, Cells.call] := by rcases hc with hc | hc <;> rw [hc] <;> decide
      simp only [if_neg mf, if_neg ml]
      refine ⟨fun hp => ?_, fun _ => hstray⟩
      obtain ⟨t, co, hx, hj, -⟩ := hal (hp (by rcases hc with hc | hc <;> rw [hc] <;> decide))
      exact ⟨t, co, hx, hj, fun hl => absurd hl ml⟩

end Sys2Proof.Machine

/-! PROOFS. Joins (O22): MEET and WAITJ, when a join is due, its release, and a lane that is released alone. -/

namespace Sys2Proof.Machine

/-! ### MEET and WAITJ (R23, R26) -/

theorem mask_ext {m n : Mask} (h : ∀ l < 32, m.has l = n.has l) : m = n := BitVec.eq_of_getLsbD_eq h

theorem Cohort.j_setJ (co : Cohort) (n : Nat) (m : Mask) (a : W32) (k : Nat) :
    (co.setJ n m a).j k = if k = n then (m, a) else co.j k := SMap.get_put ..

/-- The active lanes are lanes of the group. -/
theorem group_of_act {s : State} {i : Instr} {e : Env} (h : s.envFor i = some e) {l : Nat} (ha : e.act.has l = true) :
    e.group.has l = true := by
  obtain ⟨-, -, -, -, -, -, hact, -⟩ := envFor_facts h
  rw [hact, guardMask, Mask.has_and, Bool.and_eq_true] at ha
  exact ha.1

/-- The active lanes that are deeper than a push allows. -/
def Env.deepLanes (e : Env) : Mask := e.act &&& maskOf (fun l => 64 ≤ (e.co.lane l).depth)

theorem Env.has_deepLanes (e : Env) {l : Nat} (hl : l < 32) :
    e.deepLanes.has l = (e.act.has l && decide (64 ≤ (e.co.lane l).depth)) := by
  rw [Env.deepLanes, Mask.has_and, has_maskOf _ hl]

/-- The cohort after the pushes of a MEET. -/
def Env.met (e : Env) : Cohort :=
  (e.co.mapLanes e.act (fun _ l => { l with meets := l.mr :: l.meets, mr := e.target })).setJ e.w.d.toNat
    ((e.co.j e.w.d.toNat).1 ||| e.act) e.target

/-- MEET: a busy join at another address first, then a lane that is too deep. -/
theorem meetBody_eq (e : Env) :
    meetBody e = if (e.co.j e.w.d.toNat).1 != 0 && (e.co.j e.w.d.toNat).2 != e.target then .trap { code := 1, mask := e.act }
      else if e.deepLanes != 0 then .trap { code := 1, mask := e.deepLanes } else .ok (e.put e.met) := rfl

theorem meetBody_busy {e : Env} (h : (e.co.j e.w.d.toNat).1 ≠ 0 ∧ (e.co.j e.w.d.toNat).2 ≠ e.target) :
    meetBody e = .trap { code := 1, mask := e.act } := by
  rw [meetBody_eq, if_pos (by simpa using h)]

theorem meetBody_free {e : Env} (h : (e.co.j e.w.d.toNat).1 = 0 ∨ (e.co.j e.w.d.toNat).2 = e.target) :
    meetBody e = if e.deepLanes != 0 then .trap { code := 1, mask := e.deepLanes } else .ok (e.put e.met) := by
  rw [meetBody_eq, if_neg (by simpa [Decidable.imp_iff_not_or] using h)]

/-- The lanes after a MEET: an active one has pushed its MR. -/
theorem Env.lane_wentOn_met {s : State} {i : Instr} {e : Env} (h : s.envFor i = some e) {l : Nat} (hl : l < 32) :
    (e.wentOn e.met).lane l =
      if e.act.has l then
        { e.co.lane l with pc := e.next, meets := (e.co.lane l).mr :: (e.co.lane l).meets, mr := e.target }
      else if e.group.has l then { e.co.lane l with pc := e.next } else e.co.lane l := by
  have hlane : e.met.lane l = if e.act.has l then { e.co.lane l with meets := (e.co.lane l).mr :: (e.co.lane l).meets, mr := e.target }
      else e.co.lane l :=
    e.co.lane_mapLanes e.act (fun _ l => { l with meets := l.mr :: l.meets, mr := e.target }) hl
  rw [e.lane_wentOn _ hl, hlane, show e.met.live = e.co.live from rfl, group_and_live h]
  by_cases ha : e.act.has l = true
  · simp only [ha, if_true, group_of_act h ha]
  · simp only [ha, Bool.false_eq_true, if_false]

/-- The members of a join among the active lanes, and the cohort with them held at their WAITJ. -/
def Env.waiters (e : Env) : Mask := e.act &&& (e.co.j e.w.d.toNat).1
def Env.heldAtJoin (e : Env) : Cohort := e.co.mapLanes e.waiters (fun _ l => { l with waitj := some (e.w.d.toNat, e.next) })

theorem Env.lane_jumped_heldAtJoin {s : State} {i : Instr} {e : Env} (h : s.envFor i = some e) {l : Nat} (hl : l < 32) :
    (e.jumped e.heldAtJoin [(e.waiters, e.pc)]).lane l =
      if e.act.has l && (e.co.j e.w.d.toNat).1.has l then
        { e.co.lane l with pc := e.pc, waitj := some (e.w.d.toNat, e.next) }
      else if e.group.has l then { e.co.lane l with pc := e.next } else e.co.lane l := by
  have hlane : e.heldAtJoin.lane l = if e.waiters.has l then { e.co.lane l with waitj := some (e.w.d.toNat, e.next) } else e.co.lane l :=
    e.co.lane_mapLanes _ _ hl
  rw [e.lane_jumped _ _ hl, hlane, show e.heldAtJoin.live = e.co.live from rfl, group_and_live h, branchTo_one, Env.waiters,
    Mask.has_and]
  by_cases hw : (e.act.has l && (e.co.j e.w.d.toNat).1.has l) = true
  · simp only [hw, if_true, group_of_act h (Bool.and_eq_true_iff.1 hw).1]
  · simp only [hw, Bool.false_eq_true, if_false]

/-! ### When a join is due, and its release (R25) -/

theorem Cohort.has_heldFor (co : Cohort) (n : Nat) {l : Nat} (hl : l < 32) :
    (co.heldFor n).has l = ((co.j n).1.has l && co.live.has l &&
      ((co.lane l).pc == (co.lane l).mr && (co.lane l).mr == (co.j n).2 || (co.lane l).waitj.map (·.1) == some n)) := by
  rw [Cohort.heldFor]
  simp only [Mask.has_and, has_maskOf _ hl]

theorem Cohort.joinDue_iff (co : Cohort) (n : Nat) :
    co.joinDue n = true ↔ (∃ l < 32, (co.j n).1.has l = true ∧ co.live.has l = true) ∧
      ∀ l < 32, ((co.j n).1.has l = true ∧ co.live.has l = true) →
        ((co.lane l).pc = (co.lane l).mr ∧ (co.lane l).mr = (co.j n).2) ∨ ∃ x, (co.lane l).waitj = some (n, x) := by
  have hwait (l : Nat) : (co.lane l).waitj.map (·.1) = some n ↔ ∃ x, (co.lane l).waitj = some (n, x) := by
    cases (co.lane l).waitj with
    | none => simp
    | some p => obtain ⟨k, x⟩ := p; simp
  rw [Cohort.joinDue, Bool.and_eq_true, bne_iff_ne, mask_ne_zero_iff, beq_iff_eq]
  refine and_congr (by simp) ⟨fun h l hl hm => ?_, fun h => mask_ext (fun l hl => ?_)⟩
  · have hb := congrArg (fun m : Mask => m.has l) h
    simpa [co.has_heldFor n hl, hm.1, hm.2, hwait] using hb
  · rw [co.has_heldFor n hl, Mask.has_and]
    by_cases hm : (co.j n).1.has l = true ∧ co.live.has l = true
    · simpa [hm.1, hm.2, hwait] using h l hl hm
    · simp only [not_and, Bool.not_eq_true] at hm
      cases hj : (co.j n).1.has l with
      | false => simp
      | true => simp [hm hj]

/-- A lane without its newest meeting point. -/
def Lane.up (x : Lane) : Lane := { x with mr := x.meets.headD 0xFFFFFFFF#32, meets := x.meets.drop 1 }

theorem Lane.pop_eq_up (x : Lane) : x.pop = x.up := by
  obtain ⟨pc, mr, meets, tid, waitj⟩ := x
  cases meets <;> rfl

/-- A released lane: a lane held at a WAITJ goes on after it (R26). -/
def Lane.released (x : Lane) : Lane :=
  match x.waitj with
  | some (_, nx) => { x.up with pc := nx, waitj := none }
  | none => x.up

theorem Cohort.lane_release (co : Cohort) (n : Nat) {l : Nat} (hl : l < 32) :
    (co.release n).lane l = if (co.j n).1.has l && co.live.has l then (co.lane l).released else co.lane l := by
  have hpop (x : Lane) : (match x.waitj with
      | some (_, nx) => { x.pop with pc := nx, waitj := none }
      | none => x.pop) = x.released := by
    rw [Lane.pop_eq_up, Lane.released]
  rw [← Mask.has_and, ← hpop]
  exact co.lane_mapLanes ((co.j n).1 &&& co.live) (fun _ x => match x.waitj with
    | some (_, nx) => { x.pop with pc := nx, waitj := none }
    | none => x.pop) hl

theorem Cohort.j_release (co : Cohort) (n k : Nat) : (co.release n).j k = if k = n then (0, (co.j n).2) else co.j k :=
  Cohort.j_setJ ..

/-- A release changes lanes and joins. -/
theorem Cohort.release_frame (co : Cohort) (n : Nat) :
    co.release n = { co with lanes := (co.release n).lanes, joins := (co.release n).joins } := rfl

theorem State.releaseJoin_due {s : State} {slot n : Nat} {co : Cohort} (hco : s.cohort slot = some co) (hd : co.joinDue n = true)
    (hp : co.park = none) (hr : s.coreRuns (coreOf slot) = true) : s.releaseJoin slot n = s.setCohort slot (co.release n) := by
  simp only [State.releaseJoin, hco, hd, hp, hr, Option.isNone_none, Bool.and_self, if_true]

/-! ### The accesses to meet extensions change no cohort (R29) -/

theorem State.stopLaunch_cohorts (s : State) (lid status detail node : Nat) : (s.stopLaunch lid status detail node).cohorts = s.cohorts := by
  unfold State.stopLaunch
  split
  · rfl
  · split <;> rfl

theorem State.engineFault_cohorts (s : State) (lid node : Nat) (va : W64) (x : XlatErr) (acc : Access) :
    (s.engineFault lid node va x acc).cohorts = s.cohorts := by
  unfold State.engineFault
  split
  · rfl
  · exact State.stopLaunch_cohorts ..

theorem State.meetPoison_cohorts (s : State) (bi slot line : Nat) : (s.meetPoison bi slot line).cohorts = s.cohorts := by
  unfold State.meetPoison
  split <;> rfl

theorem State.foldl_scramble_cohorts (ps : List (Nat × Nat × Nat)) (s : State) :
    (ps.foldl (fun s p => s.scramble p.1 p.2.2) s).cohorts = s.cohorts := by
  induction ps generalizing s with
  | nil => rfl
  | cons p ps ih => exact ih _

theorem State.extTouch_cohorts (s : State) (slot : Nat) (acc : Access) : (s.extTouch slot acc).cohorts = s.cohorts := by
  unfold State.extTouch
  split
  · rfl
  split
  · rfl
  split
  · rfl
  split
  · exact State.engineFault_cohorts ..
  split
  · exact State.foldl_scramble_cohorts ..
  split
  · exact State.meetPoison_cohorts ..
  · rfl

theorem State.extAccess_cohorts (s : State) (slot : Nat) (old : Cohort) : (s.extAccess slot old).cohorts = s.cohorts := by
  unfold State.extAccess
  split
  · rfl
  · split
    · rfl
    · exact State.extTouch_cohorts ..

theorem State.extAccesses_cohorts (old : List (Nat × Cohort)) (s : State) : (s.extAccesses old).cohorts = s.cohorts := by
  unfold State.extAccesses
  induction old generalizing s with
  | nil => rfl
  | cons p old ih => exact (ih _).trans (s.extAccess_cohorts p.1 p.2)

theorem State.extAccesses_cohort (old : List (Nat × Cohort)) (s : State) (k : Nat) : (s.extAccesses old).cohort k = s.cohort k := by
  rw [State.cohort, State.extAccesses_cohorts]
  rfl

/-- A cohort that is not in serial mode has no entry in its extension. -/
theorem Cohort.depth_le_of_not_serial {co : Cohort} (h : co.serial = false) (l : Nat) : (co.lane l).depth ≤ 8 := by
  rw [Cohort.lane, List.getD_eq_getElem?_getD]
  cases hx : co.lanes[l]? with
  | none => simp [Lane.depth]
  | some x =>
    simp only [Cohort.serial, List.any_eq_false, decide_eq_true_eq, Nat.not_lt] at h
    exact h x (List.mem_of_getElem? hx)

theorem Lane.deep_of_depth_le {x : Lane} (h : x.depth ≤ 8) : x.deep = [] := by
  rw [Lane.deep, Nat.sub_eq_zero_of_le h, List.take_zero]

theorem Lane.released_depth_le (x : Lane) : x.released.depth ≤ x.depth := by
  unfold Lane.released
  split <;> simp [Lane.up, Lane.depth]

/-- Nothing of an extension is touched where a cohort had and has no deep entries. -/
theorem State.extAccess_shallow {s : State} {slot : Nat} {old : Cohort}
    (h : ∀ co, s.cohort slot = some co → ∀ l < 32, (co.lane l).depth ≤ 8) (ho : ∀ l < 32, (old.lane l).depth ≤ 8) :
    s.extAccess slot old = s := by
  unfold State.extAccess
  split
  · rfl
  next co hco =>
    refine if_pos (Bool.or_eq_true_iff.2 (.inr (List.all_eq_true.2 (fun l hl => ?_))))
    have hl := List.mem_range.1 hl
    rw [Lane.deep_of_depth_le (h co hco l hl), Lane.deep_of_depth_le (ho l hl)]
    rfl

/-- So for the accesses of several cohorts. -/
theorem State.extAccesses_shallow {s : State} {old : List (Nat × Cohort)}
    (h : ∀ p ∈ old, (∀ co, s.cohort p.1 = some co → ∀ l < 32, (co.lane l).depth ≤ 8) ∧ ∀ l < 32, (p.2.lane l).depth ≤ 8) :
    s.extAccesses old = s := by
  unfold State.extAccesses
  induction old with
  | nil => rfl
  | cons p old ih =>
    obtain ⟨hnew, hold⟩ := h p List.mem_cons_self
    rw [List.foldl_cons, State.extAccess_shallow hnew hold]
    exact ih (fun q hq => h q (List.mem_cons_of_mem _ hq))

/-- The release of a join of a cohort that is not in serial mode changes that cohort alone. -/
theorem State.joinRelease_part {s : State} {slot n : Nat} {co : Cohort} (hco : s.cohort slot = some co) (hw : s.cohorts.wf = true)
    (hs : co.serial = false) :
    (s.setCohort slot (co.release n)).extAccesses (s.cohorts.filter (fun p => p.1 == slot)) = s.setCohort slot (co.release n) := by
  refine State.extAccesses_shallow (fun p hp => ?_)
  obtain ⟨hmem, hslot⟩ := List.mem_filter.1 hp
  have hslot : p.1 = slot := eq_of_beq hslot
  have hp2 : p.2 = co := Option.some.inj ((SMap.look_of_mem hw (i := p.1) (x := p.2) hmem).symm.trans (hslot ▸ hco))
  refine ⟨fun co' hco' l hl => ?_, fun l _ => hp2 ▸ Cohort.depth_le_of_not_serial hs l⟩
  rw [State.cohort_setCohort, if_pos hslot] at hco'
  rw [← Option.some.inj hco', co.lane_release n hl]
  split
  · exact (Lane.released_depth_le _).trans (Cohort.depth_le_of_not_serial hs l)
  · exact Cohort.depth_le_of_not_serial hs l

/-! ### A lane that is released alone (R24) -/

/-- A lane that stands at its MR in no join there is released once, where its next MR lies elsewhere. -/
theorem Cohort.settleLane_alone (co : Cohort) {l : Nat} {x : Lane} (hw : x.waitj = none) (hpc : x.pc = x.mr)
    (hj : co.joined l x.mr = false) (hup : x.up.mr ≠ x.pc) (n : Nat) : co.settleLane l (n + 1) x = x.up := by
  have hstop (k : Nat) : co.settleLane l k x.up = x.up := by
    cases k with
    | zero => rfl
    | succ k =>
      have hne : (x.up.pc == x.up.mr) = false := beq_eq_false_iff_ne.2 (Ne.symm hup)
      simp only [Cohort.settleLane, hne, Bool.and_false, Bool.false_and, Bool.false_eq_true, if_false]
  rw [Cohort.settleLane, if_pos (by simp [hw, hpc, hj]), Lane.pop_eq_up, hstop]

/-- What the rest of a cohort's settling keeps of a lane that has been let go. -/
def State.letGo (s : State) (slot l : Nat) (x : Lane) (hm : Bool) : Prop :=
  ∃ co, s.cohort slot = some co ∧ co.lane l = x ∧ co.live.has l = true ∧ co.hmode = hm

/-- A join that a lane away from its MR belongs to is not due, so no release moves the lane. -/
theorem State.letGo_releaseJoin {s : State} {slot l : Nat} {x : Lane} {hm : Bool} (hl : l < 32) (hw : x.waitj = none) (hpc : x.pc ≠ x.mr)
    (h : s.letGo slot l x hm) (n : Nat) : (s.releaseJoin slot n).letGo slot l x hm := by
  obtain ⟨co, hco, hx, hlive, hmode⟩ := h
  simp only [State.releaseJoin, hco]
  split
  next hd =>
    have hd : co.joinDue n = true := by
      simp only [Bool.and_eq_true] at hd
      exact hd.1.1
    refine ⟨co.release n, by rw [State.cohort_setCohort, if_pos rfl], ?_, hlive, hmode⟩
    rw [co.lane_release n hl, if_neg, hx]
    intro hmem
    rcases ((co.joinDue_iff n).1 hd).2 l hl (Bool.and_eq_true_iff.1 hmem) with ⟨h1, -⟩ | ⟨y, hy⟩
    · rw [hx] at h1
      exact hpc h1
    · rw [hx, hw] at hy
      cases hy
  next => exact ⟨co, hco, hx, hlive, hmode⟩

theorem State.letGo_ageIssue {s : State} {slot l : Nat} {x : Lane} {hm : Bool} (h : s.letGo slot l x hm) : (s.ageIssue slot).letGo slot l x hm := by
  obtain ⟨co, hco, hx, hlive, hmode⟩ := h
  simp only [State.ageIssue, hco]
  split
  · exact ⟨{ co with aged := some s.nextId }, (State.cohort_setCohort ..).trans (if_pos rfl), hx, hlive, hmode⟩
  · exact ⟨co, hco, hx, hlive, hmode⟩

/-- A lane away from its MR and in no wait stays let go through the releases and the ageing of its cohort. -/
theorem State.settleCohort_letGo {s : State} {slot l : Nat} {co : Cohort} {x : Lane} (hco : s.cohort slot = some co)
    (hp : co.park = none) (hl : l < 32) (hlive : co.live.has l = true) (hx : co.endElection.settle.lane l = x) (hw : x.waitj = none)
    (hpc : x.pc ≠ x.mr) : (s.settleCohort slot).letGo slot l x co.hmode := by
  have h0 : (s.setCohort slot co.endElection.settle).letGo slot l x co.hmode :=
    ⟨_, by rw [State.cohort_setCohort, if_pos rfl], hx, hlive, rfl⟩
  have hfold (ns : List Nat) (t : State) (ht : t.letGo slot l x co.hmode) :
      (ns.foldl (fun s n => s.releaseJoin slot n) t).letGo slot l x co.hmode := by
    induction ns generalizing t with
    | nil => exact ht
    | cons n ns ih => exact ih _ (State.letGo_releaseJoin hl hw hpc ht n)
  simp only [State.settleCohort, hco, hp, Option.isSome_none, Bool.false_eq_true, if_false]
  exact State.letGo_ageIssue (hfold _ _ h0)

theorem Cohort.has_runnable {co : Cohort} {l : Nat} (hl : l < 32) (hm : co.hmode = false) (hlive : co.live.has l = true)
    (hw : (co.lane l).waitj = none) (hpc : (co.lane l).pc ≠ (co.lane l).mr) : co.runnable.has l = true := by
  simp [Cohort.runnable, hm, has_maskOf _ hl, hlive, hw, hpc]

/-- Settles O22: MEET and WAITJ lane by lane, the release of a due join, and a lane alone, which no later release moves. -/
theorem joins : Obligations.Joins := by
  unfold Obligations.Joins
  refine ⟨fun s i e h hc => ?_, fun s i e h hc => ?_, fun co n => co.joinDue_iff n, ?_, ?_⟩
  · have hexec := exec_passes h
    rw [hc, show bodyOf Cells.meet.opc = meetBody from rfl] at hexec
    refine ⟨fun hb => ?_, fun hf hdeep => ?_, fun hf hdepth => ?_⟩
    · rw [hexec, meetBody_busy hb, finish_trap]
    · obtain ⟨l, hl, ha, hd⟩ := hdeep
      have hne : (e.deepLanes != 0) = true :=
        bne_iff_ne.2 (mask_ne_zero_iff.2 ⟨l, hl, by rw [e.has_deepLanes hl]; simp [ha, hd]⟩)
      rw [meetBody_free hf, if_pos hne, finish_trap] at hexec
      exact ⟨_, hexec, rfl, fun l hl => e.has_deepLanes hl⟩
    · have hz : e.deepLanes = 0 := by
        by_contra hne
        obtain ⟨l, hl, hb⟩ := mask_ne_zero_iff.1 hne
        rw [e.has_deepLanes hl, Bool.and_eq_true, decide_eq_true_eq] at hb
        exact absurd (hdepth l hl hb.1) (Nat.not_lt.2 hb.2)
      rw [meetBody_free hf, hz, if_neg (by simp), finish_ok] at hexec
      refine ⟨_, _, hexec, (e.onlyCohort_put e.met).completes, rfl, ?_, fun n hn => ?_, fun l hl => e.lane_wentOn_met h.env hl⟩
      · exact (Cohort.j_setJ ..).trans (if_pos rfl)
      · exact (Cohort.j_setJ ..).trans (if_neg hn)
  · have hexec := exec_passes h
    rw [hc, show bodyOf Cells.waitj.opc e = .branch (e.put e.heldAtJoin) [(e.waiters, e.pc)] from rfl, finish_branch] at hexec
    exact ⟨_, _, hexec, (e.onlyCohort_put e.heldAtJoin).branches _, rfl, fun l hl => e.lane_jumped_heldAtJoin h.env hl⟩
  · intro s slot l co hco hp hl hlive x up hw hpc hj hup
    have hjoined : co.endElection.joined l x.mr = false := by
      simp only [Cohort.joined, List.any_eq_false, List.mem_range, Bool.and_eq_true, beq_iff_eq, not_and]
      exact fun n hn => hj n hn
    have hlane : co.endElection.settle.lane l = up := by
      refine (co.endElection.lane_mapLanes _ _ hl).trans ((if_pos hlive).trans ?_)
      exact Cohort.settleLane_alone _ hw hpc hjoined hup _
    obtain ⟨co', hco', hx', hlive', hm'⟩ := State.settleCohort_letGo hco hp hl hlive hlane hw (Ne.symm hup)
    exact ⟨co', hco', hx', fun hm => Cohort.has_runnable hl (hm'.trans hm) hlive' (by rw [hx']; exact hw)
      (by rw [hx']; exact Ne.symm hup)⟩
  · intro s slot n co hco hd hp hr
    have hrel := State.releaseJoin_due hco hd hp hr
    refine ⟨_, co.release n, rfl, ?_, ?_, co.release_frame n, fun m hm => ?_, fun k hk => ?_, fun hw hs => ?_, fun l hl => ?_⟩
    · rw [State.extAccesses_cohort, hrel, State.cohort_setCohort, if_pos rfl]
    · rw [co.j_release, if_pos rfl]
    · rw [co.j_release, if_neg hm]
    · rw [State.extAccesses_cohort, hrel, State.cohort_setCohort, if_neg hk]
    · rw [hrel, State.joinRelease_part hco hw hs]
      rfl
    · exact co.lane_release n hl

end Sys2Proof.Machine

/-! PROOFS. EXIT (O23): the lanes that go, and the slices, joins and handler that they leave. -/

namespace Sys2Proof.Machine

/-! ### EXIT (R27, R36, R37) -/

@[simp] theorem Mask.has_or (m n : Mask) (l : Nat) : (m ||| n).has l = (m.has l || n.has l) := BitVec.getLsbD_or ..

theorem Mask.has_not (m : Mask) {l : Nat} (hl : l < 32) : (~~~ m).has l = !m.has l := by
  rw [Mask.has, BitVec.getLsbD_not]
  simp [hl, Mask.has]

/-- The slices that hold a lane of a mask, lane by lane. -/
theorem getLsbD_slicesOf (m : Mask) {k : Nat} (hk : k < 4) :
    (slicesOf m).getLsbD k = (List.range 8).any (fun i => m.has (8 * k + i)) := by
  have hsum : (List.range 4).foldl (fun acc i => if m.extractLsb' (8 * i) 8 = 0 then acc else acc + 2 ^ i) 0 =
      (List.range 4).foldl (fun acc i => if decide (m.extractLsb' (8 * i) 8 ≠ 0) then acc + 2 ^ i else acc) 0 := by
    simp only [decide_eq_true_eq, ite_not]
  rw [slicesOf, hsum, BitVec.getLsbD_ofNat, (testBit_foldl_range _ 4).2]
  simp only [hk, decide_true, Bool.true_and]
  rw [Bool.eq_iff_iff, decide_eq_true_eq, List.any_eq_true]
  constructor
  · intro h
    by_contra hno
    refine h (BitVec.eq_of_getLsbD_eq (fun i hi => ?_))
    rw [BitVec.getLsbD_extractLsb', show BitVec.getLsbD (0 : BitVec 8) i = false from BitVec.getLsbD_zero, Bool.and_eq_false_iff]
    exact .inr (Bool.eq_false_iff.2 (fun hb => hno ⟨i, List.mem_range.2 hi, hb⟩))
  · rintro ⟨i, hi, hb⟩ h
    have h0 := congrArg (fun x : BitVec 8 => x.getLsbD i) h
    rw [BitVec.getLsbD_extractLsb'] at h0
    simp only [List.mem_range.1 hi, decide_true, Bool.true_and] at h0
    rw [Mask.has, h0] at hb
    simp at hb

/-- The lanes that go on when some exit. -/
theorem Cohort.live_exited (co : Cohort) (act : Mask) : ~~~ (co.exited ||| act ||| co.absent) = co.live &&& ~~~ act := by
  refine mask_ext (fun l hl => ?_)
  simp only [Cohort.live, Cohort.gone, Mask.has_and, Mask.has_or, Mask.has_not _ hl, Bool.not_or]
  rw [Bool.and_right_comm]

/-- What EXIT makes of its cohort. -/
theorem Cohort.exitLanes_eq (co : Cohort) (act : Mask) (regrouped : Bool) :
    ∃ hm hl sl, co.exitLanes act regrouped = { co with
        exited := co.exited ||| act, joins := co.joins.mapVals (fun _ j => (j.1 &&& ~~~ act, j.2)), hmode := hm, hlanes := hl, slices := sl } ∧
      (hm = true ↔ co.hmode = true ∧ co.hlanes &&& (co.live &&& ~~~ act) ≠ 0) ∧
      sl = if regrouped then co.slices else co.slices &&& slicesOf (co.live &&& ~~~ act) := by
  rw [← co.live_exited act]
  by_cases hend : (co.hmode && decide (co.hlanes &&& ~~~ (co.exited ||| act ||| co.absent) = 0)) = true
  · refine ⟨false, 0, _, (congrArg (Cohort.freeSlices · regrouped) (if_pos hend)).trans ?_, ?_, rfl⟩
    · cases regrouped <;> rfl
    · rw [Bool.and_eq_true, decide_eq_true_eq] at hend
      simp [hend.2]
  · refine ⟨co.hmode, co.hlanes, _, (congrArg (Cohort.freeSlices · regrouped) (if_neg hend)).trans ?_, ?_, rfl⟩
    · cases regrouped <;> rfl
    · rw [Bool.and_eq_true, decide_eq_true_eq, not_and] at hend
      exact ⟨fun h => ⟨h, hend h⟩, And.left⟩

/-- Every join loses the lanes that exit. -/
theorem Cohort.j_exited (joins : SMap (Mask × W32)) (act : Mask) (n : Nat) :
    ((joins.mapVals (fun _ j => (j.1 &&& ~~~ act, j.2))).get n (0, 0)).1 = (joins.get n (0, 0)).1 &&& ~~~ act ∧
      ((joins.mapVals (fun _ j => (j.1 &&& ~~~ act, j.2))).get n (0, 0)).2 = (joins.get n (0, 0)).2 := by
  simp only [SMap.get, SMap.look_mapVals]
  cases joins.look n with
  | none => simp
  | some j => exact ⟨rfl, rfl⟩

/-- Settles O23: the cohort of an EXIT is `Cohort.exitLanes`, and its other lanes go on. -/
theorem exitEndsLanes : Obligations.ExitEndsLanes := by
  unfold Obligations.ExitEndsLanes
  intro s i e h hc
  have hexec := exec_passes h
  rw [hc, show bodyOf Cells.exit.opc e = if e.co.tx.isSome then .trap { code := 1, mask := e.act }
    else .branch (e.put (e.co.exitLanes e.act e.blk.table.isSome)) [(e.act, e.pc)] from rfl] at hexec
  refine ⟨fun htx => ?_, fun htx => ?_⟩
  · rw [hexec, if_pos htx, finish_trap]
  · obtain ⟨hm, hl, sl, hco, hmode, hsl⟩ := e.co.exitLanes_eq e.act e.blk.table.isSome
    rw [htx, if_neg (by simp), finish_branch, hco] at hexec
    have hlive := e.co.live_exited e.act
    refine ⟨_, _, hexec, (e.onlyCohort_put _).branches _, hlive, fun n => Cohort.j_exited _ _ n, rfl, rfl, rfl, ?_, fun ht => ?_,
      fun ht k hk => ?_, fun l hlt => ?_⟩
    · exact hmode.trans (and_congr_right' (by rw [← hlive]; exact Iff.rfl))
    · exact hsl.trans (if_pos ht)
    · refine (congrArg (fun x : BitVec 4 => x.getLsbD k) (hsl.trans (if_neg (by simp [ht])))).trans ?_
      rw [BitVec.getLsbD_and, getLsbD_slicesOf _ hk, ← hlive]
      rfl
    · refine (e.lane_jumped _ _ hlt).trans ?_
      rw [show ∀ c : Cohort, c.live = ~~~ (c.exited ||| c.absent) from fun _ => rfl]
      rw [hlive, Mask.has_and, Mask.has_and, Mask.has_not _ hlt, ← Bool.and_assoc, ← Mask.has_and, group_and_live h.env, branchTo_one]
      cases ha : e.act.has l <;> simp [Cohort.lane]

end Sys2Proof.Machine

/-! PROOFS. System registers (O26): the values that GETS reads, JSTAT bit by bit, and the control registers that SETS and SETFP write. -/

namespace Sys2Proof.Machine

/-! ### The system registers (R203, R30) -/

/-- The busy joins of a cohort as the byte that JSTAT shows. -/
def Cohort.busyJoins (co : Cohort) : Nat := (List.range 8).foldl (fun acc n => if (co.j n).1 != 0 then acc + 2 ^ n else acc) 0

/-- The fields of JSTAT, each below the next. -/
theorem testBit_jstat (co : Cohort) (l n : Nat) (hn : n < 32) :
    (jstat co l).getLsbD n =
      if n < 16 then ((co.lane l).depth % 128).testBit n
      else if n < 31 then (decide (n - 16 < 8) && (co.j (n - 16)).1 != 0) else co.serial := by
  obtain ⟨hlt, hbit⟩ := testBit_foldl_range (fun n => (co.j n).1 != 0) 8
  have hd : (co.lane l).depth % 128 < 2 ^ 16 := by omega
  have hlow : 2 ^ 16 * co.busyJoins + (co.lane l).depth % 128 < 2 ^ 31 := by
    change co.busyJoins < 2 ^ 8 at hlt
    omega
  have hj : jstat co l = BitVec.ofNat 32 (2 ^ 31 * bit co.serial + (2 ^ 16 * co.busyJoins + (co.lane l).depth % 128)) := by
    rw [← Nat.add_assoc]
    rfl
  rw [hj, BitVec.getLsbD_ofNat, Nat.testBit_two_pow_mul_add _ hlow, Nat.testBit_two_pow_mul_add _ hd]
  simp only [hn, decide_true, Bool.true_and]
  by_cases h16 : n < 16
  · rw [if_pos (by omega), if_pos h16, if_pos h16]
  · by_cases h31 : n < 31
    · rw [if_pos h31, if_neg h16, if_neg h16, if_pos h31]
      exact hbit (n - 16)
    · rw [if_neg h31, if_neg h16, if_neg h31, show n - 31 = 0 by omega]
      cases co.serial <;> rfl

/-- JSTAT shows the busy joins in bits 23:16, serial mode in bit 31 and the lane's depth in bits 6:0, and 0 in the others (R30). -/
theorem jstat_fields (co : Cohort) (l : Nat) :
    (∀ n < 8, (jstat co l).getLsbD (16 + n) = decide ((co.j n).1 ≠ 0)) ∧ (jstat co l).getLsbD 31 = co.serial ∧
      (jstat co l).setWidth 7 = BitVec.ofNat 7 (co.lane l).depth ∧
      ∀ n, ((7 ≤ n ∧ n < 16) ∨ (24 ≤ n ∧ n < 31)) → (jstat co l).getLsbD n = false := by
  refine ⟨fun n hn => ?_, ?_, ?_, fun n hn => ?_⟩
  · rw [testBit_jstat _ _ _ (by omega), if_neg (by omega), if_pos (by omega), Nat.add_sub_cancel_left]
    simp only [hn, decide_true, Bool.true_and]
    rw [Bool.eq_iff_iff, bne_iff_ne, decide_eq_true_eq]
  · rw [testBit_jstat _ _ _ (by omega), if_neg (by omega), if_neg (by omega)]
  · refine BitVec.eq_of_getLsbD_eq (fun n hn => ?_)
    rw [BitVec.getLsbD_setWidth, testBit_jstat _ _ _ (by omega), if_pos (by omega), BitVec.getLsbD_ofNat,
      show 128 = 2 ^ 7 from rfl, Nat.testBit_mod_two_pow, ← Bool.and_assoc, Bool.and_self]
  · rw [testBit_jstat _ _ _ (by omega)]
    rcases hn with hn | hn
    · rw [if_pos hn.2, Nat.testBit_lt_two_pow]
      exact lt_of_lt_of_le (Nat.mod_lt _ (by decide)) (Nat.pow_le_pow_right (by decide) hn.1 : 2 ^ 7 ≤ 2 ^ n)
    · rw [if_neg (by omega), if_pos hn.2]
      simp; omega

/-- Every register from COHID to RESID is uniform (R140). -/
theorem Env.isU_sreg (e : Env) {n : Nat} (h2 : 2 ≤ n) (h26 : n ≤ 26) : (e.sreg n).isU = true := by
  interval_cases n <;> rfl

theorem VVal.not_isG_of_isU {v : VVal} (h : v.isU = true) : v.isG = false := by
  cases v with
  | u _ => rfl
  | a _ _ => rfl
  | g _ => cases h

/-- A full issue keeps the shape it is offered, where that is not general (R135). -/
theorem Env.merge_full (e : Env) {old new : VVal} (hf : e.full = true) (hn : new.isG = false) : e.merge old new = new := by
  simp [Env.merge, hf, hn]

theorem Env.isG_merge (e : Env) {old new : VVal} (hn : new.isG = true) : (e.merge old new).isG = true := by
  simp [Env.merge, hn]

/-! ### A result in one V register -/

/-- A register result that its destination takes: the instruction completes, with it written. -/
theorem Env.result_takes {e : Env} {new : VVal} (h : e.destTakes (!new.isG)) :
    e.result new = .ok (e.put (e.setV e.co e.w.d.toNat new)) := by
  simp only [Env.result, Env.shapeTrap_of_destTakes h, Bool.false_eq_true, if_false]

/-- An issue that writes one V register and nothing else. -/
theorem Env.registerFrame_setV {e : Env} (hg : e.group &&& e.co.live = e.group) (d : Nat) (new : VVal) :
    e.RegisterFrame (e.completes (e.put (e.setV e.co d new))) (e.wentOn (e.setV e.co d new)) [d] [] := by
  have hframe := e.setV_frame e.co d new
  refine (e.onlyCohort_put _).registerFrame hg (by rw [hframe]) (fun n hn => e.v_setV_other _ _ (by simpa using hn))
    (fun n l hl hv ha => e.v_setV_keep _ _ _ n hl hv ha) (fun n _ => ?_) (fun n l _ => ?_) ?_
  · rw [hframe]; rfl
  · rw [hframe]; rfl
  · rw [hframe]; exact sticky_self _

/-! ### SETS and SETFP (R204, R245) -/

theorem setsBody_notUniform {e : Env} (h : e.va.isU = false) : setsBody e = .trap { code := 2, mask := e.act } := by
  rw [setsBody, h]
  rfl

/-- SETS from a uniform source: XPC, or FPCTL without a reserved bit. -/
theorem setsBody_uniform {e : Env} (h : e.va.isU = true) :
    setsBody e = if e.w.d.toNat = 21 then .ok (e.put { e.co with xpc := e.va.at 0 })
      else if e.va.at 0 &&& 0x7FFFFFC0#32 != 0 then .trap { code := 1, mask := e.act }
      else .ok (e.put { e.co with fpctl := e.va.at 0 }) := by
  rw [setsBody, h]
  rfl

/-- A change of control registers completes. -/
theorem Env.movedOn_put {e : Env} (hg : e.group &&& e.co.live = e.group) {co : Cohort} (hl : co.lanes = e.co.lanes)
    (hx : co.live = e.co.live) : e.OnlyCohort (e.completes (e.put co)) (e.wentOn co) ∧ e.MovedOn (e.wentOn co) :=
  ⟨(e.onlyCohort_put co).completes, e.movedOn_wentOn hg hl hx⟩

theorem setfpBody_notUniform {e : Env} (h : e.va.isU = false ∨ e.vb.isU = false) :
    setfpBody e = .trap { code := 2, mask := e.act } := by
  rw [setfpBody, if_pos (by rcases h with h | h <;> simp [h])]
  rfl

/-- The cohort of a SETFP before it writes its register. -/
def Env.withFpctl (e : Env) : Cohort := { e.co with fpctl := (e.co.fpctl &&& ~~~ e.va.at 0) ||| (e.vb.at 0 &&& e.va.at 0) }

theorem setfpBody_uniform {e : Env} (ha : e.va.isU = true) (hb : e.vb.isU = true) :
    setfpBody e = if e.va.at 0 &&& 0x7FFFFFC0#32 != 0 then .trap { code := 1, mask := e.act }
      else if e.shapeTrap e.w.d.toNat (.u e.co.fpctl) then .trap { code := 2, mask := e.act }
      else .ok (e.put (e.setV e.withFpctl e.w.d.toNat (.u e.co.fpctl))) := by
  rw [setfpBody, ha, hb]
  rfl

/-- What GETS reads, register by register and lane by lane. -/
theorem gets_spec {s : State} {i : Instr} {e : Env} (h : s.Passes i e) (hc : e.cell = Cells.gets)
    (hd : e.destTakes (!(e.sreg e.w.a.toNat).isG)) :
    ∃ t co, exec i s = .next t ∧ e.RegisterFrame t co [e.w.d.toNat] [] ∧ co.fpctl = e.co.fpctl ∧
      (e.w.d.toNat ≠ zv → co.v e.w.d.toNat = e.merge (e.co.v e.w.d.toNat) (e.sreg e.w.a.toNat)) := by
  have hexec := exec_passes h
  rw [hc, show bodyOf Cells.gets.opc e = e.result (e.sreg e.w.a.toNat) from rfl, Env.result_takes hd, finish_ok] at hexec
  refine ⟨_, _, hexec, e.registerFrame_setV (group_and_live h.env) _ _, ?_, fun hz => ?_⟩
  · rw [e.setV_frame]; rfl
  · exact (e.v_setV ..).trans (if_pos ⟨rfl, hz⟩)

/-- Settles O26: GETS is one register result of the value of `Env.sreg`; SETS and SETFP change control registers of their cohort. -/
theorem systemRegisters : Obligations.SystemRegisters := by
  unfold Obligations.SystemRegisters
  refine ⟨fun s i e h hc hdest => ?_, fun s i e h => ⟨fun hc => ?_, fun hc => ?_⟩⟩
  · obtain ⟨t, co, hexec, hframe, hfp, hv⟩ := gets_spec h hc hdest
    obtain ⟨rfl, -⟩ := envFor_facts h.env
    refine ⟨t, co, hexec, hframe, hfp, fun hf ht hz => ⟨fun ha => ?_, fun ha => ?_⟩, fun hf h2 h26 hz => ?_, fun ha hz => ?_,
      fun l hl hact hz => ?_⟩
    · rw [hv hz, ha, show e.sreg 0 = .a 0 1 by simp [Env.sreg, ht], e.merge_full hf rfl]
    · rw [hv hz, ha, show e.sreg 1 = .a (BitVec.ofNat 32 (32 * e.co.cohid)) 1 by simp [Env.sreg, ht], e.merge_full hf rfl]
    · rw [hv hz, e.merge_full hf (VVal.not_isG_of_isU (e.isU_sreg h2 h26))]
      exact e.isU_sreg h2 h26
    · rw [hv hz, ha]
      exact e.isG_merge rfl
    · have hr : (co.v e.w.d.toNat).at l = (e.sreg e.w.a.toNat).at l := by rw [hv hz, e.at_merge_active _ _ hl hact]
      have value {n : Nat} {x : W32} (hx : e.sreg n = .u x) (ha : e.w.a.toNat = n) : (co.v e.w.d.toNat).at l = x := by
        rw [hr, ha, hx]
        rfl
      refine ⟨value rfl, value rfl, value rfl, value rfl, value rfl, value rfl, value rfl, value rfl, value rfl, value rfl, value rfl,
        value rfl, value rfl, fun x ha hx => value (by simp [Env.sreg, hx]) ha, fun ha => ?_, fun ha => ?_, fun ha ht => ?_,
        fun ha ht => ?_, value rfl, value rfl, value rfl, value rfl, value rfl, value rfl, value rfl, value rfl, value rfl, value rfl,
        value rfl⟩
      · rw [hr, ha, show (e.sreg 27).at l = jstat e.co l from VVal.at_ofFn _ hl]
        exact jstat_fields e.co l
      · rw [hr, ha, Env.sreg]
        split
        · exact VVal.at_ofFn _ hl
        · simp [VVal.at]
      · rw [hr, ha, show e.sreg 1 = .a (BitVec.ofNat 32 (32 * e.co.cohid)) 1 by simp [Env.sreg, ht]]
        simp [VVal.at, BitVec.ofNat_add]
      · rw [hr, ha, show e.sreg 1 = VVal.ofFn (fun l => BitVec.ofNat 32 (e.co.lane l).tid) by simp [Env.sreg, ht], VVal.at_ofFn _ hl]
  · have hexec := exec_passes h
    have hg := group_and_live h.env
    rw [hc, show bodyOf Cells.sets.opc = setsBody from rfl] at hexec
    refine ⟨fun hu => ?_, fun hu hd hbits => ?_, fun hu hok => ?_⟩
    · rw [hexec, setsBody_notUniform hu, finish_trap]
    · rw [hexec, setsBody_uniform hu, if_neg hd, if_pos (bne_iff_ne.2 hbits), finish_trap]
    · rw [setsBody_uniform hu] at hexec
      by_cases hd : e.w.d.toNat = 21
      · rw [if_pos hd, finish_ok] at hexec
        obtain ⟨ho, hm⟩ := e.movedOn_put hg (co := { e.co with xpc := e.va.at 0 }) rfl rfl
        exact ⟨_, _, hexec, ho, hm, rfl, fun _ => ⟨rfl, rfl⟩, fun hn => absurd hd hn⟩
      · rw [if_neg hd, if_neg (by simpa using hok.resolve_left hd), finish_ok] at hexec
        obtain ⟨ho, hm⟩ := e.movedOn_put hg (co := { e.co with fpctl := e.va.at 0 }) rfl rfl
        exact ⟨_, _, hexec, ho, hm, rfl, fun h => absurd h hd, fun _ => ⟨rfl, rfl⟩⟩
  · have hexec := exec_passes h
    have hg := group_and_live h.env
    rw [hc, show bodyOf Cells.setfp.opc = setfpBody from rfl] at hexec
    refine ⟨fun hu => ?_, fun ha hb hbits => ?_, fun ha hb hbits hdest => ?_⟩
    · rw [hexec, setfpBody_notUniform hu, finish_trap]
    · rw [hexec, setfpBody_uniform ha hb, if_pos (bne_iff_ne.2 hbits), finish_trap]
    · rw [setfpBody_uniform ha hb, if_neg (by simpa using hbits),
        if_neg (by rw [Env.shapeTrap_of_destTakes (new := .u e.co.fpctl) hdest]; exact Bool.false_ne_true), finish_ok] at hexec
      have hframe := e.setV_frame e.withFpctl e.w.d.toNat (.u e.co.fpctl)
      obtain ⟨ho, hm⟩ := e.movedOn_put hg (co := e.setV e.withFpctl e.w.d.toNat (.u e.co.fpctl)) (by rw [hframe]; rfl)
        (by rw [hframe]; rfl)
      refine ⟨_, _, hexec, ho, hm, by rw [hframe]; rfl, by rw [hframe]; rfl, fun n hn => e.v_setV_other _ _ hn,
        fun l hl hv ha => e.v_setV_keep _ _ _ _ hl hv ha, fun l hl ha hz => ?_⟩
      exact e.v_setV_at _ _ hz hl ha

end Sys2Proof.Machine

/-! PROOFS. ALLOCREG, FREEREG and NRES (O42): register tables cut to an allocation, waits recorded at issue, and a hand-off, which
leaves blocks and cohorts but for the marks of open transactions. -/

namespace Sys2Proof.Machine

/-! ### An allocation grown or cut (R38, R39) -/

theorem SMap.look_filter_key {α : Type} (m : SMap α) (f : Nat → Bool) (i : Nat) :
    SMap.look (m.filter (fun p => f p.1)) i = if f i then m.look i else none := by
  induction m with
  | nil => simp [SMap.look]
  | cons p m ih =>
    obtain ⟨k, v⟩ := p
    by_cases hk : f k = true
    · rw [List.filter_cons_of_pos (by simpa using hk)]
      simp only [SMap.look, ih]
      by_cases hi : k = i
      · subst hi
        simp [hk]
      · simp [hi]
    · rw [List.filter_cons_of_neg (by simpa using hk), ih]
      simp only [SMap.look]
      by_cases hi : k = i
      · subst hi
        simp [hk]
      · simp [hi]

/-- A cohort with an allocation, of whose registers only some are listed. -/
def Cohort.withRegs (co : Cohort) (n : Nat) (keep : Nat → Bool) : Cohort :=
  { co with g := n, vregs := co.vregs.filter (fun p => keep p.1) }

theorem Cohort.v_withRegs (co : Cohort) (n : Nat) (keep : Nat → Bool) (k : Nat) :
    (co.withRegs n keep).v k = if keep k then co.v k else .u 0 := by
  simp only [Cohort.v, Cohort.withRegs, SMap.get, SMap.look_filter_key]
  cases keep k <;> simp

/-! ### Predicates written (R141) -/

theorem Cohort.p_setP (co : Cohort) (n : Nat) (act x : Mask) (m : Nat) :
    (co.setP n act x).p m = if m = n ∧ n ≠ 0 ∧ n ≠ zv then (co.p n &&& ~~~ act) ||| (x &&& act) else co.p m := by
  by_cases hn : n = 0 ∨ n = zv
  · rw [Cohort.setP, if_pos (by simpa using hn), if_neg (fun h => hn.elim h.2.1 h.2.2)]
  · obtain ⟨h0, hz⟩ := not_or.1 hn
    rw [Cohort.setP, if_neg (by simpa using hn)]
    by_cases hm : m = n
    · subst hm
      simp [Cohort.p, h0, hz, SMap.get_put]
    · simp [Cohort.p, hm, SMap.get_put]

/-- A predicate with its active lanes set. -/
theorem Cohort.p_setP_active {co : Cohort} {n : Nat} {act : Mask} (hz : n ≠ zv) {l : Nat} (hl : l < 32) (ha : act.has l = true) :
    ((co.setP n act (BitVec.allOnes 32)).p n).has l = true := by
  rw [co.p_setP]
  by_cases h0 : n = 0
  · rw [if_neg (by simp [h0]), Cohort.p, if_pos h0, Mask.has, BitVec.getLsbD_allOnes]
    simp [hl]
  · have hall : Mask.has (BitVec.allOnes 32 &&& act) l = true := by rw [BitVec.allOnes_and, ha]
    rw [if_pos ⟨rfl, h0, hz⟩, Mask.has_or, hall, Bool.or_true]

theorem Cohort.p_setP_inactive {co : Cohort} (n : Nat) {act : Mask} (x : Mask) (m : Nat) {l : Nat} (ha : act.has l = false) :
    ((co.setP n act x).p m).has l = (co.p m).has l := by
  rw [co.p_setP]
  split
  next h =>
    rw [h.1, Mask.has_or, Mask.has_and, Mask.has_and, ha, Bool.and_false, Bool.or_false]
    by_cases hl : l < 32
    · rw [Mask.has_not _ hl, ha, Bool.not_false, Bool.and_true]
    · simp [Mask.has, BitVec.getLsbD_of_ge _ _ (Nat.not_lt.1 hl)]
  next => rfl

theorem Cohort.setP_frame (co : Cohort) (n : Nat) (act x : Mask) : co.setP n act x = { co with preds := (co.setP n act x).preds } := by
  unfold Cohort.setP
  split <;> rfl

theorem Cohort.v_setP (co : Cohort) (n : Nat) (act x : Mask) (k : Nat) : (co.setP n act x).v k = co.v k := by
  unfold Cohort.setP
  split <;> rfl

/-! ### A wait at issue (R194) -/

theorem State.cohort_updCohort_some {s : State} {k : Nat} {co : Cohort} (h : s.cohort k = some co) (f : Cohort → Cohort) :
    (s.updCohort k f).cohort k = some (f co) := (State.cohort_updCohort_self _ _ _).trans (congrArg (Option.map f) h)

theorem Cohort.recordWait_frame (co : Cohort) (r : WaitRec) : co.recordWait r = { co with waits := (co.recordWait r).waits } := by
  unfold Cohort.recordWait
  split <;> rfl

/-- The wait that an issue begins. -/
def Env.newWait (e : Env) (s : State) (kind : WaitKind) (need cls : Nat) : WaitRec :=
  { pc := e.pc, kind := kind, need := need, since := s.nextId, cls := cls,
    placed := if kind == .entry || kind == .queue then some s.nextId else none }

theorem Env.waiting_eq (e : Env) (s : State) (kind : WaitKind) (need cls : Nat) :
    e.waiting s kind need cls =
      ({ s with nextId := s.nextId + 1 }.updCohort e.slot (fun co => co.recordWait (e.newWait s kind need cls))).mark true := rfl

/-- An instruction that waits leaves a wait in its cohort and the mark, and changes nothing else but the count of moments. -/
theorem Env.waiting_spec (e : Env) {t : State} {co : Cohort} (hco : t.cohort e.slot = some co) (kind : WaitKind) (need cls : Nat) :
    (e.waiting t kind need cls).cur.waited = true ∧
      (e.waiting t kind need cls).cohort e.slot = some (co.recordWait (e.newWait t kind need cls)) ∧
      (∀ k, k ≠ e.slot → (e.waiting t kind need cls).cohort k = t.cohort k) ∧
      { e.waiting t kind need cls with cohorts := t.cohorts, cur := t.cur, nextId := t.nextId } = t := by
  rw [e.waiting_eq]
  refine ⟨rfl, ?_, fun k hk => State.cohort_updCohort_ne _ _ hk, rfl⟩
  exact State.cohort_updCohort_some (s := { t with nextId := t.nextId + 1 }) hco _

/-! ### Steps of the tree engine leave blocks and cohorts (R61, R277) -/

/-- The blocks are the same, and the cohorts but for the marks of their open transactions. -/
structure State.SameWork (s t : State) : Prop where
  blocks  : t.blocks = s.blocks
  cohorts : ∀ k, (t.cohort k).map (fun co => { co with tx := none }) = (s.cohort k).map (fun co => { co with tx := none })

theorem State.SameWork.refl (s : State) : s.SameWork s := ⟨rfl, fun _ => rfl⟩

theorem State.SameWork.trans {s t u : State} (h : s.SameWork t) (k : t.SameWork u) : s.SameWork u :=
  ⟨k.blocks.trans h.blocks, fun n => (k.cohorts n).trans (h.cohorts n)⟩

theorem State.SameWork.of_eq {s t : State} (hb : t.blocks = s.blocks) (hc : t.cohorts = s.cohorts) : s.SameWork t :=
  ⟨hb, fun k => by rw [State.cohort, hc]; rfl⟩

/-- What a resident cohort is after steps that leave the work. -/
theorem State.SameWork.cohort {s t : State} (h : s.SameWork t) {k : Nat} {co : Cohort} (hco : s.cohort k = some co) :
    ∃ tx, t.cohort k = some { co with tx := tx } := by
  have hk := h.cohorts k
  rw [hco] at hk
  obtain ⟨co', hco', heq⟩ := Option.map_eq_some_iff.1 hk
  refine ⟨co'.tx, hco'.trans (congrArg some ?_)⟩
  calc co' = { { co' with tx := none } with tx := co'.tx } := rfl
    _ = { co with tx := co'.tx } := by rw [heq]

theorem State.sameWork_physWrite (s : State) (key : Nat) (w : Option Nat) (pa : Nat) (bs : List Byte) :
    s.SameWork (s.physWrite key w pa bs) := by
  refine ⟨?_, fun k => ?_⟩
  · have h := congrArg State.blocks (s.physWrite_frame key w pa bs)
    exact h
  · rw [State.cohort, State.physWrite, State.physBytes_cohorts]
    simp only [State.noteWrite, SMap.look_mapVals, Option.map_map, State.cohort]
    refine congrFun (congrArg Option.map (funext (fun co => ?_))) _
    simp only [Function.comp_apply]
    split <;> rfl

theorem State.sameWork_vmWrite {s t : State} {tlbs : List TlbEntry} {vf : Nat} {va : W64} {bs : List Byte}
    (h : s.vmWrite tlbs vf va bs = .ok t) : s.SameWork t := by
  have hfold (ps : List (Nat × Nat × Nat)) (u : State) :
      u.SameWork (ps.foldl (fun s p => s.physWrite (s.vf vf).key none p.1 ((bs.drop p.2.1).take p.2.2)) u) := by
    induction ps generalizing u with
    | nil => exact .refl u
    | cons p ps ih => exact (u.sameWork_physWrite ..).trans (ih _)
  unfold State.vmWrite at h
  split at h
  · cases h
  · cases h
    exact hfold _ s

/-- What holds of an engine's step however it ends: `P` of the state in which it meets trouble, `Q` of its value. -/
def Eng.Ends {α : Type} (P : State → Prop) (Q : α → Prop) : Eng α → Prop
  | .ok x => Q x
  | .error (t, _) => P t

theorem Eng.Ends.bind {α β : Type} {P : State → Prop} {Q : α → Prop} {R : β → Prop} {r : Eng α} {f : α → Eng β}
    (h : Eng.Ends P Q r) (hf : ∀ x, Q x → Eng.Ends P R (f x)) : Eng.Ends P R (r >>= f) := by
  cases r with
  | ok x => exact hf x h
  | error _ => exact h

theorem Eng.Ends.mono {α : Type} {P P' : State → Prop} {Q Q' : α → Prop} {r : Eng α} (h : Eng.Ends P Q r) (hP : ∀ t, P t → P' t)
    (hQ : ∀ x, Q x → Q' x) : Eng.Ends P' Q' r := by
  cases r with
  | ok x => exact hQ x h
  | error p => exact hP p.1 h

/-- An engine's step that leaves the work. -/
def State.EngSame (s : State) (r : Eng State) : Prop := Eng.Ends s.SameWork s.SameWork r

theorem State.EngSame.after {s t : State} {r : Eng State} (h : t.EngSame r) (hs : s.SameWork t) : s.EngSame r :=
  Eng.Ends.mono h (fun _ => hs.trans) (fun _ => hs.trans)

theorem State.EngSame.bind {s : State} {r : Eng State} {f : State → Eng State} (h : s.EngSame r)
    (hf : ∀ t, s.SameWork t → s.EngSame (f t)) : s.EngSame (r >>= f) := Eng.Ends.bind h hf

theorem State.EngSame.ite {s : State} {c : Prop} [Decidable c] {r r' : Eng State} (h : s.EngSame r) (h' : s.EngSame r') :
    s.EngSame (if c then r else r') := by
  split
  · exact h
  · exact h'

/-- Two ways to a state from which the step goes on. -/
theorem State.EngSame.ite_bind {s : State} {c : Prop} [Decidable c] {r r' : Eng State} {f : State → Eng State} (h : s.EngSame r)
    (h' : s.EngSame r') (hf : ∀ t, s.SameWork t → s.EngSame (f t)) : s.EngSame (if c then r >>= f else r' >>= f) := by
  split
  · exact h.bind hf
  · exact h'.bind hf

theorem State.EngSame.of_ok {s t : State} {r : Eng State} (h : s.EngSame r) (hr : r = .ok t) : s.SameWork t := by
  rw [hr] at h
  exact h

theorem State.EngSame.of_error {s : State} {r : Eng State} {p : State × Trouble} (h : s.EngSame r) (hr : r = .error p) :
    s.SameWork p.1 := by
  rw [hr] at h
  exact h

theorem State.engRead_ends (s : State) (a : Serve) (va : W64) (n : Nat) : Eng.Ends (· = s) (fun _ => True) (s.engRead a va n) := by
  unfold State.engRead
  split
  · rfl
  · trivial

theorem State.engWrite_same (s : State) (a : Serve) (va : W64) (bs : List Byte) : s.EngSame (s.engWrite a va bs) := by
  unfold State.engWrite
  split
  · exact State.SameWork.refl s
  next h => exact State.sameWork_vmWrite h

theorem State.readFrame_ends (s : State) (a : Serve) (l : Launch) (fr : Nat × Nat) :
    Eng.Ends (· = s) (fun _ => True) (s.readFrame a l fr) := by
  have h := s.engRead_ends a (l.frameAddr fr) 64
  unfold State.readFrame
  split
  next hr => rw [hr] at h; exact h
  · split
    · rfl
    · trivial
    · split
      · trivial
      · rfl

theorem State.writeFrame_same (s : State) (a : Serve) (l : Launch) (fr : Nat × Nat) (x : Frame) : s.EngSame (s.writeFrame a l fr x) :=
  s.engWrite_same ..

theorem State.sameWork_updNode (s : State) (lid i : Nat) (f : Node → Node) : s.SameWork (s.updNode lid i f) := .of_eq rfl rfl
theorem State.sameWork_updLaunch (s : State) (lid : Nat) (f : Launch → Launch) : s.SameWork (s.updLaunch lid f) := .of_eq rfl rfl
theorem State.sameWork_updCluster (s : State) (c : Nat) (f : Cluster → Cluster) : s.SameWork (s.updCluster c f) := .of_eq rfl rfl

theorem State.sameWork_queueDispatch (s : State) (d : Dispatch) : s.SameWork (s.queueDispatch d) := by
  have hfold (ns : List Nat) (t : State) :
      t.SameWork (ns.foldl (fun s i => s.updNode d.launch i (fun n => { n with state := .dispatched })) t) := by
    induction ns generalizing t with
    | nil => exact .refl t
    | cons n ns ih => exact (t.sameWork_updNode ..).trans (ih _)
  exact (hfold d.nodes s).trans (.of_eq rfl rfl)

theorem State.stopLaunch_blocks (s : State) (lid status detail node : Nat) : (s.stopLaunch lid status detail node).blocks = s.blocks := by
  unfold State.stopLaunch
  split
  · rfl
  · split <;> rfl

theorem State.sameWork_stopLaunch (s : State) (lid status detail node : Nat) : s.SameWork (s.stopLaunch lid status detail node) :=
  .of_eq (s.stopLaunch_blocks ..) (s.stopLaunch_cohorts ..)

theorem State.sameWork_postKill (s : State) (vf die : Nat) (r : FaultInfo) : s.SameWork (s.postKill vf die r) := .of_eq rfl rfl

theorem State.sameWork_engineFault (s : State) (lid node : Nat) (va : W64) (x : XlatErr) (acc : Access) :
    s.SameWork (s.engineFault lid node va x acc) := by
  unfold State.engineFault
  split
  · exact .refl s
  · exact (s.sameWork_postKill ..).trans (State.sameWork_stopLaunch ..)

theorem State.sameWork_treebound (s : State) (lid reason node : Nat) : s.SameWork (s.treebound lid reason node) := by
  unfold State.treebound
  split
  · exact .refl s
  · split
    · exact .refl s
    · exact (s.sameWork_postKill ..).trans (State.sameWork_stopLaunch ..)

theorem State.sameWork_served {s : State} {r : Eng State} (h : s.EngSame r) (lid : Nat) : s.SameWork (served lid r) := by
  match r, h with
  | .ok _, h => exact h
  | .error (t, .bound reason node), h => exact h.trans (t.sameWork_treebound ..)
  | .error (t, .xlat node va e acc), h => exact h.trans (t.sameWork_engineFault ..)

theorem State.push_same (s : State) (a : Serve) (n : Node) (slots : List Byte) : s.EngSame (s.push a n slots) := by
  unfold State.push
  split
  · exact State.SameWork.refl s
  next l _ =>
    simp only
    split_ifs
    · exact State.SameWork.refl s
    · exact State.SameWork.refl s
    · split
      next hw => exact (s.engWrite_same a _ _).of_error hw
      next hw => exact ((s.engWrite_same a _ _).of_ok hw).trans (State.sameWork_updLaunch ..)

theorem State.handUp_same (fuel : Nat) (s : State) (a : Serve) (data : List Byte) : s.EngSame (s.handUp a data fuel) := by
  induction fuel generalizing s a data with
  | zero => exact State.SameWork.refl s
  | succ fuel ih =>
    rw [State.handUp]
    split
    next l _ =>
      split
      next n _ =>
        have hs := s.sameWork_updNode a.lid a.node (fun n => { n with state := .done })
        generalize s.updNode a.lid a.node (fun n => { n with state := .done }) = u at hs ⊢
        refine State.EngSame.after ?_ hs
        simp only
        split
        · exact State.EngSame.ite_bind (.refl u) (u.engWrite_same ..) (fun t ht => ht.trans (t.sameWork_updLaunch ..))
        split
        next fr _ =>
          refine State.EngSame.ite_bind (u.engWrite_same ..) (.refl u) (fun t ht => ?_)
          refine (t.readFrame_ends a l fr).mono (fun v hv => hv ▸ ht) (fun _ _ => trivial) |>.bind (fun x _ => ?_)
          refine State.EngSame.ite_bind ht ((t.engWrite_same ..).after ht) (fun v hv => ?_)
          generalize (x.join + 2 ^ 32 - 1) % 2 ^ 32 = j
          refine State.EngSame.ite ((v.writeFrame_same ..).after hv) ?_
          refine State.EngSame.bind ((v.writeFrame_same ..).after hv) (fun w hw => ?_)
          split
          · split
            · exact State.EngSame.bind ((ih ..).after hw) (fun y hy => hy.trans (y.sameWork_updLaunch ..))
            · exact hw.trans (w.sameWork_queueDispatch _)
          · exact hw
        · exact State.SameWork.refl u
      · exact State.SameWork.refl s
    · exact State.SameWork.refl s

theorem State.sameWork_freeCopy (s : State) (lid i : Nat) : s.SameWork (s.freeCopy lid i) := by
  unfold State.freeCopy
  split
  · exact .refl s
  · exact s.sameWork_updNode ..

/-- The first hand-off of a block marks it as handed and leaves every other block, and the cohorts but for their transactions. -/
theorem State.handOff_first {s : State} {bi : Nat} {b : Block} (hb : s.block bi = some b) (hh : b.handed = false) :
    (s.setBlock bi { b with handed := true }).SameWork (s.handOff bi) := by
  unfold State.handOff
  simp only [hb, hh, Bool.false_eq_true, if_false]
  generalize s.setBlock bi { b with handed := true } = u
  split
  · exact (State.sameWork_served (u.handUp_same ..) _).trans (State.sameWork_freeCopy ..)
  · have hd := (u.sameWork_updNode b.launch b.node (fun n => { n with state := .done })).trans
      (State.sameWork_freeCopy _ b.launch b.node)
    generalize (u.updNode b.launch b.node (fun n => { n with state := .done })).freeCopy b.launch b.node = v at hd ⊢
    split
    · exact hd
    · split
      · exact hd
      · split
        · exact hd
        · exact (hd.trans (v.sameWork_updCluster ..)).trans
            ((State.sameWork_served (State.push_same ..) _).trans (State.sameWork_updNode ..))

theorem State.handOff_handed {s : State} {bi : Nat} {b : Block} (hb : s.block bi = some b) (hh : b.handed = true) :
    s.handOff bi = s := by
  simp only [State.handOff, hb, hh, if_true]

/-! ### ALLOCREG, FREEREG and NRES (R302, R303) -/

/-- What ALLOCREG asks of the pool: the registers above the allocation, for each slice that holds a living lane. -/
def Env.allocCount (e : Env) : Nat := 8 * (e.w.a.toNat + 1)
def Env.allocNeed (e : Env) : Nat := (e.allocCount - e.co.g) * e.co.liveSlices

/-- The cohort whose ALLOCREG is granted. -/
def Env.grown (e : Env) : Cohort :=
  (e.co.withRegs e.allocCount (fun k => k < e.co.g || e.allocCount ≤ k)).setP e.w.d.toNat e.act (BitVec.allOnes 32)

theorem Env.grown_frame (e : Env) :
    e.grown = { e.co with g := e.allocCount, vregs := e.grown.vregs, preds := e.grown.preds } := by
  unfold Env.grown Cohort.setP
  split <;> rfl

theorem Env.v_grown (e : Env) (k : Nat) : e.grown.v k = if k < e.co.g || e.allocCount ≤ k then e.co.v k else .u 0 :=
  (Cohort.v_setP ..).trans (e.co.v_withRegs e.allocCount (fun k => k < e.co.g || e.allocCount ≤ k) k)

theorem allocregBody_illegal {e : Env} (h : e.blk.table.isSome = true ∨ e.full = false ∨ 256 < e.allocCount) :
    allocregBody e = .trap { code := 1, mask := e.act } := by
  simp only [allocregBody]
  refine if_pos ?_
  rcases h with h | h | h
  · simp [h]
  · simp [h]
  · simp [Env.allocCount] at h
    simp [h]

/-- ALLOCREG that is legal: an allocation that is large enough, a request that waits, and one that is granted. -/
theorem allocregBody_legal {e : Env} (ht : e.blk.table = none) (hf : e.full = true) (hn : e.allocCount ≤ 256) :
    allocregBody e = if e.allocCount ≤ e.co.g then e.presult (BitVec.allOnes 32)
      else if e.laterInPool || e.s.slicePool e.core < e.allocNeed then .wait .registers e.allocNeed 0
      else .ok (e.put e.grown) := by
  simp only [allocregBody]
  rw [if_neg (by simp only [ht, hf]; simpa [Env.allocCount] using hn)]
  rfl

theorem freeregBody_illegal {e : Env}
    (h : e.blk.table.isSome = true ∨ e.full = false ∨ 256 < e.allocCount ∨ e.co.g < e.allocCount) :
    freeregBody e = .trap { code := 1, mask := e.act } := by
  simp only [freeregBody]
  refine if_pos ?_
  rcases h with h | h | h | h
  · simp [h]
  · simp [h]
  · simp [Env.allocCount] at h
    simp [h]
  · simp [Env.allocCount] at h
    simp [h]

theorem freeregBody_legal {e : Env} (ht : e.blk.table = none) (hf : e.full = true) (hn : e.allocCount ≤ 256)
    (hg : e.allocCount ≤ e.co.g) : freeregBody e = .ok (e.put (e.co.withRegs e.allocCount (fun k => k < e.allocCount || 256 ≤ k))) := by
  simp only [freeregBody]
  rw [if_neg (by simp only [ht, hf]; simp [Env.allocCount] at hn hg ⊢; omega)]
  rfl

/-- An issue that writes one predicate and nothing else. -/
theorem Env.registerFrame_setP {e : Env} (hg : e.group &&& e.co.live = e.group) (d : Nat) (x : Mask) :
    e.RegisterFrame (e.completes (e.put (e.co.setP d e.act x))) (e.wentOn (e.co.setP d e.act x)) [] [d] := by
  have hframe := e.co.setP_frame d e.act x
  refine (e.onlyCohort_put _).registerFrame hg (by rw [hframe]) (fun n _ => ?_) (fun n l _ _ _ => ?_)
    (fun n hn => ?_) (fun n l ha => Cohort.p_setP_inactive d x n ha) ?_
  · rw [hframe]; rfl
  · rw [hframe]; rfl
  · rw [e.co.p_setP, if_neg (fun h => hn (by simp [h.1]))]
  · rw [hframe]; exact sticky_self _

theorem nresBody_eq (e : Env) :
    nresBody e = if e.surr then .trap { code := 1, mask := e.act }
      else if e.blk.handed then .ok e.s
      else if !e.s.takerRuns e.blk then .wait .collective 0 0
      else .ok (e.s.handOff e.co.blk) := rfl

/-- Settles O42: the legal and illegal forms of ALLOCREG and FREEREG, and NRES, whose first hand-off leaves the work. -/
theorem registersAndEarlyResult : Obligations.RegistersAndEarlyResult := by
  unfold Obligations.RegistersAndEarlyResult
  refine ⟨fun s i e h => ?_, fun s i e h hc => ?_⟩
  · have hexec := exec_passes h
    have hg := group_and_live h.env
    refine ⟨fun hc hbad => ?_, fun hc ht hf (hn : e.allocCount ≤ 256) (hle : e.allocCount ≤ e.co.g) => ?_,
      fun hc ht hf (hn : e.allocCount ≤ 256) (hle : e.allocCount ≤ e.co.g) => ?_,
      fun hc ht hf (hn : e.allocCount ≤ 256) (hgt : e.co.g < e.allocCount) hl (hneed : e.allocNeed ≤ s.slicePool e.core) => ?_,
      fun hc ht hf (hn : e.allocCount ≤ 256) (hpool : s.slicePool e.core < e.allocNeed) (hgt : e.co.g < e.allocCount) => ?_⟩
    · simp only [List.mem_cons, List.not_mem_nil, or_false] at hc
      rcases hc with hc | hc
      · rw [hexec, hc, show bodyOf Cells.allocreg.opc = allocregBody from rfl, allocregBody_illegal, finish_trap]
        rcases hbad with hb | hb | hb | hb
        · exact .inl hb
        · exact .inr (.inl hb)
        · exact .inr (.inr hb)
        · exact absurd (hc.symm.trans hb.1) (by decide)
      · rw [hexec, hc, show bodyOf Cells.freereg.opc = freeregBody from rfl,
          freeregBody_illegal (hbad.imp_right (Or.imp_right (Or.imp_right And.right))), finish_trap]
    · rw [hc, show bodyOf Cells.freereg.opc = freeregBody from rfl, freeregBody_legal ht hf hn hle, finish_ok] at hexec
      obtain ⟨ho, hm⟩ := e.movedOn_put hg (co := e.co.withRegs e.allocCount (fun k => k < e.allocCount || 256 ≤ k)) rfl rfl
      have hv (k : Nat) := e.co.v_withRegs e.allocCount (fun k => k < e.allocCount || 256 ≤ k) k
      refine ⟨_, _, hexec, ho, hm, rfl, rfl, fun k (hk : k < e.allocCount ∨ 256 ≤ k) => ?_, fun k (hk : e.allocCount ≤ k) hk' => ?_⟩
      · exact (hv k).trans (if_pos (by simpa using hk))
      · exact (hv k).trans (if_neg (by simp; omega))
    · rw [hc, show bodyOf Cells.allocreg.opc = allocregBody from rfl, allocregBody_legal ht hf hn, if_pos hle, Env.presult,
        finish_ok] at hexec
      exact ⟨_, _, hexec, e.registerFrame_setP hg _ _, fun l hl ha hz => Cohort.p_setP_active hz hl ha⟩
    · obtain ⟨rfl, -⟩ := envFor_facts h.env
      rw [hc, show bodyOf Cells.allocreg.opc = allocregBody from rfl, allocregBody_legal ht hf hn, if_neg (Nat.not_le.2 hgt),
        if_neg (by simpa [hl] using hneed), finish_ok] at hexec
      have hframe := e.grown_frame
      obtain ⟨ho, hm⟩ := e.movedOn_put hg (co := e.grown) (by rw [hframe]) (by rw [hframe]; rfl)
      refine ⟨_, _, hexec, ho, hm, by rw [hframe]; rfl, fun k (hk : k < e.co.g ∨ e.allocCount ≤ k) => ?_,
        fun k hk (hk' : k < e.allocCount) hz => ?_, fun l hl ha hz => Cohort.p_setP_active hz hl ha⟩
      · exact (e.v_grown k).trans (if_pos (by simpa using hk))
      · exact (e.v_grown k).trans (if_neg (by simp; omega))
    · obtain ⟨rfl, -⟩ := envFor_facts h.env
      rw [hc, show bodyOf Cells.allocreg.opc = allocregBody from rfl, allocregBody_legal ht hf hn, if_neg (Nat.not_le.2 hgt),
        if_pos (by simp [hpool])] at hexec
      obtain ⟨-, -, hco, -⟩ := envFor_facts h.env
      obtain ⟨hw, hco, -⟩ := e.waiting_spec hco .registers e.allocNeed 0
      exact ⟨_, _, hexec, hw, hco, Cohort.recordWait_frame ..⟩
  · have hexec := exec_passes h
    obtain ⟨rfl, -, hco, hb, -⟩ := envFor_facts h.env
    rw [hc, show bodyOf Cells.nres.opc = nresBody from rfl, nresBody_eq] at hexec
    refine ⟨fun hs => ?_, fun hs hh hr => ?_, fun hs hok => ?_⟩
    · rw [hexec, if_pos hs, finish_trap]
    · rw [if_neg (by simp [hs]), if_neg (by simp [hh]), if_pos (by simp [hr])] at hexec
      obtain ⟨hw, hco, hthere, hpart⟩ := e.waiting_spec hco .collective 0 0
      exact ⟨_, _, hexec, hw, hco, Cohort.recordWait_frame .., hthere, hpart⟩
    · rw [if_neg (by simp [hs])] at hexec
      cases hh : e.blk.handed with
      | true =>
        rw [hh, if_pos rfl, finish_ok] at hexec
        refine ⟨by rw [hexec, State.handOff_handed hb hh], fun _ => ⟨_, e.registerFrame_self h.env, hexec⟩, fun hf => absurd hf (by simp)⟩
      | false =>
        rw [hh, if_neg Bool.false_ne_true, if_neg (by simp [hok.resolve_left (by simp [hh])]), finish_ok] at hexec
        refine ⟨hexec, fun ht => absurd ht (by simp), fun _ => ?_⟩
        have hwork := State.handOff_first hb hh
        obtain ⟨tx, htx⟩ := hwork.cohort (k := e.slot) (co := e.co) hco
        refine ⟨_, e.wentOn { e.co with tx := tx }, hexec, ?_, e.movedOn_wentOn (group_and_live h.env) rfl rfl, rfl, rfl,
          { e.blk with handed := true }, ?_, rfl⟩
        · refine (State.cohort_updCohort_self _ _ _).trans ?_
          rw [htx]
          rfl
        · show State.block (e.s.handOff e.co.blk) e.co.blk = _
          rw [State.block, hwork.blocks]
          exact (State.block_setBlock ..).trans (if_pos rfl)

end Sys2Proof.Machine

/-! PROOFS. Matrix operations, CMPR and VGA are posted (O39): the payment of an instruction that waits for nothing, the checks of
operands, and the post of an operation on its cluster's engine. -/

namespace Sys2Proof.Machine

/-! ### The price paid (R41, R42, R45) -/

/-- The issuing instruction has paid: of its cohort only waits may differ, and the clusters, blocks and memory are as they were. -/
structure Env.Paid (e : Env) (t : State) : Prop where
  here     : ∃ ws, t.cohort e.slot = some { e.co with waits := ws }
  clusters : t.clusters = e.s.clusters
  blocks   : t.blocks = e.s.blocks
  bytes    : ∀ key a, t.physByte key a = e.s.physByte key a

theorem State.pay_cohort {s : State} {slot : Nat} {co : Cohort} (hco : s.cohort slot = some co) (pc : W32) (price : Nat) :
    ∃ ws, (s.pay slot pc price).cohort slot = some { co with waits := ws } := by
  have hc : s.cohorts.look slot = some co := hco
  simp only [State.pay, State.cohort, SMap.look_mapVals, if_true]
  split <;> exact ⟨_, congrArg (Option.map _) hc⟩

theorem State.pay_frame (s : State) (slot : Nat) (pc : W32) (price : Nat) :
    (s.pay slot pc price).clusters = s.clusters ∧ (s.pay slot pc price).blocks = s.blocks ∧
      ∀ key a, (s.pay slot pc price).physByte key a = s.physByte key a := by
  unfold State.pay
  simp only
  split <;> exact ⟨rfl, rfl, fun _ _ => rfl⟩

/-- An instruction whose other needs are met and that can pay, with its engine place free, goes on with its price paid. -/
theorem Env.afterPaying_ready {s : State} {i : Instr} {e : Env} (h : s.envFor i = some e) {price : Nat}
    {needs : List (WaitKind × Bool)} {place : Option EnginePlace} (hn : ∀ n ∈ needs, n.2 = true) (hp : e.canPay price)
    (hfree : ∀ p, place = some p → e.placeFree p.cls p.free = true) : ∃ t, e.Paid t ∧ ∀ k, e.afterPaying price needs place k = k t := by
  obtain ⟨-, -, hco, -⟩ := envFor_facts h
  have hneeds : needs.find? (fun n => !n.2) = none := List.find?_eq_none.2 (fun n hm => by simp [hn n hm])
  obtain ⟨rfl, -⟩ := envFor_facts h
  simp only [Env.afterPaying, hneeds]
  rcases hp with rfl | ⟨hline, hwallet⟩
  · exact ⟨e.s, ⟨⟨_, hco⟩, rfl, rfl, fun _ _ => rfl⟩, fun k => if_pos rfl⟩
  · by_cases h0 : price = 0
    · exact ⟨e.s, ⟨⟨_, hco⟩, rfl, rfl, fun _ _ => rfl⟩, fun k => if_pos h0⟩
    · have hholds : e.s.holdsPrice e.slot e.co e.pc price = true := by
        rw [State.holdsPrice, hline]
        exact decide_eq_true hwallet
      obtain ⟨hcl, hbl, hby⟩ := e.s.pay_frame e.slot e.pc price
      refine ⟨e.s.pay e.slot e.pc price, ⟨State.pay_cohort hco _ _, hcl, hbl, hby⟩, fun k => ?_⟩
      rw [if_neg h0, hholds, if_neg (by simp)]
      cases place with
      | none => rfl
      | some p => exact if_pos (hfree p rfl)

/-! ### An operation posted (R125) -/

/-- A change of the counters and of the pending writes of a cohort that posts an operation. -/
def Cohort.PostsOnly (f : Cohort → Cohort) (cls : Nat) : Prop :=
  ∀ co, f co = { co with ocMat := (f co).ocMat, ocVga := (f co).ocVga, pending := (f co).pending } ∧ (f co).ocCount cls = co.ocCount cls + 1

/-- The state with an operation added to its cluster's engine, and the cohort changed. -/
def Env.posted (e : Env) (t : State) (g : Cluster → Cluster) (f : Cohort → Cohort) : State :=
  (({ t with nextId := t.nextId + 1 }).updCluster (clusterOf e.core) g).updCohort e.slot f

/-- What a post leaves when the instruction is complete. -/
theorem Env.posted_spec {s : State} {i : Instr} {e : Env} (h : s.envFor i = some e) {t : State} (ht : e.Paid t) (g : Cluster → Cluster)
    {f : Cohort → Cohort} {cls : Nat} (hf : Cohort.PostsOnly f cls) :
    ∃ ws, e.Posted (e.completes (e.posted t g f)) (e.wentOn (f { e.co with waits := ws })) cls ∧
      (e.completes (e.posted t g f)).cluster (clusterOf e.core) = g (s.cluster (clusterOf e.core)) ∧
      (e.completes (e.posted t g f)).block e.co.blk = some e.blk := by
  obtain ⟨rfl, -, hco, hb, -⟩ := envFor_facts h
  obtain ⟨⟨ws, hws⟩, hcl, hbl, hby⟩ := ht
  obtain ⟨hframe, hcount⟩ := hf { e.co with waits := ws }
  have hhere : (e.posted t g f).cohort e.slot = some (f { e.co with waits := ws }) := State.cohort_updCohort_some hws f
  refine ⟨ws, ⟨?_, ?_, fun n => ?_, fun n => ?_, hcount, hby⟩, ?_, ?_⟩
  · exact State.cohort_updCohort_some hhere _
  · exact e.movedOn_wentOn (group_and_live h) (by rw [hframe]) (by rw [hframe]; rfl)
  · rw [hframe]; rfl
  · rw [hframe]; rfl
  · refine (State.cluster_updCluster ..).trans ((if_pos rfl).trans ?_)
    rw [show State.cluster { t with nextId := t.nextId + 1 } (clusterOf e.core) = e.s.cluster (clusterOf e.core) by
      unfold State.cluster
      exact congrArg (fun m : SMap Cluster => m.get (clusterOf e.core) {}) hcl]
  · show t.blocks.look e.co.blk = some e.blk
    rw [hbl]
    exact hb

theorem Cohort.postsOnly_ocPost_mat (id : Nat) : Cohort.PostsOnly (fun co => co.ocPost 1 id) 1 :=
  fun _ => ⟨rfl, List.length_append⟩

/-- A post that also leaves a run of registers to be written, where its destination names one (R145). -/
theorem Cohort.postsOnly_pending {cls : Nat} (hc : cls = 1 ∨ cls = 2) (id : Nat) (c : Prop) [Decidable c] (p : Pending) :
    Cohort.PostsOnly (fun co => if c then co.ocPost cls id else { co.ocPost cls id with pending := p :: (co.ocPost cls id).pending }) cls := by
  intro co
  rcases hc with rfl | rfl <;> by_cases h : c
  · simp only [if_pos h]
    exact ⟨rfl, List.length_append⟩
  · simp only [if_neg h]
    exact ⟨rfl, List.length_append⟩
  · simp only [if_pos h]
    exact ⟨rfl, List.length_append⟩
  · simp only [if_neg h]
    exact ⟨rfl, List.length_append⟩

/-! ### The checks of operands (R285, R293, R294) -/

/-- An operand that neither check refuses. -/
def Env.operandOk (e : Env) (x : Dsc) (spaces : List Nat) (r : Rows) : Prop := x.misaligned r = false ∧ e.dscBad x spaces r = false

theorem Env.checkDscs_ok {e : Env} {a b : Dsc} {sa sb : List Nat} {ra rb : Rows} (ha : e.operandOk a sa ra) (hb : e.operandOk b sb rb)
    (k : Eff) : e.checkDscs a b sa sb ra rb k = k := by
  obtain ⟨ha1, ha2⟩ := ha
  obtain ⟨hb1, hb2⟩ := hb
  simp only [Env.checkDscs, ha1, ha2, hb1, hb2, Bool.false_eq_true, if_false]

theorem Env.gatherCheck_ok {e : Env} {a : Dsc} {ra : Rows} (h : ∀ x ∈ e.gatherIdx, x.toNat * a.stride ra + ra.len ≤ a.extent) (k : Eff) :
    e.gatherCheck a ra k = k := by
  have hnil : e.gatherIdx.filter (fun x => a.extent < x.toNat * a.stride ra + ra.len) = [] :=
    List.filter_eq_nil_iff.2 (fun x hx => by simpa using h x hx)
  simp only [Env.gatherCheck, hnil]

theorem Env.metaCheck_ok {e : Env} {kk : Nat} (h : ∀ r < 128, ∀ g < kk / 8, popByte (metaByte e.cReg r g) = 4) (k : Eff) :
    e.metaCheck kk k = k := by
  have hnone (r : Nat) (hr : r < 128) : (List.range (kk / 8)).find? (fun g => popByte (metaByte e.cReg r g) != 4) = none :=
    List.find?_eq_none.2 (fun g hg => by simp [h r hr g (List.mem_range.1 hg)])
  have hnil : (List.range 128).filterMap (fun r =>
      ((List.range (kk / 8)).find? (fun g => popByte (metaByte e.cReg r g) != 4)).map (fun g => (r, g))) = [] :=
    List.filterMap_eq_nil_iff.2 (fun r hr => by rw [hnone r (List.mem_range.1 hr)]; rfl)
  simp only [Env.metaCheck, hnil]

theorem Env.shapeG_of_loadTakes {e : Env} (h : e.loadTakes) : e.shapeG = false := by
  rcases h with hz | hlt
  · simp [Env.shapeG, hz]
  · simp [Env.shapeG, Nat.not_le.2 hlt]

/-! ### The three kinds of posts -/

/-- The operation that a matrix instruction posts, under a name. -/
def Env.matOp (e : Env) (gather sparse : Bool) (id : Nat) : MatOp :=
  { id := id, slot := e.slot, blk := e.co.blk, opc := e.cell.opc, fmt := e.matTy, tile := e.w.d.toNat,
    da := e.co.d e.w.a.toNat, db := e.co.d e.w.b.toNat, passes := e.w.passes, grp := e.w.grp,
    idx := if gather then e.gatherIdx else [],
    mdata := if sparse then (List.range (4 * cdiv e.matK 32)).flatMap (fun r => lanes32.map (e.cReg r)) else [],
    prio := e.blk.prio, age := e.blk.age }

def Env.cmprOp (e : Env) (id : Nat) : MatOp :=
  { id := id, slot := e.slot, blk := e.co.blk, opc := 0xEF, fmt := e.ty, tile := 0, da := e.co.d e.w.a.toNat,
    db := e.co.d e.w.b.toNat, passes := e.w.passes, rows := e.cmprRows, run := e.w.d.toNat, prio := e.blk.prio, age := e.blk.age }

def Env.vgaOp (e : Env) (s : State) (id : Nat) : VgaOp :=
  { id := id, slot := e.slot, blk := e.co.blk, vd := e.w.d.toNat, mask := e.act,
    da := e.co.d e.w.a.toNat, db := e.co.d e.w.b.toNat, window := Config.freeWord s.tick }

def Cluster.addMat (m : MatOp) (c : Cluster) : Cluster := { c with mat := c.mat ++ [m] }
def Cluster.addVga (v : VgaOp) (c : Cluster) : Cluster := { c with vga := c.vga ++ [v] }

/-- The cohort of a post that leaves registers to be written. -/
def Env.postsRun (e : Env) (cls id count : Nat) (co : Cohort) : Cohort :=
  if e.w.d.toNat = zv then co.ocPost cls id
  else { co.ocPost cls id with pending := { op := id, first := e.w.d.toNat, count := count } :: (co.ocPost cls id).pending }

theorem Env.mem_pending_postsRun {e : Env} (hz : e.w.d.toNat ≠ zv) (cls id count : Nat) (co : Cohort) :
    { op := id, first := e.w.d.toNat, count := count } ∈ (e.postsRun cls id count co).pending := by
  rw [Env.postsRun, if_neg hz]
  exact List.mem_cons_self

/-- A matrix instruction whose checks pass posts its operation. -/
theorem Env.matrix_posts {s : State} {i : Instr} {e : Env} (h : s.envFor i = some e) {gather sparse : Bool} (hf : e.full = true)
    (hgone : sparse = true ∨ gather = true → e.co.gone = 0) (hq : e.matTy = .q4a → e.matK % groupOf e.w.grp = 0)
    (ha : e.operandOk (Dsc.of (e.co.d e.w.a.toNat)) [1] (rowsA e.matTy e.matK sparse gather))
    (hb : e.operandOk (Dsc.of (e.co.d e.w.b.toNat)) [2] (rowsB e.matTy e.matK e.w.grp))
    (hidx : gather = true → ∀ x ∈ e.gatherIdx, x.toNat * (Dsc.of (e.co.d e.w.a.toNat)).stride (rowsA e.matTy e.matK sparse gather) +
      (rowsA e.matTy e.matK sparse gather).len ≤ (Dsc.of (e.co.d e.w.a.toNat)).extent)
    (hmeta : sparse = true → ∀ r < 128, ∀ g < e.matK / 8, popByte (metaByte e.cReg r g) = 4) (hc : e.co.ocCount 1 < 63)
    (hp : e.placeFree 1 (16 - (s.cluster (clusterOf e.core)).tableUse) = true) (hpay : e.canPay ((if sparse then 28 else 48) * e.w.passes)) :
    ∃ t, e.Paid t ∧ e.matrix gather sparse =
      .ok (e.posted t (Cluster.addMat (e.matOp gather sparse t.nextId)) (fun co => co.ocPost 1 t.nextId)) := by
  obtain ⟨t, ht, hk⟩ := Env.afterPaying_ready h (needs := [(.counter, e.co.ocCount 1 < 63)])
    (place := some { kind := .entry, cls := 1, free := 16 - (s.cluster (clusterOf e.core)).tableUse })
    (by simpa using hc) hpay (by rintro p ⟨⟩; exact hp)
  obtain ⟨rfl, -⟩ := envFor_facts h
  refine ⟨t, ht, ?_⟩
  have h1 : (!e.full || ((gather || sparse) && e.co.gone != 0)) = false := by
    cases gather <;> cases sparse <;> simp_all
  have h2 : (e.matTy == .q4a && e.matK % groupOf e.w.grp != 0) = false := by
    by_cases hm : e.matTy = .q4a
    · simp [hq hm]
    · simp [hm]
  rw [Env.matrix]
  simp only [h1, h2, Bool.false_eq_true, if_false, e.checkDscs_ok ha hb, hk]
  cases gather with
  | true => exact (if_pos rfl).trans (e.gatherCheck_ok (hidx rfl) _)
  | false =>
    cases sparse with
    | true => exact e.metaCheck_ok (hmeta rfl) _
    | false => rfl

/-- CMPR with its checks passed posts its operation. -/
theorem cmprBody_posts {s : State} {i : Instr} {e : Env} (h : s.envFor i = some e) (hf : e.full = true) (hgone : e.co.gone = 0)
    (ha : e.operandOk (Dsc.of (e.co.d e.w.a.toNat)) [1] { n := e.cmprRows, len := kTotal e.ty e.w.passes / 2 * elemBytes e.ty })
    (hb : e.operandOk (Dsc.of (e.co.d e.w.b.toNat)) [1, 2] { n := e.cmprRows, len := kTotal e.ty e.w.passes * elemBytes e.ty })
    (hc : e.co.ocCount 1 < 63) (hpay : e.canPay 8) :
    ∃ t, e.Paid t ∧ cmprBody e = .ok (e.posted t (Cluster.addMat (e.cmprOp t.nextId))
      (e.postsRun 1 t.nextId (4 * cdiv (kTotal e.ty e.w.passes) 32))) := by
  obtain ⟨t, ht, hk⟩ := Env.afterPaying_ready h (needs := [(.counter, e.co.ocCount 1 < 63)]) (place := none)
    (by simpa using hc) hpay (by rintro p ⟨⟩)
  refine ⟨t, ht, ?_⟩
  have h1 : (!e.full || e.co.gone != 0) = false := by simp [hf, hgone]
  simp only [cmprBody, h1, Bool.false_eq_true, if_false, e.checkDscs_ok ha hb, hk]
  rfl

/-- VGA with its checks passed posts its operation. -/
theorem vgaBody_posts {s : State} {i : Instr} {e : Env} (h : s.envFor i = some e) (hd : e.loadTakes)
    (hal : (Dsc.of (e.co.d e.w.a.toNat)).base % 4 = 0) (hbl : (Dsc.of (e.co.d e.w.b.toNat)).base % 4 = 0)
    (ha : e.dscBad (Dsc.of (e.co.d e.w.a.toNat)) [1, 2] { n := 1, len := (Dsc.of (e.co.d e.w.a.toNat)).extent } = false)
    (hb : e.dscBad (Dsc.of (e.co.d e.w.b.toNat)) [1, 2] { n := 1, len := (Dsc.of (e.co.d e.w.b.toNat)).extent } = false)
    (hax : (Dsc.of (e.co.d e.w.a.toNat)).extent ≤ 131072) (hbx : (Dsc.of (e.co.d e.w.b.toNat)).extent / 4 ≤ 65535)
    (hc : e.co.ocCount 2 < 63) (hp : e.placeFree 2 (32 - (s.cluster (clusterOf e.core)).vga.length) = true)
    (hpay : e.canPay (4 + cdiv (cdiv (Dsc.of (e.co.d e.w.a.toNat)).extent 4) 64)) :
    ∃ t, e.Paid t ∧ vgaBody e = .ok (e.posted t (Cluster.addVga (e.vgaOp t t.nextId)) (e.postsRun 2 t.nextId 1)) := by
  obtain ⟨t, ht, hk⟩ := Env.afterPaying_ready h (needs := [(.counter, e.co.ocCount 2 < 63)])
    (place := some { kind := .queue, cls := 2, free := 32 - (s.cluster (clusterOf e.core)).vga.length })
    (by simpa using hc) hpay (by rintro p ⟨⟩; exact hp)
  obtain ⟨rfl, -⟩ := envFor_facts h
  refine ⟨t, ht, ?_⟩
  simp only [vgaBody, Env.shapeG_of_loadTakes hd, hal, hbl, ha, hb, bne_self_eq_false, Bool.false_eq_true, if_false,
    Nat.not_lt.2 hax, Nat.not_lt.2 hbx, hk]
  rfl

/-- The matrix cells share one description. -/
theorem bodyOf_matrix {e : Env} (hc : e.cell ∈ [Cells.mmaE4m3, Cells.mmaE5m2, Cells.mmaI8, Cells.mmaBf16, Cells.mmaQ4a, Cells.mmag,
    Cells.mmas]) : bodyOf e.cell.opc e = e.matrix (e.cell == Cells.mmag) (e.cell == Cells.mmas) := by
  simp only [List.mem_cons, List.not_mem_nil, or_false] at hc
  rcases hc with hc | hc | hc | hc | hc | hc | hc <;> rw [hc] <;> rfl

/-- Settles O39: each kind posts one operation with its price paid, which changes its cohort's counter and its cluster's engine. -/
theorem engineOperationsArePosted : Obligations.EngineOperationsArePosted := by
  unfold Obligations.EngineOperationsArePosted
  intro s i e h
  have hexec := exec_passes h
  refine ⟨fun hc hf hgone hq ha hb hidx hmeta hcount hp hpay => ?_, fun hc hf hgone ha hb hcount hpay => ?_,
    fun hc hd hal hbl ha hb hax hbx hcount hp hpay => ?_⟩
  · obtain ⟨t, ht, hbody⟩ := Env.matrix_posts h.env hf hgone hq ha hb hidx hmeta hcount hp hpay
    rw [bodyOf_matrix hc, hbody, finish_ok] at hexec
    obtain ⟨ws, hposted, hcl, hblk⟩ := Env.posted_spec h.env ht
      (Cluster.addMat (e.matOp (e.cell == Cells.mmag) (e.cell == Cells.mmas) t.nextId)) (Cohort.postsOnly_ocPost_mat t.nextId)
    exact ⟨_, _, _, hexec, hposted, congrArg Cluster.mat hcl, rfl, rfl, rfl, rfl, rfl, rfl, rfl, rfl, rfl, rfl, hblk⟩
  · obtain ⟨t, ht, hbody⟩ := cmprBody_posts h.env hf hgone ha hb hcount hpay
    rw [hc, show bodyOf Cells.cmpr.opc = cmprBody from rfl, hbody, finish_ok] at hexec
    obtain ⟨ws, hposted, hcl, -⟩ := Env.posted_spec h.env ht (Cluster.addMat (e.cmprOp t.nextId))
      (Cohort.postsOnly_pending (.inl rfl) t.nextId (e.w.d.toNat = zv) _)
    exact ⟨_, _, _, hexec, hposted, congrArg Cluster.mat hcl, rfl, rfl, rfl, rfl, rfl, fun hz => Env.mem_pending_postsRun hz _ _ _ _⟩
  · obtain ⟨t, ht, hbody⟩ := vgaBody_posts h.env hd hal hbl ha hb hax hbx hcount hp hpay
    rw [hc, show bodyOf Cells.vga.opc = vgaBody from rfl, hbody, finish_ok] at hexec
    obtain ⟨ws, hposted, hcl, -⟩ := Env.posted_spec h.env ht (Cluster.addVga (e.vgaOp t t.nextId))
      (Cohort.postsOnly_pending (.inr rfl) t.nextId (e.w.d.toNat = zv) _)
    exact ⟨_, _, _, hexec, hposted, congrArg Cluster.vga hcl, rfl, rfl, rfl, rfl, rfl, fun hz => Env.mem_pending_postsRun hz _ _ _ _⟩

end Sys2Proof.Machine

/-! PROOFS. Regrouping (O43): arrival at a collective, the order of lanes and seats, a cohort after the lanes have moved, and the moves. -/

namespace Sys2Proof.Machine

/-! ### Sorting by a lexicographic key (R20, R33) -/

theorem insertLex_perm {α : Type} (key : α → List Nat) (x : α) (l : List α) : (insertLex key x l).Perm (x :: l) := by
  induction l with
  | nil => exact .refl _
  | cons y l ih =>
    rw [insertLex]
    split
    · exact .refl _
    · exact (ih.cons y).trans (.swap x y l)

theorem sortLex_perm {α : Type} (key : α → List Nat) (l : List α) : (sortLex key l).Perm l := by
  have hfold (l acc : List α) : (l.foldl (fun acc x => insertLex key x acc) acc).Perm (l ++ acc) := by
    induction l generalizing acc with
    | nil => exact .refl _
    | cons x l ih =>
      exact ((ih _).trans ((insertLex_perm key x acc).append_left l)).trans List.perm_middle
  simpa [sortLex] using hfold l []

theorem mem_sortLex {α : Type} (key : α → List Nat) {l : List α} {x : α} : x ∈ sortLex key l ↔ x ∈ l := (sortLex_perm key l).mem_iff

/-- The order of keys is that of `List Nat`. -/
theorem lexLt_iff (a b : List Nat) : lexLt a b = true ↔ a < b := by
  induction a generalizing b with
  | nil => cases b <;> simp [lexLt]
  | cons x a ih =>
    cases b with
    | nil => simp [lexLt]
    | cons y b => simp [lexLt, ih, List.cons_lt_cons_iff]

theorem insertLex_sorted {α : Type} (key : α → List Nat) (x : α) {l : List α} (h : l.Pairwise (fun x y => key x ≤ key y)) :
    (insertLex key x l).Pairwise (fun x y => key x ≤ key y) := by
  induction l with
  | nil => exact List.pairwise_singleton ..
  | cons y l ih =>
    obtain ⟨hy, hl⟩ := List.pairwise_cons.1 h
    rw [insertLex]
    split
    next hlt =>
      have hxy : key x ≤ key y := le_of_lt ((lexLt_iff _ _).1 hlt)
      refine List.pairwise_cons.2 ⟨fun z hz => ?_, h⟩
      rcases List.mem_cons.1 hz with rfl | hz
      · exact hxy
      · exact hxy.trans (hy z hz)
    next hlt =>
      have hyx : key y ≤ key x := not_lt.1 (fun hk => hlt ((lexLt_iff _ _).2 hk))
      refine List.pairwise_cons.2 ⟨fun z hz => ?_, ih hl⟩
      rcases List.mem_cons.1 ((insertLex_perm key x l).mem_iff.1 hz) with rfl | hz
      · exact hyx
      · exact hy z hz

theorem sortLex_sorted {α : Type} (key : α → List Nat) (l : List α) : (sortLex key l).Pairwise (fun x y => key x ≤ key y) := by
  have hfold (l acc : List α) (h : acc.Pairwise (fun x y => key x ≤ key y)) :
      (l.foldl (fun acc x => insertLex key x acc) acc).Pairwise (fun x y => key x ≤ key y) := by
    induction l generalizing acc with
    | nil => exact h
    | cons x l ih => exact ih _ (insertLex_sorted key x h)
  exact hfold l [] List.Pairwise.nil

theorem pair_le_pair {a b c d : Nat} (h : [a, b] ≤ [c, d]) : a < c ∨ a = c ∧ b ≤ d := by
  rcases h.lt_or_eq with h | h
  · simp only [List.cons_lt_cons_iff] at h
    rcases h with h | ⟨h, h' | ⟨-, h'⟩⟩
    · exact .inl h
    · exact .inr ⟨h, le_of_lt h'⟩
    · cases h'
  · obtain ⟨hac, hbd⟩ := List.cons.inj h
    exact .inr ⟨hac, (List.cons.inj hbd).1.le⟩

/-! ### Registers written one after another -/

theorem Cohort.v_foldl_setV (co : Cohort) (x : Nat → VVal) {n : Nat} (hn : n ≤ zv) (m : Nat) :
    ((List.range n).foldl (fun acc r => acc.setV r (x r)) co).v m = if m < n then x m else co.v m := by
  induction n with
  | zero => simp
  | succ n ih =>
    rw [List.range_succ, List.foldl_append, List.foldl_cons, List.foldl_nil, Cohort.v_setV _ (by omega), ih (by omega)]
    rcases Nat.lt_trichotomy m n with h | rfl | h
    · rw [if_neg (by omega), if_pos h, if_pos (by omega)]
    · rw [if_pos rfl, if_pos (by omega)]
    · rw [if_neg (by omega), if_neg (by omega), if_neg (by omega)]

theorem Cohort.foldl_setV_frame (co : Cohort) (x : Nat → VVal) (ns : List Nat) :
    ∃ vs, ns.foldl (fun acc r => acc.setV r (x r)) co = { co with vregs := vs } := by
  induction ns generalizing co with
  | nil => exact ⟨co.vregs, rfl⟩
  | cons r ns ih =>
    obtain ⟨vs, h⟩ := ih (co.setV r (x r))
    refine ⟨vs, h.trans ?_⟩
    rw [co.setV_frame]

theorem Cohort.p_setP_all (co : Cohort) {n : Nat} (h0 : n ≠ 0) (hz : n ≠ zv) (x : Mask) (m : Nat) :
    (co.setP n (BitVec.allOnes 32) x).p m = if m = n then x else co.p m := by
  rw [co.p_setP, BitVec.and_allOnes]
  refine if_congr (by simp [h0, hz]) ?_ rfl
  simp

theorem Cohort.p_foldl_setP (co : Cohort) (x : Nat → Mask) {n : Nat} (hn : n < zv) (m : Nat) :
    ((List.range n).foldl (fun acc i => acc.setP (i + 1) (BitVec.allOnes 32) (x (i + 1))) co).p m =
      if 1 ≤ m ∧ m ≤ n then x m else co.p m := by
  induction n with
  | zero => rw [if_neg (by omega)]; rfl
  | succ n ih =>
    rw [List.range_succ, List.foldl_append, List.foldl_cons, List.foldl_nil, Cohort.p_setP_all _ (by omega) (by omega), ih (by omega)]
    by_cases hm : m = n + 1
    · rw [if_pos hm, if_pos (by omega), hm]
    · rw [if_neg hm]
      exact if_congr (by omega) rfl rfl

theorem Cohort.foldl_setP_frame (co : Cohort) (x : Nat → Mask) (ns : List Nat) :
    ∃ ps, ns.foldl (fun acc i => acc.setP (i + 1) (BitVec.allOnes 32) (x (i + 1))) co = { co with preds := ps } := by
  induction ns generalizing co with
  | nil => exact ⟨co.preds, rfl⟩
  | cons r ns ih =>
    obtain ⟨ps, h⟩ := ih (co.setP (r + 1) (BitVec.allOnes 32) (x (r + 1)))
    refine ⟨ps, h.trans ?_⟩
    rw [co.setP_frame]

/-- A cohort with its general registers and P1 to P95 written. -/
@[irreducible] def Cohort.written (co : Cohort) (reg : Nat → VVal) (pred : Nat → Mask) : Cohort :=
  (List.range 95).foldl (fun acc i => acc.setP (i + 1) (BitVec.allOnes 32) (pred (i + 1)))
    ((List.range co.g).foldl (fun acc r => acc.setV r (reg r)) co)

theorem Cohort.written_frame (co : Cohort) (reg : Nat → VVal) (pred : Nat → Mask) :
    co.written reg pred = { co with vregs := (co.written reg pred).vregs, preds := (co.written reg pred).preds } := by
  rw [Cohort.written]
  obtain ⟨vs, hvs⟩ := co.foldl_setV_frame reg (List.range co.g)
  obtain ⟨ps, hps⟩ := Cohort.foldl_setP_frame { co with vregs := vs } pred (List.range 95)
  rw [hvs, hps]

theorem Cohort.v_of_vregs {a b : Cohort} (h : a.vregs = b.vregs) (n : Nat) : a.v n = b.v n := by rw [Cohort.v, Cohort.v, h]
theorem Cohort.p_of_preds {a b : Cohort} (h : a.preds = b.preds) (n : Nat) : a.p n = b.p n := by rw [Cohort.p, Cohort.p, h]

theorem Cohort.v_written (co : Cohort) (reg : Nat → VVal) (pred : Nat → Mask) (hg : co.g ≤ 256) (n : Nat) :
    (co.written reg pred).v n = if n < co.g then reg n else co.v n := by
  obtain ⟨ps, hps⟩ := Cohort.foldl_setP_frame ((List.range co.g).foldl (fun acc r => acc.setV r (reg r)) co) pred (List.range 95)
  rw [Cohort.written, hps]
  exact co.v_foldl_setV reg (le_trans hg (by decide)) n

theorem Cohort.p_written (co : Cohort) (reg : Nat → VVal) (pred : Nat → Mask) (n : Nat) :
    (co.written reg pred).p n = if 1 ≤ n ∧ n ≤ 95 then pred n else co.p n := by
  obtain ⟨vs, hvs⟩ := co.foldl_setV_frame reg (List.range co.g)
  rw [Cohort.written, Cohort.p_foldl_setP _ _ (by decide), hvs]
  rfl

/-! ### A cohort after the lanes have moved (R33) -/

/-- The lanes of a slot to which a lane moves. -/
def filledBy (moves : List (Seat × Seat)) (slot : Nat) : Mask := maskOf (fun l => (comesFrom moves slot l).isSome)

theorem getD_map_lanes {α : Type} (f : Nat → α) (d : α) {l : Nat} (hl : l < 32) : (lanes32.map f).getD l d = f l := by
  rw [lanes32, List.getD_eq_getElem?_getD, List.getElem?_map, List.getElem?_range hl]
  rfl

theorem has_filledBy (moves : List (Seat × Seat)) (slot : Nat) {l : Nat} (hl : l < 32) :
    (filledBy moves slot).has l = (comesFrom moves slot l).isSome := has_maskOf _ hl

section
variable (s : State) (moves : List (Seat × Seat)) (c : Collective) (slot : Nat) (co : Cohort)

/-- The lane that a moved cohort has at a place: the one that comes, or its own. -/
def State.movedLane (l : Nat) : Lane :=
  (comesFrom moves slot l).elim (co.lane l) (fun x => { s.laneOf x with pc := c.next, waitj := none })

/-- Of a register, lane by lane. -/
def State.movedReg (r : Nat) : VVal := VVal.ofFn (fun l =>
  ((lanes32.map (comesFrom moves slot)).getD l none).elim ((co.v r).at l) (fun x => s.regAt x r))

/-- Of a predicate, lane by lane. -/
def State.movedPred (n : Nat) : Mask := maskOf (fun l =>
  ((lanes32.map (comesFrom moves slot)).getD l none).elim ((co.p n).has l) (fun x => s.predAt x n))

/-- What a move makes of a cohort. -/
theorem State.regrouped_eq : ∃ hm hl, s.regrouped moves c slot co = { co.written (s.movedReg moves slot co) (s.movedPred moves slot co) with
    lanes := lanes32.map (s.movedLane moves c slot co), exited := ~~~ filledBy moves slot, absent := co.absent &&& ~~~ filledBy moves slot,
    vacant := filledBy moves slot = 0, hmode := hm, hlanes := hl, curMask := BitVec.allOnes 32, curCount := 0, elected := [],
    waits := [] } := by
  have hfill : maskOf (fun l => ((lanes32.map (comesFrom moves slot)).getD l none).isSome) = filledBy moves slot :=
    mask_ext (fun l hl => by rw [has_maskOf _ hl, has_filledBy _ _ hl, getD_map_lanes _ _ hl])
  have hlanes : lanes32.map (s.movedLane moves c slot co) = lanes32.map (fun l =>
      match (lanes32.map (comesFrom moves slot)).getD l none with
      | some x => { s.laneOf x with pc := c.next, waitj := none }
      | none => co.lane l) :=
    List.map_congr_left (fun l hl => by
      rw [getD_map_lanes _ _ (List.mem_range.1 hl), State.movedLane]
      cases comesFrom moves slot l <;> rfl)
  have hframe := co.written_frame (s.movedReg moves slot co) (s.movedPred moves slot co)
  rw [← hfill, hlanes, show co.absent = (co.written (s.movedReg moves slot co) (s.movedPred moves slot co)).absent by rw [hframe]]
  unfold State.regrouped
  dsimp only
  generalize hco : List.foldl _ _ (List.range 95) = co'
  have hco : co' = co.written (s.movedReg moves slot co) (s.movedPred moves slot co) := by
    rw [← hco, Cohort.written]
    congr
    · funext acc i
      rw [State.movedPred]
      congr
      funext l
      cases (lanes32.map (comesFrom moves slot)).getD l none <;> rfl
    · funext acc r
      rw [State.movedReg]
      congr
      funext l
      cases (lanes32.map (comesFrom moves slot)).getD l none <;> rfl
  rw [hco]
  exact ⟨_, _, rfl⟩

theorem State.lane_regrouped {l : Nat} (hl : l < 32) : (s.regrouped moves c slot co).lane l = s.movedLane moves c slot co l := by
  obtain ⟨hm, hh, heq⟩ := s.regrouped_eq moves c slot co
  rw [heq]
  exact getD_map_lanes _ _ hl

theorem State.live_regrouped : (s.regrouped moves c slot co).live = filledBy moves slot := by
  obtain ⟨hm, hh, heq⟩ := s.regrouped_eq moves c slot co
  rw [heq]
  refine mask_ext (fun l hl => ?_)
  simp only [Cohort.live, Cohort.gone, Mask.has_not _ hl, Mask.has_or, Mask.has_and]
  cases (filledBy moves slot).has l <;> simp

theorem State.registers_regrouped :
    (s.regrouped moves c slot co).vregs = (co.written (s.movedReg moves slot co) (s.movedPred moves slot co)).vregs ∧
      (s.regrouped moves c slot co).preds = (co.written (s.movedReg moves slot co) (s.movedPred moves slot co)).preds := by
  obtain ⟨hm, hh, heq⟩ := s.regrouped_eq moves c slot co
  generalize co.written _ _ = w at heq ⊢
  constructor <;> rw [heq]

theorem State.v_regrouped (hg : co.g ≤ 256) (n : Nat) :
    (s.regrouped moves c slot co).v n = if n < co.g then s.movedReg moves slot co n else co.v n :=
  (Cohort.v_of_vregs (s.registers_regrouped moves c slot co).1 n).trans (co.v_written _ _ hg n)

theorem State.p_regrouped (n : Nat) :
    (s.regrouped moves c slot co).p n = if 1 ≤ n ∧ n ≤ 95 then s.movedPred moves slot co n else co.p n :=
  (Cohort.p_of_preds (s.registers_regrouped moves c slot co).2 n).trans (co.p_written _ _ n)

theorem State.at_v_regrouped (hg : co.g ≤ 256) {r l : Nat} (hr : r < co.g) (hl : l < 32) {x : Seat} (hx : comesFrom moves slot l = some x) :
    ((s.regrouped moves c slot co).v r).at l = s.regAt x r := by
  rw [State.v_regrouped _ _ _ _ _ hg, if_pos hr, State.movedReg, VVal.at_ofFn _ hl, getD_map_lanes _ _ hl, hx]
  rfl

theorem State.has_p_regrouped {n l : Nat} (h1 : 1 ≤ n) (hn : n ≤ 95) (hl : l < 32) {x : Seat} (hx : comesFrom moves slot l = some x) :
    ((s.regrouped moves c slot co).p n).has l = s.predAt x n := by
  rw [State.p_regrouped, if_pos ⟨h1, hn⟩, State.movedPred, has_maskOf _ hl, getD_map_lanes _ _ hl, hx]
  rfl

/-- What stays with a cohort when the lanes move (R33). -/
theorem State.regrouped_kept :
    (s.regrouped moves c slot co).blk = co.blk ∧ (s.regrouped moves c slot co).cohid = co.cohid ∧
      (s.regrouped moves c slot co).joins = co.joins ∧ (s.regrouped moves c slot co).descs = co.descs ∧
      (s.regrouped moves c slot co).fpctl = co.fpctl ∧ (s.regrouped moves c slot co).g = co.g := by
  obtain ⟨hm, hh, heq⟩ := s.regrouped_eq moves c slot co
  rw [heq, co.written_frame]
  exact ⟨rfl, rfl, rfl, rfl, rfl, rfl⟩

end

end Sys2Proof.Machine

/-! PROOFS. REGROUP and REGROUP.RESTORE (O43): the positions of a block, the moves, and what they make of its cohorts. -/

namespace Sys2Proof.Machine

/-! ### The positions of a block in order (R33) -/

/-- The positions of a block's cohort `k`. -/
def State.seatsAt (s : State) (b : Block) (k : Nat) : List Seat :=
  ((b.slots.getD k none).bind (fun sl => (s.cohort sl).map (fun co => (sl, co)))).elim [] (fun p =>
    (lanes32.filter (fun l => p.2.slices.getLsbD (l / 8))).map (fun l => { slot := p.1, cohid := k, lane := l }))

theorem State.seats_eq (s : State) (b : Block) : s.seats b = (List.range b.slots.length).flatMap (s.seatsAt b) := by
  unfold State.seats
  congr
  funext k
  unfold State.seatsAt
  cases (b.slots.getD k none).bind _ <;> rfl

theorem State.seatsAt_of_slot {s : State} {b : Block} {k sl : Nat} {co : Cohort} (hsl : b.slots.getD k none = some sl)
    (hco : s.cohort sl = some co) :
    s.seatsAt b k = (lanes32.filter (fun l => co.slices.getLsbD (l / 8))).map (fun l => { slot := sl, cohid := k, lane := l }) := by
  rw [State.seatsAt, hsl, Option.bind_some, hco]
  rfl

theorem State.mem_seatsAt {s : State} {b : Block} {k : Nat} {x : Seat} :
    x ∈ s.seatsAt b k ↔ x.cohid = k ∧ b.slots.getD k none = some x.slot ∧
      ∃ co, s.cohort x.slot = some co ∧ x.lane < 32 ∧ co.slices.getLsbD (x.lane / 8) = true := by
  constructor
  · intro h
    unfold State.seatsAt at h
    cases hb : (b.slots.getD k none).bind (fun sl => (s.cohort sl).map (fun co => (sl, co))) with
    | none => rw [hb] at h; cases h
    | some p =>
      obtain ⟨sl, hsl, hp⟩ := Option.bind_eq_some_iff.1 hb
      obtain ⟨co, hco, rfl⟩ := Option.map_eq_some_iff.1 hp
      rw [hb] at h
      obtain ⟨l, hl, rfl⟩ := List.mem_map.1 h
      obtain ⟨hl, hslice⟩ := List.mem_filter.1 hl
      exact ⟨rfl, hsl, co, hco, List.mem_range.1 hl, hslice⟩
  · rintro ⟨rfl, hsl, co, hco, hl, hslice⟩
    rw [State.seatsAt_of_slot hsl hco]
    exact List.mem_map.2 ⟨x.lane, List.mem_filter.2 ⟨List.mem_range.2 hl, hslice⟩, rfl⟩

/-- The order of positions: by COHID and then by LANEID. -/
def Seat.Before (x y : Seat) : Prop := x.cohid < y.cohid ∨ (x.cohid = y.cohid ∧ x.lane < y.lane)

theorem State.seatsAt_sorted (s : State) (b : Block) (k : Nat) : (s.seatsAt b k).Pairwise Seat.Before := by
  unfold State.seatsAt
  cases (b.slots.getD k none).bind _ with
  | none => exact List.Pairwise.nil
  | some p =>
    refine List.pairwise_map.2 ((List.Pairwise.filter _ List.pairwise_lt_range).imp (fun h => .inr ⟨rfl, h⟩))

theorem State.seats_sorted (s : State) (b : Block) : (s.seats b).Pairwise Seat.Before := by
  rw [s.seats_eq, List.pairwise_flatMap]
  refine ⟨fun k _ => s.seatsAt_sorted b k, List.pairwise_lt_range.imp (fun hlt x hx y hy => .inl ?_)⟩
  rwa [(State.mem_seatsAt.1 hx).1, (State.mem_seatsAt.1 hy).1]

theorem Seat.Before.ne {x y : Seat} (h : x.Before y) : x ≠ y := by
  rintro rfl
  rcases h with h | ⟨-, h⟩ <;> exact lt_irrefl _ h

theorem State.seats_nodup (s : State) (b : Block) : (s.seats b).Nodup := (s.seats_sorted b).imp Seat.Before.ne

section
variable {s : State} {bi : Nat} {b : Block} (hok : s.BlockOk bi b)
include hok

theorem State.BlockOk.mem_seats {x : Seat} :
    x ∈ s.seats b ↔ x.lane < 32 ∧ ∃ co, s.cohort x.slot = some co ∧ co.blk = bi ∧ co.cohid = x.cohid ∧
      co.slices.getLsbD (x.lane / 8) = true := by
  rw [s.seats_eq, List.mem_flatMap]
  constructor
  · rintro ⟨k, -, hx⟩
    obtain ⟨rfl, hsl, co, hco, hl, hslice⟩ := State.mem_seatsAt.1 hx
    obtain ⟨co', hco', hblk, hid⟩ := hok.seated _ _ hsl
    obtain rfl := Option.some.inj (hco.symm.trans hco')
    exact ⟨hl, co, hco, hblk, hid, hslice⟩
  · rintro ⟨hl, co, hco, hblk, hid, hslice⟩
    have hsl := hok.listed _ _ hco hblk
    rw [hid] at hsl
    refine ⟨x.cohid, List.mem_range.2 ?_, State.mem_seatsAt.2 ⟨rfl, hsl, co, hco, hl, hslice⟩⟩
    by_contra hlt
    rw [List.getD_eq_default _ _ (Nat.le_of_not_lt hlt)] at hsl
    cases hsl

/-- A position's slot tells its COHID. -/
theorem State.BlockOk.seat_ext {x y : Seat} (hx : x ∈ s.seats b) (hy : y ∈ s.seats b) (hs : x.slot = y.slot) (hl : x.lane = y.lane) :
    x = y := by
  obtain ⟨-, co, hco, -, hid, -⟩ := hok.mem_seats.1 hx
  obtain ⟨-, co', hco', -, hid', -⟩ := hok.mem_seats.1 hy
  rw [hs] at hco
  obtain rfl := Option.some.inj (hco.symm.trans hco')
  cases x; cases y
  simp_all

theorem State.BlockOk.mem_occupied {x : Seat} : x ∈ (s.seats b).filter s.occupied ↔ s.LivesAt bi x := by
  rw [List.mem_filter, hok.mem_seats]
  constructor
  · rintro ⟨⟨hl, co, hco, hblk, hid, -⟩, hocc⟩
    rw [State.occupied, hco] at hocc
    exact ⟨co, hco, hblk, hid, hl, hocc⟩
  · rintro ⟨co, hco, hblk, hid, hl, hlive⟩
    refine ⟨⟨hl, co, hco, hblk, hid, ((hok.shape _ _ hco hblk).2.2 _ hl).2 hlive⟩, ?_⟩
    rw [State.occupied, hco]
    exact hlive

end

/-! ### A part after a move (R33, R34) -/

/-- The part after the lanes of a block have moved; `f` is what is made of a moved cohort afterwards. -/
def State.afterMove (s : State) (bi : Nat) (b' : Block) (moves : List (Seat × Seat)) (c : Collective) (f : Cohort → Cohort) : State :=
  { s with cohorts := s.cohorts.mapVals (fun k co => if co.blk = bi then f (s.regrouped moves c k co) else co),
           blocks := s.blocks.put bi b' }

/-- Moves within a block: from living lanes to positions of cohorts of the block, no two of them to one position. -/
structure State.MovesOk (s : State) (bi : Nat) (moves : List (Seat × Seat)) : Prop where
  froms : ∀ m ∈ moves, s.LivesAt bi m.2
  alone : ∀ m ∈ moves, ∀ m' ∈ moves, m.1.slot = m'.1.slot → m.1.lane = m'.1.lane → m = m'

theorem State.MovesOk.source {s : State} {bi : Nat} {moves : List (Seat × Seat)} (h : s.MovesOk bi moves) {m : Seat × Seat}
    (hm : m ∈ moves) : comesFrom moves m.1.slot m.1.lane = some m.2 := by
  unfold comesFrom
  cases hf : moves.find? (fun m' => m'.1.slot == m.1.slot && m'.1.lane == m.1.lane) with
  | none =>
    have := List.find?_eq_none.1 hf m hm
    simp at this
  | some m' =>
    have hp := List.find?_some hf
    simp only [Bool.and_eq_true, beq_iff_eq] at hp
    rw [h.alone m' (List.mem_of_find?_eq_some hf) m hm hp.1 hp.2]
    rfl

theorem exists_of_comesFrom {moves : List (Seat × Seat)} {slot l : Nat} {x : Seat} (h : comesFrom moves slot l = some x) :
    ∃ m ∈ moves, m.1.slot = slot ∧ m.1.lane = l ∧ m.2 = x := by
  obtain ⟨m, hm, rfl⟩ := Option.map_eq_some_iff.1 h
  have hp := List.find?_some hm
  simp only [Bool.and_eq_true, beq_iff_eq] at hp
  exact ⟨m, List.mem_of_find?_eq_some hm, hp.1, hp.2, rfl⟩

section
variable {s : State} {bi : Nat} {b b' : Block} {moves : List (Seat × Seat)} {c : Collective} {f : Cohort → Cohort}

/-- The cohort of a slot after a move, whichever block it is of. -/
theorem State.cohort_afterMove_eq (k : Nat) : (s.afterMove bi b' moves c f).cohort k =
    (s.cohort k).map (fun co => if co.blk = bi then f (s.regrouped moves c k co) else co) :=
  SMap.look_mapVals s.cohorts (fun k co => if co.blk = bi then f (s.regrouped moves c k co) else co) k

theorem State.cohort_afterMove_other {k : Nat} {co : Cohort} (hco : s.cohort k = some co) (hblk : co.blk ≠ bi) :
    (s.afterMove bi b' moves c f).cohort k = some co := by
  rw [State.cohort_afterMove_eq, hco, Option.map_some, if_neg hblk]

theorem State.cohort_afterMove_here {k : Nat} {co : Cohort} (hco : s.cohort k = some co) (hblk : co.blk = bi) :
    (s.afterMove bi b' moves c f).cohort k = some (f (s.regrouped moves c k co)) := by
  rw [State.cohort_afterMove_eq, hco, Option.map_some, if_pos hblk]

theorem State.block_afterMove (k : Nat) : (s.afterMove bi b' moves c f).block k = if k = bi then some b' else s.block k :=
  SMap.look_put ..

/-- What is made of a moved cohort afterwards leaves it but for its slices and the mark of vacancy. -/
def Cohort.Slicing (f : Cohort → Cohort) : Prop := ∀ co, f co = { co with slices := (f co).slices, vacant := (f co).vacant }

theorem Cohort.Slicing.eqs (hf : Cohort.Slicing f) (x : Cohort) : (f x).live = x.live ∧ (∀ l, (f x).lane l = x.lane l) ∧
    (∀ n, (f x).v n = x.v n) ∧ (∀ n, (f x).p n = x.p n) ∧ (f x).blk = x.blk ∧ (f x).cohid = x.cohid ∧ (f x).joins = x.joins ∧
    (f x).descs = x.descs ∧ (f x).fpctl = x.fpctl ∧ (f x).g = x.g := by
  rw [hf x]
  exact ⟨rfl, fun _ => rfl, fun _ => rfl, fun _ => rfl, rfl, rfl, rfl, rfl, rfl, rfl⟩

theorem State.cohort_afterMove {k : Nat} {co' : Cohort} (hco' : (s.afterMove bi b' moves c f).cohort k = some co') (hblk : co'.blk = bi) :
    ∃ co, s.cohort k = some co ∧ co.blk = bi ∧ co' = f (s.regrouped moves c k co) := by
  cases hco : s.cohort k with
  | none =>
    rw [State.cohort_afterMove_eq, hco] at hco'
    cases hco'
  | some co =>
    by_cases h : co.blk = bi
    · exact ⟨co, rfl, h, Option.some.inj (hco'.symm.trans (State.cohort_afterMove_here hco h))⟩
    · obtain rfl := Option.some.inj (hco'.symm.trans (State.cohort_afterMove_other hco h))
      exact absurd hblk h

variable (hf : Cohort.Slicing f)
include hf

theorem State.live_moved (k : Nat) (co : Cohort) : (f (s.regrouped moves c k co)).live = filledBy moves k :=
  (hf.eqs _).1.trans (s.live_regrouped moves c k co)

theorem State.lane_moved (k : Nat) (co : Cohort) {l : Nat} (hl : l < 32) :
    (f (s.regrouped moves c k co)).lane l = s.movedLane moves c k co l :=
  ((hf.eqs _).2.1 l).trans (s.lane_regrouped moves c k co hl)

/-- What stays with a cohort of the block. -/
theorem State.kept_moved (k : Nat) {co : Cohort} (hg : co.g ≤ 256) : ∃ co', f (s.regrouped moves c k co) = co' ∧
    co'.blk = co.blk ∧ co'.cohid = co.cohid ∧ co'.joins = co.joins ∧ co'.descs = co.descs ∧ co'.fpctl = co.fpctl ∧ co'.g = co.g ∧
    ∀ n, 256 ≤ n → co'.v n = co.v n := by
  obtain ⟨-, -, hv, -, hblk, hid, hj, hd, hp, hgf⟩ := hf.eqs (s.regrouped moves c k co)
  obtain ⟨kblk, kid, kj, kd, kp, kg⟩ := s.regrouped_kept moves c k co
  refine ⟨_, rfl, hblk.trans kblk, hid.trans kid, hj.trans kj, hd.trans kd, hp.trans kp, hgf.trans kg, fun n hn => (hv n).trans ?_⟩
  rw [State.v_regrouped _ _ _ _ _ hg, if_neg (by omega)]

/-- The lane of a move, at its new position. -/
theorem State.MovesOk.moved (hok : s.BlockOk bi b) (hm : s.MovesOk bi moves) {m : Seat × Seat} (h : m ∈ moves) (hl : m.1.lane < 32)
    {co : Cohort} (hco : s.cohort m.1.slot = some co) (hblk : co.blk = bi) :
    s.Moved (s.afterMove bi b' moves c f) m.2 c.next m.1.slot m.1.lane := by
  have hfrom := hm.source h
  obtain ⟨-, hg, -⟩ := hok.shape _ _ hco hblk
  obtain ⟨-, -, hv, hp, -, -, -, -, -, hgf⟩ := hf.eqs (s.regrouped moves c m.1.slot co)
  obtain ⟨-, -, -, -, -, kg⟩ := s.regrouped_kept moves c m.1.slot co
  refine ⟨_, State.cohort_afterMove_here hco hblk, ?_, ?_, fun r hr => ?_, fun n h1 hn => ?_⟩
  · rw [State.live_moved hf, has_filledBy _ _ hl, hfrom]
    rfl
  · rw [State.lane_moved hf _ _ hl, State.movedLane, hfrom]
    rfl
  · rw [hv]
    exact s.at_v_regrouped moves c _ co hg (hr.trans_eq (hgf.trans kg)) hl hfrom
  · rw [hp]
    exact s.has_p_regrouped moves c _ co h1 hn hl hfrom

/-- A lane lives after a move where one has moved to. -/
theorem State.live_afterMove (hm : s.MovesOk bi moves) {k : Nat} {co : Cohort}
    (hco : (s.afterMove bi b' moves c f).cohort k = some co) (hblk : co.blk = bi) {l : Nat} (hl : l < 32) :
    co.live.has l = true ↔ ∃ m ∈ moves, m.1.slot = k ∧ m.1.lane = l := by
  obtain ⟨co, -, -, rfl⟩ := State.cohort_afterMove hco hblk
  rw [State.live_moved hf, has_filledBy _ _ hl, Option.isSome_iff_exists]
  constructor
  · rintro ⟨x, hx⟩
    obtain ⟨m, hmem, hs, hlane, -⟩ := exists_of_comesFrom hx
    exact ⟨m, hmem, hs, hlane⟩
  · rintro ⟨m, hmem, rfl, rfl⟩
    exact ⟨m.2, hm.source hmem⟩

end

end Sys2Proof.Machine

/-! PROOFS. REGROUP and REGROUP.RESTORE (O43): the arrival of a cohort, the two moves, and one cohort through both steps. -/

namespace Sys2Proof.Machine

/-! ### What a move leaves (R33) -/

section
variable {s : State} {bi : Nat} {b b' : Block} {moves : List (Seat × Seat)} {c : Collective} {f : Cohort → Cohort}

theorem State.LivesAt.depth_le (hok : s.BlockOk bi b) {x : Seat} (h : s.LivesAt bi x) : (s.laneOf x).depth ≤ 8 := by
  obtain ⟨co, hco, hblk, -, hl, -⟩ := h
  rw [State.laneOf, hco]
  exact ((hok.shape _ _ hco hblk).2.2 _ hl).1

/-- A move touches no meet extension: no lane of the block has deep entries. -/
theorem State.BlockOk.extAccesses_eq (hok : s.BlockOk bi b) (hm : ∀ m ∈ moves, s.LivesAt bi m.2) (hf : Cohort.Slicing f) :
    (s.afterMove bi b' moves c f).extAccesses (s.blockCohorts bi) = s.afterMove bi b' moves c f := by
  refine State.extAccesses_shallow (fun p hp => ?_)
  obtain ⟨hmem, hblk⟩ := List.mem_filter.1 hp
  have hblk := beq_iff_eq.1 hblk
  have hco : s.cohort p.1 = some p.2 := SMap.look_of_mem hok.keys hmem
  have hshape := (hok.shape _ _ hco hblk).2.2
  refine ⟨fun co hco' l hl => ?_, fun l hl => (hshape l hl).1⟩
  obtain rfl := Option.some.inj (hco'.symm.trans (State.cohort_afterMove_here hco hblk))
  rw [State.lane_moved hf _ _ hl, State.movedLane]
  cases hx : comesFrom moves p.1 l with
  | none => exact (hshape l hl).1
  | some x =>
    obtain ⟨m, hmem, -, -, rfl⟩ := exists_of_comesFrom hx
    exact (hm m hmem).depth_le hok

theorem State.BlockOk.moveFrame (hok : s.BlockOk bi b) (hf : Cohort.Slicing f) (hb' : b' = { b with coll := none, table := b'.table }) :
    s.MoveFrame (s.afterMove bi b' moves c f) bi b b' where
  block := ⟨(State.block_afterMove bi).trans (if_pos rfl), hb'⟩
  blocks k hk := (State.block_afterMove k).trans (if_neg hk)
  rest := rfl
  others k co hco hblk := State.cohort_afterMove_other hco hblk
  kept k co hco hblk := by
    obtain ⟨co', hco', hblk', hkept⟩ := State.kept_moved hf (s := s) (moves := moves) (c := c) k (hok.shape _ _ hco hblk).2.1
    exact ⟨co', (State.cohort_afterMove_here hco hblk).trans (congrArg some hco'), hblk'.trans hblk, hkept⟩

/-- After a move every living lane of the block stands at the instruction after the collective. -/
theorem State.pc_afterMove (hf : Cohort.Slicing f) {k : Nat} {co : Cohort}
    (hco : (s.afterMove bi b' moves c f).cohort k = some co) (hblk : co.blk = bi) {l : Nat} (hl : l < 32) (hlive : co.live.has l = true) :
    (co.lane l).pc = c.next := by
  obtain ⟨co, -, -, rfl⟩ := State.cohort_afterMove hco hblk
  rw [State.live_moved hf, has_filledBy _ _ hl, Option.isSome_iff_exists] at hlive
  obtain ⟨x, hx⟩ := hlive
  rw [State.lane_moved hf _ _ hl, State.movedLane, hx]
  rfl

end

/-! ### REGROUP's move (R33) -/

theorem map_fst_zip_eq_take {α β : Type} (l : List α) (l' : List β) : (l.zip l').map Prod.fst = l.take (l.zip l').length := by
  induction l generalizing l' with
  | nil => rfl
  | cons a l ih =>
    cases l' with
    | nil => rfl
    | cons b l' => simpa using ih l'

section
variable {s : State} {bi : Nat} {b : Block} {c : Collective}

theorem State.regroupMoves_fst (s : State) (b : Block) (c : Collective) :
    (s.regroupMoves b c).map Prod.fst = (s.seats b).take (s.regroupMoves b c).length := map_fst_zip_eq_take _ _

/-- The key by which the lanes of a REGROUP are ordered. -/
def State.regroupKey (s : State) (c : Collective) (x : Seat) : List Nat := [(s.regAt x c.key).toNat, (s.laneOf x).tid]

theorem State.regroupMoves_snd (s : State) (b : Block) (c : Collective) :
    (s.regroupMoves b c).map Prod.snd = sortLex (s.regroupKey c) ((s.seats b).filter s.occupied) := by
  refine List.map_snd_zip ?_
  rw [(sortLex_perm _ _).length_eq]
  exact List.length_filter_le ..

theorem State.BlockOk.mem_regroupMoves_snd (hok : s.BlockOk bi b) {x : Seat} :
    x ∈ (s.regroupMoves b c).map Prod.snd ↔ s.LivesAt bi x := by
  rw [s.regroupMoves_snd, mem_sortLex, hok.mem_occupied]

theorem State.mem_seats_of_regroupMoves {m : Seat × Seat} (h : m ∈ s.regroupMoves b c) : m.1 ∈ s.seats b := (List.of_mem_zip h).1

theorem State.BlockOk.regroupMoves_ok (hok : s.BlockOk bi b) : s.MovesOk bi (s.regroupMoves b c) where
  froms m hm := hok.mem_regroupMoves_snd.1 (List.mem_map_of_mem hm)
  alone m hm m' hm' hs hl := by
    have hnodup : ((s.regroupMoves b c).map Prod.fst).Nodup := by
      rw [s.regroupMoves_fst]
      exact (s.seats_nodup b).sublist (List.take_sublist ..)
    exact List.inj_on_of_nodup_map hnodup hm hm'
      (hok.seat_ext (State.mem_seats_of_regroupMoves hm) (State.mem_seats_of_regroupMoves hm') hs hl)

theorem State.execRegroupMove_eq (hc : s.collReady bi false = some (b, c)) (hok : s.BlockOk bi b) :
    exec (.regroupMove bi) s = .next (s.afterMove bi
      { b with coll := none, table := some (s.regroupTable b (s.regroupMoves b c)) } (s.regroupMoves b c) c id) := by
  rw [← hok.extAccesses_eq hok.regroupMoves_ok.froms (f := id) (fun _ => rfl)]
  show execRegroupMove bi s = _
  rw [execRegroupMove, hc]
  rfl

/-- The table of a REGROUP finds each lane where it went, by its TID. -/
theorem State.getD_regroupTable {moves : List (Seat × Seat)} (hn : (moves.map (fun m => (s.laneOf m.2).tid)).Nodup) {m : Seat × Seat}
    (hm : m ∈ moves) (hlt : (s.laneOf m.2).tid < b.nlanes) :
    (s.regroupTable b moves).getD (s.laneOf m.2).tid 0 = 32 * m.1.cohid + m.1.lane := by
  have hfind : moves.find? (fun m' => (s.laneOf m'.2).tid == (s.laneOf m.2).tid) = some m := by
    cases hf : moves.find? (fun m' => (s.laneOf m'.2).tid == (s.laneOf m.2).tid) with
    | none => simpa using List.find?_eq_none.1 hf m hm
    | some m' =>
      have hp := List.find?_some hf
      exact congrArg some (List.inj_on_of_nodup_map hn (List.mem_of_find?_eq_some hf) hm (beq_iff_eq.1 hp))
  rw [State.regroupTable, List.getD_eq_getElem?_getD, List.getElem?_map, List.getElem?_range hlt, Option.map_some, Option.getD_some,
    hfind, Nat.mul_comm]

end

/-! ### REGROUP.RESTORE's move (R34) -/

section
variable {s : State} {bi : Nat} {b : Block} {c : Collective}

theorem State.BlockOk.mem_restoreMoves (hok : s.BlockOk bi b) {m : Seat × Seat} : m ∈ s.restoreMoves b ↔
    s.LivesAt bi m.2 ∧ ∃ sl, b.slots.getD ((s.laneOf m.2).tid / 32) none = some sl ∧
      m.1 = { slot := sl, cohid := (s.laneOf m.2).tid / 32, lane := (s.laneOf m.2).tid % 32 } := by
  rw [State.restoreMoves, List.mem_filterMap]
  constructor
  · rintro ⟨x, hx, hm⟩
    obtain ⟨sl, hsl, rfl⟩ := Option.map_eq_some_iff.1 hm
    exact ⟨hok.mem_occupied.1 hx, sl, hsl, rfl⟩
  · rintro ⟨hx, sl, hsl, hm⟩
    refine ⟨m.2, hok.mem_occupied.2 hx, ?_⟩
    dsimp only
    rw [hsl, Option.map_some, ← hm]

theorem State.BlockOk.restoreMoves_ok (hok : s.BlockOk bi b)
    (hinj : ∀ x y, s.LivesAt bi x → s.LivesAt bi y → (s.laneOf x).tid = (s.laneOf y).tid → x = y) : s.MovesOk bi (s.restoreMoves b) where
  froms m hm := (hok.mem_restoreMoves.1 hm).1
  alone m hm m' hm' hs hl := by
    obtain ⟨hx, sl, hsl, hm⟩ := hok.mem_restoreMoves.1 hm
    obtain ⟨hx', sl', hsl', hm'⟩ := hok.mem_restoreMoves.1 hm'
    rw [hm, hm'] at hs hl
    obtain rfl : sl = sl' := hs
    obtain ⟨co, hco, -, hid⟩ := hok.seated _ _ hsl
    obtain ⟨co', hco', -, hid'⟩ := hok.seated _ _ hsl'
    obtain rfl := Option.some.inj (hco.symm.trans hco')
    have htid : (s.laneOf m.2).tid = (s.laneOf m'.2).tid := by
      have hl : (s.laneOf m.2).tid % 32 = (s.laneOf m'.2).tid % 32 := hl
      omega
    have h2 := hinj _ _ hx hx' htid
    exact Prod.ext (by rw [hm, hm', h2]) h2

/-- What is made of a cohort whose lanes have gone home. -/
def Cohort.settled (co : Cohort) : Cohort := { co.freeSlices false with vacant := false }

theorem Cohort.slicing_settled : Cohort.Slicing Cohort.settled := fun _ => rfl

theorem State.execRegroupRestoreMove_eq (hc : s.collReady bi true = some (b, c)) (hok : s.BlockOk bi b) :
    exec (.regroupRestoreMove bi) s = .next (s.afterMove bi { b with coll := none, table := none } (s.restoreMoves b) c
      Cohort.settled) := by
  rw [← hok.extAccesses_eq (fun m hm => (hok.mem_restoreMoves.1 hm).1) Cohort.slicing_settled]
  show execRegroupRestoreMove bi s = _
  rw [execRegroupRestoreMove, hc]
  rfl

end

/-! ### A cohort arrives at a collective (R32) -/

/-- The checks of R32 that fail. -/
def Env.CollectiveBad (e : Env) : Prop :=
  e.full = false ∨ (∃ l < 32, e.co.live.has l = true ∧ (e.co.lane l).depth ≠ 0) ∨ ∃ n < 8, (e.co.j n).1 ≠ 0

theorem Env.regroupBad_iff (e : Env) : e.regroupBad = true ↔ e.CollectiveBad := by
  simp only [Env.regroupBad, Env.CollectiveBad, Bool.or_eq_true, Bool.not_eq_true', List.any_eq_true, mem_maskLanes, bne_iff_ne,
    List.mem_range, or_assoc, and_assoc]

/-- The instruction is a collective: a REGROUP, or a RESTORE while a regrouping is in effect. -/
def Env.Collective (e : Env) : Prop := e.cell = Cells.regroup ∨ e.blk.table.isSome = true

/-- The collective that a cohort starts. -/
def Env.newCollective (e : Env) (restore : Bool) : Machine.Collective :=
  { restore := restore, offset := e.pc, next := e.next, key := e.w.a.toNat, g := e.co.g, arrived := [] }

/-- The collective that a cohort arrives at: the one under way, or its own. -/
def Env.atCollective (e : Env) (restore : Bool) : Machine.Collective := (e.blk.coll).getD (e.newCollective restore)

/-- The block once a cohort has arrived. -/
def Env.arrivedBlock (e : Env) (c : Machine.Collective) : Block :=
  if e.co.cohid ∈ c.arrived then e.blk else { e.blk with coll := some { c with arrived := c.arrived ++ [e.co.cohid] } }

theorem regroupLike_illegal {e : Env} {restore : Bool}
    (h : (e.atCollective restore).offset ≠ e.pc ∨ e.CollectiveBad ∨ (e.atCollective restore).g ≠ e.co.g) :
    regroupLike e restore = e.trap cIllegal := by
  refine if_pos ?_
  rw [← e.regroupBad_iff] at h
  simp only [Bool.or_eq_true, bne_iff_ne, or_assoc]
  exact h

theorem regroupLike_legal {e : Env} {restore : Bool} (hb : ¬ e.CollectiveBad) (ho : (e.atCollective restore).offset = e.pc)
    (hg : (e.atCollective restore).g = e.co.g) : regroupLike e restore =
      if e.co.cohid ∈ (e.atCollective restore).arrived then .wait .collective 0 0
      else .hold (e.s.setBlock e.co.blk (e.arrivedBlock (e.atCollective restore))) .collective := by
  refine (if_neg ?_).trans ?_
  · rw [← e.regroupBad_iff] at hb
    simp only [Bool.or_eq_true, bne_iff_ne, not_or, not_not]
    exact ⟨⟨ho, hb⟩, hg⟩
  · by_cases ha : e.co.cohid ∈ (e.atCollective restore).arrived
    · rw [if_pos ha]
      exact if_pos (List.contains_iff_mem.2 ha)
    · rw [if_neg ha, Env.arrivedBlock, if_neg ha]
      exact if_neg (fun h => ha (List.contains_iff_mem.1 h))

/-- A wait that has been recorded stands at its instruction with its kind. -/
theorem Cohort.waitAt_recordWait (co : Cohort) (r : WaitRec) : ∃ r', (co.recordWait r).waitAt r.pc = some r' ∧ r'.kind = r.kind := by
  unfold Cohort.recordWait
  cases hw : co.waitAt r.pc with
  | none =>
    refine ⟨r, ?_, rfl⟩
    rw [Cohort.waitAt, List.find?_append, show co.waits.find? (fun x => x.pc == r.pc) = none from hw]
    simp
  | some old =>
    have hold : (old.pc == r.pc) = true := List.find?_some (p := fun x : WaitRec => x.pc == r.pc) hw
    have hmem : old ∈ co.waits := List.mem_of_find?_eq_some hw
    cases hf : List.find? (fun x => x.pc == r.pc) (co.waits.map (fun x => if x.pc == r.pc then
        { old with kind := r.kind, need := r.need, cls := r.cls, placed := if old.placed.isSome then old.placed else r.placed }
        else x)) with
    | none =>
      have := List.find?_eq_none.1 hf _ (List.mem_map_of_mem hmem)
      simp [hold] at this
    | some y =>
      refine ⟨y, hf, ?_⟩
      obtain ⟨x, -, hx⟩ := List.mem_map.1 (List.mem_of_find?_eq_some hf)
      have hy : (y.pc == r.pc) = true := List.find?_some (p := fun x : WaitRec => x.pc == r.pc) hf
      cases hpc : x.pc == r.pc with
      | true =>
        rw [hpc, if_pos rfl] at hx
        rw [← hx]
      | false =>
        rw [hpc, if_neg Bool.false_ne_true] at hx
        rw [hx, hy] at hpc
        cases hpc

/-- A cohort has arrived and is held; its block is now `b`. -/
structure Env.Holds (e : Env) (t : State) (co : Cohort) (b : Block) : Prop where
  waited : t.cur.waited = true
  here : t.cohort e.slot = some co
  frame : co = { e.co with waits := co.waits }
  wait : ∃ r, co.waitAt e.pc = some r ∧ r.kind = .collective
  others : ∀ k, k ≠ e.slot → t.cohort k = e.s.cohort k
  block : t.block e.co.blk = some b
  blocks : ∀ k, k ≠ e.co.blk → t.block k = e.s.block k
  rest : { t with cohorts := e.s.cohorts, blocks := e.s.blocks, cur := e.s.cur, nextId := e.s.nextId } = e.s
  keys : e.s.cohorts.wf = true → t.cohorts.wf = true

theorem Env.holds_waiting {e : Env} (hco : e.s.cohort e.slot = some e.co) {bs : SMap Block} {b : Block}
    (hb : bs.look e.co.blk = some b) (hbs : ∀ k, k ≠ e.co.blk → bs.look k = e.s.block k) :
    ∃ co, e.Holds (e.waiting { e.s with blocks := bs } .collective 0 0) co b := by
  obtain ⟨hw, hhere, hothers, -⟩ := e.waiting_spec (t := { e.s with blocks := bs }) hco .collective 0 0
  exact ⟨_, hw, hhere, Cohort.recordWait_frame .., e.co.waitAt_recordWait (e.newWait { e.s with blocks := bs } .collective 0 0),
    hothers, hb, hbs, rfl, SMap.wf_upd _ _ _⟩

section
variable {s : State} {i : Instr} {e : Env} (h : s.Passes i e) (hc : e.cell ∈ [Cells.regroup, Cells.regroupRestore])
include h hc

theorem exec_collective (hcol : e.Collective) :
    exec i s = .next (finish e (regroupLike e (decide (e.cell = Cells.regroupRestore)))) := by
  rw [exec_passes h]
  simp only [List.mem_cons, List.not_mem_nil, or_false] at hc
  rcases hc with hc | hc
  · rw [hc]
    rfl
  · have ht : e.blk.table.isNone = false := by
      rcases hcol with hr | ht
      · exact absurd (hr.symm.trans hc) (by decide)
      · rw [Option.isNone_eq_false_iff]
        exact ht
    rw [hc, show bodyOf Cells.regroupRestore.opc e = regroupRestoreBody e from rfl, regroupRestoreBody, ht]
    rfl

/-- A collective without a fault: the cohort arrives, unless it has, and is held. -/
theorem holds_collective (hcol : e.Collective) (hb : ¬ e.CollectiveBad) {c : Machine.Collective}
    (hat : e.atCollective (decide (e.cell = Cells.regroupRestore)) = c) (ho : c.offset = e.pc) (hg : c.g = e.co.g) :
    ∃ t co, exec i s = .next t ∧ e.Holds t co (e.arrivedBlock c) := by
  have hexec := exec_collective h hc hcol
  rw [regroupLike_legal hb (hat ▸ ho) (hat ▸ hg), hat] at hexec
  obtain ⟨rfl, -, hco, hblk, -⟩ := envFor_facts h.env
  by_cases ha : e.co.cohid ∈ c.arrived
  · rw [if_pos ha] at hexec
    rw [Env.arrivedBlock, if_pos ha]
    obtain ⟨co, hh⟩ := Env.holds_waiting hco (bs := e.s.blocks) hblk (fun _ _ => rfl)
    exact ⟨_, co, hexec, hh⟩
  · rw [if_neg ha] at hexec
    obtain ⟨co, hh⟩ := Env.holds_waiting hco (bs := e.s.blocks.put e.co.blk (e.arrivedBlock c))
      ((State.block_setBlock ..).trans (if_pos rfl)) (fun k hk => (State.block_setBlock ..).trans (if_neg hk))
    exact ⟨_, co, hexec, hh⟩

end

end Sys2Proof.Machine

/-! PROOFS. REGROUP and REGROUP.RESTORE (O43): one cohort alone through arrival and move, and the statement. -/

namespace Sys2Proof.Machine

/-- When a collective of a block is due. -/
theorem State.collReady_of {s : State} {bi : Nat} {b : Block} {c : Collective} {restore : Bool} (hb : s.block bi = some b)
    (hc : b.coll = some c) (hr : c.restore = restore) (hk : b.killed = false) (hrun : s.coreRuns b.core = true) (hw : s.cohorts.wf = true)
    (hall : ∀ k co, s.cohort k = some co → co.blk = bi →
      (co.live ≠ 0 → co.cohid ∈ c.arrived ∧ co.waitsAt c = true) ∧ co.idleEngines = true ∧ co.vglimit = []) :
    s.collReady bi restore = some (b, c) := by
  have hthere {p : Nat × Cohort} (hp : p ∈ s.blockCohorts bi) : s.cohort p.1 = some p.2 ∧ p.2.blk = bi :=
    ⟨SMap.look_of_mem hw (List.mem_filter.1 hp).1, beq_iff_eq.1 (List.mem_filter.1 hp).2⟩
  have hliving : (s.livingCohorts bi).all (fun p => c.arrived.contains p.2.cohid && p.2.waitsAt c) = true := by
    refine List.all_eq_true.2 (fun p hp => ?_)
    obtain ⟨hp, hlive⟩ := List.mem_filter.1 hp
    obtain ⟨harr, hwait⟩ := (hall p.1 p.2 (hthere hp).1 (hthere hp).2).1 (bne_iff_ne.1 hlive)
    rw [List.contains_iff_mem.2 harr, hwait, Bool.and_self]
  have hidle : (s.blockCohorts bi).all (fun p => p.2.idleEngines && p.2.vglimit.isEmpty) = true := by
    refine List.all_eq_true.2 (fun p hp => ?_)
    obtain ⟨-, hi, hv⟩ := hall p.1 p.2 (hthere hp).1 (hthere hp).2
    rw [hi, hv]
    rfl
  unfold State.collReady
  rw [hb, Option.bind_eq_bind, Option.bind_some, hc, Option.bind_eq_bind, Option.bind_some]
  refine if_pos ?_
  rw [hliving, hidle, hk, hrun, hr]
  simp

section
variable {e : Env} {t : State} {co : Cohort} {b : Block} (hh : e.Holds t co b) (hco : e.s.cohort e.slot = some e.co)
include hh hco

theorem Env.Holds.cohort_eq (k : Nat) :
    t.cohort k = (e.s.cohort k).map (fun co' => if k = e.slot then { co' with waits := co.waits } else co') := by
  by_cases hk : k = e.slot
  · rw [hk, hh.here, hco, Option.map_some, if_pos rfl]
    exact congrArg some hh.frame
  · rw [hh.others k hk]
    cases e.s.cohort k with
    | none => rfl
    | some co' => rw [Option.map_some, if_neg hk]

/-- A held cohort differs from what it was by its waits. -/
theorem Env.Holds.cohort_of {k : Nat} {co' : Cohort} (h : t.cohort k = some co') :
    ∃ co₀ ws, e.s.cohort k = some co₀ ∧ co' = { co₀ with waits := ws } := by
  rw [hh.cohort_eq hco] at h
  obtain ⟨co₀, h₀, rfl⟩ := Option.map_eq_some_iff.1 h
  by_cases hk : k = e.slot
  · exact ⟨co₀, co.waits, h₀, if_pos hk⟩
  · exact ⟨co₀, co₀.waits, h₀, if_neg hk⟩

theorem Env.Holds.blockOk (hok : e.s.BlockOk e.co.blk e.blk) (hs : b.slots = e.blk.slots) : t.BlockOk e.co.blk b where
  here := hh.block
  keys := hh.keys hok.keys
  seated k sl hsl := by
    obtain ⟨co', hco', hblk, hid⟩ := hok.seated k sl (hs ▸ hsl)
    refine ⟨_, (hh.cohort_eq hco sl).trans (congrArg (Option.map _) hco'), ?_⟩
    split <;> exact ⟨hblk, hid⟩
  listed sl co' hco' hblk := by
    obtain ⟨co₀, ws, h₀, rfl⟩ := hh.cohort_of hco hco'
    exact hs ▸ hok.listed sl co₀ h₀ hblk
  shape sl co' hco' hblk := by
    obtain ⟨co₀, ws, h₀, rfl⟩ := hh.cohort_of hco hco'
    exact hok.shape sl co₀ h₀ hblk

/-- The collective of a block is due once its one living cohort is held at it. -/
theorem Env.Holds.collReady {c : Machine.Collective} (hb : b.coll = some c) (harr : e.co.cohid ∈ c.arrived) (ho : c.offset = e.pc)
    (hwf : e.s.cohorts.wf = true) (hpark : e.co.park = none) (hk : b.killed = false) (hrun : e.s.coreRuns b.core = true)
    (hothers : ∀ k co', e.s.cohort k = some co' → co'.blk = e.co.blk →
      (k ≠ e.slot → co'.live = 0) ∧ co'.idleEngines = true ∧ co'.vglimit = []) :
    t.collReady e.co.blk c.restore = some (b, c) := by
  refine State.collReady_of hh.block hb rfl hk ?_ (hh.keys hwf) (fun k co' hco' hblk => ?_)
  · rw [← hrun, ← hh.rest]
    rfl
  · obtain ⟨co₀, ws, h₀, rfl⟩ := hh.cohort_of hco hco'
    obtain ⟨hlive, hidle, hv⟩ := hothers k co₀ h₀ hblk
    refine ⟨fun hne => ?_, hidle, hv⟩
    obtain rfl : k = e.slot := by
      by_contra hk
      exact hne (hlive hk)
    obtain rfl := Option.some.inj (h₀.symm.trans hco)
    obtain ⟨r, hr, hkind⟩ := hh.wait
    obtain rfl : co = _ := Option.some.inj (hh.here.symm.trans hco')
    refine ⟨harr, ?_⟩
    rw [Cohort.waitsAt, ho, hr, show Cohort.park { e.co with waits := ws } = none from hpark, Option.map_some, Option.getD_some, hkind]
    rfl

end

/-- A RESTORE with no regrouping in effect goes on. -/
theorem exec_idleRestore {s : State} {i : Instr} {e : Env} (h : s.Passes i e) (hb : ¬ e.CollectiveBad) (hr : e.cell = Cells.regroupRestore) (ht : e.blk.table = none) :
    exec i s = .next (e.completes e.s) := by
  rw [exec_passes h, hr, show bodyOf Cells.regroupRestore.opc e = regroupRestoreBody e from rfl, regroupRestoreBody, if_pos (by rw [ht]; rfl),
    if_neg (fun hbad => hb (e.regroupBad_iff.1 hbad)), finish_ok]

section
variable {s : State} {i : Instr} {e : Env} (h : s.Passes i e) (hc : e.cell ∈ [Cells.regroup, Cells.regroupRestore])
include h hc

/-- A REGROUP or RESTORE that fails a check of R32 traps, whether or not a regrouping is in effect. -/
theorem exec_collectiveBad (hb : e.CollectiveBad) : exec i s = .next (e.traps { code := 1, mask := e.act }) := by
  by_cases hcol : e.Collective
  · rw [exec_collective h hc hcol, regroupLike_illegal (.inr (.inl hb))]
    rfl
  · simp only [Env.Collective, not_or, Bool.not_eq_true, Option.isSome_eq_false_iff] at hcol
    simp only [List.mem_cons, List.not_mem_nil, or_false] at hc
    rw [exec_passes h, hc.resolve_left hcol.1, show bodyOf Cells.regroupRestore.opc e = regroupRestoreBody e from rfl,
      regroupRestoreBody, if_pos hcol.2, if_pos (e.regroupBad_iff.2 hb)]
    rfl

/-- The first cohort of a block to arrive starts the collective. -/
theorem holds_first (hcol : e.Collective) (hb : ¬ e.CollectiveBad) (hn : e.blk.coll = none) :
    ∃ t co, exec i s = .next t ∧ e.Holds t co
      { e.blk with coll := some { e.newCollective (decide (e.cell = Cells.regroupRestore)) with arrived := [e.co.cohid] } } := by
  have hat : e.atCollective (decide (e.cell = Cells.regroupRestore)) = e.newCollective (decide (e.cell = Cells.regroupRestore)) := by
    rw [Env.atCollective, hn, Option.getD_none]
  obtain ⟨t, co, hexec, hh⟩ := holds_collective h hc hcol hb hat rfl rfl
  rw [Env.arrivedBlock, if_neg (show e.co.cohid ∉ (e.newCollective _).arrived from List.not_mem_nil)] at hh
  exact ⟨t, co, hexec, hh⟩

end

/-- Settles O43. A cohort arrives by `holds_collective`; the moves of a REGROUP and of a RESTORE are pairs of positions
(`State.MovesOk`), and what they make of the part is `State.afterMove`. -/
theorem regrouping : Obligations.Regrouping := by
  unfold Obligations.Regrouping
  refine ⟨fun s i e h hc => ?_, fun s bi b c hc hok => ?_, fun s bi b c hc hok => ?_, fun s i e h hc hf hd hj ht hn hw hok hothers hpark hk hrun => ?_⟩
  · refine ⟨exec_collectiveBad h hc, fun hb hr ht => ?_, fun hb hcol hn => ?_, fun hcol c hcoll => ⟨fun hdiff => ?_, fun hb ho hg => ?_⟩⟩
    · obtain ⟨rfl, -⟩ := envFor_facts h.env
      exact ⟨_, _, exec_idleRestore h hb hr ht, e.registerFrame_self h.env⟩
    · obtain ⟨t, co, hexec, hh⟩ := holds_first h hc hcol hb hn
      obtain ⟨rfl, -⟩ := envFor_facts h.env
      exact ⟨t, co, hexec, hh.waited, hh.here, hh.frame, hh.wait, hh.others, hh.block, hh.blocks, hh.rest⟩
    · have hat (restore : Bool) : e.atCollective restore = c := by rw [Env.atCollective, hcoll, Option.getD_some]
      rw [exec_collective h hc hcol, regroupLike_illegal (by rw [hat]; exact hdiff.imp_right .inr)]
      rfl
    · obtain ⟨t, co, hexec, hh⟩ := holds_collective h hc hcol hb (by rw [Env.atCollective, hcoll, Option.getD_some]) ho hg
      obtain ⟨rfl, -⟩ := envFor_facts h.env
      exact ⟨t, co, hexec, hh.waited, hh.here, hh.frame, hh.wait, hh.others, hh.block, hh.blocks, hh.rest⟩
  · have hf : Cohort.Slicing id := fun _ => rfl
    have hm := hok.regroupMoves_ok (c := c)
    refine ⟨_, _, s.seats b, s.regroupMoves b c, State.execRegroupMove_eq hc hok, hok.moveFrame hf rfl, fun x => hok.mem_seats,
      s.seats_sorted b, s.regroupMoves_fst b c, fun x => hok.mem_regroupMoves_snd, ?_, ?_, fun m hmem => ?_,
      fun k co hco hblk l hl => State.live_afterMove hf hm hco hblk hl, _, rfl, ?_, fun hnodup m hmem hlt => ?_⟩
    · rw [s.regroupMoves_snd, (sortLex_perm _ _).nodup_iff]
      exact (s.seats_nodup b).filter _
    · rw [s.regroupMoves_snd]
      exact (sortLex_sorted (s.regroupKey c) _).imp (fun h => pair_le_pair h)
    · obtain ⟨hl, co, hco, hblk, -⟩ := hok.mem_seats.1 (State.mem_seats_of_regroupMoves hmem)
      exact hm.moved hf hok hmem hl hco hblk
    · rw [State.regroupTable, List.length_map, List.length_range]
    · exact State.getD_regroupTable hnodup hmem hlt
  · intro tid hhome hinj
    have hf := Cohort.slicing_settled
    have hm := hok.restoreMoves_ok hinj
    refine ⟨_, _, State.execRegroupRestoreMove_eq hc hok, hok.moveFrame hf rfl, rfl, fun x hx => ?_, fun k co hco hblk l hl hlive => ?_⟩
    · obtain ⟨sl, hsl⟩ := Option.isSome_iff_exists.1 (hhome x hx)
      obtain ⟨co, hco, hblk, -⟩ := hok.seated _ _ hsl
      refine ⟨sl, hsl, hm.moved hf hok (m := (⟨sl, tid x / 32, tid x % 32⟩, x)) (hok.mem_restoreMoves.2 ⟨hx, sl, hsl, rfl⟩)
        (Nat.mod_lt _ (by decide)) hco hblk⟩
    · obtain ⟨m, hmem, rfl, rfl⟩ := (State.live_afterMove hf hm hco hblk hl).1 hlive
      obtain ⟨hx, sl, hsl, hm1⟩ := hok.mem_restoreMoves.1 hmem
      obtain ⟨co₀, hco₀, hblk₀, rfl⟩ := State.cohort_afterMove hco hblk
      obtain ⟨co₁, hco₁, -, hid⟩ := hok.seated _ _ hsl
      obtain ⟨co', heq, -, hid', -⟩ := State.kept_moved hf (s := s) (moves := s.restoreMoves b) (c := c) m.1.slot
        (hok.shape _ _ hco₀ hblk₀).2.1
      have hsame : co₀ = co₁ := Option.some.inj (hco₀.symm.trans ((congrArg (fun x : Seat => s.cohort x.slot) hm1).trans hco₁))
      have htid : tid m.2 = 32 * co'.cohid + m.1.lane := by
        rw [hid', hsame, hid, congrArg Seat.lane hm1]
        exact (Nat.div_add_mod _ _).symm
      rw [heq] at hlive hco ⊢
      refine ⟨Eq.trans ?_ htid, m.2, hx, htid⟩
      rw [← heq, State.lane_moved hf _ _ hl, State.movedLane, hm.source hmem]
      rfl
  · obtain ⟨-, -, hco, -⟩ := envFor_facts h.env
    have hs : e.s = s := (envFor_facts h.env).1
    subst hs
    have hb : ¬ e.CollectiveBad := by
      rintro (hfull | ⟨l, hl, hlive, hdepth⟩ | ⟨n, hn, hjoin⟩)
      · simp [hf] at hfull
      · exact hdepth (hd l hl hlive)
      · exact hjoin (hj n hn)
    have hcells : e.cell = Cells.regroup ∨ e.cell = Cells.regroupRestore := by simpa using hc
    obtain ⟨t, co, hexec, hh⟩ := holds_first h hc (hcells.imp_right ht) hb hn
    generalize hr : decide (e.cell = Cells.regroupRestore) = r at hh
    have hok' := hh.blockOk hco hok rfl
    have hready := hh.collReady hco rfl (List.mem_singleton.2 rfl) rfl hw hpark hk hrun hothers
    rcases hcells with hcell | hcell
    · obtain rfl : false = r := by
        rw [← hr, hcell]
        decide
      refine ⟨t, _, _, hexec, (congrArg (exec · t) (if_pos hcell)).trans (State.execRegroupMove_eq hready hok'),
        (State.block_afterMove _).trans (if_pos rfl), rfl, iff_of_true rfl hcell, fun k co' hco' hblk l hl hlive => ?_⟩
      exact State.pc_afterMove (fun _ => rfl) hco' hblk hl hlive
    · obtain rfl : true = r := by
        rw [← hr, hcell]
        decide
      have hne : e.cell ≠ Cells.regroup := by rw [hcell]; decide
      refine ⟨t, _, _, hexec, (congrArg (exec · t) (if_neg hne)).trans (State.execRegroupRestoreMove_eq hready hok'),
        (State.block_afterMove _).trans (if_pos rfl), rfl, iff_of_false Bool.false_ne_true hne, fun k co' hco' hblk l hl hlive => ?_⟩
      exact State.pc_afterMove Cohort.slicing_settled hco' hblk hl hlive

end Sys2Proof.Machine

/-! PROOFS. What a core does between issues (O44): the order of candidates and of the line of a wallet, releases of slots, and the
deadlock of ALLOCREG. -/

namespace Sys2Proof.Machine

/-! ### The first and the last of a sorted list -/

theorem head?_sortLex {α : Type} {key : α → List Nat} {l : List α} {x : α} (hx : x ∈ l) (h : ∀ y ∈ l, y ≠ x → key x < key y) :
    (sortLex key l).head? = some x := by
  have hsorted := sortLex_sorted key l
  have hmem (y : α) : y ∈ sortLex key l ↔ y ∈ l := mem_sortLex key
  cases hs : sortLex key l with
  | nil => rw [← hmem, hs] at hx; cases hx
  | cons y ys =>
    rw [hs] at hsorted hmem
    by_contra hne
    have hne : y ≠ x := fun he => hne (congrArg some he)
    rcases List.mem_cons.1 ((hmem x).2 hx) with rfl | hys
    · exact hne rfl
    · exact not_lt.2 ((List.pairwise_cons.1 hsorted).1 x hys) (h y ((hmem y).1 (List.mem_cons_self ..)) hne)

theorem getLast?_sortLex {α : Type} {key : α → List Nat} {l : List α} {x : α} (hx : x ∈ l) (h : ∀ y ∈ l, y ≠ x → key y < key x) :
    (sortLex key l).getLast? = some x := by
  have hsorted := sortLex_sorted key l
  have hmem (y : α) : y ∈ sortLex key l ↔ y ∈ l := mem_sortLex key
  cases hs : (sortLex key l).getLast? with
  | none => rw [← hmem, List.getLast?_eq_none_iff.1 hs] at hx; cases hx
  | some y =>
    obtain ⟨ys, hys⟩ := List.getLast?_eq_some_iff.1 hs
    rw [hys] at hsorted hmem
    by_contra hne
    have hne : y ≠ x := fun he => hne (congrArg some he)
    rcases List.mem_append.1 ((hmem x).2 hx) with hx' | hx'
    · exact not_lt.2 ((List.pairwise_append.1 hsorted).2.2 x hx' y (List.mem_singleton.2 rfl)) (h y ((hmem y).1 (by simp)) hne)
    · exact hne (List.mem_singleton.1 hx').symm

theorem pair_lt_pair {a b c d : Nat} : [a, b] < [c, d] ↔ a < c ∨ a = c ∧ b < d := by
  simp [List.cons_lt_cons_iff]

/-! ### Issue aging (R20, R21) -/

theorem State.ageIssue_due {s : State} {slot : Nat} {co : Cohort} (hco : s.cohort slot = some co)
    (hrun : s.coreRuns (coreOf slot) = true) (hidle : 1024 ≤ co.idle) (ha : co.aged = none) :
    s.ageIssue slot = { s with nextId := s.nextId + 1 }.setCohort slot { co with aged := some s.nextId } := by
  simp only [State.ageIssue, hco]
  exact if_pos (by simp [hidle, ha, hrun])

/-- The place of a cohort among the candidates of its quarter. -/
def State.issuePlace (s : State) (p : Nat × Cohort) : List Nat :=
  match p.2.aged with
  | some n => [0, n]
  | none => 1 :: s.rank p.2

theorem State.candidates_eq (s : State) (core q : Nat) : s.candidates core q =
    (sortLex s.issuePlace ((s.coreCohorts core).filter (fun p => quarterOf p.1 == q && s.mayIssue p.2))).map (·.1) := rfl

theorem State.issuePlace_lt {s : State} {p p' : Nat × Cohort} {n : Nat} (h : p.2.aged = some n)
    (h' : p'.2.aged = none ∨ ∃ m, p'.2.aged = some m ∧ n < m) : s.issuePlace p < s.issuePlace p' := by
  rcases h' with h' | ⟨m, h', hlt⟩
  · rw [State.issuePlace, State.issuePlace, h, h']
    exact List.cons_lt_cons_iff.2 (.inl Nat.zero_lt_one)
  · rw [State.issuePlace, State.issuePlace, h, h']
    exact pair_lt_pair.2 (.inr ⟨rfl, hlt⟩)

/-! ### The line of a wallet (R42, R44) -/

theorem State.mem_allWaits {s : State} {x : Nat × Cohort × WaitRec} :
    x ∈ s.allWaits ↔ (x.1, x.2.1) ∈ s.cohorts ∧ x.2.2 ∈ x.2.1.liveWaits := by
  simp only [State.allWaits, List.mem_flatMap, List.mem_map]
  constructor
  · rintro ⟨p, hp, r, hr, rfl⟩
    exact ⟨hp, hr⟩
  · rintro ⟨hp, hr⟩
    exact ⟨_, hp, _, hr, rfl⟩

theorem State.mem_inLine {s : State} {core : Nat} {x : Nat × Cohort × WaitRec} :
    x ∈ s.allWaits.filter (fun x => coreOf x.1 == core && x.2.2.priced) ↔
      (x.1, x.2.1) ∈ s.coreCohorts core ∧ x.2.2 ∈ x.2.1.liveWaits ∧ x.2.2.priced = true := by
  simp only [List.mem_filter, State.mem_allWaits, State.coreCohorts, Bool.and_eq_true, beq_iff_eq]
  tauto

theorem State.linePlace_promoted (s : State) (co : Cohort) {r : WaitRec} {n : Nat} (h : r.promoted = some n) :
    s.linePlace co (some r) = [0, n] := by
  simp [State.linePlace, h]

/-- What is not promoted, or later than at moment `n`, stands behind the instruction promoted at `n`. -/
theorem State.lt_linePlace (s : State) (co : Cohort) {w : Option WaitRec} {n : Nat}
    (h : ∀ r, w = some r → r.promoted = none ∨ ∃ m, r.promoted = some m ∧ n < m) : [0, n] < s.linePlace co w := by
  have hbehind (l : List Nat) : [0, n] < 1 :: l := List.cons_lt_cons_iff.2 (.inl Nat.zero_lt_one)
  cases w with
  | none => exact hbehind _
  | some r =>
    rcases h r rfl with hr | ⟨m, hr, hlt⟩
    · simp only [State.linePlace, Option.bind_some, hr]
      exact hbehind _
    · rw [s.linePlace_promoted co hr]
      exact pair_lt_pair.2 (.inr ⟨rfl, hlt⟩)

section
variable {s : State} {core slot n : Nat} {co : Cohort} {r : WaitRec} (hcore : coreOf slot = core) (hr : (slot, co, r) ∈ s.allWaits)
  (hpriced : r.priced = true) (hprom : r.promoted = some n)
  (hothers : ∀ p ∈ s.coreCohorts core, ∀ w ∈ p.2.waits, (p.1, p.2, w) ≠ (slot, co, r) →
    w.promoted = none ∨ ∃ m, w.promoted = some m ∧ n < m)
include hcore hr hpriced

theorem State.mem_line_priced : (slot, co, r) ∈ s.line core := by
  refine (mem_sortLex _).2 (State.mem_inLine.2 ⟨List.mem_filter.2 ⟨(State.mem_allWaits.1 hr).1, beq_iff_eq.2 hcore⟩, ?_, hpriced⟩)
  exact (State.mem_allWaits.1 hr).2

include hprom hothers

/-- The first of the promoted stands at the head of its wallet's line. -/
theorem State.head_line_promoted : (s.line core).head? = some (slot, co, r) := by
  refine head?_sortLex ((mem_sortLex _).1 (State.mem_line_priced hcore hr hpriced)) (fun x hx hne => ?_)
  obtain ⟨hp, hw, -⟩ := State.mem_inLine.1 hx
  rw [s.linePlace_promoted co hprom]
  refine s.lt_linePlace _ (fun w hw' => ?_)
  obtain rfl := Option.some.inj hw'
  exact hothers _ hp _ (List.mem_filter.1 hw).1 hne

/-- While it waits, no other instruction of the core holds its price. -/
theorem State.holdsPrice_behind {p : Nat × Cohort} (hp : p ∈ s.coreCohorts core) {pc : W32} (price : Nat)
    (hne : p.1 ≠ slot ∨ pc ≠ r.pc) : s.holdsPrice p.1 p.2 pc price = false := by
  have hpcore : coreOf p.1 = core := beq_iff_eq.1 (List.mem_filter.1 hp).2
  refine Bool.and_eq_false_iff.2 (.inl (List.all_eq_false.2 ⟨(slot, co, r), ?_, ?_⟩))
  · rw [hpcore]
    exact State.mem_line_priced hcore hr hpriced
  · have hplace : [0, n] < s.linePlace p.2 (p.2.waitAt pc) := by
      refine s.lt_linePlace _ (fun w hw => hothers p hp w (List.mem_of_find?_eq_some hw) (fun heq => ?_))
      have hpc : w.pc = pc := beq_iff_eq.1 (List.find?_some (p := fun r : WaitRec => r.pc == pc) hw)
      simp only [Prod.mk.injEq] at heq
      obtain ⟨rfl, -, rfl⟩ := heq
      exact hne.elim (fun h => h rfl) (fun h => h hpc.symm)
    have hlt : lexLt (s.linePlace p.2 (p.2.waitAt pc)) (s.linePlace co (some r)) = false := by
      rw [s.linePlace_promoted co hprom, ← Bool.not_eq_true, lexLt_iff]
      exact lt_asymm hplace
    have hother : ((slot == p.1) && (r.pc == pc)) = false := by
      rw [Bool.and_eq_false_iff]
      exact hne.imp (fun h => beq_false_of_ne h.symm) (fun h => beq_false_of_ne h.symm)
    rw [hlt, hother]
    simp

end

theorem State.promote_due {s : State} {slot : Nat} {co : Cohort} {r : WaitRec} (hco : s.cohort slot = some co)
    (hr : co.waits.find? WaitRec.dueFirst = some r) : s.promote slot = { s with nextId := s.nextId + 1 }.updCohort slot (fun co : Cohort =>
      { co with waits := co.waits.map (fun x : WaitRec => if x.pc == r.pc then { x with promoted := some s.nextId } else x) }) := by
  simp only [State.promote, hco, Option.bind_some, hr]
  rfl

theorem State.markStarved_eq {s : State} {core : Nat} {x : Nat × Cohort × WaitRec} (hx : (s.line core).head? = some x) :
    s.markStarved core = if 32 ≤ x.2.2.revs ∧ s.starvedNow core = false then
      s.updCore core (fun c => { c with starved := some x.2.2.since }) else s := by
  simp only [State.markStarved, hx]
  exact if_congr (by simp) rfl rfl

/-! ### A slot released and the end of a block (R36, R61) -/

/-- The cohorts are the same but for the marks of their open transactions. -/
structure State.SameCohorts (s t : State) : Prop where
  cohorts : ∀ k, (t.cohort k).map (fun co => { co with tx := none }) = (s.cohort k).map (fun co => { co with tx := none })

theorem State.SameCohorts.refl (s : State) : s.SameCohorts s := ⟨fun _ => rfl⟩

theorem State.SameCohorts.trans {s t u : State} (h : s.SameCohorts t) (k : t.SameCohorts u) : s.SameCohorts u :=
  ⟨fun n => (k.cohorts n).trans (h.cohorts n)⟩

theorem State.SameCohorts.of_eq {s t : State} (h : t.cohorts = s.cohorts) : s.SameCohorts t :=
  ⟨fun k => by rw [State.cohort, h]; rfl⟩

/-- Steps after a state that has the same cohorts. -/
theorem State.SameCohorts.after {s t u : State} (h : t.SameCohorts u) (ht : t.cohorts = s.cohorts) : s.SameCohorts u :=
  (SameCohorts.of_eq ht).trans h

theorem State.SameWork.sameCohorts {s t : State} (h : s.SameWork t) : s.SameCohorts t := ⟨h.cohorts⟩

theorem State.SameCohorts.cohort_none {s t : State} (h : s.SameCohorts t) {k : Nat} (hk : s.cohort k = none) : t.cohort k = none := by
  have := h.cohorts k
  rw [hk] at this
  exact Option.map_eq_none_iff.1 this

theorem State.SameCohorts.ite {s t u : State} {c : Prop} [Decidable c] (h : s.SameCohorts t) (h' : s.SameCohorts u) :
    s.SameCohorts (if c then t else u) := by
  split
  · exact h
  · exact h'

theorem State.sameCohorts_handOff (s : State) (bi : Nat) : s.SameCohorts (s.handOff bi) := by
  cases hb : s.block bi with
  | none => simp only [State.handOff, hb]; exact .refl s
  | some b =>
    cases hh : b.handed with
    | true => rw [State.handOff_handed hb hh]; exact .refl s
    | false => exact ⟨(State.handOff_first hb hh).cohorts⟩

theorem State.sameWork_commitBytes (s : State) (key : Nat) (w : Option Nat) (l : List (Nat × Byte)) :
    s.SameWork (s.commitBytes key w l) := by
  unfold State.commitBytes
  induction l generalizing s with
  | nil => exact .refl s
  | cons p l ih => exact (s.sameWork_physWrite ..).trans (ih _)

theorem State.guardCommit_same (s : State) (b : Block) : s.EngSame (s.guardCommit b) := by
  unfold State.guardCommit
  split
  · exact State.SameWork.refl s
  · exact s.sameWork_commitBytes ..

theorem State.sameCohorts_again (s : State) (b : Block) (exact_ : Bool) : s.SameCohorts (s.again b exact_) := .of_eq rfl

theorem State.sameCohorts_guardDecide (s : State) (bi : Nat) (b : Block) : s.SameCohorts (s.guardDecide bi b) := by
  have hn : s.SameCohorts (s.updNode b.launch b.node (fun n => { n with state := .guarding })) := (s.sameWork_updNode ..).sameCohorts
  unfold State.guardDecide
  dsimp only
  generalize s.updNode b.launch b.node (fun n => { n with state := .guarding }) = u at hn ⊢
  have hcommit := u.guardCommit_same b
  split
  · split
    next e he => exact hn.trans (State.sameWork_served (he ▸ hcommit) _).sameCohorts
    next t ht => exact (hn.trans (hcommit.of_ok ht).sameCohorts).trans ((State.sameCohorts_handOff _ bi).after rfl)
  · exact .ite (hn.trans (.of_eq rfl)) (hn.trans ((State.sameCohorts_again _ b true).after rfl))

theorem State.sameCohorts_killedEnd (s : State) (b : Block) : s.SameCohorts (s.killedEnd b) :=
  .ite (.refl s) ((State.sameCohorts_again _ b b.exact).after rfl)

theorem State.sameCohorts_settlePops (s : State) (lid : Nat) : s.SameCohorts (s.settlePops lid) := by
  unfold State.settlePops
  split
  · exact .refl s
  · exact .ite (.refl s) (.of_eq rfl)

theorem State.sameCohorts_writeCompletion (s : State) (l : Launch) : s.SameCohorts (s.writeCompletion l) := by
  unfold State.writeCompletion
  split
  · exact .of_eq rfl
  · exact (((s.sameWork_physWrite ..).trans (State.sameWork_physWrite ..)).trans (State.sameWork_physWrite ..)).sameCohorts.trans (.of_eq rfl)

theorem State.sameCohorts_completeLaunch (s : State) (lid : Nat) : s.SameCohorts (s.completeLaunch lid) := by
  unfold State.completeLaunch
  split
  · exact .refl s
  · exact (s.sameCohorts_writeCompletion _).trans (.of_eq rfl)

theorem State.sameCohorts_settle (s : State) (lid : Nat) : s.SameCohorts (s.settle lid) := by
  have hp := s.sameCohorts_settlePops lid
  unfold State.settle
  dsimp only
  split
  · exact hp
  · exact .ite (hp.trans (State.sameCohorts_completeLaunch ..)) hp

/-- The end of a block makes no cohort. -/
theorem State.sameCohorts_endBlock (s : State) (bi : Nat) : s.SameCohorts (s.endBlock bi) := by
  unfold State.endBlock
  split
  · exact .refl s
  next b _ =>
    have h : s.SameCohorts (if b.surrogate then s.guardDecide bi b else if b.killed then s.killedEnd b else s.handOff bi) :=
      .ite (s.sameCohorts_guardDecide ..) (.ite (s.sameCohorts_killedEnd ..) (s.sameCohorts_handOff ..))
    exact h.trans ((State.sameCohorts_settle _ b.launch).after rfl)

/-- The part once a slot is free and its block has one cohort fewer. -/
def State.slotFreed (s : State) (slot bi : Nat) (b' : Block) : State :=
  ({ s.leaveWaves slot with cohorts := s.cohorts.del slot }).setBlock bi b'

theorem State.releaseSlot_eq {s : State} {slot : Nat} {co : Cohort} {b : Block} (hco : s.cohort slot = some co)
    (hb : s.block co.blk = some b) (hrun : s.clocked (dieOf b.core) = true) (hmay : s.mayRelease co b = true)
    {b' : Block} (hb' : b' = { b with slots := setAt b.slots co.cohid none }) : s.releaseSlot slot =
      if b'.ended = true ∧ s.takerRuns b = false then s
      else if b'.ended then (s.slotFreed slot co.blk b').endBlock co.blk else s.slotFreed slot co.blk b' := by
  subst hb'
  simp only [State.releaseSlot, hco, hb, hrun, hmay]
  exact if_congr (by simp) rfl rfl

/-! ### The deadlock of ALLOCREG (R40) -/

/-- The cohorts of a core that the deadlock rule looks at, and their waits in ALLOCREG. -/
def State.deadlockCohorts (s : State) (core : Nat) : List (Nat × Cohort) := (s.coreCohorts core).filter (fun p => !p.2.vacant)
def allocWait (p : Nat × Cohort) : Option (Nat × Cohort × WaitRec) := p.2.inAllocreg.map (fun r => (p.1, p.2, r))

/-- The order in which the rule chooses: by the age of the block and then by COHID. -/
def State.deadlockKey (s : State) (x : Nat × Cohort × WaitRec) : List Nat :=
  [((s.block x.2.1.blk).map (·.age)).getD 0, x.2.1.cohid]

theorem State.allocChosen_eq (s : State) (core : Nat) : s.allocChosen core =
    if ((s.deadlockCohorts core).filterMap allocWait).length = (s.deadlockCohorts core).length &&
        ((s.deadlockCohorts core).filterMap allocWait).all (fun x => s.slicePool core < x.2.2.need) then
      (sortLex s.deadlockKey ((s.deadlockCohorts core).filterMap allocWait)).getLast?
    else none := rfl

theorem State.mem_deadlockCohorts {s : State} {core : Nat} {p : Nat × Cohort} :
    p ∈ s.deadlockCohorts core ↔ p ∈ s.coreCohorts core ∧ p.2.vacant = false := by
  simp [State.deadlockCohorts]

theorem length_filterMap_eq_iff {α β : Type} (f : α → Option β) (l : List α) :
    (l.filterMap f).length = l.length ↔ ∀ x ∈ l, (f x).isSome = true := by
  rw [List.length_filterMap_eq_countP, List.countP_eq_length]

/-- A cohort that waits elsewhere, or whose request fits, makes the check fail. -/
theorem State.allocChosen_none {s : State} {core : Nat} {p : Nat × Cohort} (hp : p ∈ s.coreCohorts core) (hv : p.2.vacant = false)
    (hfits : ∀ x, p.2.inAllocreg = some x → x.need ≤ s.slicePool core) : s.allocChosen core = none := by
  have hp := State.mem_deadlockCohorts.2 ⟨hp, hv⟩
  rw [State.allocChosen_eq]
  refine if_neg (fun hc => ?_)
  simp only [Bool.and_eq_true, decide_eq_true_eq, List.all_eq_true, length_filterMap_eq_iff] at hc
  obtain ⟨hall, hnone⟩ := hc
  obtain ⟨x, hx⟩ := Option.isSome_iff_exists.1 (hall p hp)
  obtain ⟨r, hr, rfl⟩ := Option.map_eq_some_iff.1 hx
  exact absurd (hnone _ (List.mem_filterMap.2 ⟨p, hp, hx⟩)) (not_lt.2 (hfits r hr))

/-- The rule chooses the highest COHID of the youngest block. -/
theorem State.allocChosen_some {s : State} {core slot : Nat} {co : Cohort} {r : WaitRec} {b : Block} (hb : s.block co.blk = some b)
    (hmem : (slot, co) ∈ s.coreCohorts core) (hv : co.vacant = false) (hr : co.inAllocreg = some r)
    (hall : ∀ p ∈ s.coreCohorts core, p.2.vacant = false → ∃ x, p.2.inAllocreg = some x ∧ s.slicePool core < x.need)
    (hyoung : ∀ p ∈ s.coreCohorts core, p.2.vacant = false → p ≠ (slot, co) → ∃ c, s.block p.2.blk = some c ∧
      (c.age < b.age ∨ (c.age = b.age ∧ p.2.cohid < co.cohid))) : s.allocChosen core = some (slot, co, r) := by
  have hwait (p : Nat × Cohort) (hp : p ∈ s.deadlockCohorts core) :
      ∃ x, allocWait p = some (p.1, p.2, x) ∧ s.slicePool core < x.need := by
    obtain ⟨hp, hv⟩ := State.mem_deadlockCohorts.1 hp
    obtain ⟨x, hx, hlt⟩ := hall p hp hv
    exact ⟨x, by rw [allocWait, hx]; rfl, hlt⟩
  have hof {x : Nat × Cohort × WaitRec} (hx : x ∈ (s.deadlockCohorts core).filterMap allocWait) :
      ∃ p ∈ s.deadlockCohorts core, ∃ r', p.2.inAllocreg = some r' ∧ x = (p.1, p.2, r') ∧ s.slicePool core < r'.need := by
    obtain ⟨p, hp, hx⟩ := List.mem_filterMap.1 hx
    obtain ⟨r', hr', hlt⟩ := hwait p hp
    obtain rfl := Option.some.inj (hx.symm.trans hr')
    obtain ⟨r'', h'', heq⟩ := Option.map_eq_some_iff.1 hr'
    obtain rfl : r'' = r' := congrArg (fun x : Nat × Cohort × WaitRec => x.2.2) heq
    exact ⟨p, hp, r'', h'', rfl, hlt⟩
  rw [State.allocChosen_eq, if_pos ?_]
  · refine getLast?_sortLex (List.mem_filterMap.2 ⟨(slot, co), State.mem_deadlockCohorts.2 ⟨hmem, hv⟩, ?_⟩) (fun y hy hne => ?_)
    · rw [allocWait, hr]
      rfl
    · obtain ⟨p, hp, r', hr', rfl, -⟩ := hof hy
      obtain ⟨hp, hv'⟩ := State.mem_deadlockCohorts.1 hp
      have hpne : p ≠ (slot, co) := by
        rintro rfl
        obtain rfl := Option.some.inj (hr.symm.trans hr')
        exact hne rfl
      obtain ⟨c, hc, hlt⟩ := hyoung p hp hv' hpne
      simp only [State.deadlockKey, hc, hb, Option.map_some, Option.getD_some]
      exact pair_lt_pair.2 hlt
  · simp only [Bool.and_eq_true, decide_eq_true_eq, List.all_eq_true, length_filterMap_eq_iff]
    refine ⟨fun p hp => ?_, fun x hx => ?_⟩
    · obtain ⟨x, hx, -⟩ := hwait p hp
      rw [hx]
      rfl
    · obtain ⟨p, -, r', -, rfl, hlt⟩ := hof hx
      exact hlt

/-- The ALLOCREG that the rule has chosen completes with its predicate false. -/
theorem State.execAllocregDeadlock_eq {s : State} {core slot : Nat} {co : Cohort} {r : WaitRec} {b : Block} {k : KernelEntry}
    {bs : List Byte} {w : RawWord} (hrun : s.coreRuns core = true) (hc : s.allocChosen core = some (slot, co, r))
    (hb : s.block co.blk = some b) (hk : s.kernelOf b = some k) (hf : s.fetchAt core b.vf k.code k.csize r.pc = .ok bs)
    (hw : rawWord bs = some w) : exec (.allocregDeadlock core) s =
      .next ((s.setCohort slot (co.setP (wordFields w).d.toNat co.live 0)).advance slot co.live r.pc
        (r.pc + BitVec.ofNat 32 w.size) []) := by
  show execAllocregDeadlock core s = _
  simp only [execAllocregDeadlock, hrun, if_true, hc, hb, Option.bind_some, hk, Option.map_some, hf, hw]

theorem Cohort.waitAt_endWait (co : Cohort) (pc : W32) : (co.endWait pc).waitAt pc = none := by
  refine List.find?_eq_none.2 (fun r hr => ?_)
  have := (List.mem_filter.1 hr).2
  simpa using this

/-- A cohort whose ALLOCREG has ended without its registers. -/
def Cohort.refused (co : Cohort) (d : Nat) (pc next : W32) : Cohort :=
  ((co.setP d co.live 0).mapLanes co.live (fun _ x => { x with pc := next })).endWait pc

theorem State.cohort_refused (s : State) (slot : Nat) (co : Cohort) (d : Nat) (pc next : W32) :
    ((s.setCohort slot (co.setP d co.live 0)).advance slot co.live pc next []).cohort slot = some (co.refused d pc next) := by
  refine (State.cohort_updCohort_some ((State.cohort_setCohort ..).trans (if_pos rfl)) _).trans (congrArg some ?_)
  rw [show (co.setP d co.live 0).live = co.live by rw [co.setP_frame]; rfl, BitVec.and_self]
  rfl

theorem Cohort.p_refused (co : Cohort) (d : Nat) (pc next : W32) (n : Nat) : (co.refused d pc next).p n = (co.setP d co.live 0).p n := rfl

/-- Settles O44: aging by the order of `sortLex`, releases by `State.releaseSlot_eq` and `State.sameCohorts_endBlock`, and the
deadlock rule by `State.allocChosen_some`. -/
theorem coreHousekeeping : Obligations.CoreHousekeeping := by
  unfold Obligations.CoreHousekeeping
  refine ⟨fun s slot co hco hrun hidle ha => ?_, fun s core q slot n co hmem hq hmay ha hothers => ?_, fun s slot co r hco hr => ⟨fun hclk => ?_, fun hclk => ?_⟩,
    fun s core slot n co r hcore hr hpriced hprom hothers => ⟨State.head_line_promoted hcore hr hpriced hprom hothers,
      fun p hp pc price hne => State.holdsPrice_behind hcore hr hpriced hprom hothers hp price hne⟩,
    fun s core x hx => ⟨fun hrevs hst hclk => ?_, fun hno => ?_⟩, fun s slot co b hco hb hclk hmay => ⟨fun hend htk => ?_, fun hor => ?_⟩,
    fun s core p hp hv hfits => ?_, fun s core slot co r b k bs w hrun hmem hv hr hall hyoung hco hb hk hf hw => ?_⟩
  · refine ⟨_, congrArg Host.Outcome.next (State.ageIssue_due hco hrun hidle ha), (State.cohort_setCohort ..).trans (if_pos rfl),
      fun k hk => (State.cohort_setCohort ..).trans (if_neg hk), rfl⟩
  · have hin : (slot, co) ∈ (s.coreCohorts core).filter (fun p => quarterOf p.1 == q && s.mayIssue p.2) :=
      List.mem_filter.2 ⟨hmem, by simp [hq, hmay]⟩
    rw [State.candidates_eq, List.head?_map, head?_sortLex hin
      (fun p hp hne => State.issuePlace_lt (n := n) ha (hothers p (List.mem_filter.1 hp).1 hne))]
    rfl
  · exact congrArg Host.Outcome.next (if_neg (by simp [hclk]))
  · have hexec : exec (.priceLineAging slot) s = .next (s.promote slot) := congrArg Host.Outcome.next (if_pos hclk)
    rw [State.promote_due hco hr] at hexec
    refine ⟨_, _, hexec, State.cohort_updCohort_some (s := { s with nextId := s.nextId + 1 }) hco _, rfl, ?_, fun w hw hne => ?_,
      fun k hk => State.cohort_updCohort_ne _ _ hk, rfl⟩
    · exact List.mem_map.2 ⟨r, List.mem_of_find?_eq_some hr, if_pos (beq_self_eq_true _)⟩
    · exact List.mem_map.2 ⟨w, hw, if_neg (by simpa using hne)⟩
  · have hexec : exec (.walletStarved core) s = .next (s.markStarved core) := congrArg Host.Outcome.next (if_pos hclk)
    rw [State.markStarved_eq hx, if_pos ⟨hrevs, hst⟩] at hexec
    exact ⟨_, hexec, (State.core_updCore ..).trans (if_pos rfl), fun c hc => (State.core_updCore ..).trans (if_neg hc), rfl⟩
  · refine congrArg Host.Outcome.next (?_ : (if s.clocked (dieOf core) then s.markStarved core else s) = s)
    rw [State.markStarved_eq hx]
    rcases hno with h | h | h
    · rw [if_neg (fun hc : 32 ≤ x.2.2.revs ∧ _ => absurd hc.1 (Nat.not_le.2 h)), ite_self]
    · rw [if_neg (fun hc : _ ∧ s.starvedNow core = false => Bool.false_ne_true (hc.2.symm.trans h)), ite_self]
    · rw [h, if_neg Bool.false_ne_true]
  · exact congrArg Host.Outcome.next ((State.releaseSlot_eq hco hb hclk hmay rfl).trans (if_pos ⟨hend, htk⟩))
  · have hrel := (State.releaseSlot_eq hco hb hclk hmay rfl).trans (if_neg (fun h => by
      rcases hor with h' | h'
      · simp [h.1] at h'
      · simp [h.2] at h'))
    have hgone (b' : Block) : (s.slotFreed slot co.blk b').cohort slot = none := SMap.look_del_self ..
    refine ⟨_, congrArg Host.Outcome.next hrel, ?_, fun hend => ?_⟩
    · split
      · exact (State.sameCohorts_endBlock ..).cohort_none (hgone _)
      · exact hgone _
    · rw [if_neg (by simp [hend])]
      exact ⟨(State.block_setBlock ..).trans (if_pos rfl), fun k hk => SMap.look_del_ne _ hk⟩
  · show execAllocregDeadlock core s = _
    rw [execAllocregDeadlock, State.allocChosen_none hp hv hfits, ite_self]
  · refine ⟨_, _, State.execAllocregDeadlock_eq hrun (State.allocChosen_some hb hmem hv hr hall hyoung) hb hk hf hw,
      State.cohort_refused .., ?_, fun n hn => ?_, ?_, fun j hj => ?_, ?_, fun l hl hlive => ⟨?_, fun h0 hz => ?_⟩⟩
    · rw [Cohort.refused, co.setP_frame]
      rfl
    · rw [Cohort.p_refused, Cohort.p_setP, if_neg (fun h => hn h.1)]
    · rw [Cohort.refused, Cohort.waitAt_endWait]
      rfl
    · exact (State.cohort_updCohort_ne _ _ hj).trans ((State.cohort_setCohort ..).trans (if_neg hj))
    · rfl
    · have hlane := (co.setP (wordFields w).d.toNat co.live 0).lane_mapLanes co.live
        (fun _ x => { x with pc := r.pc + BitVec.ofNat 32 w.size }) hl
      exact congrArg Lane.pc (hlane.trans (if_pos hlive))
    · rw [Cohort.p_refused, Cohort.p_setP, if_pos ⟨rfl, h0, hz⟩, Mask.has_or, Mask.has_and, Mask.has_and, Mask.has_not _ hl, hlive]
      simp [Mask.has]

end Sys2Proof.Machine

/-! PROOFS. The token ring (O45): injection, the wallets of a station, and withdrawal. -/

namespace Sys2Proof.Machine

theorem SMap.get_del {α : Type} (m : SMap α) (i j : Nat) (d : α) : (m.del i).get j d = if j = i then d else m.get j d := by
  simp only [SMap.get]
  split
  next h => rw [h, SMap.look_del_self]; rfl
  next h => rw [SMap.look_del_ne _ h]

/-! ### Injection (R377) -/

/-- The whole tokens that the controller puts before station 0, and what is left in its fraction register. -/
def Die.wholeTokens (d : Die) : Nat := min ((d.fraction + d.inject) / 16) 4095

theorem execTokenInject_eq {s : State} {die : Nat} (hclk : s.clocked die = true) (hfree : (s.die die).slots.get 0 0 = 0) :
    exec (.tokenInject die) s = .next ((s.setDie die { s.die die with
      fraction := (s.die die).fraction + (s.die die).inject - 16 * (s.die die).wholeTokens,
      slots := if (s.die die).wholeTokens = 0 then (s.die die).slots else (s.die die).slots.put 0 (s.die die).wholeTokens }).ageFirst die) :=
  if_neg (by simp [hclk, hfree])

theorem Die.get_injected {d : Die} (hfree : d.slots.get 0 0 = 0) (k : Nat) :
    (if d.wholeTokens = 0 then d.slots else d.slots.put 0 d.wholeTokens).get k 0 = if k = 0 then d.wholeTokens else d.slots.get k 0 := by
  split
  next h =>
    split
    next hk => rw [hk, h, hfree]
    next => rfl
  next => exact SMap.get_put ..

/-! ### The wallets of a station (R43, R44) -/

/-- The tokens in the wallets of a cluster whose first core is given. -/
def State.wallets (s : State) (first : Nat) : Nat :=
  (s.core first).wallet + (s.core (first + 1)).wallet + (s.core (first + 2)).wallet + (s.core (first + 3)).wallet

theorem State.tokenClass_eq_four {s : State} {core : Nat} : s.tokenClass core = 4 ↔ 1023 ≤ (s.core core).wallet := by
  simp only [State.tokenClass]
  split
  next h => simp [h]
  next h =>
    refine iff_of_false ?_ h
    split
    · decide
    · split <;> decide

theorem State.tokenClass_cases (s : State) (core : Nat) :
    s.tokenClass core = 1 ∨ s.tokenClass core = 2 ∨ s.tokenClass core = 3 ∨ s.tokenClass core = 4 := by
  simp only [State.tokenClass]
  split
  · simp
  · split
    · simp
    · split <;> simp

theorem State.tokenClass_starved {s : State} {core : Nat} (hw : (s.core core).wallet < 1023) :
    s.tokenClass core = 1 ↔ s.starvedNow core = true := by
  simp only [State.tokenClass]
  rw [if_neg (Nat.not_le.2 hw)]
  split
  next h => simp [h]
  next h =>
    refine iff_of_false ?_ h
    split <;> decide

/-- The cores of a cluster in the order in which a station offers its tokens. -/
def State.ringOrder (s : State) (cl : Nat) : List Nat := (List.range 4).map (fun i => ((s.cluster cl).ringRot + i) % 4)

theorem State.mem_ringOrder {s : State} {cl i : Nat} : i ∈ s.ringOrder cl ↔ i < 4 := by
  simp only [State.ringOrder, List.mem_map, List.mem_range]
  constructor
  · rintro ⟨k, -, rfl⟩
    exact Nat.mod_lt _ (by decide)
  · intro hi
    exact ⟨(i + 4 - (s.cluster cl).ringRot % 4) % 4, Nat.mod_lt _ (by decide), by omega⟩

/-- The first core in the order that is of a class. -/
def State.firstOfClass (s : State) (cl k : Nat) : Option Nat := (s.ringOrder cl).find? (fun i => s.tokenClass (4 * cl + i) == k)

theorem State.tokenTaker_eq (s : State) (cl : Nat) :
    s.tokenTaker cl = ((s.firstOfClass cl 1).or (s.firstOfClass cl 2)).or (s.firstOfClass cl 3) := by
  unfold State.tokenTaker State.firstOfClass State.ringOrder
  dsimp only
  generalize List.find? _ _ = a
  cases a with
  | some i => rfl
  | none =>
    generalize List.find? _ _ = b
    cases b <;> rfl

theorem State.firstOfClass_some {s : State} {cl k i : Nat} (h : s.firstOfClass cl k = some i) : i < 4 ∧ s.tokenClass (4 * cl + i) = k :=
  ⟨State.mem_ringOrder.1 (List.mem_of_find?_eq_some h), by simpa using List.find?_some h⟩

theorem State.firstOfClass_none {s : State} {cl k : Nat} (h : s.firstOfClass cl k = none) {i : Nat} (hi : i < 4) :
    s.tokenClass (4 * cl + i) ≠ k := by
  simpa using List.find?_eq_none.1 h i (State.mem_ringOrder.2 hi)

theorem State.tokenTaker_some {s : State} {cl i : Nat} (h : s.tokenTaker cl = some i) :
    i < 4 ∧ (s.core (4 * cl + i)).wallet < 1023 := by
  have hk : ∃ k, k ≠ 4 ∧ s.firstOfClass cl k = some i := by
    rw [State.tokenTaker_eq, Option.or_eq_some_iff, Option.or_eq_some_iff] at h
    rcases h with (h | ⟨-, h⟩) | ⟨-, h⟩
    · exact ⟨1, by decide, h⟩
    · exact ⟨2, by decide, h⟩
    · exact ⟨3, by decide, h⟩
  obtain ⟨k, hk, hi⟩ := hk
  obtain ⟨hlt, hclass⟩ := State.firstOfClass_some hi
  exact ⟨hlt, Nat.not_le.1 (fun hfull => hk (hclass.symm.trans (State.tokenClass_eq_four.2 hfull)))⟩

theorem State.tokenTaker_none {s : State} {cl : Nat} (h : s.tokenTaker cl = none) {i : Nat} (hi : i < 4) :
    1023 ≤ (s.core (4 * cl + i)).wallet := by
  rw [State.tokenTaker_eq, Option.or_eq_none_iff, Option.or_eq_none_iff] at h
  obtain ⟨⟨h1, h2⟩, h3⟩ := h
  rcases s.tokenClass_cases (4 * cl + i) with hk | hk | hk | hk
  · exact absurd hk (State.firstOfClass_none h1 hi)
  · exact absurd hk (State.firstOfClass_none h2 hi)
  · exact absurd hk (State.firstOfClass_none h3 hi)
  · exact State.tokenClass_eq_four.1 hk

/-- A cluster's only starved wallet takes the next token. -/
theorem State.tokenTaker_starved {s : State} {cl i : Nat} (hi : i < 4) (hs : s.tokenClass (4 * cl + i) = 1)
    (hothers : ∀ j < 4, j ≠ i → s.tokenClass (4 * cl + j) ≠ 1) : s.tokenTaker cl = some i := by
  have hfirst : s.firstOfClass cl 1 = some i := by
    cases h : s.firstOfClass cl 1 with
    | none => exact absurd hs (State.firstOfClass_none h hi)
    | some j =>
      obtain ⟨hj, hclass⟩ := State.firstOfClass_some h
      by_contra hne
      exact hothers j hj (fun heq => hne (congrArg some heq)) hclass
  rw [State.tokenTaker_eq, hfirst]
  rfl

/-- What a station's offer of `n` tokens to its cluster comes to when `left` of them go on. -/
structure State.Offered (s t : State) (cl n left : Nat) : Prop where
  dies   : t.dies = s.dies
  others : ∀ c, c < 4 * cl ∨ 4 * cl + 4 ≤ c → t.core c = s.core c
  sum    : t.wallets (4 * cl) + left = s.wallets (4 * cl) + n
  gains  : ∀ i < 4, (s.core (4 * cl + i)).wallet ≤ (t.core (4 * cl + i)).wallet ∧ (t.core (4 * cl + i)).wallet ≤ 1023
  full   : left ≠ 0 → ∀ i < 4, (t.core (4 * cl + i)).wallet = 1023

/-- One token put into a wallet of the cluster. -/
def State.giveToken (s : State) (cl i : Nat) : State :=
  (s.updCore (4 * cl + i) (fun c => { c with wallet := c.wallet + 1 })).updCluster cl (fun c => { c with ringRot := (i + 1) % 4 })

theorem State.core_giveToken (s : State) (cl i c : Nat) : (s.giveToken cl i).core c =
    if c = 4 * cl + i then { s.core (4 * cl + i) with wallet := (s.core (4 * cl + i)).wallet + 1 } else s.core c :=
  s.core_updCore (4 * cl + i) c (fun c => { c with wallet := c.wallet + 1 })

theorem State.wallet_giveToken (s : State) (cl i c : Nat) :
    ((s.giveToken cl i).core c).wallet = (s.core c).wallet + if c = 4 * cl + i then 1 else 0 := by
  rw [State.core_giveToken]
  split
  next h => rw [h]
  next => rfl

theorem State.wallets_giveToken (s : State) (cl : Nat) {i : Nat} (hi : i < 4) :
    (s.giveToken cl i).wallets (4 * cl) = s.wallets (4 * cl) + 1 := by
  simp only [State.wallets, State.wallet_giveToken]
  have h : i = 0 ∨ i = 1 ∨ i = 2 ∨ i = 3 := by omega
  rcases h with rfl | rfl | rfl | rfl <;> simp <;> omega

theorem State.offer_succ_some {s : State} {cl i : Nat} (h : s.tokenTaker cl = some i) (n : Nat) :
    s.offer cl (n + 1) = (s.giveToken cl i).offer cl n := by
  rw [State.offer, h]
  rfl

theorem State.offer_succ_none {s : State} {cl : Nat} (h : s.tokenTaker cl = none) (n : Nat) : s.offer cl (n + 1) = (s, n + 1) := by
  rw [State.offer, h]

theorem State.offered (s : State) (cl n : Nat) (hw : ∀ i < 4, (s.core (4 * cl + i)).wallet ≤ 1023) :
    s.Offered (s.offer cl n).1 cl n (s.offer cl n).2 := by
  induction n generalizing s with
  | zero => exact ⟨rfl, fun _ _ => rfl, rfl, fun i hi => ⟨le_refl _, hw i hi⟩, fun h => absurd rfl h⟩
  | succ n ih =>
    cases ht : s.tokenTaker cl with
    | none =>
      rw [State.offer_succ_none ht]
      exact ⟨rfl, fun _ _ => rfl, rfl, fun i hi => ⟨le_refl _, hw i hi⟩,
        fun _ i hi => le_antisymm (hw i hi) (State.tokenTaker_none ht hi)⟩
    | some k =>
      obtain ⟨hk, hlt⟩ := State.tokenTaker_some ht
      have hgain (c : Nat) := s.wallet_giveToken cl k c
      have h := ih (s.giveToken cl k) (fun i hi => by
        rw [hgain]
        split
        next heq => rw [heq]; omega
        next => exact hw i hi)
      rw [State.offer_succ_some ht]
      refine ⟨h.dies, fun c hc => (h.others c hc).trans ?_, ?_, fun i hi => ⟨le_trans ?_ (h.gains i hi).1, (h.gains i hi).2⟩, h.full⟩
      · rw [State.core_giveToken, if_neg (by omega)]
      · rw [h.sum, s.wallets_giveToken cl hk]
        omega
      · rw [hgain]
        exact Nat.le_add_right ..

/-! ### A wallet that becomes starved at a station (R44) -/

/-- A mark of starvation leaves the dies, the wallets' tokens and the other cores. -/
structure State.SameTokens (s t : State) (cl : Nat) : Prop where
  dies   : t.dies = s.dies
  wallet : ∀ c, (t.core c).wallet = (s.core c).wallet
  others : ∀ c, c < 4 * cl ∨ 4 * cl + 4 ≤ c → t.core c = s.core c

theorem State.markStarved_tokens (s : State) {cl i : Nat} (hi : i < 4) : s.SameTokens (s.markStarved (4 * cl + i)) cl := by
  cases hx : (s.line (4 * cl + i)).head? with
  | none => simp only [State.markStarved, hx]; exact ⟨rfl, fun _ => rfl, fun _ _ => rfl⟩
  | some x =>
    rw [State.markStarved_eq hx]
    split
    · refine ⟨rfl, fun c => ?_, fun c hc => ?_⟩
      · rw [State.core_updCore]
        split
        next h => rw [h]
        next => rfl
      · rw [State.core_updCore, if_neg (by omega)]
    · exact ⟨rfl, fun _ => rfl, fun _ _ => rfl⟩

/-- The wallets of a cluster that are to become starved have done so. -/
def State.markCluster (s : State) (cl : Nat) : State := (List.range 4).foldl (fun s i => s.markStarved (4 * cl + i)) s

theorem State.markCluster_tokens (s : State) (cl : Nat) : s.SameTokens (s.markCluster cl) cl := by
  have hfold (is : List Nat) (u : State) (h : ∀ i ∈ is, i < 4) : u.SameTokens (is.foldl (fun s i => s.markStarved (4 * cl + i)) u) cl := by
    induction is generalizing u with
    | nil => exact ⟨rfl, fun _ => rfl, fun _ _ => rfl⟩
    | cons i is ih =>
      have h1 := u.markStarved_tokens (cl := cl) (h i (List.mem_cons_self ..))
      have h2 := ih (u.markStarved (4 * cl + i)) (fun j hj => h j (List.mem_cons_of_mem _ hj))
      exact ⟨h2.dies.trans h1.dies, fun c => (h2.wallet c).trans (h1.wallet c), fun c hc => (h2.others c hc).trans (h1.others c hc)⟩
  exact hfold _ s (fun i hi => List.mem_range.1 hi)

/-- A wallet that is starved, or whose first in line has not waited long enough, stays as it is. -/
theorem State.markStarved_id {s : State} {core : Nat}
    (h : s.starvedNow core = true ∨ ∀ x, (s.line core).head? = some x → x.2.2.revs < 32) : s.markStarved core = s := by
  cases hx : (s.line core).head? with
  | none => simp only [State.markStarved, hx]
  | some x =>
    rw [State.markStarved_eq hx]
    rcases h with h | h
    · exact if_neg (fun hc => Bool.false_ne_true (hc.2.symm.trans h))
    · exact if_neg (fun hc => absurd hc.1 (Nat.not_le.2 (h x hx)))

theorem State.markCluster_id {s : State} {cl : Nat} (h : ∀ i < 4, s.starvedNow (4 * cl + i) = true ∨
    ∀ x, (s.line (4 * cl + i)).head? = some x → x.2.2.revs < 32) : s.markCluster cl = s := by
  have hfold (is : List Nat) (hlt : ∀ i ∈ is, i < 4) : is.foldl (fun s i => s.markStarved (4 * cl + i)) s = s := by
    induction is with
    | nil => rfl
    | cons i is ih =>
      rw [List.foldl_cons, State.markStarved_id (h i (hlt i (List.mem_cons_self ..)))]
      exact ih (fun j hj => hlt j (List.mem_cons_of_mem _ hj))
  exact hfold _ (fun i hi => List.mem_range.1 hi)

/-! ### A station (R43) -/

/-- The slots of a ring once a station has passed on what no wallet took. -/
def passOn (m : SMap Nat) (station left : Nat) : SMap Nat := if left = 0 then m.del station else (m.del station).put (station + 1) left

theorem get_passOn {m : SMap Nat} {station : Nat} (hfree : m.get (station + 1) 0 = 0) (left k : Nat) :
    (passOn m station left).get k 0 = if k = station then 0 else if k = station + 1 then left else m.get k 0 := by
  unfold passOn
  split
  next h =>
    rw [SMap.get_del]
    split
    · rfl
    · split
      next hk => rw [hk, hfree, h]
      · rfl
  next h =>
    rw [SMap.get_put, SMap.get_del]
    split
    next hk => rw [if_neg (by omega)]
    · rfl

theorem execRingStation_eq {s : State} {die station : Nat} (hclk : s.clocked die = true)
    (hfree : (s.die die).slots.get (station + 1) 0 = 0) {p : State × Nat}
    (hp : (s.markCluster (8 * die + station)).offer (8 * die + station) ((s.die die).slots.get station 0) = p) :
    exec (.ringStation die station) s =
      .next (p.1.updDie die (fun d => { d with slots := passOn d.slots station p.2 })) := by
  subst hp
  exact if_neg (by simp [hclk, hfree])

/-- Settles O45: a station's offer keeps the sum of the tokens (`State.offered`), and its marks of starvation move none. -/
theorem tokenRing : Obligations.TokenRing := by
  unfold Obligations.TokenRing
  refine ⟨fun s die hclk hfree => ?_, fun s die station hclk hfree => ?_, fun s die hclk => ?_⟩
  · intro d added
    have hadded : added = d.inject := rfl
    have hdie (x : Die) : ((s.setDie die x).ageFirst die).die die = x := (s.die_setDie die die x).trans (if_pos rfl)
    have hw : d.wholeTokens = min ((d.fraction + added) / 16) 4095 := rfl
    refine ⟨_, execTokenInject_eq hclk hfree, ?_⟩
    rw [hdie]
    refine ⟨?_, fun hlt => ?_, fun k hk => ?_, rfl, fun _ => rfl⟩
    · rw [Die.get_injected hfree, if_pos rfl, ← hadded]
      show 16 * d.wholeTokens + (d.fraction + added - 16 * d.wholeTokens) = _
      omega
    · show d.fraction + added - 16 * d.wholeTokens < 16
      omega
    · rw [Die.get_injected hfree, if_neg hk]
  · intro d first hw
    have hmark := s.markCluster_tokens (8 * die + station)
    have hoff := (s.markCluster (8 * die + station)).offered (8 * die + station) (d.slots.get station 0)
      (fun i hi => (hmark.wallet _).trans_le (hw i hi))
    rcases hp : (s.markCluster (8 * die + station)).offer (8 * die + station) (d.slots.get station 0) with ⟨t, left⟩
    rw [hp] at hoff
    have hdie : ((t.updDie die (fun d => { d with slots := passOn d.slots station left })).die die).slots = passOn d.slots station left := by
      rw [State.die_updDie, if_pos rfl, State.die, hoff.dies, hmark.dies]
      rfl
    have hget (k : Nat) := get_passOn hfree left k
    refine ⟨_, execRingStation_eq hclk hfree hp, ?_, fun i hi => ⟨?_, (hoff.gains i hi).2⟩, fun hne => hoff.full ?_, ?_, fun k hk hk' => ?_,
      fun i hi hone hst hlt hothers => ?_, fun c hc => (hoff.others c hc).trans (hmark.others c hc)⟩
    · intro w
      have hsum := hoff.sum
      simp only [State.wallets, hmark.wallet] at hsum
      rw [hdie, hget, if_neg (by omega), if_pos rfl]
      exact hsum
    · exact (hmark.wallet _).symm.trans_le (hoff.gains i hi).1
    · rwa [hdie, hget, if_neg (by omega), if_pos rfl] at hne
    · rw [hdie, hget, if_pos rfl]
    · rw [hdie, hget, if_neg hk, if_neg hk']
    · have hid : s.markCluster (8 * die + station) = s := State.markCluster_id (fun j hj => by
        by_cases hji : j = i
        · exact .inl (hji ▸ hst)
        · exact .inr (hothers j hj hji).2)
      have htaker : s.tokenTaker (8 * die + station) = some i :=
        State.tokenTaker_starved hi ((State.tokenClass_starved hlt).2 hst) (fun j hj hji hclass => by
          by_cases hjw : (s.core (4 * (8 * die + station) + j)).wallet < 1023
          · exact Bool.false_ne_true ((hothers j hj hji).1.symm.trans ((State.tokenClass_starved hjw).1 hclass))
          · exact absurd (hclass.symm.trans (State.tokenClass_eq_four.2 (Nat.not_lt.1 hjw))) (by decide))
      rw [hid, hone, State.offer_succ_some htaker] at hp
      have ht : t = s.giveToken (8 * die + station) i := (congrArg Prod.fst hp).symm
      rw [ht]
      exact (s.wallet_giveToken ..).trans (congrArg _ (if_pos rfl))
  · refine ⟨_, if_neg (by simp [hclk]), ?_⟩
    rw [State.die_updDie, if_pos rfl]
    exact ⟨(SMap.get_del ..).trans (if_pos rfl), rfl, fun k hk => (SMap.get_del ..).trans (if_neg hk), rfl⟩

end Sys2Proof.Machine

/-! PROOFS. The matrix arbiter (O48): the grant of a pass, the operand latch of MMAG, and the aging of a request. -/

namespace Sys2Proof.Machine

/-! ### Bytes of rows of one length after one another -/

theorem getD_flatMap_rows {α : Type} (l : List α) (f : α → List Byte) {n : Nat} (hlen : ∀ x ∈ l, (f x).length = n) (d : α) {i y : Nat}
    (hi : i < l.length) (hy : y < n) : (l.flatMap f).getD (i * n + y) 0 = (f (l.getD i d)).getD y 0 := by
  induction l generalizing i with
  | nil => cases hi
  | cons x l ih =>
    have hx := hlen x (List.mem_cons_self ..)
    rw [List.flatMap_cons]
    cases i with
    | zero =>
      rw [Nat.zero_mul, Nat.zero_add, List.getD_append _ _ _ _ (by omega)]
      rfl
    | succ i =>
      rw [List.getD_append_right _ _ _ _ (by rw [hx, Nat.succ_mul]; omega), hx,
        show (i + 1) * n + y - n = i * n + y by rw [Nat.succ_mul]; omega]
      exact ih (fun z hz => hlen z (List.mem_cons_of_mem _ hz)) (by simpa using hi)

theorem State.dscRead_length (s : State) (b : Block) (d : Dsc) (off n : Nat) : (s.dscRead b d off n).length = n := by
  unfold State.dscRead
  split <;> exact bufRead_length ..

theorem bufRead_getD (m : List Host.Cell) (a : Nat) {n y : Nat} (hy : y < n) : (bufRead m a n).getD y 0 = (bufRead m (a + y) 1).headD 0 := by
  rw [bufRead, List.getD_eq_getElem?_getD, List.getElem?_map, List.getElem?_range hy]
  rfl

/-- A byte of a read is what a read of that byte gives. -/
theorem State.dscRead_getD (s : State) (b : Block) (d : Dsc) (off : Nat) {n y : Nat} (hy : y < n) :
    (s.dscRead b d off n).getD y 0 = (s.dscRead b d (off + y) 1).headD 0 := by
  unfold State.dscRead
  split
  · exact (bufRead_getD _ _ hy).trans (by rw [State.wbfRead, Nat.add_assoc, Nat.add_assoc])
  · exact (bufRead_getD _ _ hy).trans (by rw [State.aspRead, Nat.add_assoc, Nat.add_assoc])

/-- The rows that an MMAG gathers stand in its latch in the order of its indices (R293). -/
theorem State.getD_gatherRows {s : State} {m : MatOp} {b : Block} (hb : s.block m.blk = some b) {i y : Nat} (hi : i < m.idx.length)
    (hy : y < (rowsA m.fmt (kTotal m.fmt m.passes) false true).len) :
    (s.gatherRows m).getD (i * (rowsA m.fmt (kTotal m.fmt m.passes) false true).len + y) 0 =
      (s.dscRead b (Dsc.of m.da)
        ((m.idx.getD i 0).toNat * (Dsc.of m.da).stride (rowsA m.fmt (kTotal m.fmt m.passes) false true) + y) 1).headD 0 := by
  unfold State.gatherRows
  simp only [hb]
  rw [getD_flatMap_rows m.idx _ (fun x _ => s.dscRead_length ..) 0 hi hy]
  exact s.dscRead_getD _ _ _ hy

/-! ### A clock of the arbiter (R45, R292) -/

/-- An operation after a clock in which it is granted no pass. -/
def MatOp.bumped (m : MatOp) : MatOp :=
  { m with waited := if m.opc ≠ 0xEF ∧ m.granted < m.passes then m.waited + 1 else m.waited }

theorem MatOp.id_of_bumped {m o : MatOp} (h : m.bumped = o.bumped) : m.id = o.id := by
  have hid := congrArg MatOp.id h
  exact hid

theorem map_bumped (l : List MatOp) :
    l.map (fun m => if m.opc != 0xEF && m.granted < m.passes then { m with waited := m.waited + 1 } else m) = l.map MatOp.bumped := by
  refine List.map_congr_left (fun m _ => ?_)
  rw [MatOp.bumped]
  by_cases h : m.opc ≠ 0xEF ∧ m.granted < m.passes
  · rw [if_pos h, if_pos (by simpa using h)]
  · rw [if_neg h, if_neg (by simpa using h)]

theorem matAllowed_iff (l : List MatOp) (m : MatOp) : matAllowed l m = true ↔ m.opc ≠ 0xEF ∧ m.granted < m.passes ∧
    ∀ o ∈ l, o.id = m.id ∨ o.opc = 0xEF ∨ o.blk ≠ m.blk ∨ o.tile ≠ m.tile ∨ (o.granted = 0 ∧ ¬ (o.slot = m.slot ∧ o.id < m.id)) := by
  simp [matAllowed, and_assoc, or_assoc, imp_iff_not_or]

theorem matAllowed_bumped (l : List MatOp) (m : MatOp) : matAllowed (l.map MatOp.bumped) m.bumped = matAllowed l m := by
  rw [Bool.eq_iff_iff, matAllowed_iff, matAllowed_iff, List.forall_mem_map]
  rfl

/-- The operation that a clock of the arbiter grants a pass, as it stands after the clock's waiting. -/
def Cluster.granted (c : Cluster) : Option MatOp :=
  (sortLex MatOp.rank ((c.mat.map MatOp.bumped).filter (matAllowed (c.mat.map MatOp.bumped)))).head?

theorem Cluster.granted_some {c : Cluster} {x : MatOp} (h : c.granted = some x) : ∃ m ∈ c.mat, x = m.bumped ∧ matAllowed c.mat m = true := by
  obtain ⟨hx, hallowed⟩ := List.mem_filter.1 ((mem_sortLex _).1 (List.mem_of_head? h))
  obtain ⟨m, hm, rfl⟩ := List.mem_map.1 hx
  exact ⟨m, hm, rfl, matAllowed_bumped _ _ ▸ hallowed⟩

/-- The highest-ranked of those that are allowed is granted the pass. -/
theorem Cluster.granted_first {c : Cluster} {m : MatOp} (hm : m ∈ c.mat) (hallowed : matAllowed c.mat m = true)
    (hfirst : ∀ o ∈ c.mat, o ≠ m → matAllowed c.mat o = true → lexLt m.rank o.rank = true) : c.granted = some m.bumped := by
  refine head?_sortLex (List.mem_filter.2 ⟨List.mem_map_of_mem hm, (matAllowed_bumped ..).trans hallowed⟩) (fun y hy hne => ?_)
  obtain ⟨hy, hyallowed⟩ := List.mem_filter.1 hy
  obtain ⟨o, ho, rfl⟩ := List.mem_map.1 hy
  refine (lexLt_iff _ _).1 (hfirst o ho (fun h => hne (congrArg MatOp.bumped h)) ((matAllowed_bumped ..).symm.trans hyallowed))

/-- An operation that is granted a pass. -/
def MatOp.grant (m : MatOp) (latch : List Byte) : MatOp := { m with granted := m.granted + 1, latch := latch }

/-- An operation after a clock of the arbiter. -/
def State.afterGrant (s : State) (c : Cluster) (m : MatOp) : MatOp :=
  if c.granted = some m.bumped then
    m.bumped.grant (if m.opc = 0xED ∧ m.granted = 0 then s.gatherRows m else m.latch)
  else m.bumped

theorem execMatrixPassGrant_eq {s : State} {cl : Nat} (hclk : s.clocked (clusterDie cl) = true)
    (hage : (s.cluster cl).mat.any MatOp.dueAge = false) (hids : ((s.cluster cl).mat.map (·.id)).Nodup) :
    exec (.matrixPassGrant cl) s =
      .next (s.setCluster cl { s.cluster cl with mat := (s.cluster cl).mat.map (s.afterGrant (s.cluster cl)) }) := by
  show execMatrixPassGrant cl s = _
  unfold execMatrixPassGrant
  simp only [hclk, hage, map_bumped]
  refine (if_neg (by simp)).trans ?_
  cases hsort : sortLex MatOp.rank (((s.cluster cl).mat.map MatOp.bumped).filter (matAllowed ((s.cluster cl).mat.map MatOp.bumped))) with
  | nil =>
    have hnone : (s.cluster cl).granted = none := congrArg List.head? hsort
    have hmap : (s.cluster cl).mat.map (s.afterGrant (s.cluster cl)) = (s.cluster cl).mat.map MatOp.bumped :=
      List.map_congr_left (fun m _ => if_neg (by rw [hnone]; simp))
    rw [hmap]
  | cons x rest =>
    have hx : (s.cluster cl).granted = some x := congrArg List.head? hsort
    obtain ⟨m₀, hm₀, rfl, -⟩ := Cluster.granted_some hx
    have hmap : (s.cluster cl).mat.map (s.afterGrant (s.cluster cl)) = ((s.cluster cl).mat.map MatOp.bumped).map (fun m =>
        if m.id = m₀.bumped.id then
          m.grant (if m₀.bumped.opc = 0xED && m₀.bumped.granted = 0 then s.gatherRows m₀.bumped else m₀.bumped.latch)
        else m) := by
      rw [List.map_map]
      refine List.map_congr_left (fun m hm => ?_)
      rw [State.afterGrant, hx]
      by_cases hid : m.id = m₀.id
      · obtain rfl : m = m₀ := List.inj_on_of_nodup_map hids hm hm₀ hid
        rw [if_pos rfl]
        refine Eq.trans ?_ (if_pos rfl).symm
        rw [show s.gatherRows m.bumped = s.gatherRows m from rfl]
        have hcond : (m.opc = 0xED ∧ m.granted = 0) ↔ (m.bumped.opc = 0xED && m.bumped.granted = 0) = true := by
          rw [Bool.and_eq_true, decide_eq_true_iff, decide_eq_true_iff]
          exact Iff.rfl
        exact congrArg m.bumped.grant (if_congr hcond rfl rfl)
      · rw [if_neg (fun h => hid (MatOp.id_of_bumped (Option.some.inj h)).symm)]
        exact (if_neg hid).symm
    rw [hmap]
    rfl

/-- An operation's fields that a clock of the arbiter leaves, and how long it has waited. -/
theorem State.afterGrant_frame (s : State) (c : Cluster) (m : MatOp) : s.afterGrant c m = { m with
    granted := (s.afterGrant c m).granted, waited := if m.opc ≠ 0xEF ∧ m.granted < m.passes then m.waited + 1 else m.waited,
    latch := (s.afterGrant c m).latch } := by
  unfold State.afterGrant
  split <;> rfl

theorem State.granted_afterGrant (s : State) (c : Cluster) (m : MatOp) :
    (s.afterGrant c m).granted = if c.granted = some m.bumped then m.granted + 1 else m.granted := by
  unfold State.afterGrant
  split <;> rfl

/-- A pass is granted where R292 allows it. -/
theorem State.allowed_of_afterGrant {s : State} {c : Cluster} (hids : (c.mat.map (·.id)).Nodup) {m : MatOp} (hm : m ∈ c.mat)
    (h : (s.afterGrant c m).granted ≠ m.granted) : c.granted = some m.bumped ∧ matAllowed c.mat m = true := by
  rw [State.granted_afterGrant] at h
  have hg : c.granted = some m.bumped := by
    by_contra hno
    exact h (if_neg hno)
  obtain ⟨o, ho, hbump, hallowed⟩ := Cluster.granted_some hg
  obtain rfl : m = o := List.inj_on_of_nodup_map hids hm ho (MatOp.id_of_bumped hbump)
  exact ⟨hg, hallowed⟩

/-! ### A request that has waited long enough (R45) -/

theorem le_foldl_max (l : List Nat) (a : Nat) : a ≤ l.foldl max a ∧ ∀ x ∈ l, x ≤ l.foldl max a := by
  induction l generalizing a with
  | nil => exact ⟨le_refl a, fun _ h => by cases h⟩
  | cons y l ih =>
    obtain ⟨ha, hl⟩ := ih (max a y)
    refine ⟨le_trans (le_max_left ..) ha, fun x hx => ?_⟩
    rcases List.mem_cons.1 hx with rfl | hx
    · exact le_trans (le_max_right ..) ha
    · exact hl x hx

/-- Settles O48: a clock of the arbiter is `State.afterGrant` of each operation, by `execMatrixPassGrant_eq`. -/
theorem matrixGrants : Obligations.MatrixGrants := by
  unfold Obligations.MatrixGrants
  refine ⟨fun s cl => ?_, fun s cl op m hm hid hdue => ⟨fun hclk => ?_, fun hclk => ?_⟩⟩
  · intro c hclk hage hids
    have hcluster (x : Cluster) (k : Nat) := s.cluster_setCluster cl k x
    refine ⟨_, execMatrixPassGrant_eq hclk hage hids, ?_⟩
    rw [hcluster, if_pos rfl]
    refine ⟨List.length_map .., rfl, fun k hk => (hcluster _ k).trans (if_neg hk), rfl, fun i m hi => ?_⟩
    have hm : m ∈ c.mat := List.mem_of_getElem? hi
    have hat (j : Nat) {x : MatOp} (hx : c.mat[j]? = some x) : (c.mat.map (s.afterGrant c))[j]? = some (s.afterGrant c x) := by
      rw [List.getElem?_map, hx]
      rfl
    have hframe := s.afterGrant_frame c m
    have hgranted := s.granted_afterGrant c m
    refine ⟨s.afterGrant c m, hat i hi, ?_, ?_, fun hne => ?_, ?_, fun hopc h0 h1 b hb => ?_, fun hallowed hfirst => ⟨?_, fun j x y hj hx hy => ?_⟩⟩
    · rw [hframe]
    · rw [hframe]
    · obtain ⟨hopc, hpass, hall⟩ := (matAllowed_iff ..).1 (State.allowed_of_afterGrant hids hm hne).2
      refine ⟨hopc, hpass, fun o ho hoid hoopc hblk htile => ?_⟩
      rcases hall o ho with h | h | h | h | h
      · exact absurd h hoid
      · exact absurd h hoopc
      · exact absurd hblk h
      · exact absurd htile h
      · exact h.1
    · rw [hgranted]
      by_cases hg : c.granted = some m.bumped
      · exact .inl (if_pos hg)
      · exact .inr (if_neg hg)
    · have hg := (State.allowed_of_afterGrant hids hm (by rw [h1, h0]; decide)).1
      have hlatch : (s.afterGrant c m).latch = s.gatherRows m := by
        rw [State.afterGrant, if_pos hg, MatOp.grant, if_pos ⟨hopc, h0⟩]
      intro d r k hk y hy
      rw [hlatch]
      exact State.getD_gatherRows hb hk hy
    · rw [hgranted, if_pos (Cluster.granted_first hm hallowed hfirst)]
    · obtain rfl : s.afterGrant c x = y := Option.some.inj ((hat j hx).symm.trans hy)
      rw [State.granted_afterGrant, if_neg]
      rw [Cluster.granted_first hm hallowed hfirst]
      intro heq
      have hids_eq : m.id = x.id := MatOp.id_of_bumped (Option.some.inj heq)
      refine hj ((List.getElem?_inj (l := c.mat.map (·.id)) ?_ hids).1 ?_)
      · obtain ⟨hlt, -⟩ := List.getElem?_eq_some_iff.1 hx
        rw [List.length_map]
        exact hlt
      · rw [List.getElem?_map, List.getElem?_map, hx, hi, Option.map_some, Option.map_some, hids_eq]
  · exact congrArg Host.Outcome.next (if_neg (by simp [hclk]))
  · have hle := le_foldl_max ((s.cluster cl).mat.filterMap (·.aged)) 0
    refine ⟨_, ((s.cluster cl).mat.filterMap (·.aged)).foldl max 0 + 1, congrArg Host.Outcome.next (if_pos hclk), ?_,
      fun o ho b hb => Nat.lt_succ_of_le (hle.2 b (List.mem_filterMap.2 ⟨o, ho, hb⟩)), fun o ho hne => ?_, rfl⟩
    · rw [State.cluster_setCluster, if_pos rfl]
      exact List.mem_map.2 ⟨m, hm, (if_pos hid).trans (if_pos hdue)⟩
    · rw [State.cluster_setCluster, if_pos rfl]
      exact List.mem_map.2 ⟨o, ho, if_neg hne⟩

end Sys2Proof.Machine

/-! PROOFS. Dispatch, placement, the INBOX copy and the turn of the phase (O53). -/

namespace Sys2Proof.Machine

/-! ### A launch that is not over (R68, R74) -/

/-- An entry of a table stands in it after a write, or is the one that was written over. -/
theorem SMap.mem_put_of_mem {α : Type} {m : SMap α} {i : Nat} {q : Nat × α} (h : q ∈ m) (y : α) :
    q ∈ m.put i y ∨ (q.1 = i ∧ m.look i = some q.2) := by
  induction m with
  | nil => cases h
  | cons p m ih =>
    obtain ⟨k, v⟩ := p
    rw [SMap.put, SMap.look]
    by_cases hk : k = i
    · rw [if_pos hk, if_pos hk]
      rcases List.mem_cons.1 h with rfl | h
      · exact .inr ⟨hk, rfl⟩
      · exact .inl (List.mem_cons_of_mem _ h)
    · rw [if_neg hk, if_neg hk]
      split
      · exact .inl (List.mem_cons_of_mem _ h)
      · rcases List.mem_cons.1 h with rfl | h
        · exact .inl (List.mem_cons_self ..)
        · exact (ih h).imp_left (List.mem_cons_of_mem _)

theorem State.hasBlock_iff (s : State) (lid : Nat) : s.hasBlock lid = true ↔
    (∃ p ∈ s.blocks, p.2.launch = lid ∧ p.2.ended = false) ∨ ∃ p ∈ s.vfs, ∃ r ∈ p.2.swapped, r.block.launch = lid := by
  simp [State.hasBlock]

/-- A record posted for a launch takes no block from it. -/
theorem State.hasBlock_postKill {s : State} {lid : Nat} (h : s.hasBlock lid = true) (vf die : Nat) (r : FaultInfo) :
    (s.postKill vf die r).hasBlock lid = true := by
  rw [State.hasBlock_iff] at h ⊢
  refine h.imp_right ?_
  rintro ⟨p, hp, x, hx, hlid⟩
  rcases SMap.mem_put_of_mem (i := vf) hp { s.vf vf with records := (s.vf vf).records ++ [r] } with hp' | ⟨hv, hlook⟩
  · exact ⟨p, hp', x, hx, hlid⟩
  · have hvf : s.vf vf = p.2 := by rw [State.vf, SMap.get, hlook]; rfl
    exact ⟨_, SMap.mem_of_look ((SMap.look_put_self ..)), x, by rw [hvf]; exact hx, hlid⟩

theorem State.hasBlock_of_same {s t : State} {lid : Nat} (h : s.hasBlock lid = true) (hb : t.blocks = s.blocks) (hv : t.vfs = s.vfs) :
    t.hasBlock lid = true := by
  rw [State.hasBlock, hb, hv]
  exact h

/-- A frame popped leaves a launch but for its stacks and what frames its nodes have. -/
theorem Launch.foldl_pop_frame (ps : List (Nat × Nat × Nat)) (l : Launch) :
    ∃ hs, ∃ f : Node → Node, (∀ n, f n = { n with frame := (f n).frame }) ∧
      ps.foldl (fun l p => l.pop p.2) l = { l with heights := hs, nodes := l.nodes.mapVals (fun _ n => f n) } := by
  induction ps generalizing l with
  | nil =>
    refine ⟨l.heights, id, fun _ => rfl, ?_⟩
    rw [List.foldl_nil, show l.nodes.mapVals (fun _ n => id n) = l.nodes from List.map_id' ..]
  | cons p ps ih =>
    obtain ⟨hs, f, hf, heq⟩ := ih (l.pop p.2)
    refine ⟨hs, fun n => f (if n.frame == some p.2 then { n with frame := none } else n), fun n => ?_, ?_⟩
    · dsimp only
      rw [hf]
      split <;> rfl
    · rw [List.foldl_cons, heq, Launch.pop]
      dsimp only
      rw [SMap.mapVals, SMap.mapVals, SMap.mapVals, List.map_map]
      rfl

/-- What an engine's step leaves of a launch that still has a block: its stacks and frames apart, all of it. -/
theorem State.settle_open {s : State} {lid : Nat} {l : Launch} (hl : s.launch lid = some l) (hb : s.hasBlock lid = true) :
    ∃ hs ps, ∃ f : Node → Node, (∀ n, f n = { n with frame := (f n).frame }) ∧
      (s.settle lid).launch lid = some { l with pops := ps, heights := hs, nodes := l.nodes.mapVals (fun _ n => f n) } ∧
      { s.settle lid with launches := s.launches } = s := by
  have hpops : ∃ hs ps, ∃ f : Node → Node, (∀ n, f n = { n with frame := (f n).frame }) ∧
      (s.settlePops lid).launch lid = some { l with pops := ps, heights := hs, nodes := l.nodes.mapVals (fun _ n => f n) } ∧
      { s.settlePops lid with launches := s.launches } = s := by
    simp only [State.settlePops, hl]
    split
    · refine ⟨l.heights, l.pops, id, fun _ => rfl, ?_, rfl⟩
      rw [hl, show l.nodes.mapVals (fun _ n => id n) = l.nodes from List.map_id' ..]
    · obtain ⟨hs, f, hf, heq⟩ := Launch.foldl_pop_frame (l.pops.filter (s.popDue lid l))
        { l with pops := l.pops.filter (fun p => !(l.pops.filter (s.popDue lid l)).contains p) }
      rw [heq]
      exact ⟨hs, _, f, hf, (State.launch_setLaunch ..).trans (if_pos rfl), rfl⟩
  obtain ⟨hs, ps, f, hf, hlaunch, hframe⟩ := hpops
  have hover : (s.settlePops lid).launchOver lid { l with pops := ps, heights := hs, nodes := l.nodes.mapVals (fun _ n => f n) } = false := by
    have hblocks := congrArg State.blocks hframe
    have hvfs := congrArg State.vfs hframe
    rw [State.launchOver, State.hasBlock_of_same (t := s.settlePops lid) hb hblocks hvfs]
    simp
  have hsettle : s.settle lid = s.settlePops lid := by
    simp only [State.settle, hlaunch, hover]
    rfl
  rw [hsettle]
  exact ⟨hs, ps, f, hf, hlaunch, hframe⟩

/-! ### A block becomes resident (R16, R18) -/

theorem State.foldl_setCohort_frame (f : Nat × Nat → Cohort) (ps : List (Nat × Nat)) (s : State) :
    ∃ cs, ps.foldl (fun s p => s.setCohort p.2 (f p)) s = { s with cohorts := cs } := by
  induction ps generalizing s with
  | nil => exact ⟨s.cohorts, rfl⟩
  | cons p ps ih => exact ih (s.setCohort p.2 (f p))

theorem State.cohort_foldl_setCohort_ne (f : Nat × Nat → Cohort) {ps : List (Nat × Nat)} (s : State) {x : Nat} (hx : x ∉ ps.map Prod.snd) :
    (ps.foldl (fun s p => s.setCohort p.2 (f p)) s).cohort x = s.cohort x := by
  induction ps generalizing s with
  | nil => rfl
  | cons p ps ih =>
    rw [List.map_cons, List.mem_cons, not_or] at hx
    exact (ih _ hx.2).trans ((State.cohort_setCohort ..).trans (if_neg hx.1))

/-- Of cohorts that take different slots each stands in its own. -/
theorem State.cohort_foldl_setCohort (f : Nat × Nat → Cohort) {ps : List (Nat × Nat)} (s : State) (hn : (ps.map Prod.snd).Nodup)
    {p : Nat × Nat} (hp : p ∈ ps) : (ps.foldl (fun s p => s.setCohort p.2 (f p)) s).cohort p.2 = some (f p) := by
  induction ps generalizing s with
  | nil => cases hp
  | cons q ps ih =>
    rw [List.map_cons, List.nodup_cons] at hn
    rcases List.mem_cons.1 hp with rfl | hp
    · exact (State.cohort_foldl_setCohort_ne f _ hn.1).trans ((State.cohort_setCohort ..).trans (if_pos rfl))
    · exact ih _ hn.2 hp

/-- What an admission does: the block and its cohorts stand on the core, and the launches, the memory and the agents' lines stay. -/
structure State.Admitted (s t : State) (b : Block) (g : Nat) (pl : Place) : Prop where
  block : ∃ age since, t.block s.nextId =
    some { b with slots := pl.slots.map some, aspBase := pl.asp, wbfBase := pl.wbf, age := age, since := since }
  launches : t.launches = s.launches
  mem : t.mem = s.mem
  agents : ∀ k, (t.cluster k).waiting = (s.cluster k).waiting ∧ (t.cluster k).rot = (s.cluster k).rot
  cohorts : pl.slots.Nodup → ∀ j x, pl.slots[j]? = some x → t.cohort x = some (Cohort.fresh s.nextId j b.nlanes g)

/-- A field of a cluster that a change leaves. -/
theorem State.field_updCluster {α : Type} (s : State) (i : Nat) {f : Cluster → Cluster} (p : Cluster → α) (hp : ∀ c, p (f c) = p c)
    (k : Nat) : p ((s.updCluster i f).cluster k) = p (s.cluster k) := by
  rw [State.cluster_updCluster]
  split
  next h => rw [hp, h]
  next => rfl

theorem getElem?_zip_range {α : Type} (xs : List α) {j : Nat} {x : α} (hx : xs[j]? = some x) :
    (j, x) ∈ List.zip (List.range xs.length) xs := by
  obtain ⟨hlt, -⟩ := List.getElem?_eq_some_iff.1 hx
  refine List.mem_of_getElem? (i := j) ?_
  rw [List.getElem?_zip_eq_some]
  exact ⟨List.getElem?_range hlt, hx⟩

/-- A cluster to which a block is admitted. -/
def Cluster.admitting (c : Cluster) : Cluster := { c with emptyInt := false, used := true }

theorem State.admitTo_spec (s : State) (b : Block) (g : Nat) (pl : Place) : s.Admitted (s.admitTo b g pl).2 b g pl := by
  have hseat (u : State) (hn : pl.slots.Nodup) (j x : Nat) (hx : pl.slots[j]? = some x) :=
    State.cohort_foldl_setCohort (fun p => Cohort.fresh s.nextId p.1 b.nlanes g) (ps := List.zip (List.range pl.slots.length) pl.slots) u
      (by rwa [List.map_snd_zip (by simp)]) (getElem?_zip_range _ hx)
  unfold State.admitTo State.fresh
  dsimp only
  have hseat := hseat { s with nextId := s.nextId + 1, nextAge := s.nextAge + 1 }
  obtain ⟨cs, hcs⟩ := State.foldl_setCohort_frame (fun p => Cohort.fresh s.nextId p.1 b.nlanes g)
    (List.zip (List.range pl.slots.length) pl.slots) { s with nextId := s.nextId + 1, nextAge := s.nextAge + 1 }
  rw [hcs] at hseat ⊢
  refine ⟨⟨_, _, (State.block_setBlock ..).trans (if_pos rfl)⟩, rfl, rfl, fun k => ?_, hseat⟩
  exact ⟨s.field_updCluster (clusterOf b.core) (f := Cluster.admitting) Cluster.waiting (fun _ => rfl) k,
    s.field_updCluster (clusterOf b.core) (f := Cluster.admitting) Cluster.rot (fun _ => rfl) k⟩

/-! ### A dispatch of one node (R59, R70) -/

/-- The block of a dispatch is resident at a place of a core, with fresh cohorts, and no memory has changed. -/
def State.Resident (s t : State) (d : Dispatch) (i : Nat) (l : Launch) (n : Node) (k : KernelEntry) (c : Nat) (pl : Place) : Prop :=
  ∃ id b, t.block id = some b ∧ b.core = c ∧ b.node = i ∧ b.launch = d.launch ∧ b.vf = l.vf ∧ b.phase = d.phase ∧ b.inboxDone = false ∧
    b.slots = pl.slots.map some ∧ b.aspBase = pl.asp ∧ b.wbfBase = pl.wbf ∧ b.nlanes = n.rcd.lanes ∧ b.exact = d.exact ∧ t.mem = s.mem ∧
    ∀ j x, pl.slots[j]? = some x → t.cohort x = some (Cohort.fresh id j n.rcd.lanes k.gregs)

section
variable {s : State} {d : Dispatch} {i : Nat} {l : Launch} {n : Node} {k : KernelEntry} (hnodes : d.nodes = [i])
  (hinboxes : d.inboxes.length = 1) (hl : s.launch d.launch = some l) (hn : l.nodes.look i = some n)
  (hcopy : l.needsCopy n.rcd = false ∨ n.copySlot.isSome = true)

include hnodes hn in
theorem Launch.dispatchNeeds_one (hk : l.kernels.look (d.kernelIx n.rcd) = some k) :
    l.dispatchNeeds d = [(i, n, k, needsOf k l.txbuf d.phase n.rcd)] := by
  simp [Launch.dispatchNeeds, hnodes, hn, hk]

include hl hn hcopy

/-- A node that needs no copy of its input, or has one, gets none. The definition is unfolded by its recursor: Lean's own equation for
it exceeds the recursion limit. -/
theorem State.makeCopies_one {a : Serve} (ha : a.lid = d.launch) (inp : Option Nat × Nat) :
    s.makeCopies a d [(i, inp)] = .ok s := by
  have hno : (!l.needsCopy n.rcd || n.copySlot.isSome) = true := by
    rcases hcopy with h | h
    · rw [h]; rfl
    · rw [h, Bool.or_true]
  obtain ⟨src, len⟩ := inp
  delta State.makeCopies State.makeCopies._f
  dsimp only [List.brecOn, List.brecOn.go]
  rw [ha, hl]
  dsimp only
  rw [hn]
  dsimp only
  rw [hno]
  rfl

omit hl hn hcopy in
theorem State.admitAll_one (s : State) (d : Dispatch) (l : Launch) (gang₀ : Option Nat) (x : Nat × Node × KernelEntry × Needs)
    (inp : Option Nat × Nat) (cp : Nat × Place) : ∃ gang member, s.admitAll d l gang₀ [(x, inp, cp)] =
      (s.admitTo (d.block l x.1 cp.1 x.2.1 x.2.2.1 inp gang member) x.2.2.1.gregs cp.2).2 := ⟨_, _, rfl⟩

include hnodes hinboxes

/-- A dispatch of one node makes its block resident, and leaves the launch but for the frames that are to be popped. -/
theorem State.dispatch_one (cl : Nat) (l₀ : Launch) (nd : Needs) {c : Nat} {pl : Place} (hslots : pl.slots.Nodup) :
    s.Resident (s.dispatch cl d l₀ [(i, n, k, nd)] [(c, pl)]) d i l n k c pl ∧
      (∃ ps, (s.dispatch cl d l₀ [(i, n, k, nd)] [(c, pl)]).launch d.launch = some { l with pops := ps }) ∧
      ∀ j, ((s.dispatch cl d l₀ [(i, n, k, nd)] [(c, pl)]).cluster j).waiting = (s.cluster j).waiting ∧
        ((s.dispatch cl d l₀ [(i, n, k, nd)] [(c, pl)]).cluster j).rot = (s.cluster j).rot := by
  obtain ⟨inp, hinp⟩ := List.length_eq_one_iff.1 hinboxes
  have hdispatch : ∃ (u : State) (b : Block) (ps : List (Nat × Nat × Nat) → List (Nat × Nat × Nat)), s.dispatch cl d l₀ [(i, n, k, nd)] [(c, pl)] = u.updLaunch d.launch (fun l => { l with pops := ps l.pops }) ∧
      ({ s with nextId := s.nextId + 1 } : State).Admitted u b k.gregs pl ∧ b.core = c ∧ b.node = i ∧ b.launch = d.launch ∧
      b.vf = l.vf ∧ b.phase = d.phase ∧ b.inboxDone = false ∧ b.nlanes = n.rcd.lanes ∧ b.exact = d.exact := by
    have hmade := State.makeCopies_one (s := s) hl hn hcopy (a := { lid := d.launch, vf := l₀.vf, cl := cl, node := i }) rfl inp
    simp only [State.dispatch, hnodes, hinp, List.zip_cons_cons, List.zip_nil_left, List.headD_cons, hmade, hl, List.map_cons,
      List.map_nil, hn, Option.getD_some, State.fresh]
    obtain ⟨gang, member, hone⟩ := State.admitAll_one { s with nextId := s.nextId + 1 } d l
      (if [(i, n, k, nd)].length = 4 || d.alone.isSome then some s.nextId else none) (i, n, k, nd) (l.inboxSource i inp) (c, pl)
    rw [hone]
    refine ⟨_, d.block l i c n k (l.inboxSource i inp) gang member,
      fun ps => d.pop.elim ps (fun fr => ps ++ [(i, fr)]), ?_, State.admitTo_spec .., rfl, rfl, rfl, rfl, rfl, rfl, rfl, rfl⟩
    cases d.pop <;> rfl
  obtain ⟨u, b, ps, heq, hu, hc, hi, hlid, hvf, hphase, hdone, hlanes, hexact⟩ := hdispatch
  obtain ⟨age, since, hb⟩ := hu.block
  rw [heq]
  refine ⟨⟨_, _, hb, hc, hi, hlid, hvf, hphase, hdone, rfl, rfl, rfl, hlanes, hexact, hu.mem, ?_⟩, ⟨ps l.pops, ?_⟩, hu.agents⟩
  · rw [← hlanes]
    exact hu.cohorts hslots
  · rw [State.launch_updLaunch_self, State.launch, hu.launches]
    exact congrArg (Option.map _) hl

end

/-! ### The steps of an agent (R48, R59, R74) -/

section
variable {s : State} {cl : Nat} {d : Dispatch} {rest : List Dispatch} {l : Launch}

theorem execBlockDispatch_eq (hw : (s.cluster cl).waiting = d :: rest) (hl : s.launch d.launch = some l) (hrun : s.engineRuns l = true)
    (hclk : s.clocked (clusterDie cl) = true) (hstop : l.stop = none) : exec (.blockDispatch cl) s =
      .next (((l.dispatchNeeds d).find? (fun p => !p.2.2.2.fitsEmpty)).elim ((s.placeHead cl d rest l).getD s)
        (fun p => (s.treebound d.launch tbFit p.1).settle d.launch)) := by
  show execBlockDispatch cl s = _
  simp only [execBlockDispatch, hw, hl, hrun, hclk, hstop]
  cases (l.dispatchNeeds d).find? (fun p => !p.2.2.2.fitsEmpty) <;> rfl

theorem execBlockDispatch_drops (hw : (s.cluster cl).waiting = d :: rest)
    (h : s.launch d.launch = none ∨ (s.clocked (clusterDie cl) = true ∧ ∃ l, s.launch d.launch = some l ∧ s.engineRuns l = true ∧
      l.stop.isSome = true)) : exec (.blockDispatch cl) s = .next (s.updCluster cl (fun c => { c with waiting := rest })) := by
  show execBlockDispatch cl s = _
  rcases h with h | ⟨hclk, l, hl, hrun, hstop⟩
  · simp only [execBlockDispatch, hw, h]
  · simp only [execBlockDispatch, hw, hl, hrun, hclk, hstop]
    rfl

theorem State.placeHead_some (hfree : l.copiesFree (l.dispatchNeeds d) = true) (hsw : s.swappedFirst l d = false) {c : Nat} {pl : Place}
    (hp : s.placeNow cl (s.coreOrder cl) (l.dispatchNeeds d) = some [(c, pl)]) : s.placeHead cl d rest l =
      some ((s.updCluster cl (fun x => { x with waiting := rest, rot := (c % 4 + 1) % 4 })).dispatch cl d l (l.dispatchNeeds d) [(c, pl)]) := by
  rw [State.placeHead, hfree, hsw, hp]
  rfl

theorem State.placeHead_none (hp : s.placeNow cl (s.coreOrder cl) (l.dispatchNeeds d) = none) : s.placeHead cl d rest l = none := by
  rw [State.placeHead, hp]
  exact ite_self _

/-- A launch that is stopped as TREEBOUND while it has a block stands with its stop. -/
theorem State.treebound_settle {lid reason node : Nat} (hl : s.launch lid = some l) (hstop : l.stop = none) (hb : s.hasBlock lid = true) :
    ∃ l', ((s.treebound lid reason node).settle lid).launch lid = some l' ∧ l'.stop = some (stTreebound, reason, node) := by
  have hbound : s.treebound lid reason node =
      (s.postKill l.vf noDie (l.record codeTreebound reason node 0 0)).stopLaunch lid stTreebound reason node := by
    simp only [State.treebound, hl, hstop]
    rfl
  have hblock := State.hasBlock_postKill hb l.vf noDie (l.record codeTreebound reason node 0 0)
  have hlaunch : (s.postKill l.vf noDie (l.record codeTreebound reason node 0 0)).launch lid = some l := hl
  generalize s.postKill l.vf noDie (l.record codeTreebound reason node 0 0) = u at hbound hblock hlaunch
  have hstopped : ∃ cs, u.stopLaunch lid stTreebound reason node =
      { u.setLaunch lid { l.dropCopies with stop := some (stTreebound, reason, node), search := [] } with clusters := cs } := by
    simp only [State.stopLaunch, hlaunch, hstop]
    exact ⟨_, rfl⟩
  obtain ⟨cs, hcs⟩ := hstopped
  rw [hbound, hcs]
  obtain ⟨hs, ps, f, -, ht, -⟩ := State.settle_open (lid := lid)
    (s := { u.setLaunch lid { l.dropCopies with stop := some (stTreebound, reason, node), search := [] } with clusters := cs })
    ((State.launch_setLaunch ..).trans (if_pos rfl)) (State.hasBlock_of_same hblock rfl rfl)
  exact ⟨_, ht, rfl⟩

theorem execPlacementSearch_eq {lid : Nat} (hl : s.launch lid = some l) (hrun : s.engineRuns l = true) (hstop : l.stop = none)
    (hfits : l.search.findSome? (fun d =>
      if s.clocked (clusterDie d.taker) then (l.dispatchNeeds d).find? (fun p => !p.2.2.2.fitsEmpty) else none) = none)
    {others : List Dispatch} {cores : List (Nat × Place)} (hf : s.findSearch l [] l.search = some (d, others, cores)) :
    exec (.placementSearch lid) s =
      .next ((s.updLaunch lid (fun l => { l with search := others })).dispatch d.taker d l (l.dispatchNeeds d) cores) := by
  show execPlacementSearch lid s = _
  simp only [execPlacementSearch, hl, hrun, hstop, hfits, State.placeSearch, hf]
  rfl

end

/-! ### The INBOX copy (R54, R59, R61, R66, R72) -/

theorem bufRead_bufWrite (m : List Host.Cell) (a : Nat) (bs : List Byte) : bufRead (bufWrite m a bs) a bs.length = bs := by
  refine List.ext_getElem (bufRead_length ..) (fun i h1 h2 => ?_)
  simp only [bufRead, List.getElem_map, List.getElem_range]
  rw [bufAt_bufWrite, if_pos (by omega), Nat.add_sub_cancel_left, List.getD_eq_getElem _ _ h2]

/-- The node of a block whose copy has ended. -/
def Node.running (n : Node) : Node := if n.state == .done then n else { n with state := .running }

/-- The part once a block's input stands in its tree area. -/
def State.inputCopied (s : State) (bi : Nat) (b : Block) (bs : List Byte) : State :=
  ((s.aspWrite b b.inbox bs).setBlock bi { b with inboxDone := true }).updNode b.launch b.node Node.running

theorem State.core_inputCopied (s : State) (bi : Nat) (b : Block) (bs : List Byte) (c : Nat) : (s.inputCopied bi b bs).core c =
    if c = b.core then { s.core b.core with asp := bufWrite (s.core b.core).asp (b.aspBase + b.inbox) bs } else s.core c :=
  s.core_updCore b.core c (fun c => { c with asp := bufWrite c.asp (b.aspBase + b.inbox) bs })

section
variable {s : State} {bi : Nat} {b : Block} {l : Launch} (hb : s.block bi = some b) (hl : s.launch b.launch = some l)
include hl

theorem State.launch_inputCopied (bs : List Byte) :
    (s.inputCopied bi b bs).launch b.launch = some { l with nodes := l.nodes.upd b.node Node.running } :=
  (State.launch_updLaunch_self ((s.aspWrite b b.inbox bs).setBlock bi { b with inboxDone := true }) b.launch _).trans
    (congrArg (Option.map _) hl)

include hb

theorem execInboxCopy_waits (h : b.killed = true ∨ s.copyWaits l b = true ∨ s.dispatcherRuns b = false) :
    exec (.inboxCopy bi) s = .next s := by
  show execInboxCopy bi s = _
  simp only [execInboxCopy, hb, hl]
  rw [if_pos]
  rcases h with h | h | h <;> simp [h]

theorem execInboxCopy_eq (hdone : b.inboxDone = false) (hend : b.ended = false) (hvf : s.curVf = some b.vf)
    (hclk : s.clocked (dieOf b.core) = true) (hkill : b.killed = false) (hwait : s.copyWaits l b = false) (hrun : s.dispatcherRuns b = true)
    {bs : List Byte} (hbs : s.inputBytes { lid := b.launch, vf := b.vf, cl := b.dispatcher, node := b.node } l b.inboxAddr b.inboxLen =
      .ok bs) : exec (.inboxCopy bi) s = .next ((s.inputCopied bi b bs).settle b.launch) := by
  show execInboxCopy bi s = _
  simp only [execInboxCopy, hb, hl]
  rw [if_neg (by simp [hdone, hend, hvf, hclk, hkill, hwait, hrun]), hbs]
  rfl

end

/-- Settles O53: a dispatch of one node by `State.dispatch_one`, and the INBOX copy by `execInboxCopy_eq` and `State.settle_open`. -/
theorem blockDispatch : Obligations.BlockDispatch := by
  unfold Obligations.BlockDispatch
  refine ⟨fun s cl i d l n k hnodes hin hl hrun hstop hn hk hcopy hfree => ?_, fun s cl d rest hw h => execBlockDispatch_drops hw h,
    fun s bi b l bs hb hl hdone hend hvf hclk => ⟨fun h => execInboxCopy_waits hb hl h, fun hkill hwait hrun hbs => ?_⟩,
    fun s lid l hl hrun hstop hsweep hphase hroot hblock hbusy => ?_⟩
  · intro needs resident
    have hneeds := Launch.dispatchNeeds_one hnodes hn hk
    refine ⟨fun rest hw hclk => ?_, fun c pl rest hfits hf hslots => ?_⟩
    · have hexec := execBlockDispatch_eq hw hl hrun hclk hstop
      have hfind : (l.dispatchNeeds d).find? (fun p => !p.2.2.2.fitsEmpty) = if needs.fitsEmpty then none else some (i, n, k, needs) := by
        rw [hneeds]
        by_cases h : needs.fitsEmpty = true
        · rw [if_pos h]
          exact List.find?_cons_of_neg (show ¬ (!needs.fitsEmpty) = true by simp [h])
        · rw [if_neg h]
          exact List.find?_cons_of_pos (show (!needs.fitsEmpty) = true by simp [h])
      refine ⟨fun c pl hfits hsw hplace hslots => ?_, fun hfits hplace => ?_, fun hfits hblock => ?_⟩
      · rw [hfind, if_pos hfits, Option.elim_none, State.placeHead_some hfree hsw hplace, Option.getD_some, hneeds] at hexec
        obtain ⟨hres, -, hagents⟩ := State.dispatch_one
          (s := s.updCluster cl (fun x => { x with waiting := rest, rot := (c % 4 + 1) % 4 })) hnodes hin hl hn hcopy cl l needs
          (c := c) hslots
        have hcl := (State.cluster_updCluster s cl cl (fun x => { x with waiting := rest, rot := (c % 4 + 1) % 4 })).trans (if_pos rfl)
        exact ⟨_, hexec, hres, (hagents cl).1.trans (congrArg Cluster.waiting hcl), (hagents cl).2.trans (congrArg Cluster.rot hcl)⟩
      · rw [hexec, hfind, if_pos hfits, Option.elim_none, State.placeHead_none hplace]
        rfl
      · rw [hfind, if_neg (by simp [hfits]), Option.elim_some] at hexec
        obtain ⟨l', hl', hstop'⟩ := State.treebound_settle (reason := tbFit) (node := i) hl hstop hblock
        exact ⟨_, l', hexec, hl', hstop'⟩
    · have hexec := execPlacementSearch_eq hl hrun hstop hfits hf
      rw [hneeds] at hexec
      have hl' : (s.updLaunch d.launch (fun l => { l with search := rest })).launch d.launch = some { l with search := rest } :=
        (State.launch_updLaunch_self ..).trans (congrArg (Option.map _) hl)
      obtain ⟨hres, ⟨ps, ht⟩, -⟩ := State.dispatch_one hnodes hin hl' hn hcopy d.taker l needs (c := c) hslots
      exact ⟨_, _, hexec, hres, ht, rfl⟩
  · have hexec := execInboxCopy_eq hb hl hdone hend hvf hclk hkill hwait hrun hbs
    have hblock : (s.inputCopied bi b bs).hasBlock b.launch = true :=
      (State.hasBlock_iff ..).2 (.inl ⟨(bi, { b with inboxDone := true }), SMap.mem_of_look (SMap.look_put_self ..), rfl, hend⟩)
    obtain ⟨hs, ps, f, hf, ht, hframe⟩ := State.settle_open (State.launch_inputCopied hl bs) hblock
    have hblocks := congrArg State.blocks hframe
    have hmem := congrArg State.mem hframe
    have hcohorts := congrArg State.cohorts hframe
    have hcores := congrArg State.cores hframe
    dsimp only at hblocks hmem hcohorts hcores
    have hcore (c : Nat) : ((s.inputCopied bi b bs).settle b.launch).core c = (s.inputCopied bi b bs).core c := by
      rw [State.core, hcores]
      rfl
    refine ⟨_, hexec, ?_, hmem, hcohorts, ?_, fun n hn => ⟨_, f n.running, ht, ?_, ?_⟩, fun c x hx => ?_⟩
    · rw [State.block, hblocks]
      exact SMap.look_put_self ..
    · rw [State.aspRead, hcore, State.core_inputCopied, if_pos rfl]
      exact bufRead_bufWrite ..
    · rw [SMap.look_mapVals, SMap.look_upd_self, hn]
      rfl
    · rw [hf, Node.running]
      by_cases h : n.state = .done <;> simp [h]
    · rw [hcore, State.core_inputCopied]
      split
      next h => rw [h, bufAt_bufWrite, if_neg (by omega)]
      next => rfl
  · refine ⟨_, (?_ : exec (.phaseTurn lid) s = .next (s.setLaunch lid _)), (State.launch_setLaunch ..).trans (if_pos rfl), rfl⟩
    show execPhaseTurn lid s = _
    simp only [execPhaseTurn, hl, hrun, hstop, hsweep, hphase, hroot, hblock, hbusy]
    rfl

end Sys2Proof.Machine

/-! PROOFS. Slices and swapping (O57): a restore drops the boost claim that a saved block record holds (R358), so the blocks of the
core are not those of the image. -/

namespace Sys2Proof.Machine

/-! ### A save area that has not been touched (R357, R361) -/

/-- A range that holds what a stream has left in it is intact, whatever the stream. -/
theorem State.areaNow_writeStream (s : State) (key : Nat) {base n : Nat} (skip : Nat) (x : Stream) (hn : base + n ≤ hbmSize) :
    (State.writeStream { s with mem := [], lineKeys := [] } key base n x).areaNow key base n skip x = .intact := by
  unfold State.areaNow
  have hsame : State.writeStream { State.writeStream { s with mem := [], lineKeys := [] } key base n x with mem := [], lineKeys := [] }
      key base n x = State.writeStream { s with mem := [], lineKeys := [] } key base n x := rfl
  rw [hsame]
  simp [Nat.not_lt.2 hn]

/-- A restore of an intact save area reads the image that was saved. -/
theorem State.imageOf_intact {s : State} {v : Nat} {i : SavedImage} (hi : (s.vf v).image = some i)
    (ha : s.areaNow (s.vf v).key (s.vf v).saveAt saveMin 8 i.stream = .intact) : s.imageOf v = i := by
  simp only [State.imageOf, hi, ha]

/-- The search for the next VF restores the first one that qualifies, if its image passes. -/
theorem State.startNext_restorable {s : State} {a b n : Nat} (hb : s.nextVf a = some b) (hr : (s.imageOf b).restorable = true) :
    s.startNext a (n + 1) = (State.loadImage { s with curVf := some b, lastVf := b, stopping := false, sliceCnt := 0 }
      (s.imageOf b)).updVf b (fun x => { x with state := .running, image := none }) := by
  simp only [State.startNext, hb, hr]
  rfl

theorem execSliceSwitch_start {s : State} (hcur : s.curVf = none) (h0 : s.clocked 0 = true) (h1 : s.clocked 1 = true) :
    exec .sliceSwitch s = .next (s.startNext s.lastVf 64) := by
  show execSliceSwitch s = _
  rw [execSliceSwitch, h0, h1, hcur]
  rfl

/-! ### An image whose block claims a boost -/

/-- An image of one block, which claims a boost. -/
def boostedImage : SavedImage := { blocks := [(0, { fetchBlock with boost := 1, slots := [] })] }

/-- The only VF with work, with the image saved. -/
def boostedVf : Vf := { savesz := 0xFFFFFFFF#64, quantum := 1, state := .saved, image := some boostedImage }

/-- A part between slices, with nothing in its memory. -/
def betweenSlices : State :=
  { released := true, dies := [(0, { tstate := .normal }), (1, { tstate := .normal })], vfs := [(0, boostedVf)] }

/-- The same with the image in the save area of VF 0. -/
def boostedState : State := State.writeStream { betweenSlices with mem := [], lineKeys := [] } 0 0 saveMin boostedImage.stream

theorem imageOf_boostedState : boostedState.imageOf 0 = boostedImage := by
  have hvf : boostedState.vf 0 = boostedVf := rfl
  refine State.imageOf_intact (by rw [hvf]; rfl) ?_
  rw [hvf, show boostedVf.saveAt = 0 from rfl, show boostedVf.key = 0 from rfl]
  exact betweenSlices.areaNow_writeStream 0 8 _ (by decide)

theorem nextVf_boostedState : boostedState.nextVf boostedState.lastVf = some 0 := rfl

theorem restorable_boostedImage : boostedImage.restorable = true := by decide +kernel

/-- The restore puts the block on its core at rest. -/
theorem execSliceSwitch_boostedState : ∃ t, exec .sliceSwitch boostedState = .next t ∧
    t.blocks = [(0, { fetchBlock with boost := 0, slots := [] })] := by
  have hexec := execSliceSwitch_start (s := boostedState) rfl (by decide) (by decide)
  rw [State.startNext_restorable (n := 63) nextVf_boostedState (imageOf_boostedState ▸ restorable_boostedImage),
    imageOf_boostedState] at hexec
  exact ⟨_, hexec, rfl⟩

/-- Refutes O57: the statement gives the blocks of a restore as those of the image, but a restore ends a block's boost claim (R358).
In `boostedState` VF 0 is the only one with work, and its save area holds an image whose one block claims a boost of 1: after
the switch the block stands on its core with a claim of 0. -/
theorem not_slicesAndSwaps : ¬ Obligations.SlicesAndSwaps := by
  unfold Obligations.SlicesAndSwaps
  rintro ⟨-, hswitch, -⟩
  obtain ⟨-, hrun⟩ := hswitch boostedState 0 rfl rfl nextVf_boostedState
  obtain ⟨t, hexec, -, -, -, -, -, -, hblocks, -⟩ := (hrun (by decide) (by decide)).1 (by
    rw [imageOf_boostedState]
    exact restorable_boostedImage)
  obtain ⟨t', hexec', hblocks'⟩ := execSliceSwitch_boostedState
  obtain rfl : t = t' := Host.Outcome.next.inj (hexec.symm.trans hexec')
  rw [hblocks', imageOf_boostedState] at hblocks
  exact absurd hblocks (by decide)

end Sys2Proof.Machine

/-! PROOFS. What no allowed execution can do (O60; R28, R116 to R122, R129). One fact serves message passing, the named
synchronisers and the order of the lanes: a read that hb puts after a write of its location sees at least that write, since
causality forbids the fr edge back. -/

namespace Sys2Proof.Machine
namespace Execution

variable {x : Execution} {b c : MemLoc} {i u v w r q z : Nat}

/-! ### What `allowed` says, part by part -/

theorem allowed.formed (h : x.allowed) : x.formed := h.1

theorem allowed.laneOrder (h : x.allowed) : x.laneOrder := by
  obtain ⟨-, -, h, -⟩ := h
  exact h

theorem allowed.causality (h : x.allowed) : x.causality := by
  obtain ⟨-, -, -, -, h, -⟩ := h
  exact h

theorem allowed.atomicity (h : x.allowed) : x.atomicity := by
  obtain ⟨-, -, -, -, -, h, -⟩ := h
  exact h

theorem allowed.commit (h : x.allowed) : x.commit := by
  obtain ⟨-, -, -, -, -, -, -, -, h, -⟩ := h
  exact h

/-- A name that stands for no event writes nothing. -/
theorem lt_length_of_writes (h : (x.at_ i).writes = true) : i < x.ev.length := by
  by_contra hi
  have hnone : x.ev[i]? = none := List.getElem?_eq_none (Nat.le_of_not_lt hi)
  simp [at_, hnone, MemEvent.writes] at h

/-! ### The form of rf and co (R116) -/

theorem formed.rf_source (h : x.formed) (hr : (b, w, r) ∈ x.rf) : (x.at_ w).writes = true ∧ b ∈ (x.at_ w).bytes := by
  obtain ⟨hrf, -⟩ := h
  obtain ⟨-, -, hw, -, hb, -⟩ := hrf b w r hr
  exact ⟨hw, hb⟩

theorem formed.rf_unique (h : x.formed) (hv : (b, v, r) ∈ x.rf) (hw : (b, w, r) ∈ x.rf) : v = w := by
  obtain ⟨-, hrf, -⟩ := h
  exact hrf b v w r hv hw

theorem formed.co_later (h : x.formed) (hco : (b, v, w) ∈ x.co) : (x.at_ w).writes = true ∧ b ∈ (x.at_ w).bytes := by
  obtain ⟨-, -, hform, -⟩ := h
  obtain ⟨-, -, -, hw, -, hb⟩ := hform b v w hco
  exact ⟨hw, hb⟩

theorem formed.co_asymm (h : x.formed) (hvw : (b, v, w) ∈ x.co) : (b, w, v) ∉ x.co := by
  obtain ⟨-, -, -, htrans, hirr, -⟩ := h
  exact fun hwv => hirr b v (htrans b v w v hvw hwv)

theorem formed.co_total (h : x.formed) (hv : (x.at_ v).writes = true) (hw : (x.at_ w).writes = true) (hbv : b ∈ (x.at_ v).bytes)
    (hbw : b ∈ (x.at_ w).bytes) (hne : v ≠ w) : (b, v, w) ∈ x.co ∨ (b, w, v) ∈ x.co := by
  obtain ⟨-, -, -, -, -, htotal, -⟩ := h
  exact htotal b v w (lt_length_of_writes hv) (lt_length_of_writes hw) hv hw hbv hbw hne

/-! ### Causality (R121) -/

/-- hb and an fr edge make no cycle. -/
theorem allowed.not_fromRead (h : x.allowed) (hb : Hb x u q) : ¬ x.fromRead q u := by
  obtain ⟨-, heco⟩ := h.causality
  exact fun hfr => heco u q hb (.fr hfr)

/-- A read that hb puts after a write of its location sees the write, or a later one. -/
theorem allowed.sees_of_hb (h : x.allowed) (hb : Hb x u q) (hq : q < x.ev.length) (hne : u ≠ q) (hwrites : (x.at_ u).writes = true)
    (hbu : b ∈ (x.at_ u).bytes) (hreads : (x.at_ q).reads = true) (hbq : b ∈ (x.at_ q).bytes) : x.seesAtLeast b u q := by
  have noEarlier : ¬ ((∀ v, (b, v, q) ∉ x.rf) ∨ ∃ v, (b, v, q) ∈ x.rf ∧ (b, v, u) ∈ x.co) := fun hfr =>
    h.not_fromRead hb ⟨b, hbq, hreads, hbu, hwrites, lt_length_of_writes hwrites, hq, hne.symm, hfr⟩
  obtain ⟨hsome, hlater⟩ := not_or.mp noEarlier
  obtain ⟨v, hv⟩ := not_forall_not.mp hsome
  refine ⟨v, hv, or_iff_not_imp_left.mpr fun hvu => ?_⟩
  obtain ⟨hvw, hbv⟩ := h.formed.rf_source hv
  exact (h.formed.co_total hwrites hvw hbu hbv (Ne.symm hvu)).resolve_right fun hco => hlater ⟨v, hv, hco⟩

/-! ### Atomicity (R121) -/

/-- Of two read-modify-writes, the later in co does not take its value from a write that comes before the earlier one. -/
theorem allowed.not_rf_across_rmw {m n : Nat} (h : x.allowed) (hn : (x.at_ n).kind = .rmw) (hvm : (b, v, m) ∈ x.co)
    (hmn : (b, m, n) ∈ x.co) : (b, v, n) ∉ x.rf := by
  intro hrf
  obtain ⟨hatom, -⟩ := h.atomicity
  obtain ⟨-, hbn⟩ := h.formed.co_later hmn
  obtain ⟨v', hv', hmv⟩ := hatom b n hn hbn m hmn
  obtain rfl := h.formed.rf_unique hrf hv'
  rcases hmv with rfl | hmv
  · exact h.formed.co_asymm hvm hvm
  · exact h.formed.co_asymm hvm hmv

/-! ### Commits (R129) -/

theorem oneCommit.symm (h : x.oneCommit u v) : x.oneCommit v u := by
  obtain ⟨hu, hv, hact⟩ := h
  exact ⟨hv, hu, hact.symm⟩

theorem oneCommit.trans (huv : x.oneCommit u v) (hvw : x.oneCommit v w) : x.oneCommit u w := by
  obtain ⟨hu, -, hact⟩ := huv
  obtain ⟨-, hw, hact'⟩ := hvw
  exact ⟨hu, hw, hact.trans hact'⟩

theorem writes_of_committed (h : x.committed u = true) : (x.at_ u).writes = true := by
  simp only [committed, Bool.and_eq_true] at h
  obtain ⟨hw, -⟩ := h
  exact hw

/-- A write that comes after one write of a commit and before another one of it is of the commit itself. -/
theorem allowed.oneCommit_of_between (h : x.allowed) (huv : x.oneCommit u v) (huz : (b, u, z) ∈ x.co) (hzv : (c, z, v) ∈ x.co) :
    x.oneCommit z u := by
  obtain ⟨-, honePoint⟩ := h.commit
  exact (huv.trans (honePoint v u z z c b huv.symm (Or.inl rfl) hzv huz)).symm

/-- A write after a commit at one byte comes after it at every byte that both write. -/
theorem allowed.co_after_commit (h : x.allowed) (huv : x.oneCommit u v) (huz : (b, u, z) ∈ x.co) (hz : ¬ x.oneCommit z u)
    (hcv : c ∈ (x.at_ v).bytes) (hcz : c ∈ (x.at_ z).bytes) : (c, v, z) ∈ x.co := by
  have hne : v ≠ z := by
    rintro rfl
    exact hz huv.symm
  have hvw : (x.at_ v).writes = true := by
    obtain ⟨-, hv, -⟩ := huv
    exact writes_of_committed hv
  obtain ⟨hzw, -⟩ := h.formed.co_later huz
  exact (h.formed.co_total hvw hzw hcv hcz hne).resolve_right fun hzv => hz (h.oneCommit_of_between huv huz hzv)

end Execution

/-- Settles O60: causality leaves a read after a write by hb no earlier write to see, which is message passing (po, sw and po make
hb), the named synchronisers and, with R122's order of the lanes, the order of one instruction's writes; atomicity and the commits
follow from their axioms and the total order of co. -/
theorem messagePassing : Obligations.MessagePassing := by
  unfold Obligations.MessagePassing
  refine ⟨?passing, ?named, ?atomicity, ?lanes, ?commitSeen, ?commitOrder⟩
  case passing =>
    intro x u s w r t q b h hus hrel hacq hfrom hscope htq _ hq hne hwrites hbu hreads hbq
    have hst : Execution.Sw x s t := .releaseAcquire hrel hacq hfrom hscope
    exact h.sees_of_hb (.trans (.po hus) (.trans (.sw hst) (.po htq))) hq hne hwrites hbu hreads hbq
  case named =>
    intro x u q b h hnamed _ hq hne hwrites hbu hreads hbq
    exact h.sees_of_hb (.sw (.named hnamed)) hq hne hwrites hbu hreads hbq
  case atomicity =>
    intro x v m n b h hne hm hn hvm hvn ⟨hrm, hrn⟩
    obtain ⟨hmw, hbm⟩ := h.formed.co_later hvm
    obtain ⟨hnw, hbn⟩ := h.formed.co_later hvn
    rcases h.formed.co_total hmw hnw hbm hbn hne with hmn | hnm
    · exact h.not_rf_across_rmw hn hvm hmn hrn
    · exact h.not_rf_across_rmw hm hvn hnm hrm
  case lanes =>
    intro x v w q blk t y b h hv hw hlv hlw hact hwv hww hbv hbw hkind hlt hpo hreads hbq hq hrf
    obtain ⟨hco, -⟩ := h.laneOrder b v w ⟨hv, hw, hact, hbv, hbw, hkind, blk, t, y, hlv, hlw, hlt⟩
    have hne : q ≠ w := by
      rintro rfl
      obtain ⟨-, -, -, -, hacts⟩ := hpo
      exact Nat.lt_irrefl _ hacts
    exact h.not_fromRead (.po hpo) ⟨b, hbq, hreads, hbw, hww, hw, hq, hne, Or.inr ⟨v, hrf, hco hwv hww⟩⟩
  case commitSeen =>
    intro x u v w r q b c h huv hrf hwu hhb hreads hcv hcq
    obtain ⟨hseen, -⟩ := h.commit
    exact hseen u b r huv.left ⟨w, hrf, hwu⟩ q hhb hreads v huv.symm c hcv hcq
  case commitOrder =>
    intro x u v z b c h huv huz
    exact ⟨h.oneCommit_of_between huv huz, h.co_after_commit huv huz⟩

end Sys2Proof.Machine

/-! PROOFS. Precise traps into the handler and the return from it (O24), with what the abort of an open transaction leaves. -/

namespace Sys2Proof.Machine

/-! ### The abort of an explicit transaction (R81) -/

/-- The cohort after its transaction `x` has aborted with a code. -/
def Cohort.aborted (co : Cohort) (x : Tx) (code : Nat) : Cohort :=
  { ((co.mapLanes co.live (fun _ l => { l with pc := x.abort, waitj := none })).setV x.vd
      (.u (BitVec.ofNat 32 code))).overtaken x.vd with tx := none, waits := [] }

/-- The block after the transaction of its cohort `cohid` has aborted. -/
def Block.txClosed (b : Block) (cohid : Nat) : Block := { b.leaveColl cohid with buf := [], bufBy := [], holder := none }

theorem State.abortTx_none {s : State} {slot : Nat} {co : Cohort} (hco : s.cohort slot = some co) (hx : co.tx = none) (code : Nat) :
    s.abortTx slot code = s := by
  simp only [State.abortTx, hco, hx]

theorem State.abortTx_some {s : State} {slot : Nat} {co : Cohort} {x : Tx} (hco : s.cohort slot = some co) (hx : co.tx = some x)
    (code : Nat) : s.abortTx slot code =
      (s.setCohort slot (co.aborted x code)).updBlock co.blk (fun b => b.txClosed co.cohid) := by
  have hframe := (co.mapLanes co.live (fun _ l => { l with pc := x.abort, waitj := none })).setV_frame x.vd (.u (BitVec.ofNat 32 code))
  have hblk := congrArg Cohort.blk hframe
  have hid := congrArg Cohort.cohid hframe
  simp only [State.abortTx, hco, hx, hblk, hid]
  rfl

/-- An abort changes lanes, registers, late writes and waits of its cohort, and nothing else of it but the transaction. -/
theorem Cohort.aborted_frame (co : Cohort) (x : Tx) (code : Nat) : co.aborted x code = { co with
    lanes := (co.aborted x code).lanes, vregs := (co.aborted x code).vregs, stale := (co.aborted x code).stale, tx := none, waits := [] } := by
  unfold Cohort.aborted Cohort.overtaken
  rw [Cohort.setV_frame]
  rfl

theorem Cohort.lane_aborted (co : Cohort) (x : Tx) (code : Nat) {l : Nat} (hl : l < 32) :
    (co.aborted x code).lane l = if co.live.has l then { co.lane l with pc := x.abort, waitj := none } else co.lane l := by
  have h := co.lane_mapLanes co.live (fun _ l => { l with pc := x.abort, waitj := none }) hl
  unfold Cohort.aborted Cohort.overtaken
  rw [Cohort.setV_frame]
  exact h

theorem Cohort.v_aborted (co : Cohort) (x : Tx) (code n : Nat) :
    (co.aborted x code).v n = if n = x.vd ∧ x.vd ≠ zv then .u (BitVec.ofNat 32 code) else co.v n :=
  (co.mapLanes co.live (fun _ l => { l with pc := x.abort, waitj := none })).v_setV_all x.vd (.u (BitVec.ofNat 32 code)) n

theorem Cohort.v_aborted_vd (co : Cohort) (x : Tx) (code : Nat) (h : x.vd ≠ zv) : (co.aborted x code).v x.vd = .u (BitVec.ofNat 32 code) := by
  rw [co.v_aborted, if_pos ⟨rfl, h⟩]

theorem Cohort.v_aborted_other (co : Cohort) (x : Tx) (code : Nat) {n : Nat} (h : n ≠ x.vd) : (co.aborted x code).v n = co.v n := by
  rw [co.v_aborted, if_neg (fun e => h e.1)]

theorem Cohort.live_aborted (co : Cohort) (x : Tx) (code : Nat) : (co.aborted x code).live = co.live := by
  rw [co.aborted_frame]
  rfl

/-- A cohort that leaves a REGROUP changes nothing else of its block. -/
theorem Block.leaveColl_frame (b : Block) (cohid : Nat) : b.leaveColl cohid = { b with coll := (b.leaveColl cohid).coll } := by
  unfold Block.leaveColl
  split <;> rfl

theorem Block.leaveColl_none {b : Block} (h : b.coll = none) (cohid : Nat) : (b.leaveColl cohid).coll = none := by
  simp only [Block.leaveColl, h]

theorem Block.not_arrived_leaveColl {b : Block} {cohid : Nat} {c : Collective} (h : (b.leaveColl cohid).coll = some c) :
    cohid ∉ c.arrived := by
  cases hb : b.coll with
  | none => exact absurd ((Block.leaveColl_none hb cohid).symm.trans h) nofun
  | some c₀ =>
    simp only [Block.leaveColl, hb, Option.ite_none_left_eq_some, Option.some.injEq] at h
    obtain ⟨-, rfl⟩ := h
    simp

theorem Block.txClosed_frame (b : Block) (cohid : Nat) :
    b.txClosed cohid = { b with buf := [], bufBy := [], holder := none, coll := (b.leaveColl cohid).coll } := by
  rw [Block.txClosed, b.leaveColl_frame]

section

variable {s : State} {slot : Nat} {co : Cohort} {x : Tx} (hco : s.cohort slot = some co) (hx : co.tx = some x) (code : Nat)
include hco hx

theorem State.cohort_abortTx : (s.abortTx slot code).cohort slot = some (co.aborted x code) := by
  rw [State.abortTx_some hco hx]
  exact (s.cohort_setCohort slot slot _).trans (if_pos rfl)

theorem State.cohort_abortTx_ne {k : Nat} (hk : k ≠ slot) : (s.abortTx slot code).cohort k = s.cohort k := by
  rw [State.abortTx_some hco hx]
  exact (s.cohort_setCohort slot k _).trans (if_neg hk)

theorem State.block_abortTx {b : Block} (hb : s.block co.blk = some b) :
    (s.abortTx slot code).block co.blk = some (b.txClosed co.cohid) := by
  rw [State.abortTx_some hco hx, State.block_updBlock_self]
  exact congrArg _ hb

theorem State.abortTx_frame : { s.abortTx slot code with cohorts := s.cohorts, blocks := s.blocks } = s := by
  rw [State.abortTx_some hco hx]
  rfl

theorem State.physByte_abortTx (key a : Nat) : (s.abortTx slot code).physByte key a = s.physByte key a := by
  rw [State.abortTx_some hco hx]
  rfl

end

/-! ### Entering the handler (R342, R344) -/

/-- The handler of a block depends on its launch and kernel only. -/
theorem State.handlerOf_congr {s t : State} {b c : Block} (hs : t.launches = s.launches) (hl : c.launch = b.launch)
    (hk : c.kernel = b.kernel) : t.handlerOf c = s.handlerOf b := by
  simp only [State.handlerOf, State.kernelOf, State.launch, hs, hl, hk]

/-- The cohort that enters its handler at `h` with the lanes `hl`. -/
def Cohort.enterHandler (co : Cohort) (h : W32) (hl : Mask) (txab : Bool) (xpc : W32) (t : TrapInfo) : Cohort :=
  { co with xcause := xcauseOf txab t.code, xmask := t.mask, xaddr := t.xaddr, xpc := xpc, hmode := true, hlanes := hl, waits := [] }.mapLanes
    hl (fun _ l => { l with pc := h, waitj := none })

theorem Cohort.lane_enterHandler (co : Cohort) (h : W32) (hl : Mask) (txab : Bool) (xpc : W32) (t : TrapInfo) {l : Nat} (hlt : l < 32) :
    (co.enterHandler h hl txab xpc t).lane l = if hl.has l then { co.lane l with pc := h, waitj := none } else co.lane l :=
  Cohort.lane_mapLanes _ hl _ hlt

/-- A trap of a cohort without a transaction. -/
theorem State.takeTrap_noTx {s : State} {slot : Nat} {co : Cohort} {b : Block} {h : W32} (hco : s.cohort slot = some co)
    (hx : co.tx = none) (hb : s.block co.blk = some b) (hh : s.handlerOf b = some h) (hm : co.hmode = false) (group : Mask) (pc : W32)
    (t : TrapInfo) : s.takeTrap slot group pc t =
      s.setCohort slot (co.enterHandler h (group &&& co.live) false pc t) := by
  simp only [State.takeTrap, hco, State.abortTx_none hco hx, hb, Option.bind_some, hh, hm, hx, Cohort.enterHandler]
  rfl

/-- A trap inside an explicit transaction, which aborts first. -/
theorem State.takeTrap_tx {s : State} {slot : Nat} {co : Cohort} {b : Block} {h : W32} {x : Tx} (hco : s.cohort slot = some co)
    (hx : co.tx = some x) (hb : s.block co.blk = some b) (hh : s.handlerOf b = some h) (hm : co.hmode = false) (group : Mask) (pc : W32)
    (t : TrapInfo) : s.takeTrap slot group pc t =
      (s.abortTx slot txTrap).setCohort slot ((co.aborted x txTrap).enterHandler h (group &&& co.live) true x.abort t) := by
  have hblk : (co.aborted x txTrap).blk = co.blk := by rw [co.aborted_frame]
  have hmode : (co.aborted x txTrap).hmode = false := by rw [co.aborted_frame]; exact hm
  have hh' : (s.abortTx slot txTrap).handlerOf (b.txClosed co.cohid) = some h := by
    rw [State.handlerOf_congr (s := s) (b := b) _ _ _, hh]
    · rw [State.abortTx_some hco hx]; rfl
    · rw [b.txClosed_frame]
    · rw [b.txClosed_frame]
  simp only [State.takeTrap, hco, hx, State.cohort_abortTx hco hx, hblk, State.block_abortTx hco hx txTrap hb, Option.bind_some, hh',
    hmode, Cohort.live_aborted, Cohort.enterHandler]
  rfl

/-- XCAUSE holds the code and, above it, TXAB (R341). -/
theorem toNat_xcauseOf (txab : Bool) {code : Nat} (h : code < 256) : (xcauseOf txab code).toNat = 256 * bit txab + code := by
  have hbit : bit txab ≤ 1 := by cases txab <;> decide
  rw [xcauseOf, BitVec.toNat_ofNat, Nat.mod_eq_of_lt (by omega)]

/-! ### TRAP, BKPT and XRET (R230 to R232, R343) -/

theorem finish_set (e : Env) (t : State) : finish e (.set t) = (t.updCohort e.slot (fun co => co.endWait e.pc)).mark false := rfl

theorem xretBody_illegal {e : Env} (h : e.co.hmode = false ∨ e.co.xpc.toNat % 4 ≠ 0) :
    xretBody e = .trap { code := 1, mask := e.act } := by
  rw [xretBody, if_pos]
  · rfl
  · rcases h with h | h <;> simp [h]

theorem xretBody_legal {e : Env} (hm : e.co.hmode = true) (hx : e.co.xpc.toNat % 4 = 0) :
    xretBody e = .set (e.put e.co.leaveHandler) := by
  rw [xretBody, if_neg]
  simp [hm, hx]

theorem Cohort.lane_leaveHandler (co : Cohort) {l : Nat} (hl : l < 32) : co.leaveHandler.lane l =
    if co.hlanes.has l && co.live.has l then { co.lane l with pc := co.xpc, waitj := none } else co.lane l := by
  rw [← Mask.has_and]
  exact co.lane_mapLanes (co.hlanes &&& co.live) (fun _ l => { l with pc := co.xpc, waitj := none }) hl

/-- Settles O24: a trap enters the handler by `State.takeTrap_noTx`, or after its transaction's abort by `State.takeTrap_tx`; XRET
is `Cohort.leaveHandler` of the issuing cohort. -/
theorem handlerEntryAndReturn : Obligations.HandlerEntryAndReturn := by
  unfold Obligations.HandlerEntryAndReturn
  refine ⟨⟨fun s i e h => ⟨fun hc => ?_, fun hc => ?_⟩, fun s i e info h he hcode hh hm => ?_⟩, fun s i e h hc => ⟨fun hbad => ?_, fun hm hx => ?_⟩⟩
  · have hexec := exec_passes h
    rw [hc] at hexec
    exact hexec.trans (congrArg (fun a : W32 => Host.Outcome.next (e.traps { code := 11, mask := e.act, xaddr := a }))
      (BitVec.ofNat_toNat 32 e.w.a))
  · have hexec := exec_passes h
    rw [hc] at hexec
    exact hexec
  · obtain ⟨rfl, -, hco, hblk, -⟩ := envFor_facts he
    have hg := group_and_live he
    cases hx : e.co.tx with
    | none =>
      have htrap : e.traps info = (e.s.setCohort e.slot (e.co.enterHandler h e.group false e.pc info)).mark false := by
        rw [Env.traps, State.takeTrap_noTx hco hx hblk hh hm, hg]
      rw [htrap]
      refine ⟨e.co.enterHandler h e.group false e.pc info, (State.cohort_setCohort ..).trans (if_pos rfl),
        fun k hk => (State.cohort_setCohort ..).trans (if_neg hk), rfl, rfl, rfl, rfl, hx, rfl, rfl, rfl, rfl, fun l hl hgl => ?_,
        fun _ => ⟨(toNat_xcauseOf false hcode).trans (Nat.zero_add _), rfl, rfl, fun l hl hgl => ?_, rfl⟩, fun x hx' => absurd hx' nofun⟩
      · rw [Cohort.lane_enterHandler _ _ _ _ _ _ hl, hgl, if_pos rfl]
        exact ⟨rfl, rfl⟩
      · rw [Cohort.lane_enterHandler _ _ _ _ _ _ hl, hgl]
        rfl
    | some x =>
      have htrap : e.traps info = ((e.s.abortTx e.slot txTrap).setCohort e.slot
          ((e.co.aborted x txTrap).enterHandler h e.group true x.abort info)).mark false := by
        rw [Env.traps, State.takeTrap_tx hco hx hblk hh hm, hg]
      rw [htrap]
      have hframe := e.co.aborted_frame x txTrap
      refine ⟨(e.co.aborted x txTrap).enterHandler h e.group true x.abort info, (State.cohort_setCohort ..).trans (if_pos rfl),
        fun k hk => ((State.cohort_setCohort ..).trans (if_neg hk)).trans (State.cohort_abortTx_ne hco hx txTrap hk), rfl, rfl, rfl, rfl, rfl,
        by rw [hframe]; rfl, by rw [hframe]; rfl, by rw [hframe]; rfl, by rw [hframe]; rfl, fun l hl hgl => ?_,
        fun hx' => absurd hx' nofun, fun y hy => ?_⟩
      · rw [Cohort.lane_enterHandler _ _ _ _ _ _ hl, hgl, if_pos rfl]
        exact ⟨rfl, rfl⟩
      · cases hy
        refine ⟨toNat_xcauseOf true hcode, rfl, e.co.v_aborted_vd x txTrap, fun n hn => e.co.v_aborted_other x txTrap hn, fun l hl hgl hlive => ?_,
          e.blk.txClosed e.co.cohid, State.block_abortTx hco hx txTrap hblk, rfl, rfl⟩
        rw [Cohort.lane_enterHandler _ _ _ _ _ _ hl, hgl, if_neg Bool.false_ne_true, Cohort.lane_aborted _ _ _ hl, hlive, if_pos rfl]
  · have hexec := exec_passes h
    rw [hc] at hexec
    rw [hexec]
    exact congrArg (fun r => Host.Outcome.next (finish e r)) (xretBody_illegal hbad)
  · have hexec := exec_passes h
    rw [hc, show bodyOf Cells.xret.opc e = _ from xretBody_legal hm hx, finish_set] at hexec
    exact ⟨_, _, hexec, ((e.onlyCohort_put e.co.leaveHandler).updCohort _).mark false, rfl, rfl, rfl, fun l hl => e.co.lane_leaveHandler hl⟩

end Sys2Proof.Machine

/-! PROOFS. Stores to device memory and to a transaction buffer (O30): writes made one after another, the last of which a byte keeps. -/

namespace Sys2Proof.Machine

/-! ### Writes made one after another -/

/-- What reads as before after steps none of which touches it. -/
theorem foldl_untouched {σ α β : Type} {step : σ → α → σ} {read : σ → β} {ls : List α} (s : σ)
    (h : ∀ s, ∀ x ∈ ls, read (step s x) = read s) : read (ls.foldl step s) = read s := by
  induction ls generalizing s with
  | nil => rfl
  | cons x ls ih =>
    rw [List.foldl_cons, ih _ (fun s y hy => h s y (List.mem_cons_of_mem _ hy))]
    exact h s x List.mem_cons_self

/-- What reads as the last step that touches it left it, of steps in an order `R`. -/
theorem foldl_last {σ α β : Type} {R : α → α → Prop} {step : σ → α → σ} {read : σ → β} {v : β} {ls : List α} (hsort : ls.Pairwise R)
    {l : α} (hl : l ∈ ls) (hhit : ∀ s, read (step s l) = v) (hmiss : ∀ s, ∀ k ∈ ls, R l k → read (step s k) = read s) (s : σ) :
    read (ls.foldl step s) = v := by
  induction ls generalizing s with
  | nil => cases hl
  | cons x ls ih =>
    obtain ⟨hx, hsort⟩ := List.pairwise_cons.1 hsort
    rw [List.foldl_cons]
    rcases List.mem_cons.1 hl with rfl | hl
    · rw [foldl_untouched _ (fun s k hk => hmiss s k (List.mem_cons_of_mem _ hk) (hx k hk))]
      exact hhit s
    · exact ih hsort hl (fun s k hk => hmiss s k (List.mem_cons_of_mem _ hk)) _

theorem maskLanes_sorted (m : Mask) : (maskLanes m).Pairwise (· < ·) := List.Pairwise.filter _ List.pairwise_lt_range

/-! ### The bytes of a store (R255) -/

theorem bytesOf32_length (x : W32) : (bytesOf32 x).length = 4 := rfl

theorem bytesOf32_getD (x : W32) {k : Nat} (hk : k < 4) : (bytesOf32 x).getD k 0 = byteOf x k := by
  have : k = 0 ∨ k = 1 ∨ k = 2 ∨ k = 3 := by omega
  rcases this with rfl | rfl | rfl | rfl <;> rfl

theorem storeBytes_length (co : Cohort) (n w l : Nat) : (storeBytes co n w l).length = w := by
  have hlen : ∀ is : List Nat, (is.flatMap (fun i => bytesOf32 ((if n = zv then VVal.u 0 else co.v (n + i)).at l))).length = 4 * is.length := by
    intro is
    induction is with
    | nil => rfl
    | cons i is ih => rw [List.flatMap_cons, List.length_append, ih, bytesOf32_length, List.length_cons]; omega
  rw [storeBytes, List.length_take, hlen, List.length_range, regsOf, cdiv]
  omega

theorem storeBytes_getD (co : Cohort) (n l : Nat) {w j : Nat} (hj : j < w) : (storeBytes co n w l).getD j 0 = dataByte co n l j := by
  have hrow : j / 4 < (List.range (regsOf w)).length := by
    rw [List.length_range, regsOf, cdiv]
    omega
  have hget := getD_flatMap_rows (List.range (regsOf w)) (fun i => bytesOf32 ((if n = zv then VVal.u 0 else co.v (n + i)).at l))
    (fun _ _ => bytesOf32_length _) 0 hrow (Nat.mod_lt j (by decide : 0 < 4))
  rw [Nat.div_add_mod'] at hget
  rw [storeBytes, List.getD_eq_getElem?_getD, List.getElem?_take_of_lt hj, ← List.getD_eq_getElem?_getD, hget,
    bytesOf32_getD _ (Nat.mod_lt j (by decide)), dataByte]
  have hidx : (List.range (regsOf w)).getD (j / 4) 0 = j / 4 := by
    rw [List.getD_eq_getElem?_getD, List.getElem?_range (by simpa using hrow)]
    rfl
  rw [hidx]
  split
  · show byteOf 0 _ = 0
    simp [byteOf]
  · rfl

/-! ### Writes to device memory (R259, R277) -/

/-- Bytes written at some places, one place after another. -/
def State.physWrites {α : Type} (s : State) (key : Nat) (w : Option Nat) (pa : α → Nat) (bs : α → List Byte) (ls : List α) : State :=
  ls.foldl (fun s l => s.physWrite key w (pa l) (bs l)) s

section

variable {α : Type} (s : State) (key : Nat) (w : Option Nat) (pa : α → Nat) (bs : α → List Byte) (ls : List α)

theorem State.physWrites_frame :
    { s.physWrites key w pa bs ls with mem := s.mem, lineKeys := s.lineKeys, cohorts := s.cohorts } = s := by
  induction ls generalizing s with
  | nil => rfl
  | cons l ls ih =>
    have h1 := s.physWrite_frame key w (pa l) (bs l)
    have h2 := ih (s.physWrite key w (pa l) (bs l))
    calc _ = { { (s.physWrite key w (pa l) (bs l)).physWrites key w pa bs ls with
                  mem := (s.physWrite key w (pa l) (bs l)).mem, lineKeys := (s.physWrite key w (pa l) (bs l)).lineKeys,
                  cohorts := (s.physWrite key w (pa l) (bs l)).cohorts } with
                  mem := s.mem, lineKeys := s.lineKeys, cohorts := s.cohorts } := rfl
      _ = { s.physWrite key w (pa l) (bs l) with mem := s.mem, lineKeys := s.lineKeys, cohorts := s.cohorts } := by rw [h2]
      _ = s := h1

/-- A write changes of a cohort only the marks of its open transaction, and of the one that wrote nothing. -/
theorem State.cohort_physWrite (pa : Nat) (bs : List Byte) :
    ∃ f : Nat → Tx → Tx, ∀ k, (s.physWrite key w pa bs).cohort k =
      (s.cohort k).map (fun co => if some k = w then co else { co with tx := co.tx.map (f k) }) := by
  refine ⟨fun _ t => (List.range bs.length).foldl (fun t i => t.note (pa + i)) t, fun k => ?_⟩
  rw [State.cohort, State.physWrite, State.physBytes_cohorts]
  rw [State.noteWrite, SMap.look_mapVals]
  rfl

theorem State.cohort_physWrites :
    ∃ f : Nat → Tx → Tx, ∀ k, (s.physWrites key w pa bs ls).cohort k =
      (s.cohort k).map (fun co => if some k = w then co else { co with tx := co.tx.map (f k) }) := by
  induction ls generalizing s with
  | nil =>
    refine ⟨fun _ t => t, fun k => ?_⟩
    have hid : (fun co : Cohort => if some k = w then co else { co with tx := co.tx.map (fun t => t) }) = id := by
      funext co
      cases co
      simp
    rw [hid, Option.map_id]
    rfl
  | cons l ls ih =>
    obtain ⟨f, hf⟩ := s.cohort_physWrite key w (pa l) (bs l)
    obtain ⟨g, hg⟩ := ih (s.physWrite key w (pa l) (bs l))
    refine ⟨fun k t => g k (f k t), fun k => (hg k).trans ?_⟩
    rw [hf k, Option.map_map]
    refine congrFun (congrArg Option.map (funext fun co => ?_)) _
    by_cases hk : some k = w <;> simp [hk, Option.map_map, Function.comp_def]

theorem State.physByte_physWrites_miss {a : Nat} (h : ∀ l ∈ ls, ¬ (pa l ≤ a ∧ a < pa l + (bs l).length)) :
    (s.physWrites key w pa bs ls).physByte key a = s.physByte key a :=
  foldl_untouched (read := fun s : State => s.physByte key a) s
    (fun s l hl => (s.physByte_physWrite key w (pa l) (bs l) a).trans (if_neg (h l hl)))

end

/-- Of the writes of a byte, in an order `R`, the last leaves it. -/
theorem State.physByte_physWrites_last {α : Type} {R : α → α → Prop} (s : State) (key : Nat) (w : Option Nat) (pa : α → Nat)
    (bs : α → List Byte) {ls : List α} (hsort : ls.Pairwise R) {l : α} {a : Nat} (hl : l ∈ ls) (ha : pa l ≤ a ∧ a < pa l + (bs l).length)
    (hlast : ∀ k ∈ ls, R l k → ¬ (pa k ≤ a ∧ a < pa k + (bs k).length)) :
    (s.physWrites key w pa bs ls).physByte key a = (bs l).getD (a - pa l) 0 :=
  foldl_last (read := fun s : State => s.physByte key a) hsort hl
    (fun s => (s.physByte_physWrite key w (pa l) (bs l) a).trans (if_pos ha))
    (fun s k hk hlt => (s.physByte_physWrite key w (pa k) (bs k) a).trans (if_neg (hlast k hk hlt))) s

/-- Places that hold the same bytes are written alike. -/
theorem State.physWrites_congr {α : Type} (s : State) (key : Nat) (w : Option Nat) {pa pb : α → Nat} (bs : α → List Byte) {ls : List α}
    (h : ∀ l ∈ ls, pa l = pb l) : s.physWrites key w pa bs ls = s.physWrites key w pb bs ls := by
  induction ls generalizing s with
  | nil => rfl
  | cons l ls ih =>
    have hl := h l List.mem_cons_self
    simp only [State.physWrites, List.foldl_cons, hl]
    exact ih _ (fun k hk => h k (List.mem_cons_of_mem _ hk))

/-! ### Writes to a transaction buffer (R76) -/

/-- The bytes `bs` put from an address on in a buffer. -/
def bufBytes (va : Nat) (bs : List Byte) (m : SMap Byte) : SMap Byte := bs.zipIdx.foldl (fun m p => m.put (va + p.2) p.1) m

theorem look_bufBytes (bs : List Byte) (m : SMap Byte) (va a : Nat) :
    (bufBytes va bs m).look a = if va ≤ a ∧ a < va + bs.length then some (bs.getD (a - va) 0) else m.look a := by
  have hshift : ∀ (bs : List Byte) (k : Nat) (m : SMap Byte), ((bs.zipIdx k).foldl (fun m p => m.put (va + p.2) p.1) m).look a =
      if va + k ≤ a ∧ a < va + k + bs.length then some (bs.getD (a - (va + k)) 0) else m.look a := by
    intro bs
    induction bs with
    | nil =>
      intro k m
      rw [if_neg (by simp)]
      rfl
    | cons b bs ih =>
      intro k m
      rw [List.zipIdx_cons, List.foldl_cons, ih, SMap.look_put, List.length_cons]
      by_cases h1 : va + (k + 1) ≤ a ∧ a < va + (k + 1) + bs.length
      · rw [if_pos h1, if_pos (by omega), show a - (va + k) = a - (va + (k + 1)) + 1 by omega, List.getD_cons_succ]
      · rw [if_neg h1]
        by_cases h2 : a = va + k
        · rw [if_pos h2, if_pos (by omega), h2, Nat.sub_self, List.getD_cons_zero]
        · rw [if_neg h2, if_neg (by omega)]
  exact hshift bs 0 m

/-- A key that is listed stays listed when another entry is put. -/
theorem SMap.exists_key_put {α : Type} {P : Nat → Prop} {m : SMap α} (h : ∃ p ∈ m, P p.1) (i : Nat) (x : α) :
    ∃ p ∈ m.put i x, P p.1 := by
  obtain ⟨p, hp, hP⟩ := h
  rcases SMap.mem_put_of_mem (i := i) hp x with hmem | ⟨rfl, -⟩
  · exact ⟨p, hmem, hP⟩
  · exact ⟨_, SMap.mem_of_look (m.look_put_self p.1 x), hP⟩

theorem exists_key_bufBytes {P : Nat → Prop} (va : Nat) (bs : List Byte) {m : SMap Byte} (h : ∃ p ∈ m, P p.1) :
    ∃ p ∈ bufBytes va bs m, P p.1 := by
  unfold bufBytes
  generalize bs.zipIdx = ps
  induction ps generalizing m with
  | nil => exact h
  | cons p ps ih => exact ih (SMap.exists_key_put h _ _)

/-- A store to a line that the buffer holds. -/
theorem bufStore_held {b : Block} {va : Nat} (bs : List Byte) (who : BufBy) (h : ∃ p ∈ b.buf, p.1 / 64 = va / 64) :
    ∃ by', bufStore b va bs who = some { b with buf := bufBytes va bs b.buf, bufBy := by' } := by
  have hany : b.buf.any (fun p => p.1 / 64 == va / 64) = true := by
    obtain ⟨p, hp, he⟩ := h
    exact List.any_eq_true.2 ⟨p, hp, by simpa using he⟩
  rw [bufStore, if_pos (by simp only [hany, Bool.true_or])]
  exact ⟨_, rfl⟩

/-- The stores of some lanes to lines that the buffer holds. -/
theorem bufStores_held (va : Nat → W64) (bs : Nat → List Byte) (who : Nat → BufBy) {ls : List Nat} {b : Block}
    (h : ∀ l ∈ ls, ∃ p ∈ b.buf, p.1 / 64 = (va l).toNat / 64) :
    ∃ by', bufStores b (ls.map (fun l => (va l, bs l, who l))) =
      some { b with buf := ls.foldl (fun m l => bufBytes (va l).toNat (bs l) m) b.buf, bufBy := by' } := by
  induction ls generalizing b with
  | nil => exact ⟨b.bufBy, rfl⟩
  | cons l ls ih =>
    obtain ⟨by₁, h₁⟩ := bufStore_held (bs l) (who l) (h l List.mem_cons_self)
    obtain ⟨by₂, h₂⟩ := ih (b := { b with buf := bufBytes (va l).toNat (bs l) b.buf, bufBy := by₁ })
      (fun k hk => exists_key_bufBytes (P := fun i => i / 64 = (va k).toNat / 64) _ _ (h k (List.mem_cons_of_mem _ hk)))
    refine ⟨by₂, ?_⟩
    rw [List.map_cons, bufStores, h₁, Option.bind_some, h₂]
    rfl

/-! ### ST (R259) -/

theorem Env.ordBad_false {e : Env} (h : e.buffered = true → e.w.ord = 0) : e.ordBad = false := by
  cases hb : e.buffered with
  | false => simp [Env.ordBad, hb]
  | true => simp [Env.ordBad, h hb]

/-- The data of a lane. -/
def Env.storeData (e : Env) (l : Nat) : List Byte := storeBytes e.co e.w.b.toNat e.ty.bytes l

/-- ST outside a transaction, its checks passed. -/
theorem stBody_memory {e : Env} {x : Nat → Xlat} (hb : e.buffered = false) (hal : e.Aligned (fun l => (e.devAddr l).toNat))
    (hx : e.Translates .write x) : stBody e = .ok (e.s.physWrites e.key none (fun l => (x l).pa) e.storeData e.lanes) := by
  have hord : e.ordBad = false := Env.ordBad_false (fun h => absurd (hb ▸ h) nofun)
  obtain ⟨y, hy, hk⟩ := Env.xlatLanes_ok hx
  rw [stBody]
  simp only [hord, Bool.false_eq_true, if_false]
  rw [Env.checkLanes_pass (fun l hl ha => by simpa using hal l hl ha), hk]
  simp only [hb, Bool.false_eq_true, if_false]
  refine congrArg Eff.ok (e.s.physWrites_congr e.key none e.storeData fun l hl => ?_)
  obtain ⟨hl, ha⟩ := Env.mem_lanes.1 hl
  rw [hy l hl ha]

/-- ST inside a transaction to lines that its buffer holds, its checks passed. -/
theorem stBody_buffered {e : Env} {x : Nat → Xlat} (hb : e.buffered = true) (ho : e.w.ord = 0)
    (hal : e.Aligned (fun l => (e.devAddr l).toNat)) (hx : e.Translates .write x)
    (hheld : ∀ l < 32, e.act.has l = true → ∃ p ∈ e.blk.buf, p.1 / 64 = (e.devAddr l).toNat / 64) :
    ∃ by', stBody e = .ok (e.s.setBlock e.co.blk { e.blk with
      buf := e.lanes.foldl (fun m l => bufBytes (e.devAddr l).toNat (e.storeData l) m) e.blk.buf, bufBy := by' }) := by
  obtain ⟨y, hy, hk⟩ := Env.xlatLanes_ok hx
  obtain ⟨by', hby⟩ := bufStores_held e.devAddr e.storeData e.bufBy (fun l hl => hheld l (Env.mem_lanes.1 hl).1 (Env.mem_lanes.1 hl).2)
  refine ⟨by', ?_⟩
  rw [stBody]
  simp only [Env.ordBad_false (fun _ => ho), Bool.false_eq_true, if_false]
  rw [Env.checkLanes_pass (fun l hl ha => by simpa using hal l hl ha), hk]
  simp only [hb, if_true]
  rw [show bufStores e.blk (e.lanes.map (fun l => (e.devAddr l, storeBytes e.co e.w.b.toNat e.ty.bytes l, e.bufBy l))) = _ from hby]

/-- Writes to device memory by an issue that completes. -/
theorem Env.storeFrame_physWrites {s : State} {i : Instr} {e : Env} (h : s.envFor i = some e) (htx : e.co.tx = none) (x : Nat → Xlat) :
    e.StoreFrame (e.completes (e.s.physWrites e.key none (fun l => (x l).pa) e.storeData e.lanes)) (e.wentOn e.co) []
      (e.Takes x e.ty.bytes) := by
  obtain ⟨rfl, -, hco, -⟩ := envFor_facts h
  obtain ⟨f, hf⟩ := e.s.cohort_physWrites e.key none (fun l => (x l).pa) e.storeData e.lanes
  have hown : (e.s.physWrites e.key none (fun l => (x l).pa) e.storeData e.lanes).cohort e.slot = some e.co := by
    rw [hf, hco, Option.map_some, if_neg nofun, htx, Option.map_none, ← htx]
  have hframe := e.s.physWrites_frame e.key none (fun l => (x l).pa) e.storeData e.lanes
  refine ⟨?_, e.movedOn_wentOn (group_and_live h) rfl rfl, fun n _ => rfl, fun n l _ _ _ => rfl, rfl, fun k y hk hy => ?_, fun a ha => ?_, ?_⟩
  · exact (State.cohort_updCohort_self _ _ _).trans (congrArg (Option.map _) hown)
  · exact ⟨_, (State.cohort_updCohort_ne _ _ hk).trans ((hf k).trans (congrArg (Option.map _) hy)), rfl⟩
  · refine State.physByte_physWrites_miss e.s e.key none _ e.storeData e.lanes (fun l hl hin => ha ?_)
    obtain ⟨hl, hact⟩ := Env.mem_lanes.1 hl
    rw [Env.storeData, storeBytes_length] at hin
    exact ⟨l, hl, hact, hin⟩
  · exact congrArg (fun t : State => { t with cur := e.s.cur }) hframe

/-- Settles O30: a byte that lanes write keeps the highest lane's, in memory by `State.physByte_physWrites_last` and in the buffer by
`look_bufBytes`. -/
theorem globalStores : Obligations.GlobalStores := by
  unfold Obligations.GlobalStores
  intro s i e x h hc hal hx
  have hexec := exec_passes h
  rw [hc, show bodyOf Cells.st.opc e = stBody e from rfl] at hexec
  have hs : e.s = s := (envFor_facts h.env).1
  refine ⟨fun hb => ?_, fun hb ho hheld => ?_⟩
  · rw [stBody_memory hb hal hx, finish_ok] at hexec
    have htx : e.co.tx = none := by simpa [Env.buffered, Env.inTx] using (Bool.or_eq_false_iff.1 hb).2
    refine ⟨_, _, hexec, Env.storeFrame_physWrites h.env htx x, fun l hl ha j hj hlast => ?_⟩
    have hlen : ∀ k, (e.storeData k).length = e.ty.bytes := storeBytes_length e.co _ _
    have hbyte := e.s.physByte_physWrites_last e.key none (fun l => (x l).pa) e.storeData (maskLanes_sorted e.act) (a := (x l).pa + j)
      (Env.mem_lanes.2 ⟨hl, ha⟩) (by rw [hlen]; omega) (fun k hk hlt => by
        rw [hlen]
        have : (x l).pa + j < (x k).pa ∨ (x k).pa + e.ty.bytes ≤ (x l).pa + j :=
          hlast k (Env.mem_lanes.1 hk).1 hlt (Env.mem_lanes.1 hk).2
        omega)
    rw [Nat.add_sub_cancel_left, Env.storeData, storeBytes_getD _ _ _ hj] at hbyte
    exact hbyte
  · obtain ⟨by', hst⟩ := stBody_buffered hb ho hal hx hheld
    rw [hst, finish_ok] at hexec
    obtain ⟨-, -, hco, -⟩ := envFor_facts h.env
    have hlen : ∀ k, (e.storeData k).length = e.ty.bytes := storeBytes_length e.co _ _
    refine ⟨_, e.wentOn e.co, _, hexec, ?_, e.movedOn_wentOn (group_and_live h.env) rfl rfl, rfl, rfl,
      (State.block_setBlock e.s e.co.blk e.co.blk _).trans (if_pos rfl), rfl, fun key a => by rw [← hs]; rfl, fun a ha => ?_,
      fun l hl ha j hj hlast => ?_⟩
    · exact (State.cohort_updCohort_self _ _ _).trans (congrArg (Option.map _) (hs ▸ hco))
    · refine foldl_untouched (read := fun m : SMap Byte => m.look a) e.blk.buf (fun m l hl => (look_bufBytes _ _ _ _).trans (if_neg ?_))
      rw [hlen]
      have := ha l (Env.mem_lanes.1 hl).1 (Env.mem_lanes.1 hl).2
      omega
    · refine foldl_last (read := fun m : SMap Byte => m.look ((e.devAddr l).toNat + j)) (maskLanes_sorted e.act) (Env.mem_lanes.2 ⟨hl, ha⟩)
        (fun m => ?_) (fun m k hk hlt => (look_bufBytes _ _ _ _).trans (if_neg ?_)) e.blk.buf
      · rw [look_bufBytes, hlen, if_pos (by omega), Nat.add_sub_cancel_left, Env.storeData, storeBytes_getD _ _ _ hj]
      · rw [hlen]
        have : (e.devAddr l).toNat + j < (e.devAddr k).toNat ∨ (e.devAddr k).toNat + e.ty.bytes ≤ (e.devAddr l).toNat + j :=
          hlast k (Env.mem_lanes.1 hk).1 hlt (Env.mem_lanes.1 hk).2
        omega

end Sys2Proof.Machine

/-! PROOFS. Waits on counters and pointers, conflicts of transactions, waves of a barrier (O36). -/

namespace Sys2Proof.Machine

/-! ### Waits on counters and pointers (R101, R126, R274, R275) -/

/-- An instruction that waits with no price records that wait, and changes nothing else. -/
theorem exec_waits {s : State} {i : Instr} {e : Env} (h : s.Passes i e) {kind : WaitKind} {need cls : Nat}
    (hbody : bodyOf e.cell.opc e = .wait kind need cls) :
    ∃ (t : State) (co : Cohort), exec i s = .next t ∧ t.cur.waited = true ∧ t.cohort e.slot = some co ∧
       co = { e.co with waits := co.waits } ∧ (∀ k, k ≠ e.slot → t.cohort k = s.cohort k) ∧
       { t with cohorts := s.cohorts, cur := s.cur, nextId := s.nextId } = s := by
  have hexec := exec_passes h
  rw [hbody] at hexec
  obtain ⟨rfl, -, hco, -⟩ := envFor_facts h.env
  obtain ⟨hw, hhere, hthere, hpart⟩ := e.waiting_spec hco kind need cls
  exact ⟨_, _, hexec, hw, hhere, Cohort.recordWait_frame _ _, hthere, hpart⟩

/-- An instruction that changes nothing goes on. -/
theorem exec_passesOn {s : State} {i : Instr} {e : Env} (h : s.Passes i e) (hbody : bodyOf e.cell.opc e = .ok e.s) :
    ∃ (t : State) (co : Cohort), exec i s = .next t ∧ e.RegisterFrame t co [] [] ∧ co.fpctl = e.co.fpctl := by
  have hexec := exec_passes h
  rw [hbody, finish_ok] at hexec
  exact ⟨_, _, hexec, e.registerFrame_self h.env, rfl⟩

theorem waitwpBody_notUniform {e : Env} (h : e.vb.isU = false) : waitwpBody e = .trap { code := 2, mask := e.act } := by
  rw [waitwpBody, h]
  rfl

theorem waitwpBody_uniform {e : Env} (h : e.vb.isU = true) : waitwpBody e =
    if (e.vb.at 0).toNat ≤ (e.co.ptr e.w.a.toNat).toNat then .ok e.s else .wait .pointer 0 0 := by
  rw [waitwpBody, h]
  simp only [Bool.not_true, Bool.false_eq_true, if_false, ← Nat.not_le, ite_not]

/-- RDWP writes the channel's pointer as one uniform register. -/
theorem rdwp_reads {s : State} {i : Instr} {e : Env} (h : s.Passes i e) (hc : e.cell = Cells.rdwp) (hd : e.destTakes true) :
    ∃ (t : State) (co : Cohort), exec i s = .next t ∧ e.RegisterFrame t co [e.w.d.toNat] [] ∧ co.fpctl = e.co.fpctl ∧
      ∀ l < 32, e.act.has l = true → e.w.d.toNat ≠ zv → (co.v e.w.d.toNat).at l = e.co.ptr e.w.a.toNat := by
  have hexec := exec_passes h
  rw [hc, show bodyOf Cells.rdwp.opc e = e.result (.u (e.co.ptr e.w.a.toNat)) from rfl, Env.result_takes hd, finish_ok] at hexec
  refine ⟨_, _, hexec, Env.registerFrame_setV (group_and_live h.env) _ _, ?_, fun l hl ha hz => ?_⟩
  · rw [e.setV_frame]; rfl
  · exact e.v_setV_at e.co _ hz hl ha

/-! ### Conflicts and waves (R109, R277) -/

theorem execTxConflict_quiet {s : State} {slot : Nat} {co : Cohort} {x : Tx} (hco : s.cohort slot = some co) (hx : co.tx = some x)
    (h : x.conflict = false) : exec (.txConflict slot) s = .next s := by
  show execTxConflict slot s = _
  simp only [execTxConflict, hco, Option.bind_some, hx, h, Bool.false_and, Bool.false_eq_true, if_false]

theorem execTxConflict_aborts {s : State} {slot : Nat} {co : Cohort} {x : Tx} (hco : s.cohort slot = some co) (hx : co.tx = some x)
    (h : x.conflict = true) (hclk : s.clocked (dieOf (coreOf slot)) = true) :
    exec (.txConflict slot) s = .next (s.abortTx slot txConflict) := by
  show execTxConflict slot s = _
  simp only [execTxConflict, hco, Option.bind_some, hx, h, hclk, Bool.and_self, if_true]

theorem execBarrierWave_eq {s : State} {cl : Nat} {w : Wave} {ws : List Wave} (hclk : s.clocked (clusterDie cl) = true)
    (hw : (s.cluster cl).waves = w :: ws) : exec (.barrierWave cl) s = .next (s.setCluster cl { s.cluster cl with
      waves := if w.slots.length ≤ w.size then ws else ws ++ [{ w with slots := w.slots.drop w.size }] }) := by
  show execBarrierWave cl s = _
  have hempty : (w.slots.drop w.size).isEmpty = decide (w.slots.length ≤ w.size) := by
    rw [Bool.eq_iff_iff, List.isEmpty_iff, List.drop_eq_nil_iff, decide_eq_true_iff]
  simp only [execBarrierWave, hclk, Bool.not_true, Bool.false_eq_true, if_false, hw, hempty, decide_eq_true_eq]

/-- Settles O36: a wait holds or passes by `exec_waits` and `exec_passesOn`; a conflict is `State.abortTx`; a wave is the head of its
cluster's list. -/
theorem waitsConflictsAndWaves : Obligations.WaitsConflictsAndWaves := by
  unfold Obligations.WaitsConflictsAndWaves
  refine ⟨fun s i e h => ⟨fun hc => ?_, fun hc => ⟨fun hu => ?_, fun hu => ?_⟩, rdwp_reads h⟩,
    fun s slot co x hco hx => ⟨execTxConflict_quiet hco hx, fun hcf hclk => ?_⟩, fun s cl w ws hclk hw => ?_⟩
  · have hbody : bodyOf e.cell.opc e = waitocBody e := by rw [hc]; rfl
    split
    next hle => exact exec_passesOn h (hbody.trans (if_neg (Nat.not_lt.2 hle)))
    next hlt => exact exec_waits h (hbody.trans (if_pos (Nat.not_le.1 hlt)))
  · have hexec := exec_passes h
    rw [hc, show bodyOf Cells.waitwp.opc e = _ from waitwpBody_notUniform hu] at hexec
    exact hexec
  · have hbody := (congrArg (fun c : Cell => bodyOf c.opc e) hc).trans (waitwpBody_uniform hu)
    split
    next hle => exact exec_passesOn h (hbody.trans (if_pos hle))
    next hlt => exact exec_waits h (hbody.trans (if_neg hlt))
  · have hframe := co.aborted_frame x txConflict
    refine ⟨_, _, execTxConflict_aborts hco hx hcf hclk, State.cohort_abortTx hco hx _, by rw [hframe], fun l hl hlive => ?_,
      fun l hl hlive => ?_, co.v_aborted_vd x txConflict, fun n hn => co.v_aborted_other x txConflict hn, by rw [hframe],
      fun b hb => ⟨_, State.block_abortTx hco hx txConflict hb, b.txClosed_frame co.cohid, Block.leaveColl_none (cohid := co.cohid),
        fun c => Block.not_arrived_leaveColl⟩,
      fun k => State.cohort_abortTx_ne hco hx txConflict, State.abortTx_frame hco hx txConflict⟩
    · rw [co.lane_aborted x txConflict hl, hlive, if_pos rfl]
      exact ⟨rfl, rfl⟩
    · rw [co.lane_aborted x txConflict hl, hlive]
      rfl
  · refine ⟨_, execBarrierWave_eq hclk hw, rfl, fun k hk => (State.cluster_setCluster ..).trans (if_neg hk),
      by rw [State.cluster_setCluster, if_pos rfl], fun hle => ?_, fun hlt => ?_⟩
    · rw [State.cluster_setCluster, if_pos rfl, if_pos hle]
    · rw [State.cluster_setCluster, if_pos rfl, if_neg (Nat.not_le.2 hlt)]

end Sys2Proof.Machine

/-! PROOFS. Explicit transactions and GCHK (O37): opening, commit, watch set and abort, and the order in which RESID compares magnitudes. -/

namespace Sys2Proof.Machine

/-! ### An abort by its own instruction (R81, R276, R277) -/

/-- The checks of TXC, TXA and TXW passed (R80, R278). -/
theorem Env.txCheck_open {e : Env} {x : Tx} {needFull : Bool} (hs : e.surr = false) (hx : e.co.tx = some x)
    (hf : needFull = true → e.full = true) (k : Tx → Eff) : e.txCheck needFull k = k x := by
  have hbad : (needFull && !e.full) = false := by
    cases hn : needFull with
    | false => rfl
    | true => rw [hf hn]; rfl
  simp only [Env.txCheck, hs, Bool.false_eq_true, if_false, hx, hbad]

/-- An instruction that aborts its cohort's transaction. -/
theorem exec_aborts {s : State} {i : Instr} {e : Env} (h : s.Passes i e) {x : Tx} (hx : e.co.tx = some x) {code : Nat}
    (hbody : bodyOf e.cell.opc e = .set (e.s.abortTx e.slot code)) :
    ∃ (t : State) (co : Cohort) (b : Block), exec i s = .next t ∧ t.cohort e.slot = some co ∧ co.tx = none ∧
       (x.vd ≠ zv → co.v x.vd = .u (BitVec.ofNat 32 code)) ∧ (∀ n, n ≠ x.vd → co.v n = e.co.v n) ∧ co.preds = e.co.preds ∧
       (∀ l < 32, e.co.live.has l = true → (co.lane l).pc = x.abort) ∧ t.block e.co.blk = some b ∧ b.buf = [] ∧ b.holder = none ∧
       ∀ key a, t.physByte key a = s.physByte key a := by
  have hexec := exec_passes h
  rw [hbody, finish_set] at hexec
  obtain ⟨rfl, -, hco, hblk, -⟩ := envFor_facts h.env
  refine ⟨_, (e.co.aborted x code).endWait e.pc, e.blk.txClosed e.co.cohid, hexec, ?_, rfl, e.co.v_aborted_vd x code,
    fun n hn => e.co.v_aborted_other x code hn, ?_, fun l hl hlive => ?_, State.block_abortTx hco hx code hblk, rfl, rfl,
    State.physByte_abortTx hco hx code⟩
  · exact State.cohort_updCohort_some (State.cohort_abortTx hco hx code) _
  · have hpreds := congrArg Cohort.preds (e.co.aborted_frame x code)
    exact hpreds
  · refine (congrArg Lane.pc (e.co.lane_aborted x code hl)).trans ?_
    rw [hlive]
    rfl

/-! ### TXB, TXC and TXW (R276, R277) -/

theorem txbBody_nested {e : Env} (h : e.co.tx.isSome = true) : txbBody e = .trap { code := 8, mask := e.act } := by
  rw [txbBody, if_pos (by simp [Env.buffered, Env.inTx, h])]
  rfl

/-- The cohort of a TXB that opens its transaction. -/
def Env.opened (e : Env) : Cohort :=
  { e.setV e.co e.w.d.toNat (.u 0) with tx := some { abort := e.target, vd := e.w.d.toNat } }

theorem txbBody_opens {e : Env} (hs : e.surr = false) (hx : e.co.tx = none) (hf : e.full = true) (hh : e.blk.holder = none) :
    txbBody e = .ok ((e.put e.opened).setBlock e.co.blk { e.blk with holder := some e.slot, buf := [], bufBy := [] }) := by
  simp only [txbBody, Env.buffered, Env.inTx, hs, hx, hf, hh, Option.isSome_none, Bool.or_self, Bool.not_true, Bool.false_eq_true, if_false]
  rfl

/-- The state of a TXC that commits, the buffered bytes at the places `l`. -/
def Env.committed (e : Env) (l : List (Nat × Byte)) : State :=
  ((e.s.commitBytes e.key (some e.slot) l).updBlock e.co.blk (fun b => { b with buf := [], bufBy := [], holder := none })).updCohort
    e.slot (fun co => { co with tx := none })

theorem txcBody_commits {e : Env} {x : Tx} {l : List (Nat × Byte)} (hs : e.surr = false) (hx : e.co.tx = some x) (hf : e.full = true)
    (hc : x.conflict = false) (hl : e.s.commitXlat (e.s.coreTlbs e.core) e.blk.vf .rmw e.blk.buf = .ok l) :
    txcBody e = .ok (e.committed l) := by
  rw [txcBody, Env.txCheck_open hs hx (fun _ => hf)]
  simp only [hc, Bool.false_eq_true, if_false, hl]
  rfl

theorem txcBody_conflict {e : Env} {x : Tx} (hs : e.surr = false) (hx : e.co.tx = some x) (hf : e.full = true)
    (hc : x.conflict = true) : txcBody e = .set (e.s.abortTx e.slot txConflict) := by
  rw [txcBody, Env.txCheck_open hs hx (fun _ => hf), if_pos hc]

section

variable {e : Env} (l : List (Nat × Byte))

theorem Env.cohort_committed (hco : e.s.cohort e.slot = some e.co) :
    (e.committed l).cohort e.slot = some { e.co with tx := none } := by
  refine State.cohort_updCohort_some (co := e.co) ?_ _
  obtain ⟨f, hf⟩ := e.s.cohort_physWrites e.key (some e.slot) Prod.fst (fun p => [p.2]) l
  exact (hf e.slot).trans (by rw [hco, Option.map_some, if_pos rfl])

theorem Env.block_committed (hblk : e.s.block e.co.blk = some e.blk) :
    (e.committed l).block e.co.blk = some { e.blk with buf := [], bufBy := [], holder := none } := by
  have hblocks : (e.s.commitBytes e.key (some e.slot) l).block e.co.blk = some e.blk :=
    (congrArg (fun s : State => s.block e.co.blk) (e.s.physWrites_frame e.key (some e.slot) Prod.fst (fun p => [p.2]) l)).trans hblk
  exact (State.block_updBlock_self _ _ _).trans (congrArg (Option.map _) hblocks)

theorem Env.physByte_committed_other {a : Nat} (h : ∀ p ∈ l, p.1 ≠ a) :
    (e.committed l).physByte e.key a = e.s.physByte e.key a :=
  e.s.physByte_physWrites_miss e.key (some e.slot) Prod.fst (fun p => [p.2]) l (fun p hp hin => by
    have := h p hp
    have : p.1 ≤ a ∧ a < p.1 + 1 := hin
    omega)

theorem Env.physByte_committed (hn : (l.map Prod.fst).Nodup) {p : Nat × Byte} (hp : p ∈ l) :
    (e.committed l).physByte e.key p.1 = p.2 := by
  have hbyte := e.s.physByte_physWrites_last e.key (some e.slot) Prod.fst (fun p => [p.2]) (List.pairwise_map.1 hn) (a := p.1) hp
    ⟨Nat.le_refl _, Nat.lt_succ_self _⟩ (fun q _ hne hin => by
      have : q.1 ≤ p.1 ∧ p.1 < q.1 + 1 := hin
      exact hne (by omega))
  rw [Nat.sub_self] at hbyte
  exact hbyte

end

/-- A watch set takes lines while it holds no more than sixteen (R80). -/
theorem Tx.watchLines_ok {x : Tx} {lns : List Nat} (h : x.watch.length + lns.length ≤ 16) :
    ∃ x', x.watchLines lns = some x' ∧ (∀ n ∈ x.watch, n ∈ x'.watch) ∧ (∀ n ∈ lns, n ∈ x'.watch) ∧
      (x.conflict = true → x'.conflict = true) ∧ x'.abort = x.abort ∧ x'.vd = x.vd := by
  induction lns generalizing x with
  | nil => exact ⟨x, rfl, fun _ => id, fun _ hn => absurd hn List.not_mem_nil, id, rfl, rfl⟩
  | cons ln rest ih =>
    rw [List.length_cons] at h
    rw [Tx.watchLines]
    by_cases hin : x.watch.contains ln = true
    · obtain ⟨x', hw, hkeep, hnew, hcf, ha, hv⟩ := ih (x := x) (by omega)
      refine ⟨x', (if_pos hin).trans hw, hkeep, fun n hn => ?_, hcf, ha, hv⟩
      rcases List.mem_cons.1 hn with rfl | hn
      · exact hkeep n (List.contains_iff_mem.1 hin)
      · exact hnew n hn
    · obtain ⟨x', hw, hkeep, hnew, hcf, ha, hv⟩ := ih (x := { x with
        watch := x.watch ++ [ln], conflict := x.conflict || x.clobbered.any (fun p => p / 64 == ln) })
        (by rw [List.length_append, List.length_singleton]; omega)
      refine ⟨x', (if_neg hin).trans ((if_neg (by omega)).trans hw), fun n hn => hkeep n (List.mem_append_left _ hn), fun n hn => ?_,
        fun hc => hcf (by rw [hc, Bool.true_or]), ha, hv⟩
      rcases List.mem_cons.1 hn with rfl | hn
      · exact hkeep n (List.mem_append_right _ List.mem_cons_self)
      · exact hnew n hn

theorem txwBody_watches {e : Env} {x : Tx} {p : Nat → Xlat} (hs : e.surr = false) (hx : e.co.tx = some x) (hp : e.Translates .read p)
    (hn : x.watch.length + popc e.act ≤ 16) : ∃ x', txwBody e = .ok (e.put { e.co with tx := some x' }) ∧
      (∀ n ∈ x.watch, n ∈ x'.watch) ∧ (∀ l < 32, e.act.has l = true → (p l).pa / 64 ∈ x'.watch) ∧
      (x.conflict = true → x'.conflict = true) ∧ x'.abort = x.abort ∧ x'.vd = x.vd := by
  obtain ⟨y, hy, hk⟩ := Env.xlatLanes_ok hp
  obtain ⟨x', hw, hkeep, hnew, hrest⟩ := Tx.watchLines_ok (x := x) (lns := e.lanes.map (fun l => (y l).pa / 64))
    (by rw [List.length_map]; exact hn)
  refine ⟨x', ?_, hkeep, fun l hl ha => ?_, hrest⟩
  · rw [txwBody, Env.txCheck_open hs hx (fun hf => absurd hf Bool.false_ne_true), hk]
    simp only [hw]
  · rw [← hy l hl ha]
    exact hnew _ (List.mem_map_of_mem (Env.mem_lanes.2 ⟨hl, ha⟩))

/-! ### Numbers in order (R149, R158) -/

/-- The significand at a lower exponent stands for the same number. -/
theorem scaled_rat (n : Bool) (m : Nat) {me e : Int} (st : Bool) (h : e ≤ me) :
    (scaled n m me e : ℚ) * (2 : ℚ) ^ e = (XVal.fin n m me st).rat := by
  have hpow : ((2 : ℚ) ^ (me - e).toNat) * (2 : ℚ) ^ e = (2 : ℚ) ^ me := by
    rw [← zpow_natCast, ← zpow_add₀ (by norm_num : (2 : ℚ) ≠ 0)]
    congr 1
    omega
  cases n with
  | false =>
    simp only [scaled, XVal.rat, Bool.false_eq_true, if_false, one_mul]
    push_cast
    rw [mul_assoc, hpow]
  | true =>
    simp only [scaled, XVal.rat, if_true]
    push_cast
    rw [neg_mul, mul_assoc, hpow]
    ring

/-- The model's comparison is that of the numbers with the infinities. -/
theorem xlt_iff {a b : XVal} (ha : a.isNan = false) (hb : b.isNan = false) : xlt a b = true ↔ a.ext < b.ext := by
  cases a with
  | nan => cases ha
  | inf n =>
    cases b with
    | nan => cases hb
    | inf k => cases n <;> cases k <;> simp [xlt, XVal.ext]
    | fin k m e st => cases n <;> simp [xlt, XVal.ext]
  | fin n m e st =>
    cases b with
    | nan => cases hb
    | inf k =>
      cases k with
      | true => simp [xlt, XVal.ext]
      | false => exact iff_of_true rfl (WithBot.coe_lt_coe.2 (WithTop.coe_lt_top _))
    | fin k m' e' st' =>
      have hpos : (0 : ℚ) < (2 : ℚ) ^ min e e' := by positivity
      rw [XVal.ext, XVal.ext, WithBot.coe_lt_coe, WithTop.coe_lt_coe, ← scaled_rat n m st (min_le_left e e'),
        ← scaled_rat k m' st' (min_le_right e e'), mul_lt_mul_iff_left₀ hpos, Int.cast_lt]
      exact decide_eq_true_iff

/-- A pattern of an IEEE format is a NaN by its exponent and its fraction (R149). -/
theorem Fmt.isNan_ieee {f : Fmt} (hf : f.spec = .ieee) (x : Nat) :
    (f.value x).isNan = (decide (x / 2 ^ f.mb % 2 ^ f.eb = 2 ^ f.eb - 1) && decide (x % 2 ^ f.mb ≠ 0)) := by
  simp only [Fmt.value, hf]
  by_cases hexp : x / 2 ^ f.mb % 2 ^ f.eb = 2 ^ f.eb - 1
  · by_cases hfrac : x % 2 ^ f.mb = 0
    · simp [hexp, hfrac, XVal.isNan]
    · simp [hexp, hfrac, XVal.isNan]
  · by_cases hsub : x / 2 ^ f.mb % 2 ^ f.eb = 0
    · rw [hsub] at hexp
      simp [hsub, hexp, XVal.isNan]
    · simp [hexp, hsub, XVal.isNan]

theorem isNan_v32 (x : W32) : (v32 x).isNan = (decide (x.toNat / 2 ^ 23 % 2 ^ 8 = 255) && decide (x.toNat % 2 ^ 23 ≠ 0)) :=
  Fmt.isNan_ieee (f := fmt32) rfl x.toNat

/-- The magnitude of a pattern is a NaN where the pattern is. -/
theorem isNan_magnitude (x : W32) : (v32 (x &&& 0x7FFFFFFF#32)).isNan = (v32 x).isNan := by
  have hmag : (x &&& 0x7FFFFFFF#32).toNat = x.toNat % 2 ^ 31 := by
    rw [BitVec.toNat_and]
    exact Nat.and_two_pow_sub_one_eq_mod x.toNat 31
  rw [isNan_v32, isNan_v32, hmag]
  congr 2 <;> apply propext <;> omega

/-! ### GCHK (R77, R279) -/

theorem gchkBody_outside {e : Env} (h : e.surr = false) : gchkBody e = .trap { code := 1, mask := e.act } := by
  rw [gchkBody, h]
  rfl

theorem gchkBody_notUniform {e : Env} (h : e.surr = true) (hu : e.va.isU = false) : gchkBody e = .trap { code := 2, mask := e.act } := by
  rw [gchkBody, h, hu]
  rfl

theorem gchkBody_checks {e : Env} (h : e.surr = true) (hu : e.va.isU = true) : gchkBody e =
    .ok (e.s.setBlock e.co.blk { e.blk with resid := residAfter e.blk.gseen e.blk.resid (e.va.at 0), gseen := true }) := by
  rw [gchkBody, h, hu]
  rfl

theorem residAfter_nan (seen : Bool) {resid v : W32}
    (h : (v32 (v &&& 0x7FFFFFFF#32)).isNan = true ∨ (v32 resid).isNan = true) : residAfter seen resid v = 0x7FC00000#32 := by
  rw [isNan_magnitude] at h
  exact if_pos (by simpa using h)

/-- Of two magnitudes the greater one stays. -/
theorem residAfter_greatest {resid v : W32} (hv : (v32 (v &&& 0x7FFFFFFF#32)).isNan = false) (hr : (v32 resid).isNan = false) :
    residAfter false resid v = v &&& 0x7FFFFFFF#32 ∧
    (residAfter true resid v = v &&& 0x7FFFFFFF#32 ∨ residAfter true resid v = resid) ∧
      (v32 (v &&& 0x7FFFFFFF#32)).ext ≤ (v32 (residAfter true resid v)).ext ∧ (v32 resid).ext ≤ (v32 (residAfter true resid v)).ext := by
  have hnan : ((v32 v).isNan || (v32 resid).isNan) = false := by rw [← isNan_magnitude, hv, hr]; rfl
  have hseen (seen : Bool) : residAfter seen resid v =
      if !seen || xlt (v32 resid) (v32 (v &&& 0x7FFFFFFF#32)) then v &&& 0x7FFFFFFF#32 else resid := by
    simp only [residAfter, hnan, Bool.false_eq_true, if_false]
  refine ⟨hseen false, ?_⟩
  rw [hseen true]
  by_cases hlt : xlt (v32 resid) (v32 (v &&& 0x7FFFFFFF#32)) = true
  · rw [if_pos (by rw [hlt]; rfl)]
    exact ⟨.inl rfl, le_refl _, le_of_lt ((xlt_iff hr hv).1 hlt)⟩
  · rw [if_neg (by simpa using hlt)]
    exact ⟨.inr rfl, not_lt.1 (fun h => hlt ((xlt_iff hr hv).2 h)), le_refl _⟩

/-- Settles O37: an abort is `exec_aborts`, a commit `Env.committed`, a watch set `Tx.watchLines_ok`; RESID is the greatest magnitude by
`residAfter_greatest`. -/
theorem transactionsAndGuards : Obligations.TransactionsAndGuards := by
  unfold Obligations.TransactionsAndGuards
  refine ⟨fun s i e h hs => ⟨fun hc hx => ?_, fun hc hx hf hh => ?_, fun hc x hx hf => ?_, fun hc x hx hf hcf => ?_,
    fun hc x l hx hf hcf hl => ?_, fun hc x p hx hp hn => ?_⟩, fun s i e h hc => ⟨fun hs => ?_, fun hs hu => ?_, fun hs hu => ?_⟩⟩
  · have hexec := exec_passes h
    rw [hc, show bodyOf Cells.txb.opc e = _ from txbBody_nested hx] at hexec
    exact hexec
  · have hexec := exec_passes h
    rw [hc, show bodyOf Cells.txb.opc e = _ from txbBody_opens hs hx hf hh, finish_ok] at hexec
    obtain ⟨rfl, -⟩ := envFor_facts h.env
    have hlanes := congrArg Cohort.lanes (e.setV_frame e.co e.w.d.toNat (.u 0))
    have hlive := congrArg Cohort.live (e.setV_frame e.co e.w.d.toNat (.u 0))
    have hpreds := congrArg Cohort.preds (e.setV_frame e.co e.w.d.toNat (.u 0))
    refine ⟨_, e.wentOn e.opened, _, hexec, e.cohort_completes_put e.opened, e.movedOn_wentOn (group_and_live h.env) hlanes hlive, rfl, fun hz => ?_,
      fun n hn => e.v_setV_other e.co (.u 0) hn, hpreds, (State.block_setBlock _ _ _ _).trans (if_pos rfl), rfl, fun key a => rfl⟩
    exact (e.v_setV e.co e.w.d.toNat (.u 0) e.w.d.toNat).trans ((if_pos ⟨rfl, hz⟩).trans (e.merge_full hf rfl))
  · exact exec_aborts h hx (by rw [hc]; exact Env.txCheck_open hs hx (fun _ => hf) _)
  · exact exec_aborts h hx (by rw [hc]; exact txcBody_conflict hs hx hf hcf)
  · have hexec := exec_passes h
    obtain ⟨rfl, -, hco, hblk, -⟩ := envFor_facts h.env
    rw [hc, show bodyOf Cells.txc.opc e = _ from txcBody_commits hs hx hf hcf hl, finish_ok] at hexec
    exact ⟨_, e.wentOn { e.co with tx := none }, _, hexec, State.cohort_updCohort_some (e.cohort_committed l hco) _, rfl,
      e.movedOn_wentOn (group_and_live h.env) rfl rfl, rfl, rfl, e.block_committed l hblk, rfl,
      fun a ha => e.physByte_committed_other l ha, fun hn p hp => e.physByte_committed l hn hp⟩
  · have hexec := exec_passes h
    obtain ⟨x', hbody, hrest⟩ := txwBody_watches hs hx hp hn
    rw [hc, show bodyOf Cells.txw.opc e = _ from hbody, finish_ok] at hexec
    exact ⟨_, _, x', hexec, e.onlyCohort_completes_put _, e.movedOn_wentOn (group_and_live h.env) rfl rfl, rfl, hrest⟩
  · have hexec := exec_passes h
    rw [hc, show bodyOf Cells.gchk.opc e = _ from gchkBody_outside hs] at hexec
    exact hexec
  · have hexec := exec_passes h
    rw [hc, show bodyOf Cells.gchk.opc e = _ from gchkBody_notUniform hs hu] at hexec
    exact hexec
  · have hexec := exec_passes h
    obtain ⟨rfl, -, hco, -⟩ := envFor_facts h.env
    rw [hc, show bodyOf Cells.gchk.opc e = _ from gchkBody_checks hs hu, finish_ok] at hexec
    refine ⟨_, e.wentOn e.co, _, hexec, State.cohort_updCohort_some hco _, e.movedOn_wentOn (group_and_live h.env) rfl rfl, rfl,
      (State.block_setBlock _ _ _ _).trans (if_pos rfl), rfl, residAfter_nan e.blk.gseen, fun hv hr => ?_⟩
    obtain ⟨hfirst, hlater⟩ := residAfter_greatest hv hr
    exact ⟨fun hg => (congrArg (residAfter · e.blk.resid (e.va.at 0)) hg).trans hfirst, fun hg => by rw [hg]; exact hlater⟩

end Sys2Proof.Machine

/-! PROOFS. Errors of the stores (O58): a kill of a block, what it leaves of the state, and the counters and the log. -/

namespace Sys2Proof.Machine

/-! ### A state in which copies were dropped -/

/-- A state that differs by what copies and cohorts hold, and by blocks that have ended and are gone. -/
def State.Reaped (s t : State) : Prop :=
  ∃ (cores : SMap Core) (cohorts : SMap Cohort) (keep : Nat × Block → Bool), (∀ p, p.2.ended = false → keep p = true) ∧
    t = { s with cores := cores, cohorts := cohorts, blocks := s.blocks.filter keep }

theorem State.Reaped.of_cohorts (s : State) (cohorts : SMap Cohort) : s.Reaped { s with cohorts := cohorts } :=
  ⟨s.cores, cohorts, fun _ => true, fun _ _ => rfl, by rw [List.filter_true]⟩

theorem State.Reaped.refl (s : State) : s.Reaped s := .of_cohorts s s.cohorts

theorem State.Reaped.trans {s t u : State} (h : s.Reaped t) (k : t.Reaped u) : s.Reaped u := by
  obtain ⟨cs, co, p, hp, rfl⟩ := h
  obtain ⟨cs', co', q, hq, rfl⟩ := k
  exact ⟨cs', co', fun x => p x && q x, fun x hx => by simp [hp x hx, hq x hx], by simp only [List.filter_filter, Bool.and_comm]⟩

theorem State.reaped_copyDrop (s : State) (core ch : Nat) (c : Copy) : s.Reaped (s.copyDrop core ch c) :=
  ⟨_, _, _, fun p hp => by simp [hp], rfl⟩

theorem State.reaped_foldl {α : Type} (f : State → α → State) (h : ∀ (s : State) a, s.Reaped (f s a)) (as : List α) (s : State) :
    s.Reaped (as.foldl f s) := by
  induction as generalizing s with
  | nil => exact .refl s
  | cons a as ih => exact (h s a).trans (ih (f s a))

theorem SMap.look_filter_kept {α : Type} {m : SMap α} {keep : Nat × α → Bool} {i : Nat} {x : α} (h : m.look i = some x)
    (hk : ∀ j, keep (j, x) = true) : SMap.look (m.filter keep) i = some x := by
  induction m with
  | nil => cases h
  | cons p m ih =>
    obtain ⟨j, v⟩ := p
    simp only [SMap.look] at h
    split at h
    next hj =>
      cases h
      rw [List.filter_cons_of_pos (hk j)]
      simp [SMap.look, hj]
    next hj =>
      rw [List.filter_cons]
      split
      · simp only [SMap.look, if_neg hj, ih h]
      · exact ih h

theorem State.Reaped.block {s t : State} (h : s.Reaped t) {i : Nat} {b : Block} (hb : s.block i = some b) (hend : b.ended = false) :
    t.block i = some b := by
  obtain ⟨_, _, keep, hkeep, rfl⟩ := h
  exact SMap.look_filter_kept hb (fun j => hkeep (j, b) hend)

theorem State.Reaped.blocks_sublist {s t : State} (h : s.Reaped t) : List.Sublist t.blocks s.blocks := by
  obtain ⟨_, _, keep, _, rfl⟩ := h
  exact List.filter_sublist

theorem State.Reaped.frame {s t : State} (h : s.Reaped t) : t = { s with cores := t.cores, cohorts := t.cohorts, blocks := t.blocks } := by
  obtain ⟨_, _, _, _, rfl⟩ := h
  rfl

/-! ### The kill of a block (R75, R350) -/

/-- A killed block. -/
def Block.dead (b : Block) (code : Nat) : Block :=
  { b with killed := true, killCode := code, buf := [], bufBy := [], holder := none, coll := none, ecc := none }

/-- Whether the launch of a block may run its node again after an ECC kill (R75). -/
def Launch.MayAgain (l : Launch) (node : Nat) : Prop := l.idemp = true ∧ ((l.nodes.look node).map (·.relaunch)).getD 0 < 3

/-- A stop leaves everything but its launch and the waits of the agents. -/
theorem State.stopLaunch_frame (s : State) (lid status detail node : Nat) : s.stopLaunch lid status detail node =
    { s with launches := (s.stopLaunch lid status detail node).launches, clusters := (s.stopLaunch lid status detail node).clusters } := by
  unfold State.stopLaunch
  split
  · rfl
  · split <;> rfl

theorem State.launch_stopLaunch {s : State} {lid : Nat} {l : Launch} (hl : s.launch lid = some l) (hstop : l.stop = none)
    (status detail node : Nat) : (s.stopLaunch lid status detail node).launch lid =
      some { l.dropCopies with stop := some (status, detail, node), search := [] } := by
  simp only [State.stopLaunch, hl, hstop, Option.isSome_none, Bool.false_eq_true, if_false]
  exact SMap.look_put_self ..

/-- A block made dead: its transaction, its cohorts' waits and its stopped copies go. -/
def State.deaden (s : State) (bi : Nat) (b : Block) (code : Nat) : State :=
  let s := s.setBlock bi (b.dead code)
  let s := { s with cohorts := s.cohorts.mapVals (fun _ co =>
    if co.blk = bi then { co with tx := none, park := none, later := [], waits := [], vglimit := [] } else co) }
  (((s.core b.core).chans).flatMap (fun q => (q.2.filter (fun c => c.stopped && c.blk == bi)).map (fun c => (q.1, c)))).foldl
    (fun s p => s.copyDrop b.core p.1 p.2) s

theorem State.reaped_deaden (s : State) (bi : Nat) (b : Block) (code : Nat) : (s.setBlock bi (b.dead code)).Reaped (s.deaden bi b code) :=
  (State.Reaped.of_cohorts _ _).trans (State.reaped_foldl _ (fun s (p : Nat × Copy) => s.reaped_copyDrop b.core p.1 p.2) _ _)

theorem State.launch_deaden (s : State) (bi : Nat) (b : Block) (code lid : Nat) : (s.deaden bi b code).launch lid = s.launch lid := by
  have h := congrArg (fun t : State => t.launch lid) (s.reaped_deaden bi b code).frame
  exact h

section
variable {s : State} {bi : Nat} {b : Block} {l : Launch} (hb : s.block bi = some b) (hl : s.launch b.launch = some l)
  (hkilled : b.killed = false) (hended : b.ended = false) (hsurr : b.surrogate = false)
include hb hl hkilled hended hsurr

/-- The kill of a block that runs: the block is dead, and its launch stops as ECC unless its node may run again. -/
theorem State.killBlock_ecc :
    (l.MayAgain b.node → s.killBlock bi codeEcc = s.deaden bi b codeEcc) ∧
    (¬ l.MayAgain b.node → s.killBlock bi codeEcc = (s.deaden bi b codeEcc).stopLaunch b.launch stEcc 0 b.node) := by
  have hkill : s.killBlock bi codeEcc = if l.idemp && decide (((l.nodes.look b.node).map (·.relaunch)).getD 0 < 3)
      then s.deaden bi b codeEcc else (s.deaden bi b codeEcc).stopLaunch b.launch stEcc 0 b.node := by
    unfold State.killBlock
    rw [hb]
    show (if b.killed || b.ended then s else if b.surrogate then s.deaden bi b codeEcc else
      match (s.deaden bi b codeEcc).launch b.launch with
      | none => s.deaden bi b codeEcc
      | some l =>
        if codeEcc = codeEcc && l.idemp && ((l.nodes.look b.node).map (·.relaunch)).getD 0 < 3 then s.deaden bi b codeEcc
        else (s.deaden bi b codeEcc).stopLaunch b.launch (if codeEcc = codeEcc then stEcc else stKilled) 0 b.node) = _
    rw [if_neg (by simp [hkilled, hended]), if_neg (by simp [hsurr]), s.launch_deaden, hl]
    simp only [decide_true, Bool.true_and, if_true]
  have hagain : (l.idemp && decide (((l.nodes.look b.node).map (·.relaunch)).getD 0 < 3)) = true ↔ l.MayAgain b.node := by
    simp [Launch.MayAgain]
  exact ⟨fun h => hkill.trans (if_pos (hagain.mpr h)), fun h => hkill.trans (if_neg (fun e => h (hagain.mp e)))⟩

theorem State.killBlock_frame : s.killBlock bi codeEcc = { s with
    blocks := (s.deaden bi b codeEcc).blocks, cores := (s.killBlock bi codeEcc).cores, cohorts := (s.killBlock bi codeEcc).cohorts,
    launches := (s.killBlock bi codeEcc).launches, clusters := (s.killBlock bi codeEcc).clusters } := by
  obtain ⟨hagain, hstops⟩ := State.killBlock_ecc hb hl hkilled hended hsurr
  by_cases h : l.MayAgain b.node
  · rw [hagain h, (s.reaped_deaden bi b codeEcc).frame]
    rfl
  · rw [hstops h, State.stopLaunch_frame, (s.reaped_deaden bi b codeEcc).frame]
    rfl

theorem State.die_killBlock (d : Nat) : (s.killBlock bi codeEcc).die d = s.die d := by
  have h := congrArg (fun t : State => t.die d) (State.killBlock_frame hb hl hkilled hended hsurr)
  exact h

theorem State.vf_killBlock (v : Nat) : (s.killBlock bi codeEcc).vf v = s.vf v := by
  have h := congrArg (fun t : State => t.vf v) (State.killBlock_frame hb hl hkilled hended hsurr)
  exact h

theorem State.mem_killBlock : (s.killBlock bi codeEcc).mem = s.mem := by
  have h := congrArg State.mem (State.killBlock_frame hb hl hkilled hended hsurr)
  exact h

theorem State.block_killBlock : (s.killBlock bi codeEcc).block bi = some (b.dead codeEcc) := by
  have hdead := (s.reaped_deaden bi b codeEcc).block (b := b.dead codeEcc) ((s.block_setBlock bi bi _).trans (if_pos rfl)) hended
  rw [State.killBlock_frame hb hl hkilled hended hsurr]
  exact hdead

theorem State.blocks_killBlock_sublist : List.Sublist (s.killBlock bi codeEcc).blocks (s.blocks.put bi (b.dead codeEcc)) := by
  rw [State.killBlock_frame hb hl hkilled hended hsurr]
  exact (s.reaped_deaden bi b codeEcc).blocks_sublist

theorem State.launch_killBlock (hstop : l.stop = none) : ∃ l' : Launch, (s.killBlock bi codeEcc).launch b.launch = some l' ∧
    (l.MayAgain b.node → l'.stop = none) ∧ (¬ l.MayAgain b.node → l'.stop = some (stEcc, 0, b.node)) := by
  obtain ⟨hagain, hstops⟩ := State.killBlock_ecc hb hl hkilled hended hsurr
  have hl' : (s.deaden bi b codeEcc).launch b.launch = some l := (s.launch_deaden ..).trans hl
  by_cases h : l.MayAgain b.node
  · exact ⟨l, (congrArg (State.launch · _) (hagain h)).trans hl', fun _ => hstop, fun k => absurd h k⟩
  · exact ⟨_, (congrArg (State.launch · _) (hstops h)).trans (State.launch_stopLaunch hl' hstop ..), fun k => absurd k h, fun _ => rfl⟩

omit hsurr in
/-- An ECC kill of a block that runs (R388, R391). -/
theorem State.eccKill_eq (slot : W32) : s.eccKill bi slot =
    ((s.postKill b.vf (dieOf b.core) { code := codeEcc, cls := 3, slot := slot, node := b.node, queue := l.queue, tag := l.tag }).updDie
      (dieOf b.core) (fun d => { d with kills := satInc d.kills })).killBlock bi codeEcc := by
  simp only [State.eccKill, hb, hl, hkilled, hended, Bool.or_self, Bool.false_eq_true, if_false]

/-- What an ECC kill of a block that runs leaves: the block dead, one record of class K, KILLS counted, its launch stopped or not. -/
theorem State.eccKill_kills (hstop : l.stop = none) (slot : W32) : ∃ (r : FaultInfo) (l' : Launch),
    (s.eccKill bi slot).block bi = some (b.dead codeEcc) ∧ (∀ d, ((s.eccKill bi slot).die d).ue = (s.die d).ue) ∧
    ((s.eccKill bi slot).die (dieOf b.core)).kills = satInc (s.die (dieOf b.core)).kills ∧
    ((s.eccKill bi slot).vf b.vf).records = (s.vf b.vf).records ++ [r] ∧ r.code = 32 ∧ r.cls = 3 ∧ r.slot = slot ∧ r.node = b.node ∧
    (s.eccKill bi slot).launch b.launch = some l' ∧ (l.MayAgain b.node → l'.stop = none) ∧
    (¬ l.MayAgain b.node → l'.stop = some (2, 0, b.node)) ∧ (s.eccKill bi slot).mem = s.mem := by
  let r : FaultInfo := { code := codeEcc, cls := 3, slot := slot, node := b.node, queue := l.queue, tag := l.tag }
  let v := (s.postKill b.vf (dieOf b.core) r).updDie (dieOf b.core) (fun d => { d with kills := satInc d.kills })
  have heq : s.eccKill bi slot = v.killBlock bi codeEcc := State.eccKill_eq hb hl hkilled hended slot
  obtain ⟨l', hl', hon, hoff⟩ := State.launch_killBlock (s := v) hb hl hkilled hended hsurr hstop
  have hdie : ∀ d, (v.killBlock bi codeEcc).die d = if d = dieOf b.core then { s.die d with kills := satInc (s.die d).kills } else s.die d := by
    intro d
    calc (v.killBlock bi codeEcc).die d = v.die d := State.die_killBlock (s := v) hb hl hkilled hended hsurr d
      _ = _ := State.die_updDie (s.postKill b.vf (dieOf b.core) r) (dieOf b.core) d _
      _ = _ := by
        split
        next h => rw [h]; rfl
        next => rfl
  have hvf : (v.killBlock bi codeEcc).vf b.vf = { s.vf b.vf with records := (s.vf b.vf).records ++ [r] } := by
    refine (State.vf_killBlock (s := v) hb hl hkilled hended hsurr b.vf).trans ?_
    exact (s.vf_updVf b.vf b.vf (fun v => { v with records := v.records ++ [r] })).trans (if_pos rfl)
  refine ⟨r, l', ?_⟩
  rw [heq]
  refine ⟨State.block_killBlock (s := v) hb hl hkilled hended hsurr, fun d => ?_, ?_, congrArg Vf.records hvf, rfl, rfl, rfl, rfl, hl', hon, hoff,
    State.mem_killBlock (s := v) hb hl hkilled hended hsurr⟩
  · rw [hdie]
    split <;> rfl
  · rw [hdie, if_pos rfl]

omit hsurr in
theorem State.eccKill_blocks (hsurr : b.surrogate = false) (slot : W32) :
    List.Sublist (s.eccKill bi slot).blocks (s.blocks.put bi (b.dead codeEcc)) := by
  rw [State.eccKill_eq hb hl hkilled hended slot]
  exact State.blocks_killBlock_sublist (s := (s.postKill ..).updDie ..) hb hl hkilled hended hsurr

end

/-! ### Errors that a read has met (R388) -/

theorem State.die_noteUe (s : State) (die cls vf : Nat) (slot : W32) (addr : W64) (d : Nat) : (s.noteUe die cls vf slot addr).die d =
    if d = die then { s.die die with ue := (s.die die).ue.put cls (satInc ((s.die die).ue.get cls 0)) } else s.die d :=
  s.die_updDie die d (fun d => { d with ue := d.ue.put cls (satInc (d.ue.get cls 0)) })

theorem State.ueCount_noteUe (s : State) (die cls vf : Nat) (slot : W32) (addr : W64) :
    ((s.noteUe die cls vf slot addr).die die).ue.get cls 0 = satInc ((s.die die).ue.get cls 0) := by
  rw [s.die_noteUe, if_pos rfl, SMap.get_put, if_pos rfl]

/-- No block of a core has a kill due. -/
def State.NoneDue (s : State) (core : Nat) : Prop := ∀ i b, s.block i = some b → b.core = core → b.ecc = none

theorem State.NoneDue.settleErrors {s : State} {core : Nat} (h : s.NoneDue core) (hwf : s.blocks.wf = true) : s.settleErrors core = s := by
  unfold State.settleErrors
  have hdue : ∀ p ∈ s.coreBlocks core, p.2.ecc = none := by
    intro p hp
    obtain ⟨hmem, hcore⟩ := List.mem_filter.mp hp
    exact h p.1 p.2 (SMap.look_of_mem hwf hmem) (by simpa using hcore)
  generalize s.coreBlocks core = ps at hdue
  induction ps with
  | nil => rfl
  | cons p ps ih =>
    rw [List.foldl_cons]
    simp only [hdue p List.mem_cons_self]
    exact ih (fun q hq => hdue q (List.mem_cons_of_mem _ hq))

/-- A table cut down to some of its entries answers as before where it answers. -/
theorem SMap.look_of_sublist {α : Type} {m n : SMap α} (h : List.Sublist m n) (w : n.wf = true) {i : Nat} {x : α} (hx : m.look i = some x) :
    n.look i = some x := SMap.look_of_mem w (h.subset (SMap.mem_of_look hx))

theorem SMap.wf_sublist {α : Type} {m n : SMap α} (h : List.Sublist m n) (w : n.wf = true) : m.wf = true :=
  (m.wf_iff).mpr (((n.wf_iff).mp w).sublist h)

/-- A core whose one block has a kill due: the kill is made. -/
theorem State.settleErrors_due {s : State} {bi slot line : Nat} {b : Block} (hb : s.block bi = some b) (hecc : b.ecc = some (slot, line))
    (hone : s.coreBlocks b.core = [(bi, b)]) :
    s.settleErrors b.core = (s.setBlock bi { b with ecc := none }).eccKill bi (BitVec.ofNat 32 slot) := by
  have hupd : s.updBlock bi (fun b => { b with ecc := none }) = s.setBlock bi { b with ecc := none } := by
    have hlook : s.blocks.look bi = some b := hb
    simp only [State.updBlock, State.setBlock, SMap.upd, hlook]
  simp only [State.settleErrors, hone, List.foldl_cons, List.foldl_nil, hecc, hupd]

/-- After the kill of its one block no kill is due on a core. -/
theorem State.noneDue_of_killed {s t : State} {bi : Nat} {b b₁ b₂ : Block} (hwf : s.blocks.wf = true) (hone : s.coreBlocks b.core = [(bi, b)])
    (hecc : b₂.ecc = none) (hsub : List.Sublist t.blocks ((s.blocks.put bi b₁).put bi b₂)) :
    t.NoneDue b.core ∧ t.blocks.wf = true := by
  have hput : ((s.blocks.put bi b₁).put bi b₂).wf = true := SMap.wf_put _ _ _ (SMap.wf_put _ _ _ hwf)
  refine ⟨fun i c hc hcore => ?_, SMap.wf_sublist hsub hput⟩
  have hlook := SMap.look_of_sublist hsub hput hc
  rw [SMap.look_put] at hlook
  split at hlook
  next => exact (Option.some.inj hlook) ▸ hecc
  next hi =>
    rw [SMap.look_put, if_neg hi] at hlook
    have hmem : (i, c) ∈ s.coreBlocks b.core := List.mem_filter.mpr ⟨SMap.mem_of_look hlook, by simpa using hcore⟩
    rw [hone, List.mem_singleton] at hmem
    exact absurd (congrArg Prod.fst hmem) hi

/-! ### A correctable error (R391, R394) -/

theorem State.noteCe_cases (s : State) (die cls frame : Nat) :
    let n := (s.die die).frames.get frame 0 + 1
    let u := s.updDie die (fun d => { d with ce := d.ce.put cls (satInc (d.ce.get cls 0)) })
    (cls ≠ 0 → s.noteCe die cls frame = u) ∧
    (cls = 0 → n < (s.die die).cethr → s.noteCe die cls frame = u.setDie die { u.die die with frames := (s.die die).frames.put frame n }) ∧
    (cls = 0 → (s.die die).cethr ≤ n → s.noteCe die cls frame =
      (u.setDie die { u.die die with frames := (s.die die).frames.del frame }).logEvent
        { plainEntry logRetire die 0 with cls := 0, addr := BitVec.ofNat 64 (frame * 4096) }) := by
  intro n u
  have hdie : u.die die = { s.die die with ce := (s.die die).ce.put cls (satInc ((s.die die).ce.get cls 0)) } :=
    (s.die_updDie die die _).trans (if_pos rfl)
  have hframes : (u.die die).frames = (s.die die).frames := by rw [hdie]
  have hthr : (u.die die).cethr = (s.die die).cethr := by rw [hdie]
  refine ⟨fun h => ?_, fun h hn => ?_, fun h hn => ?_⟩ <;> unfold State.noteCe
  · exact if_pos (by simpa using h)
  · refine (if_neg (by simpa using h)).trans ((if_pos ?_).trans ?_)
    · rw [hframes, hthr]; exact hn
    · rw [hframes]
  · refine (if_neg (by simpa using h)).trans ((if_neg ?_).trans ?_)
    · rw [hframes, hthr]; exact Nat.not_lt.mpr hn
    · rw [hframes]

/-- What an error counted leaves: its counter one higher, and the frame's count, or the frame at 0 and a RETIRE entry. -/
theorem State.noteCe_counts (s : State) (die cls frame : Nat) :
    let d := s.die die
    let n := d.frames.get frame 0 + 1
    let t := s.noteCe die cls frame
    (t.die die).ce = d.ce.put cls (satInc (d.ce.get cls 0)) ∧ (cls ≠ 0 → (t.die die).frames = d.frames ∧ t.grotto = s.grotto) ∧
    (cls = 0 → n < d.cethr → (t.die die).frames.get frame 0 = n ∧ t.grotto = s.grotto) ∧
    (cls = 0 → d.cethr ≤ n → (t.die die).frames.get frame 0 = 0 ∧ ∃ e : LogEntry, t.grotto.sram = (e :: s.grotto.sram).take 1024 ∧ e.kind = 2 ∧
      e.die = die ∧ e.seq = s.grotto.logseq + 1 ∧ e.addr = BitVec.ofNat 64 (4096 * frame)) := by
  intro d n t
  let u := s.updDie die (fun d => { d with ce := d.ce.put cls (satInc (d.ce.get cls 0)) })
  have hu : u.die die = { d with ce := d.ce.put cls (satInc (d.ce.get cls 0)) } := (s.die_updDie die die _).trans (if_pos rfl)
  have hset : ∀ fr : SMap Nat, (u.setDie die { u.die die with frames := fr }).die die = { u.die die with frames := fr } :=
    fun fr => (u.die_setDie die die _).trans (if_pos rfl)
  obtain ⟨hother, hbelow, hreached⟩ := s.noteCe_cases die cls frame
  refine ⟨?_, fun h => ?_, fun h hn => ?_, fun h hn => ?_⟩
  · by_cases h : cls = 0
    · by_cases hn : n < d.cethr
      · show ((s.noteCe die cls frame).die die).ce = _
        rw [hbelow h hn, hset, hu]
      · show ((s.noteCe die cls frame).die die).ce = _
        rw [hreached h (Nat.le_of_not_lt hn)]
        refine (congrArg Die.ce (hset _)).trans ?_
        rw [hu]
    · show ((s.noteCe die cls frame).die die).ce = _
      rw [hother h, hu]
  · show ((s.noteCe die cls frame).die die).frames = _ ∧ (s.noteCe die cls frame).grotto = _
    rw [hother h]
    exact ⟨by rw [hu], rfl⟩
  · show ((s.noteCe die cls frame).die die).frames.get frame 0 = _ ∧ (s.noteCe die cls frame).grotto = _
    rw [hbelow h hn]
    exact ⟨by rw [hset, SMap.get_put, if_pos rfl], rfl⟩
  · show ((s.noteCe die cls frame).die die).frames.get frame 0 = _ ∧ ∃ e : LogEntry, (s.noteCe die cls frame).grotto.sram = _ ∧ _
    rw [hreached h hn]
    refine ⟨(congrArg (fun d : Die => d.frames.get frame 0) (hset _)).trans ?_, _, rfl, rfl, rfl, rfl, ?_⟩
    · rw [SMap.get_del, if_pos rfl]
    · rw [Nat.mul_comm]

/-! ### The statement -/

/-- The first clause of O58: an error that a read of a cohort meets, at once or in a poisoned line. -/
theorem eccKills (s : State) (slot line : Nat) (co : Cohort) (b : Block) (l : Launch) (hrel : s.released = true)
    (hco : s.cohort slot = some co) (hb : s.block co.blk = some b) (hl : s.launch b.launch = some l) (hkilled : b.killed = false)
    (hended : b.ended = false) (hsurr : b.surrogate = false) (hstop : l.stop = none) :
    let killed (n : W32) (t : State) : Prop := ∃ (b' : Block) (r : FaultInfo) (l' : Launch),
      t.block co.blk = some b' ∧ b'.killed = true ∧ b'.killCode = 32 ∧ b'.ecc = none ∧
      (t.die (lineDie line)).ue.get 0 0 = n ∧
      (t.die (dieOf b.core)).kills = satInc (s.die (dieOf b.core)).kills ∧
      (t.vf b.vf).records = (s.vf b.vf).records ++ [r] ∧ r.code = 32 ∧ r.cls = 3 ∧ r.slot = BitVec.ofNat 32 slot ∧ r.node = b.node ∧
      t.launch b.launch = some l' ∧ (l.MayAgain b.node → l'.stop = none) ∧ (¬ l.MayAgain b.node → l'.stop = some (2, 0, b.node)) ∧
      t.mem = s.mem
    let met := s.meetPoison co.blk slot line
    (s.clocked (dieOf (coreOf slot)) = false → exec (.eccUncorrectable (.hbmRead slot line)) s = .next s) ∧
    (s.clocked (dieOf (coreOf slot)) = true →
      ∃ t : State, exec (.eccUncorrectable (.hbmRead slot line)) s = .next t ∧ killed (satInc ((s.die (lineDie line)).ue.get 0 0)) t) ∧
    ((met.die (lineDie line)).ue.get 0 0 = satInc ((s.die (lineDie line)).ue.get 0 0) ∧
      met.block co.blk = some { b with ecc := some (slot, line) } ∧ met.cohorts = s.cohorts ∧ met.vfs = s.vfs ∧ met.mem = s.mem) ∧
    (b.ecc = some (slot, line) → s.blocks.wf = true → s.coreBlocks b.core = [(co.blk, b)] →
      killed ((s.die (lineDie line)).ue.get 0 0) (s.settleErrors b.core) ∧
      (s.settleErrors b.core).settleErrors b.core = s.settleErrors b.core) := by
  intro killed met
  refine ⟨fun hclk => ?_, fun hclk => ?_, ?_, fun hecc hwf hone => ?_⟩
  · exact congrArg Host.Outcome.next (if_pos (by simp [State.siteStands, hclk]))
  · refine ⟨_, rfl, ?_⟩
    let v := s.noteUe (lineDie line) 0 (s.vfOf slot) (BitVec.ofNat 32 slot) (BitVec.ofNat 64 (64 * line))
    have hread : (if !s.released || s.siteStands (.hbmRead slot line) then s else s.readError 0 slot line) =
        v.eccKill co.blk (BitVec.ofNat 32 slot) := by
      rw [if_neg (by simp [State.siteStands, hclk, hrel])]
      simp only [State.readError, hco]
      rfl
    have hkills : (v.die (dieOf b.core)).kills = (s.die (dieOf b.core)).kills := by
      rw [s.die_noteUe]
      split
      next h => rw [h]
      next => rfl
    obtain ⟨r, l', hblk, hue, hk, hrec⟩ := State.eccKill_kills (s := v) hb hl hkilled hended hsurr hstop (BitVec.ofNat 32 slot)
    rw [← hread] at hblk hue hk hrec
    exact ⟨_, r, l', hblk, rfl, rfl, rfl, by rw [hue, s.ueCount_noteUe], hkills ▸ hk, hrec⟩
  · have hmet : met = (s.noteUe (lineDie line) 0 b.vf (BitVec.ofNat 32 slot) (BitVec.ofNat 64 (64 * line))).setBlock co.blk
        { b with ecc := some (slot, line) } := by
      simp only [met, State.meetPoison, hb]
    rw [hmet]
    exact ⟨s.ueCount_noteUe (lineDie line) 0 b.vf (BitVec.ofNat 32 slot) (BitVec.ofNat 64 (64 * line)),
      (State.block_setBlock ..).trans (if_pos rfl), rfl, rfl, rfl⟩
  · have hb' : (s.setBlock co.blk { b with ecc := none }).block co.blk = some { b with ecc := none } :=
      (State.block_setBlock ..).trans (if_pos rfl)
    rw [State.settleErrors_due hb hecc hone]
    constructor
    · obtain ⟨r, l', hblk, hue, hrest⟩ := State.eccKill_kills hb' hl hkilled hended hsurr hstop (BitVec.ofNat 32 slot)
      exact ⟨_, r, l', hblk, rfl, rfl, rfl, congrArg (SMap.get · 0 0) (hue _), hrest⟩
    · obtain ⟨hdue, hwf'⟩ := State.noneDue_of_killed hwf hone rfl (State.eccKill_blocks hb' hl hkilled hended hsurr (BitVec.ofNat 32 slot))
      exact hdue.settleErrors hwf'

theorem State.mem_poisoned_markPoison (s : State) (line : Nat) : line ∈ ((s.markPoison line).die (lineDie line)).poisoned := by
  unfold State.markPoison
  rw [s.die_updDie, if_pos rfl]
  split
  next h => simpa using h
  next => exact List.mem_cons_self

theorem State.ue_markPoison (s : State) (line die : Nat) : ((s.markPoison line).die die).ue = (s.die die).ue := by
  unfold State.markPoison
  rw [s.die_updDie]
  split
  next h => split <;> rw [h]
  next => rfl

/-- The second clause of O58: an error met by a walk, in an entry of a TLB, in a slot of a ring. -/
theorem eccUncorrectableSites (s : State) (line die core slot : Nat) (hrel : s.released = true) :
    (∃ t : State, exec (.eccUncorrectable (.hbmWalk line)) s = .next t ∧ line ∈ (t.die (lineDie line)).poisoned ∧
      (t.die (lineDie line)).ue.get 0 0 = satInc ((s.die (lineDie line)).ue.get 0 0) ∧ t.cohorts = s.cohorts ∧ t.mem = s.mem) ∧
    (s.clocked (dieOf core) = false → exec (.eccUncorrectable (.tlb core slot)) s = .next s) ∧
    (s.clocked die = false → exec (.eccUncorrectable (.ringSlot die slot)) s = .next s) ∧
    (s.clocked (dieOf core) = true → ∃ t : State, exec (.eccUncorrectable (.tlb core slot)) s = .next t ∧
      (t.die (dieOf core)).ue.get 7 0 = satInc ((s.die (dieOf core)).ue.get 7 0) ∧
      (t.core core).tlb = (s.core core).tlb.eraseIdx slot ∧ (∀ k, k ≠ core → (t.core k).tlb = (s.core k).tlb) ∧
      t.cohorts = s.cohorts ∧ t.blocks = s.blocks ∧ t.mem = s.mem) ∧
    (s.clocked die = true → ∃ t : State, exec (.eccUncorrectable (.ringSlot die slot)) s = .next t ∧ (t.die die).slots.get slot 0 = 0 ∧
      (t.die die).tokLost = (s.die die).tokLost + BitVec.ofNat 64 ((s.die die).slots.get slot 0)) := by
  refine ⟨?_, fun h => congrArg Host.Outcome.next (if_pos (by simp [State.siteStands, h])),
    fun h => congrArg Host.Outcome.next (if_pos (by simp [State.siteStands, h])),
    fun h => ?_, fun h => ?_⟩
  · refine ⟨(s.noteUe (lineDie line) 0 0xFF 0xFFFFFFFF#32 (BitVec.ofNat 64 (64 * line))).markPoison line,
      congrArg Host.Outcome.next (if_neg (by simp [State.siteStands, hrel])), State.mem_poisoned_markPoison .., ?_, rfl, rfl⟩
    exact (congrArg (SMap.get · 0 0) (State.ue_markPoison ..)).trans (s.ueCount_noteUe ..)
  · refine ⟨(s.noteUe (dieOf core) 7 0xFF 0xFFFFFFFF#32 (BitVec.ofNat 64 slot)).updCore core
        (fun c => { c with tlb := c.tlb.eraseIdx slot }),
      congrArg Host.Outcome.next (if_neg (by simp [State.siteStands, hrel, h])),
      s.ueCount_noteUe (dieOf core) 7 0xFF 0xFFFFFFFF#32 (BitVec.ofNat 64 slot), ?_,
      fun k hk => ?_, rfl, rfl, rfl⟩
    · exact (congrArg Core.tlb (State.core_updCore ..)).trans (by rw [if_pos rfl]; rfl)
    · exact (congrArg Core.tlb (State.core_updCore ..)).trans (by rw [if_neg hk]; rfl)
  · let v := s.noteUe die 7 0xFF 0xFFFFFFFF#32 (BitVec.ofNat 64 slot)
    have hv : v.die die = { s.die die with ue := (s.die die).ue.put 7 (satInc ((s.die die).ue.get 7 0)) } :=
      (s.die_noteUe ..).trans (if_pos rfl)
    refine ⟨v.updDie die (fun d => { d with tokLost := d.tokLost + BitVec.ofNat 64 (d.slots.get slot 0), slots := d.slots.del slot }),
      congrArg Host.Outcome.next (if_neg (by simp [State.siteStands, hrel, h])), ?_, ?_⟩
    · rw [v.die_updDie, if_pos rfl, SMap.get_del, if_pos rfl]
    · rw [v.die_updDie, if_pos rfl, hv]

/-- The third clause of O58. -/
theorem eccCorrectableCounts (s : State) (die cls frame : Nat) (hrel : s.released = true) :
    let d := s.die die
    let n := d.frames.get frame 0 + 1
    (2 ≤ cls → cls ≤ 6 → s.clocked die = false → exec (.eccCorrectable die cls frame) s = .next s) ∧
    (cls < 2 ∨ 6 < cls ∨ s.clocked die = true → ∃ t : State, exec (.eccCorrectable die cls frame) s = .next t ∧
      (t.die die).ce.get cls 0 = satInc (d.ce.get cls 0) ∧
      (∀ k, k ≠ cls → (t.die die).ce.get k 0 = d.ce.get k 0) ∧
      (cls ≠ 0 → (t.die die).frames = d.frames ∧ t.grotto = s.grotto) ∧
      (cls = 0 → n < d.cethr → (t.die die).frames.get frame 0 = n ∧ t.grotto = s.grotto) ∧
      (cls = 0 → d.cethr ≤ n → (t.die die).frames.get frame 0 = 0 ∧ ∃ e : LogEntry, t.grotto.sram = (e :: s.grotto.sram).take 1024 ∧ e.kind = 2 ∧
        e.die = die ∧ e.seq = s.grotto.logseq + 1 ∧ e.addr = BitVec.ofNat 64 (4096 * frame))) := by
  intro d n
  refine ⟨fun hlo hhi hclk => congrArg Host.Outcome.next (if_neg ?_), fun h => ⟨_, congrArg Host.Outcome.next (if_pos ?_), ?_⟩⟩
  · simp [hrel, hclk, hhi, Nat.not_lt.mpr hlo]
  · simpa [hrel, or_assoc] using h
  · obtain ⟨hce, hframe⟩ := s.noteCe_counts die cls frame
    exact ⟨by rw [hce, SMap.get_put, if_pos rfl], fun k hk => by rw [hce, SMap.get_put, if_neg hk], hframe⟩

/-- A correctable error changes counters of its die, and no cohort and no byte. -/
theorem State.noteCe_frame (s : State) (die cls frame : Nat) : (∃ ce frames, (s.noteCe die cls frame).die die =
    { s.die die with ce := ce, frames := frames }) ∧ (s.noteCe die cls frame).cohorts = s.cohorts ∧ (s.noteCe die cls frame).mem = s.mem := by
  let u := s.updDie die (fun d => { d with ce := d.ce.put cls (satInc (d.ce.get cls 0)) })
  have hu : u.die die = { s.die die with ce := (s.die die).ce.put cls (satInc ((s.die die).ce.get cls 0)) } :=
    (s.die_updDie die die _).trans (if_pos rfl)
  have hset : ∀ fr : SMap Nat, (u.setDie die { u.die die with frames := fr }).die die =
      { s.die die with ce := (s.die die).ce.put cls (satInc ((s.die die).ce.get cls 0)), frames := fr } :=
    fun fr => ((u.die_setDie die die _).trans (if_pos rfl)).trans (by rw [hu])
  obtain ⟨hother, hbelow, hreached⟩ := s.noteCe_cases die cls frame
  by_cases h : cls = 0
  · by_cases hn : (s.die die).frames.get frame 0 + 1 < (s.die die).cethr
    · rw [hbelow h hn]
      exact ⟨⟨_, _, hset _⟩, rfl, rfl⟩
    · rw [hreached h (Nat.le_of_not_lt hn)]
      exact ⟨⟨_, _, hset _⟩, rfl, rfl⟩
  · rw [hother h]
    exact ⟨⟨_, _, hu⟩, rfl, rfl⟩

theorem State.scrub_markPoison (s : State) (line die : Nat) : ((s.markPoison line).die die).scrubPos = (s.die die).scrubPos ∧
    ((s.markPoison line).die die).scrubClk = (s.die die).scrubClk := by
  unfold State.markPoison
  rw [s.die_updDie]
  split
  next h => split <;> rw [h] <;> exact ⟨rfl, rfl⟩
  next => exact ⟨rfl, rfl⟩

theorem State.scrub_noteUe (s : State) (die cls vf : Nat) (slot : W32) (addr : W64) (d : Nat) :
    ((s.noteUe die cls vf slot addr).die d).scrubPos = (s.die d).scrubPos ∧
    ((s.noteUe die cls vf slot addr).die d).scrubClk = (s.die d).scrubClk := by
  rw [s.die_noteUe]
  split
  next h => rw [h]; exact ⟨rfl, rfl⟩
  next => exact ⟨rfl, rfl⟩

/-- What a patrol does with the line it finds clean, correctable or uncorrectable. -/
def State.patrolFinds (s : State) (die line : Nat) : Nat → State
  | 0 => s
  | 1 => s.noteCe die 0 (frameOf line)
  | _ => (s.markPoison line).noteUe die 0 0xFF 0xFFFFFFFF#32 (BitVec.ofNat 64 (64 * line))

theorem State.patrolFinds_frame (s : State) (die line n : Nat) : ((s.patrolFinds die line n).die die).scrubPos = (s.die die).scrubPos ∧
    ((s.patrolFinds die line n).die die).scrubClk = (s.die die).scrubClk ∧ (s.patrolFinds die line n).cohorts = s.cohorts ∧
    (s.patrolFinds die line n).mem = s.mem := by
  match n with
  | 0 => exact ⟨rfl, rfl, rfl, rfl⟩
  | 1 =>
    obtain ⟨⟨ce, frames, hdie⟩, hcohorts, hmem⟩ := s.noteCe_frame die 0 (frameOf line)
    simp only [State.patrolFinds, hdie]
    exact ⟨trivial, trivial, hcohorts, hmem⟩
  | _ + 2 =>
    obtain ⟨hpos, hclk⟩ := (s.markPoison line).scrub_noteUe die 0 0xFF 0xFFFFFFFF#32 (BitVec.ofNat 64 (64 * line)) die
    obtain ⟨hpos', hclk'⟩ := s.scrub_markPoison line die
    exact ⟨hpos.trans hpos', hclk.trans hclk', rfl, rfl⟩

/-- PATROL_SCRUB when a line is due (R390). -/
theorem patrolScrub_due (s : State) (die : Nat) (hrel : s.released = true) (hen : (s.die die).scrubEn = true)
    (hdue : (s.die die).scrubGap ≤ (s.die die).scrubClk) :
    ∃ t : State, exec (.patrolScrub die) s = .next t ∧ (t.die die).scrubPos = ((s.die die).scrubPos + 1) % (hbmSize / 128) ∧
      (t.die die).scrubClk = (s.die die).scrubClk - (s.die die).scrubGap ∧ t.cohorts = s.cohorts ∧ t.mem = s.mem := by
  let d := s.die die
  let d' : Die := { d with scrubPos := (d.scrubPos + 1) % scrubLines, scrubClk := d.scrubClk - d.scrubGap }
  let v := s.setDie die d'
  have hv : v.die die = d' := (s.die_setDie die die _).trans (if_pos rfl)
  obtain ⟨hpos, hclk, hcohorts, hmem⟩ := v.patrolFinds_frame die (scrubLine die d.scrubPos) (Config.freeChoice s.tick % 3)
  refine ⟨v.patrolFinds die (scrubLine die d.scrubPos) (Config.freeChoice s.tick % 3), congrArg Host.Outcome.next (if_neg ?_), ?_, ?_,
    hcohorts, hmem⟩
  · simp [hrel, hen, hdue]
  · rw [hpos, hv]
    rfl
  · rw [hclk, hv]

/-- CLR (R391). -/
theorem clrClears (s : State) (die : Nat) (hrel : s.released = true) : ∃ t : State, exec (.clr die) s = .next t ∧
    t.die die = { s.die die with ce := [], ue := [], kills := 0, relaunch := 0 } ∧ (∀ k, k ≠ die → t.die k = s.die k) ∧
    { t with dies := s.dies } = s :=
  ⟨s.updDie die (fun d => { d with ce := [], ue := [], kills := 0, relaunch := 0 }), congrArg Host.Outcome.next (if_neg (by simp [hrel])),
    (s.die_updDie die die _).trans (if_pos rfl), fun k hk => (s.die_updDie die k _).trans (if_neg hk), rfl⟩

/-- LOG_FLUSH (R394): with an empty log in flash every entry is new. -/
theorem State.flashLog_flushLog (s : State) (hempty : s.grotto.flashLog = []) (hseq : ∀ e ∈ s.grotto.sram, 0 < e.seq) :
    s.flushLog.grotto.flashLog = s.grotto.sram.take 8192 := by
  have hnew : s.grotto.sram.filter (fun e => 0 < e.seq) = s.grotto.sram := List.filter_eq_self.mpr (fun e he => by simpa using hseq e he)
  simp only [State.flushLog, State.updGrotto, hempty, List.head?_nil, Option.map_none, Option.getD_none, List.append_nil]
  exact congrArg (List.take 8192) hnew

/-- Settles O58: the kill of a block and the counters, site by site. -/
theorem errorsOfStores : Obligations.ErrorsOfStores := by
  unfold Obligations.ErrorsOfStores
  refine ⟨fun s slot line co b l hrel hco hb hl hkilled hended hsurr hstop =>
      eccKills s slot line co b l hrel hco hb hl hkilled hended hsurr hstop,
    fun s line die core slot hrel => eccUncorrectableSites s line die core slot hrel,
    fun s die cls frame hrel => eccCorrectableCounts s die cls frame hrel,
    fun s die => ⟨patrolScrub_due s die, fun h => congrArg Host.Outcome.next (if_pos ?_),
      clrClears s die, fun h => congrArg Host.Outcome.next (if_pos ?_),
      s.flushLog, rfl, rfl, rfl, s.flashLog_flushLog⟩⟩
  · simpa [or_assoc] using h
  · simp [h]

end Sys2Proof.Machine

/-! PROOFS. The checks of the front end (O21): ranges that translate, fields of byte lists, and the checks of a packet. -/

namespace Sys2Proof.Machine

/-! ### Ranges that translate (R351) -/

/-- The pieces of a range begin at its start and at every page in it. -/
theorem pieces_offsets (va fuel : Nat) : ∀ off n, (n ≠ 0 → n + (va + off) % 4096 ≤ 4096 * fuel) → ∀ o,
    (∃ k, (o, k) ∈ pieces va fuel off n) ↔ off ≤ o ∧ o < off + n ∧ (o = off ∨ (va + o) % 4096 = 0) := by
  induction fuel with
  | zero =>
    intro off n hn o
    have h0 : n = 0 := by omega
    subst h0
    simp [pieces]
    omega
  | succ fuel ih =>
    intro off n hn o
    by_cases h0 : n = 0
    · subst h0
      simp [pieces]
      omega
    · have hk : ∀ k, k = min n (4096 - (va + off) % 4096) → ((∃ k', (o, k') ∈ pieces va fuel (off + k) (n - k)) ↔
          off + k ≤ o ∧ o < off + n ∧ (va + o) % 4096 = 0) := by
        intro k hk
        rw [ih (off + k) (n - k) (by intro h; have := hn h0; omega)]
        omega
      have := hk _ rfl
      simp only [pieces, if_neg h0, List.mem_cons, Prod.mk.injEq, exists_or, this]
      constructor
      · rintro (⟨_, rfl, -⟩ | h) <;> omega
      · rintro ⟨hlo, hhi, rfl | h⟩
        · exact .inl ⟨_, rfl, rfl⟩
        · by_cases ho : o = off
          · exact .inl ⟨_, ho, rfl⟩
          · right
            omega

theorem piecesOf_offsets (va n o : Nat) : (∃ k, (o, k) ∈ piecesOf va n) ↔ o < n ∧ (o = 0 ∨ (va + o) % 4096 = 0) := by
  rw [piecesOf, pieces_offsets va _ 0 n (by intro; omega)]
  simp

theorem State.xlatRange_ok (s : State) (tlbs : List TlbEntry) (vf : Nat) (va : W64) (acc : Access) (ps : List (Nat × Nat)) :
    (∃ l, s.xlatRange tlbs vf va acc ps = .ok l) ↔ ∀ p ∈ ps, ∃ x, s.translate tlbs vf (va + BitVec.ofNat 64 p.1) acc = .ok x := by
  induction ps with
  | nil => simp [State.xlatRange]
  | cons p ps ih =>
    obtain ⟨off, n⟩ := p
    rw [List.forall_mem_cons, ← ih]
    simp only [State.xlatRange]
    cases s.translate tlbs vf (va + BitVec.ofNat 64 off) acc with
    | error e => simp
    | ok x => cases s.xlatRange tlbs vf va acc ps <;> simp

theorem State.maps_iff (s : State) (vf : Nat) (va : W64) (n : Nat) (acc : Access) :
    s.Maps vf va n acc ↔ ∃ l, s.xlatRange [] vf va acc (piecesOf va.toNat n) = .ok l := by
  rw [s.xlatRange_ok]
  constructor
  · rintro h ⟨o, k⟩ hp
    obtain ⟨hlt, ho⟩ := (piecesOf_offsets va.toNat n o).mp ⟨k, hp⟩
    exact h o hlt ho
  · intro h o hlt ho
    obtain ⟨k, hp⟩ := (piecesOf_offsets va.toNat n o).mpr ⟨hlt, ho⟩
    exact h (o, k) hp

theorem State.rangeOk_iff (s : State) (vf : Nat) (va : W64) (n : Nat) (acc : Access) :
    s.rangeOk vf va n acc = true ↔ s.Maps vf va n acc := by
  rw [s.maps_iff]
  unfold State.rangeOk
  cases s.xlatRange [] vf va acc (piecesOf va.toNat n) <;> simp

theorem State.maps_of_vmRead {s : State} {vf : Nat} {va : W64} {n : Nat} {bs : List Byte} (h : s.vmRead [] vf va n = .ok bs) :
    s.Maps vf va n .read := by
  rw [s.maps_iff]
  unfold State.vmRead at h
  split at h
  · cases h
  · exact ⟨_, ‹_›⟩

theorem State.vmRead_error {s : State} {vf : Nat} {va : W64} {n : Nat} (h : ¬ s.Maps vf va n .read) :
    ∃ e, s.vmRead [] vf va n = .error e := by
  cases hr : s.vmRead [] vf va n with
  | error e => exact ⟨e, rfl⟩
  | ok bs => exact absurd (State.maps_of_vmRead hr) h

/-! ### Fields -/

theorem leNat_lt (bs : List Byte) : leNat bs < 256 ^ bs.length := by
  induction bs with
  | nil => simp [leNat]
  | cons b bs ih =>
    have hb : b.toNat < 256 := b.isLt
    simp only [leNat, List.length_cons, Nat.pow_succ]
    omega

theorem fld_lt (bs : List Byte) (o n : Nat) : fld bs o n < 256 ^ n :=
  (leNat_lt _).trans_le (Nat.pow_le_pow_right (by decide) (List.length_take_le ..))

theorem fld_low (bs : List Byte) (o n : Nat) : fld bs o (n + 1) % 256 = fld bs o 1 := by
  unfold fld
  cases bs.drop o with
  | nil => simp [leNat]
  | cons b bs =>
    have hb : b.toNat < 256 := b.isLt
    simp only [List.take_succ_cons, List.take_zero, leNat]
    omega

theorem zeroBytes_iff (bs : List Byte) (lo hi : Nat) :
    ((bs.drop lo).take (hi - lo)).all (· == 0) = true ↔ ZeroBytes bs lo hi := by
  rw [List.all_eq_true]
  constructor
  · intro h k hlo hhi
    by_cases hk : k < bs.length
    · have hmem : bs[k] ∈ (bs.drop lo).take (hi - lo) := by
        refine List.mem_iff_getElem.mpr ⟨k - lo, by simp; omega, ?_⟩
        simp [Nat.add_sub_cancel' hlo]
      rw [List.getD_eq_getElem _ _ hk]
      simpa using h _ hmem
    · rw [List.getD_eq_default _ _ (Nat.le_of_not_lt hk)]
  · intro h b hb
    obtain ⟨j, hj, rfl⟩ := List.mem_iff_getElem.mp hb
    have hlen : j < hi - lo ∧ lo + j < bs.length := by simpa [Nat.lt_sub_iff_add_lt'] using hj
    have := h (lo + j) (by omega) (by omega)
    rw [List.getD_eq_getElem _ _ hlen.2] at this
    simpa using this

theorem zeroIn_iff (bs : List Byte) (l : List (Nat × Nat)) : zeroIn bs l = true ↔ ∀ r ∈ l, ZeroBytes bs r.1 r.2 := by
  simp only [zeroIn, List.all_eq_true (p := fun r : Nat × Nat => ((bs.drop r.1).take (r.2 - r.1)).all (· == 0)), zeroBytes_iff]

/-! ### Packets (R328, R330) -/

theorem badPacket_iff (bs : List Byte) (kind : Nat) (hk : kind ≤ 5) : badPacket kind bs = false ↔
    (kind = 1 → fld bs 8 8 % 64 = 0 ∧ fld bs 16 8 % 64 = 0 ∧ fld bs 24 1 ≤ 3 ∧ ZeroBytes bs 25 28 ∧ ZeroBytes bs 32 64) ∧
    (kind = 2 → fld bs 8 8 % 8 = 0 ∧ fld bs 32 1 ≤ 3 ∧ ZeroBytes bs 33 64) ∧
    (kind = 3 → fld bs 8 8 % 8 = 0 ∧ fld bs 24 1 ≤ 1 ∧ ZeroBytes bs 25 64) ∧
    (kind = 4 → ZeroBytes bs 8 64) ∧
    (kind = 5 → fld bs 8 1 ≤ 1 ∧ fld bs 12 4 ≤ 63 ∧ ZeroBytes bs 9 12 ∧ ZeroBytes bs 16 64) := by
  interval_cases kind <;> simp [badPacket, zeroIn_iff, and_assoc]

/-- The last check of a packet's bytes, in the words of the statement. -/
theorem packetOk_iff {bs : List Byte} (hk : fld bs 0 8 % 256 ≤ 5) : PacketOk bs ↔
    (decide (fld bs 0 8 / 2 ^ 8 % 2 ^ 16 = 0) || (fld bs 0 8 % 256 != pkPad && fld bs 0 8 / 2 ^ 8 % 2 ^ 16 != 1) ||
      fld bs 0 8 / 2 ^ 49 != 0 || fld bs 0 8 / 2 ^ 24 % 2 ^ 8 != 0 || badPacket (fld bs 0 8 % 256) bs) = false := by
  simp only [PacketOk, Bool.or_eq_false_iff, badPacket_iff bs _ hk, pkPad, bne_eq_false_iff_eq, decide_eq_false_iff_not,
    Bool.and_eq_false_iff, Nat.one_le_iff_ne_zero]
  generalize fld bs 0 8 = h
  constructor
  · rintro ⟨hhi, hres, hlen, hone, hrest⟩
    refine ⟨⟨⟨⟨hlen, ?_⟩, hhi⟩, hres⟩, hrest⟩
    by_cases h0 : h % 256 = 0
    · exact .inl h0
    · exact .inr (hone h0)
  · rintro ⟨⟨⟨⟨hlen, hone⟩, hhi⟩, hres⟩, hrest⟩
    exact ⟨hhi, hres, hlen, fun h0 => hone.resolve_left h0, hrest⟩

theorem State.namesTranslate_iff (s : State) (vf : Nat) {bs : List Byte} (hk : fld bs 0 8 % 256 ≤ 5) :
    s.namesTranslate vf (fld bs 0 8 % 256) bs = true ↔ s.NamesMap vf bs := by
  have hkind : fld bs 0 1 = fld bs 0 8 % 256 := (fld_low bs 0 7).symm
  unfold State.NamesMap
  rw [hkind]
  generalize fld bs 0 8 % 256 = kind at hk
  have hlaunch : s.namesTranslate vf 1 bs = true ↔ ∃ r, s.vmRead [] vf (BitVec.ofNat 64 (fld bs 8 8)) 0x80 = .ok r ∧
      s.Maps vf (BitVec.ofNat 64 (fld bs 8 8)) (0x80 + 64 * min (fld r 0x48 4) 65536) .read ∧
      s.Maps vf (BitVec.ofNat 64 (fld bs 16 8)) 64 .write := by
    simp only [State.namesTranslate]
    cases s.vmRead [] vf (BitVec.ofNat 64 (fld bs 8 8)) 0x80 <;> simp [s.rangeOk_iff]
  have hwait : s.namesTranslate vf 2 bs = true ↔ s.Maps vf (BitVec.ofNat 64 (fld bs 8 8)) 8 .read := s.rangeOk_iff ..
  have hsignal : s.namesTranslate vf 3 bs = true ↔
      s.Maps vf (BitVec.ofNat 64 (fld bs 8 8)) 8 (if fld bs 24 1 = 1 then .rmw else .write) := s.rangeOk_iff ..
  match kind, hk with
  | 0, _ => exact iff_of_true rfl ⟨nofun, nofun, nofun⟩
  | 1, _ => exact hlaunch.trans ⟨fun h => ⟨fun _ => h, nofun, nofun⟩, fun h => h.1 rfl⟩
  | 2, _ => exact hwait.trans ⟨fun h => ⟨nofun, fun _ => h, nofun⟩, fun h => h.2.1 rfl⟩
  | 3, _ => exact hsignal.trans ⟨fun h => ⟨nofun, nofun, fun _ => h⟩, fun h => h.2.2 rfl⟩
  | 4, _ => exact iff_of_true rfl ⟨nofun, nofun, nofun⟩
  | 5, _ => exact iff_of_true rfl ⟨nofun, nofun, nofun⟩

/-- The bytes between QRD and QWR. -/
theorem ring_room {qrd qwr size : Nat} (hrd : qrd ≤ size) (hwr : qwr < size) :
    (qwr + size - qrd) % size = if qrd ≤ qwr then qwr - qrd else qwr + size - qrd := by
  split
  next h => rw [show qwr + size - qrd = qwr - qrd + size by omega, Nat.add_mod_right, Nat.mod_eq_of_lt (by omega)]
  next h => rw [Nat.mod_eq_of_lt (by omega)]

section
variable {s : State} {vf : Nat} {q : Queue} {bs : List Byte} (hstop : q.stop = false) (hen : q.en = true) (hne : q.qrd ≠ q.qwr)
include hstop hen hne

theorem State.parse_unmapped (h : ¬ s.Maps vf (q.qbase + BitVec.ofNat 64 q.qrd) 64 .read) : s.parse vf q = .bad qPage 0 := by
  obtain ⟨e, he⟩ := State.vmRead_error h
  simp only [State.parse, hstop, hen, hne, Bool.not_true, Bool.or_self, decide_false, Bool.false_eq_true, if_false, he]

variable (hbs : s.vmRead [] vf (q.qbase + BitVec.ofNat 64 q.qrd) 64 = .ok bs)
include hbs

/-- The checks of the packet at QRD in their order (R330), once its first 64 bytes are read. -/
theorem State.parse_read :
    let h := fld bs 0 8
    let kind := h % 256
    let len := h / 2 ^ 8 % 2 ^ 16
    let tag := h / 2 ^ 32 % 2 ^ 16
    let n := 64 * len
    s.parse vf q =
      if q.size < n then .bad qQueuelen tag
      else if q.size < q.qrd + n then .bad qWrap tag
      else if 5 < kind then .bad qBadkind tag
      else if (q.qwr + q.size - q.qrd) % q.size < n then .none
      else if !s.rangeOk vf (q.qbase + BitVec.ofNat 64 q.qrd) n .read then .bad qPage tag
      else if len = 0 || (kind != pkPad && len != 1) || h / 2 ^ 49 != 0 || h / 2 ^ 24 % 2 ^ 8 != 0 || badPacket kind bs then
        .bad qBadpkt tag
      else if !s.namesTranslate vf kind bs then .bad qPage tag
      else .ok { kind := kind, tag := tag, bar := h / 2 ^ 48 % 2 = 1, size := n, bs := bs } := by
  simp only [State.parse, hstop, hen, hne, Bool.not_true, Bool.or_self, decide_false, Bool.false_eq_true, if_false, hbs]

/-- The checks of the header, and then those of a packet that has arrived whole. -/
theorem State.parse_checks :
    let h := fld bs 0 8
    let kind := h % 256
    let n := 64 * (h / 2 ^ 8 % 2 ^ 16)
    let tag := h / 2 ^ 32 % 2 ^ 16
    let size := 2 ^ q.log2sz
    let base : W64 := q.qbase + BitVec.ofNat 64 q.qrd
    (size < n → s.parse vf q = .bad 1 tag) ∧
    (n ≤ size → size < q.qrd + n → s.parse vf q = .bad 2 tag) ∧
    (q.qrd + n ≤ size → 6 ≤ kind → s.parse vf q = .bad 3 tag) ∧
    (q.qrd + n ≤ size → kind ≤ 5 → q.qwr < size →
      let room := if q.qrd ≤ q.qwr then q.qwr - q.qrd else q.qwr + size - q.qrd
      (room < n → s.parse vf q = .none) ∧
      (n ≤ room →
        (¬ s.Maps vf base n .read → s.parse vf q = .bad 6 tag) ∧
        (s.Maps vf base n .read →
          (¬ PacketOk bs → s.parse vf q = .bad 4 tag) ∧
          (PacketOk bs →
            (¬ s.NamesMap vf bs → s.parse vf q = .bad 6 tag) ∧
            (s.NamesMap vf bs → s.parse vf q = .ok { kind := kind, tag := tag, bar := h.testBit 48, size := n, bs := bs }))))) := by
  intro h kind n tag size base
  have hparse := State.parse_read hstop hen hne hbs
  have hbar : decide (h / 2 ^ 48 % 2 = 1) = h.testBit 48 := Nat.testBit_eq_decide_div_mod_eq.symm
  refine ⟨fun hlt => ?_, fun hle hwrap => ?_, fun hfit hkind => ?_, fun hfit hkind hwr => ?_⟩
  · exact hparse.trans (if_pos hlt)
  · exact hparse.trans ((if_neg (Nat.not_lt.mpr hle)).trans (if_pos hwrap))
  · exact hparse.trans ((if_neg (Nat.not_lt.mpr (le_trans (Nat.le_add_left ..) hfit))).trans
      ((if_neg (Nat.not_lt.mpr hfit)).trans (if_pos hkind)))
  · have hroom := ring_room (le_trans (Nat.le_add_right ..) hfit) hwr
    have hwhole := hparse.trans ((if_neg (Nat.not_lt.mpr (show n ≤ q.size from le_trans (Nat.le_add_left ..) hfit))).trans
      ((if_neg (Nat.not_lt.mpr hfit)).trans (if_neg (Nat.not_lt.mpr hkind))))
    refine ⟨fun hlt => hwhole.trans (if_pos (hroom.trans_lt hlt)), fun hle => ?_⟩
    have hthere := hwhole.trans (if_neg (Nat.not_lt.mpr (hle.trans_eq hroom.symm)))
    have hmapped : s.Maps vf base n .read ↔ ¬ (!s.rangeOk vf base n .read) = true := by
      rw [← s.rangeOk_iff, Bool.not_eq_true, Bool.not_eq_false']
    have hnamed : s.NamesMap vf bs ↔ ¬ (!s.namesTranslate vf kind bs) = true := by
      rw [← s.namesTranslate_iff vf hkind, Bool.not_eq_true, Bool.not_eq_false']
    refine ⟨fun hmap => hthere.trans (if_pos (not_not.mp (hmapped.not.mp hmap))), fun hmap => ?_⟩
    have hread := hthere.trans (if_neg (hmapped.mp hmap))
    refine ⟨fun hok => hread.trans (if_pos (Bool.eq_true_of_not_eq_false (fun e => hok ((packetOk_iff hkind).mpr e)))), fun hok => ?_⟩
    have hgood := hread.trans (if_neg (by rw [(packetOk_iff hkind).mp hok]; exact Bool.false_ne_true))
    exact ⟨fun hnames => hgood.trans (if_pos (not_not.mp (hnamed.not.mp hnames))),
      fun hnames => (hgood.trans (if_neg (hnamed.mp hnames))).trans (by rw [hbar])⟩

end

theorem State.parse_idle {s : State} {vf : Nat} {q : Queue} (h : q.stop = true ∨ q.en = false ∨ q.qrd = q.qwr) : s.parse vf q = .none :=
  if_pos (by simpa [or_assoc] using h)


end Sys2Proof.Machine

/-! PROOFS. The checks of the front end (O21): WAITMEM and what may start, the record of a launch with its kernels, and the statement. -/

namespace Sys2Proof.Machine

/-! ### What may start (R329) -/

theorem State.canStart_iff (s : State) (vf : Nat) (q : Queue) (p : Parsed) : s.canStart vf q p = true ↔
    (q.flight = [] ∨ (p.bar = false ∧ p.kind ∉ [3, 4, 5])) ∧ (p.kind = 2 → s.waitHolds vf p.bs = true) := by
  simp only [State.canStart, pkSignalmem, pkFence, pkQctl, pkWaitmem, Bool.and_eq_true, Bool.or_eq_true, List.isEmpty_iff,
    Bool.not_eq_true', Bool.or_eq_false_iff, beq_eq_false_iff_ne, bne_iff_ne, List.mem_cons, List.not_mem_nil, or_false, not_or,
    and_assoc, Decidable.imp_iff_not_or]

/-- Eight bytes at a multiple of 8 are one piece. -/
theorem piecesOf_eight {va : Nat} (h : va % 8 = 0) : piecesOf va 8 = [(0, 8)] := by
  have hk : min 8 (4096 - va % 4096) = 8 := by omega
  simp [piecesOf, pieces, hk]

theorem State.vmRead_eight {s : State} {vf : Nat} {va : W64} {x : Xlat} (hal : va.toNat % 8 = 0)
    (hx : s.translate [] vf va .read = .ok x) : s.vmRead [] vf va 8 = .ok (s.physRead (s.vf vf).key x.pa 8) := by
  simp only [State.vmRead, piecesOf_eight hal, State.xlatRange, BitVec.add_zero, hx, List.flatMap_cons,
    List.flatMap_nil, List.append_nil]

theorem toNat_ofNat_and {a b : Nat} (ha : a < 2 ^ 64) (hb : b < 2 ^ 64) : (BitVec.ofNat 64 a &&& BitVec.ofNat 64 b).toNat = a &&& b := by
  rw [BitVec.toNat_and, BitVec.toNat_ofNat, BitVec.toNat_ofNat, Nat.mod_eq_of_lt ha, Nat.mod_eq_of_lt hb]

/-- What a WAITMEM asks of the word at its address (R329). -/
theorem State.waitHolds_eq {s : State} {vf : Nat} {bs : List Byte} {x : Xlat} (hal : fld bs 8 8 % 8 = 0)
    (hx : s.translate [] vf (BitVec.ofNat 64 (fld bs 8 8)) .read = .ok x) :
    let m := fld bs 24 8
    let have_ := s.number (s.vf vf).key x.pa 8 &&& m
    let want := fld bs 16 8 &&& m
    s.waitHolds vf bs = match fld bs 32 1 with
      | 0 => decide (have_ = want)
      | 1 => decide (have_ ≠ want)
      | 2 => decide (want ≤ have_)
      | _ => decide (have_ < want) := by
  intro m have_ want
  have h64 : ∀ o, fld bs o 8 < 2 ^ 64 := fun o => fld_lt bs o 8
  have hva : (BitVec.ofNat 64 (fld bs 8 8)).toNat = fld bs 8 8 := by rw [BitVec.toNat_ofNat, Nat.mod_eq_of_lt (h64 8)]
  have hread := State.vmRead_eight (hva.symm ▸ hal) hx
  have hnum : leNat (s.physRead (s.vf vf).key x.pa 8) < 2 ^ 64 := by
    have := leNat_lt (s.physRead (s.vf vf).key x.pa 8)
    rwa [show (s.physRead (s.vf vf).key x.pa 8).length = 8 by simp [State.physRead]] at this
  have hhave := toNat_ofNat_and hnum (h64 24)
  have hwant := toNat_ofNat_and (h64 16) (h64 24)
  have heq : (BitVec.ofNat 64 (leNat (s.physRead (s.vf vf).key x.pa 8)) &&& BitVec.ofNat 64 m =
      BitVec.ofNat 64 (fld bs 16 8) &&& BitVec.ofNat 64 m) ↔ have_ = want := by
    rw [← BitVec.toNat_inj, hhave, hwant]
    rfl
  simp only [State.waitHolds, hread]
  match fld bs 32 1 with
  | 0 => exact decide_eq_decide.mpr heq
  | 1 => exact (congrArg not (decide_eq_decide.mpr heq)).trans decide_not.symm
  | 2 => simp only [hhave, hwant]; rfl
  | _ + 3 => simp only [hhave, hwant]; rfl

/-! ### The record of a launch and its kernels (R332, R333, R335) -/

/-- The fields of a launch and of its record that R49 and R332 limit. -/
theorem Launch.fieldsOk_iff (l : Launch) (r : List Byte) : l.fieldsOk r = true ↔
    (fld r 0x0C 4 / 32 = 0 ∧ ZeroBytes r 0x29 0x2C ∧ ZeroBytes r 0x4C 0x50 ∧ ZeroBytes r 0x60 0x80 ∧ fld r 0x18 8 % 4096 = 0 ∧
      fld r 0x20 8 % 4096 = 0 ∧ 1 ≤ fld r 0x48 4 ∧ fld r 0x48 4 ≤ 65536 ∧ fld r 0x50 8 % 4096 = 0) ∧
    (l.sweep ≠ 3 ∧ 1 ≤ l.d ∧ 64 ≤ l.f ∧ l.f ≤ 65536 ∧ l.f % 64 = 0 ∧ l.lrb ≤ 4096 ∧ l.lrb % 4 = 0 ∧ l.txbuf ≤ 262144 ∧
      l.txbuf % 4096 = 0) ∧
    (l.swap = true → 1 ≤ l.swapq) ∧ (l.implicit = false → fld r 0 8 % 64 = 0 ∧ 1 ≤ l.nnodes ∧ l.nnodes ≤ 0xFFFFFFFE) ∧
    (l.implicit = true → 1 ≤ l.nleaf ∧ l.nleaf ≤ 16777215 ∧ 1 ≤ l.llanes ∧ l.llanes ≤ 1024) := by
  simp only [Launch.fieldsOk, Bool.and_eq_true, Bool.or_eq_true, Bool.not_eq_true', beq_iff_eq, bne_iff_ne, decide_eq_true_eq,
    zeroIn_iff, List.forall_mem_cons, List.not_mem_nil, false_imp_iff, forall_const, and_true, and_assoc]
  constructor
  · rintro ⟨hflags, hz1, hz2, hz3, hsweep, hd, hf, hfmax, hf64, hstack, hssz, hlrb, hlrb4, htx, htxal, hnk, hnkmax, hctx, hswap, hkind⟩
    refine ⟨hflags, hz1, hz2, hz3, hstack, hssz, hnk, hnkmax, hctx, hsweep, hd, hf, hfmax, hf64, hlrb, hlrb4, htx, htxal,
      fun h => hswap.resolve_left (by simp [h]), fun h => ?_, fun h => ?_⟩
    · rw [h] at hkind
      simpa [and_assoc] using hkind
    · rw [h] at hkind
      simpa [and_assoc] using hkind
  · rintro ⟨hflags, hz1, hz2, hz3, hstack, hssz, hnk, hnkmax, hctx, hsweep, hd, hf, hfmax, hf64, hlrb, hlrb4, htx, htxal, hswap,
      hexp, himp⟩
    refine ⟨hflags, hz1, hz2, hz3, hsweep, hd, hf, hfmax, hf64, hstack, hssz, hlrb, hlrb4, htx, htxal, hnk, hnkmax, hctx, ?_, ?_⟩
    · cases h : l.swap
      · exact .inl rfl
      · exact .inr (hswap h)
    · cases h : l.implicit
      · simpa [and_assoc] using hexp h
      · simpa [and_assoc] using himp h

theorem fieldsOk_ofRecord_iff (l : Launch) (r : List Byte) : (l.ofRecord r).fieldsOk r = true ↔ RecordOk l r := by
  have hd : fld r 0x28 1 ≤ 255 := Nat.le_of_lt_succ (fld_lt r 0x28 1)
  have hbit : decide (fld r 0x0C 4 / 4 % 2 = 1) = false ↔ fld r 0x0C 4 / 4 % 2 = 0 := by
    rw [decide_eq_false_iff_not]
    omega
  rw [Launch.fieldsOk_iff]
  constructor
  · rintro ⟨⟨hflags, hz1, hz2, hz3, hstack, hssz, hnk, hnkmax, hctx⟩, ⟨hsweep, hdepth, hf, hfmax, hf64, hlrb, hlrb4, htx, htxal⟩, hswap,
      hexp, himp⟩
    exact ⟨hflags, hz1, hz2, hz3, hsweep, hstack, hssz, hdepth, hd, hf, hfmax, hf64, hlrb, hlrb4, htx, htxal, hnk, hnkmax, hctx,
      fun h => hswap (decide_eq_true h), fun h => hexp (hbit.mpr h), fun h => himp (decide_eq_true h)⟩
  · rintro ⟨hflags, hz1, hz2, hz3, hsweep, hstack, hssz, hdepth, -, hf, hfmax, hf64, hlrb, hlrb4, htx, htxal, hnk, hnkmax, hctx, hswap,
      hexp, himp⟩
    exact ⟨⟨hflags, hz1, hz2, hz3, hstack, hssz, hnk, hnkmax, hctx⟩, ⟨hsweep, hdepth, hf, hfmax, hf64, hlrb, hlrb4, htx, htxal⟩,
      fun h => hswap (of_decide_eq_true h), fun h => hexp (hbit.mp h), fun h => himp (of_decide_eq_true h)⟩

theorem mem_named_iff (l : Launch) (r : List Byte) (k : Nat) : k ∈ (l.ofRecord r).named (fld r 0x48 4) ↔ MayName r k := by
  unfold Launch.named MayName Launch.ofRecord
  dsimp only
  rcases Nat.mod_two_eq_zero_or_one (fld r 0x0C 4 / 4) with h | h
  · simp [h]
  · rw [if_pos (by simpa using h), if_neg (by omega)]
    match fld r 0x0C 4 % 4 with
    | 0 => simp
    | 1 => simp
    | _ + 2 => simp

/-- The entry of a kernel table in 64 bytes. -/
def entryOf (bs : List Byte) : KernelEntry :=
  { code := BitVec.ofNat 64 (fld bs 0 8), csize := fld bs 8 4, gregs := fld bs 12 2, narrow := fld bs 14 2, tiles := fld bs 16 1,
    aspb := fld bs 20 4, wbfb := fld bs 24 4, handler := BitVec.ofNat 32 (fld bs 28 4) }

/-- The limits of an entry, as the launch checks them. -/
theorem entryOk_iff (bs : List Byte) : EntryOk bs ↔
    (!zeroIn bs [(17, 20), (32, 64)] || fld bs 0 8 % 4 != 0 || fld bs 8 4 < 4 || 2 ^ 24 < fld bs 8 4 || fld bs 8 4 % 4 != 0 ||
      fld bs 12 2 < 8 || 256 < fld bs 12 2 || fld bs 12 2 % 8 != 0 || 1280 < fld bs 14 2 || fld bs 14 2 % 8 != 0 || 24 < fld bs 16 1 ||
      maxAspb < fld bs 20 4 || maxWbfb < fld bs 24 4 ||
      !((entryOf bs).handler == 0xFFFFFFFF#32 || ((entryOf bs).handler.toNat % 4 == 0 && (entryOf bs).handler.toNat < fld bs 8 4))) =
    false := by
  have h32 : fld bs 28 4 < 2 ^ 32 := fld_lt bs 28 4
  have hhandler : (entryOf bs).handler.toNat = fld bs 28 4 := by rw [entryOf, BitVec.toNat_ofNat, Nat.mod_eq_of_lt h32]
  have hnone : (entryOf bs).handler = 0xFFFFFFFF#32 ↔ fld bs 28 4 = 0xFFFFFFFF := by
    rw [← BitVec.toNat_inj, hhandler]
    rfl
  simp only [EntryOk, zeroIn_iff, hhandler, hnone, Bool.or_eq_false_iff, Bool.not_eq_false', Bool.or_eq_true, Bool.and_eq_true, beq_iff_eq,
    bne_eq_false_iff_eq, decide_eq_false_iff_not, decide_eq_true_eq, Nat.not_lt, List.forall_mem_cons, List.not_mem_nil, false_imp_iff,
    forall_const, and_true, and_assoc]
  exact Iff.rfl

theorem kernelOfBytes_ok {bs : List Byte} (h : EntryOk bs) : kernelOfBytes bs = some (entryOf bs) :=
  if_neg (Bool.not_eq_true _ ▸ (entryOk_iff bs).mp h)

theorem kernelOfBytes_bad {bs : List Byte} (h : ¬ EntryOk bs) : kernelOfBytes bs = none :=
  if_pos (Bool.eq_true_of_not_eq_false (fun e => h ((entryOk_iff bs).mpr e)))

section
variable (f : Nat → Option KernelEntry)

theorem mapM_entries_none {ns : List Nat} (h : ∃ k ∈ ns, f k = none) : ns.mapM (fun k => (f k).map (fun e => (k, e))) = none := by
  induction ns with
  | nil => obtain ⟨k, hk, -⟩ := h; cases hk
  | cons n ns ih =>
    rw [List.exists_mem_cons_iff] at h
    rw [List.mapM_cons]
    rcases h with h | h
    · simp [h]
    · cases hn : f n <;> simp [ih h]

theorem mapM_entries_some {ns : List Nat} {g : Nat → KernelEntry} (h : ∀ k ∈ ns, f k = some (g k)) :
    ns.mapM (fun k => (f k).map (fun e => (k, e))) = some (ns.map (fun k => (k, g k))) := by
  induction ns with
  | nil => rfl
  | cons n ns ih =>
    rw [List.forall_mem_cons] at h
    rw [List.mapM_cons, h.1, ih h.2]
    rfl

end

/-! ### The checks of a launch (R335) -/

/-- The 64 bytes of an entry of a kernel table. -/
def entryBytes (tb : List Byte) (k : Nat) : List Byte := (tb.drop (64 * k)).take 64

/-- The kernels that a launch can name, from a table whose entries keep their limits. -/
def Launch.kernelsFrom (l : Launch) (r tb : List Byte) : List (Nat × KernelEntry) :=
  ((l.ofRecord r).named (fld r 0x48 4)).map (fun k => (k, entryOf (entryBytes tb k)))

theorem Launch.mem_kernelsFrom (l : Launch) (r tb : List Byte) (k : Nat) (en : KernelEntry) :
    (k, en) ∈ l.kernelsFrom r tb ↔ MayName r k ∧ en = entryOf (entryBytes tb k) := by
  rw [← mem_named_iff l r k, Launch.kernelsFrom, List.mem_map]
  constructor
  · rintro ⟨n, hn, heq⟩
    obtain ⟨rfl, rfl⟩ := Prod.mk.inj heq
    exact ⟨hn, rfl⟩
  · rintro ⟨hk, rfl⟩
    exact ⟨k, hk, rfl⟩

section
variable {s : State} {l : Launch} {r : List Byte}

theorem State.checkLaunch_unmapped (h : ¬ s.Maps l.vf l.lrec 0x80 .read) : s.checkLaunch l = .error stBadLaunch := by
  obtain ⟨e, he⟩ := State.vmRead_error h
  simp only [State.checkLaunch, he]

variable (hr : s.vmRead [] l.vf l.lrec 0x80 = .ok r)
include hr

/-- A launch whose record fails. -/
theorem State.checkLaunch_badRecord (h : ¬ RecordOk l r ∨ ∃ k, MayName r k ∧ fld r 0x48 4 ≤ k) : s.checkLaunch l = .error stBadLaunch := by
  simp only [State.checkLaunch, hr]
  refine if_pos ?_
  rw [Bool.or_eq_true, Bool.not_eq_true', List.any_eq_true]
  rcases h with h | ⟨k, hk, hle⟩
  · exact .inl (Bool.eq_false_iff.mpr (fun e => h ((fieldsOk_ofRecord_iff l r).mp e)))
  · exact .inr ⟨k, (mem_named_iff l r k).mpr hk, decide_eq_true hle⟩

variable (hok : RecordOk l r) (hnamed : ∀ k, MayName r k → k < fld r 0x48 4)
include hok hnamed

omit hr in
/-- The record passes. -/
theorem State.record_passes : ¬ ((!(l.ofRecord r).fieldsOk r ||
    ((l.ofRecord r).named (fld r 0x48 4)).any (fun k => fld r 0x48 4 ≤ k)) = true) := by
  rw [Bool.or_eq_true, Bool.not_eq_true', List.any_eq_true]
  rintro (h | ⟨k, hk, hle⟩)
  · exact Bool.false_ne_true (h.symm.trans ((fieldsOk_ofRecord_iff l r).mpr hok))
  · exact absurd (of_decide_eq_true hle) (Nat.not_le.mpr (hnamed k ((mem_named_iff l r k).mp hk)))

theorem State.checkLaunch_tableUnmapped (h : ¬ s.Maps l.vf (l.lrec + 0x80) (64 * fld r 0x48 4) .read) :
    s.checkLaunch l = .error stBadLaunch := by
  obtain ⟨e, he⟩ := State.vmRead_error h
  have he' : s.vmRead [] (l.ofRecord r).vf ((l.ofRecord r).lrec + 0x80) (64 * fld r 0x48 4) = .error e := he
  simp only [State.checkLaunch, hr]
  rw [if_neg (State.record_passes hok hnamed), he']

variable {tb : List Byte} (htb : s.vmRead [] l.vf (l.lrec + 0x80) (64 * fld r 0x48 4) = .ok tb)
include htb

theorem State.checkLaunch_badEntry (h : ∃ k, MayName r k ∧ ¬ EntryOk (entryBytes tb k)) : s.checkLaunch l = .error stBadLaunch := by
  obtain ⟨k, hk, hbad⟩ := h
  have htb' : s.vmRead [] (l.ofRecord r).vf ((l.ofRecord r).lrec + 0x80) (64 * fld r 0x48 4) = .ok tb := htb
  have hnone : ((l.ofRecord r).named (fld r 0x48 4)).mapM
      (fun k => (kernelOfBytes ((tb.drop (64 * k)).take 64)).map (fun e => (k, e))) = none :=
    mapM_entries_none (fun k => kernelOfBytes (entryBytes tb k)) ⟨k, (mem_named_iff l r k).mpr hk, kernelOfBytes_bad hbad⟩
  simp only [State.checkLaunch, hr]
  rw [if_neg (State.record_passes hok hnamed), htb']
  dsimp only
  rw [hnone]

/-- A launch whose record and kernels pass: the sizes of its stack and of its context are checked last (R50, R334). -/
theorem State.checkLaunch_entries (h : ∀ k, MayName r k → EntryOk (entryBytes tb k)) : s.checkLaunch l =
    if fld r 0x20 8 < 16 * fld r 0x28 1 * fld r 0x2C 4 then .error stStackSize
    else if fld r 0x58 8 < 4096 * (7168 + fld r 0x2C 4) || !s.rangeOk l.vf (BitVec.ofNat 64 (fld r 0x50 8)) (fld r 0x58 8) .rmw then
      .error stCtxSize
    else .ok { l.ofRecord r with kernels := l.kernelsFrom r tb, started := true, phase := if fld r 0x0C 4 % 4 = 1 then .down else .up } := by
  have htb' : s.vmRead [] (l.ofRecord r).vf ((l.ofRecord r).lrec + 0x80) (64 * fld r 0x48 4) = .ok tb := htb
  have hsome : ((l.ofRecord r).named (fld r 0x48 4)).mapM
      (fun k => (kernelOfBytes ((tb.drop (64 * k)).take 64)).map (fun e => (k, e))) = some (l.kernelsFrom r tb) :=
    mapM_entries_some (fun k => kernelOfBytes (entryBytes tb k)) (fun k hk => kernelOfBytes_ok (h k ((mem_named_iff l r k).mp hk)))
  simp only [State.checkLaunch, hr]
  rw [if_neg (State.record_passes hok hnamed), htb']
  dsimp only
  rw [hsome]
  rfl

/-- The checks of the sizes, and the launch that passes them. -/
theorem State.checkLaunch_sizes (h : ∀ k, MayName r k → EntryOk (entryBytes tb k)) :
    let f := fld r
    (f 0x20 8 < 16 * f 0x28 1 * f 0x2C 4 → s.checkLaunch l = .error 4) ∧
    (16 * f 0x28 1 * f 0x2C 4 ≤ f 0x20 8 →
      let ctx : W64 := BitVec.ofNat 64 (f 0x50 8)
      let ctxOk : Prop := 4096 * (7168 + f 0x2C 4) ≤ f 0x58 8 ∧ s.Maps l.vf ctx (f 0x58 8) .rmw
      (¬ ctxOk → s.checkLaunch l = .error 5) ∧
      (ctxOk → s.checkLaunch l = .ok { l.ofRecord r with
        kernels := l.kernelsFrom r tb, started := true, phase := if f 0x0C 4 % 4 = 1 then .down else .up })) := by
  intro f
  have hcheck := State.checkLaunch_entries hr hok hnamed htb h
  refine ⟨fun hlt => hcheck.trans (if_pos hlt), fun hle => ?_⟩
  intro ctx ctxOk
  have hfails : (decide (f 0x58 8 < 4096 * (7168 + f 0x2C 4)) || !s.rangeOk l.vf ctx (f 0x58 8) .rmw) = true ↔ ¬ ctxOk := by
    rw [Bool.or_eq_true, decide_eq_true_eq, Bool.not_eq_true', ← Bool.not_eq_true, s.rangeOk_iff, not_and_or, Nat.not_le]
  have hstack := hcheck.trans (if_neg (Nat.not_lt.mpr hle))
  exact ⟨fun hbad => hstack.trans (if_pos (hfails.mpr hbad)), fun hgood => hstack.trans (if_neg (fun e => hfails.mp e hgood))⟩

end

/-- The launch of a record in the words of the statement. -/
theorem Launch.ofRecord_eq (l : Launch) (r : List Byte) : l.ofRecord r = { l with
    tree := BitVec.ofNat 64 (fld r 0 8), nnodes := fld r 8 4, sweep := fld r 0x0C 4 % 4, implicit := (fld r 0x0C 4).testBit 2,
    idemp := (fld r 0x0C 4).testBit 3, swap := (fld r 0x0C 4).testBit 4, nleaf := fld r 0x10 4, llanes := fld r 0x14 2,
    lrb := fld r 0x16 2, stack := BitVec.ofNat 64 (fld r 0x18 8), d := fld r 0x28 1, f := fld r 0x2C 4,
    result := BitVec.ofNat 64 (fld r 0x30 8), input := BitVec.ofNat 64 (fld r 0x38 8), tol := BitVec.ofNat 32 (fld r 0x40 4),
    txbuf := fld r 0x44 4, ctx := BitVec.ofNat 64 (fld r 0x50 8) } := by
  simp only [Launch.ofRecord, Nat.testBit_eq_decide_div_mod_eq, Nat.reducePow]

/-- Settles O21: the checks one after another, each when those before it pass. -/
theorem launchAndPacketChecks : Obligations.LaunchAndPacketChecks := by
  unfold Obligations.LaunchAndPacketChecks
  refine ⟨fun s vf q => ⟨State.parse_idle, fun hstop hen hne => ⟨State.parse_unmapped hstop hen hne, fun bs hbs => ?_⟩⟩,
    fun s vf q p => ⟨s.canStart_iff vf q p, fun x hal hx => State.waitHolds_eq hal hx⟩,
    fun s l => ⟨State.checkLaunch_unmapped, fun r hr => ⟨State.checkLaunch_badRecord hr, fun hok hnamed =>
      ⟨State.checkLaunch_tableUnmapped hr hok hnamed, fun tb htb => ⟨State.checkLaunch_badEntry hr hok hnamed htb, fun hentries => ?_⟩⟩⟩⟩⟩
  · obtain ⟨hlen, hwrap, hkind, hwhole⟩ := State.parse_checks hstop hen hne hbs
    refine ⟨hlen, hwrap, hkind, fun hfit hk hwr => ?_⟩
    obtain ⟨hpart, harrived⟩ := hwhole hfit hk hwr
    refine ⟨hpart, fun hle => ?_⟩
    obtain ⟨hpage, hmapped⟩ := harrived hle
    exact ⟨hpage, fun hmap => (hmapped hmap).1, fun hmap hok => ((hmapped hmap).2 hok).1, fun hmap hok => ((hmapped hmap).2 hok).2⟩
  · obtain ⟨hstack, hrest⟩ := State.checkLaunch_sizes hr hok hnamed htb hentries
    refine ⟨hstack, fun hle => ?_⟩
    obtain ⟨hbad, hgood⟩ := hrest hle
    refine ⟨hbad, fun hctx => ⟨l.kernelsFrom r tb, ?_, fun k => ⟨?_, fun en hen => ((l.mem_kernelsFrom r tb k en).mp hen).2⟩⟩⟩
    · exact (hgood hctx).trans (by rw [l.ofRecord_eq])
    · exact ⟨fun hk => ⟨_, (l.mem_kernelsFrom r tb k _).mpr ⟨hk, rfl⟩⟩, fun ⟨en, hen⟩ => ((l.mem_kernelsFrom r tb k en).mp hen).1⟩

end Sys2Proof.Machine

/-! PROOFS. Takes and hand-offs (O52): the accesses of an agent in states that differ in blocks, launches and clusters only. -/

namespace Sys2Proof.Machine

/-! ### States that hold the same memory (R334) -/

/-- A state that differs from `s` in blocks, launches and names, and in what its clusters have waiting: an agent reads and writes the same
there. -/
def State.Twin (s u : State) : Prop :=
  (∀ c, (u.cluster c).tlb = (s.cluster c).tlb) ∧
  u = { s with blocks := u.blocks, launches := u.launches, clusters := u.clusters, nextId := u.nextId }

/-- A state with other blocks, launches, clusters and names. -/
def State.retree (s : State) (bs : SMap Block) (ls : SMap Launch) (cs : SMap Cluster) (n : Nat) : State :=
  { s with blocks := bs, launches := ls, clusters := cs, nextId := n }

theorem State.Twin.refl (s : State) : s.Twin s := ⟨fun _ => rfl, rfl⟩

theorem State.Twin.trans {s t u : State} (h : s.Twin t) (k : t.Twin u) : s.Twin u := by
  obtain ⟨htlb, ht⟩ := h
  obtain ⟨ktlb, hu⟩ := k
  refine ⟨fun c => (ktlb c).trans (htlb c), ?_⟩
  rw [hu, ht]

theorem State.Twin.of_tree (s : State) (bs : SMap Block) (ls : SMap Launch) (n : Nat) : s.Twin (s.retree bs ls s.clusters n) :=
  ⟨fun _ => rfl, rfl⟩

theorem State.twin_updLaunch (s : State) (lid : Nat) (f : Launch → Launch) : s.Twin (s.updLaunch lid f) := .of_tree s _ _ _

theorem State.twin_updNode (s : State) (lid i : Nat) (f : Node → Node) : s.Twin (s.updNode lid i f) := s.twin_updLaunch ..

theorem State.twin_setBlock (s : State) (bi : Nat) (b : Block) : s.Twin (s.setBlock bi b) := .of_tree s _ _ _

theorem State.twin_addNodes (s : State) (lid : Nat) (ns : List (Nat × Node)) : s.Twin (s.addNodes lid ns) := s.twin_updLaunch ..

theorem State.twin_updCluster (s : State) (cl : Nat) {f : Cluster → Cluster} (hf : ∀ c, (f c).tlb = c.tlb) : s.Twin (s.updCluster cl f) :=
  ⟨s.field_updCluster cl Cluster.tlb hf, rfl⟩

theorem State.Twin.physByte {s u : State} (h : s.Twin u) (key pa : Nat) : u.physByte key pa = s.physByte key pa := by
  obtain ⟨-, hu⟩ := h
  rw [hu]
  rfl

theorem State.Twin.mem {s u : State} (h : s.Twin u) : u.mem = s.mem := by
  obtain ⟨-, hu⟩ := h
  rw [hu]

/-! ### Accesses in such states -/

section
variable (s : State) (bs : SMap Block) (ls : SMap Launch) (cs : SMap Cluster) (n : Nat)

theorem State.xlatRange_retree (tlbs : List TlbEntry) (vf : Nat) (va : W64) (acc : Access) (ps : List (Nat × Nat)) :
    (s.retree bs ls cs n).xlatRange tlbs vf va acc ps = s.xlatRange tlbs vf va acc ps := by
  induction ps with
  | nil => rfl
  | cons p ps ih =>
    have htr : (s.retree bs ls cs n).translate tlbs vf (va + BitVec.ofNat 64 p.1) acc = s.translate tlbs vf (va + BitVec.ofNat 64 p.1) acc := rfl
    simp only [State.xlatRange, htr, ih]

theorem State.physStore_retree (key pa : Nat) (b : Byte) :
    (s.retree bs ls cs n).physStore key pa b = (s.physStore key pa b).retree bs ls cs n := by
  unfold State.physStore
  show (if inHbm pa && s.lineKeys.look (pa / 64) != some key then _ else _) = _
  split <;> rfl

theorem State.physBytes_retree (key pa : Nat) (b : List Byte) :
    (s.retree bs ls cs n).physBytes key pa b = (s.physBytes key pa b).retree bs ls cs n := by
  induction b generalizing s pa with
  | nil => rfl
  | cons b rest ih =>
    rw [State.physBytes, State.physStore_retree, ih]
    rfl

theorem State.physWrites_retree {α : Type} (key : Nat) (w : Option Nat) (pa : α → Nat) (b : α → List Byte) (ps : List α) :
    (s.retree bs ls cs n).physWrites key w pa b ps = (s.physWrites key w pa b ps).retree bs ls cs n := by
  induction ps generalizing s with
  | nil => rfl
  | cons p ps ih =>
    have hwrite : (s.retree bs ls cs n).physWrite key w (pa p) (b p) = (s.physWrite key w (pa p) (b p)).retree bs ls cs n :=
      (s.noteWrite w (pa p) (b p).length).physBytes_retree bs ls cs n key (pa p) (b p)
    simp only [State.physWrites, List.foldl_cons, hwrite]
    exact ih (s.physWrite key w (pa p) (b p))

end

/-- Writes under the key that a VF has at the time are writes under the key that it has. -/
theorem State.foldl_physWrite_key (vf : Nat) (pa : Nat × Nat × Nat → Nat) (bs : Nat × Nat × Nat → List Byte) (l : List (Nat × Nat × Nat))
    (s : State) : l.foldl (fun s p => s.physWrite (s.vf vf).key none (pa p) (bs p)) s = s.physWrites (s.vf vf).key none pa bs l := by
  induction l generalizing s with
  | nil => rfl
  | cons p l ih =>
    have hvf := congrArg (fun t : State => t.vf vf) (s.physWrite_frame (s.vf vf).key none (pa p) (bs p))
    have hvf : (s.physWrite (s.vf vf).key none (pa p) (bs p)).vf vf = s.vf vf := hvf
    rw [List.foldl_cons, ih, hvf]
    rfl

/-- What an agent writes (R334). -/
theorem State.engWrite_eq (s : State) (a : Serve) (va : W64) (bs : List Byte) : s.engWrite a va bs =
    match s.xlatRange (s.clusterTlbs a.cl) a.vf va .write (piecesOf va.toNat bs.length) with
    | .error e => .error (s, .xlat a.node e.1 e.2 .write)
    | .ok l => .ok (s.physWrites (s.vf a.vf).key none (fun p => p.1) (fun p => (bs.drop p.2.1).take p.2.2) l) := by
  unfold State.engWrite State.vmWrite
  cases s.xlatRange (s.clusterTlbs a.cl) a.vf va .write (piecesOf va.toNat bs.length) with
  | error e => rfl
  | ok l => exact congrArg Except.ok (State.foldl_physWrite_key a.vf (fun p => p.1) (fun p => (bs.drop p.2.1).take p.2.2) l s)

theorem State.engWrite_ok {s s1 : State} {a : Serve} {va : W64} {bs : List Byte} (h : s.engWrite a va bs = .ok s1) :
    ∃ l, s.xlatRange (s.clusterTlbs a.cl) a.vf va .write (piecesOf va.toNat bs.length) = .ok l ∧
      s1 = s.physWrites (s.vf a.vf).key none (fun p => p.1) (fun p => (bs.drop p.2.1).take p.2.2) l := by
  rw [State.engWrite_eq] at h
  split at h
  next => cases h
  next l hl => exact ⟨l, hl, (Except.ok.inj h).symm⟩

section
variable {s u : State} (h : s.Twin u)
include h

theorem State.Twin.vf (v : Nat) : u.vf v = s.vf v := by
  rw [h.2]
  rfl

variable {a a' : Serve} (hcl : a'.cl = a.cl)
include hcl

theorem State.Twin.clusterTlbs : u.clusterTlbs a'.cl = s.clusterTlbs a.cl := by
  obtain ⟨htlb, hu⟩ := h
  unfold State.clusterTlbs
  rw [htlb, hcl, hu]
  rfl

variable (hvf : a'.vf = a.vf)
include hvf

theorem State.Twin.xlatRange (va : W64) (acc : Access) (ps : List (Nat × Nat)) :
    u.xlatRange (u.clusterTlbs a'.cl) a'.vf va acc ps = s.xlatRange (s.clusterTlbs a.cl) a.vf va acc ps := by
  rw [h.clusterTlbs hcl, hvf, h.2]
  exact s.xlatRange_retree ..

/-- An agent that could write can write the same in a twin, and what follows are twins. -/
theorem State.Twin.engWrite {s1 : State} {va : W64} {bs : List Byte} (hw : s.engWrite a va bs = .ok s1) :
    ∃ u1, u.engWrite a' va bs = .ok u1 ∧ s1.Twin u1 ∧ u1.blocks = u.blocks ∧ u1.launches = u.launches ∧ u1.clusters = u.clusters := by
  obtain ⟨l, hl, rfl⟩ := State.engWrite_ok hw
  have hwrite : u.engWrite a' va bs =
      .ok (u.physWrites (s.vf a.vf).key none (fun p => p.1) (fun p => (bs.drop p.2.1).take p.2.2) l) := by
    rw [State.engWrite_eq, h.xlatRange hcl hvf, hl, hvf, h.vf]
  obtain ⟨htlb, hu⟩ := h
  have hboth : u.physWrites (s.vf a.vf).key none (fun p => p.1) (fun p => (bs.drop p.2.1).take p.2.2) l =
      (s.physWrites (s.vf a.vf).key none (fun p => p.1) (fun p => (bs.drop p.2.1).take p.2.2) l).retree u.blocks u.launches u.clusters u.nextId := by
    rw [← State.physWrites_retree]
    exact congrArg (State.physWrites · (s.vf a.vf).key none (fun p => p.1) (fun p => (bs.drop p.2.1).take p.2.2) l) hu
  have hclusters := congrArg State.clusters (s.physWrites_frame (s.vf a.vf).key none (fun p : Nat × Nat × Nat => p.1)
    (fun p => (bs.drop p.2.1).take p.2.2) l)
  refine ⟨_, hwrite.trans (congrArg Except.ok hboth), ⟨fun c => (htlb c).trans ?_, rfl⟩, rfl, rfl, rfl⟩
  exact congrArg (fun m : SMap Cluster => (m.get c {}).tlb) hclusters.symm

theorem State.Twin.engRead {va : W64} {n : Nat} {bs : List Byte} (hr : s.engRead a va n = .ok bs) : u.engRead a' va n = .ok bs := by
  have hread : u.vmRead (u.clusterTlbs a'.cl) a'.vf va n = s.vmRead (s.clusterTlbs a.cl) a.vf va n := by
    simp only [State.vmRead, h.xlatRange hcl hvf, h.vf, State.physRead, h.physByte]
    rw [hvf]
  unfold State.engRead at hr ⊢
  rw [hread]
  split at hr
  next => cases hr
  next => exact hr

theorem State.Twin.readFrame {l : Launch} {fr : Nat × Nat} {x : Frame} (hr : s.readFrame a l fr = .ok x) :
    u.readFrame a' l fr = .ok x := by
  unfold State.readFrame at hr ⊢
  cases hb : s.engRead a (l.frameAddr fr) 64 with
  | error e => simp only [hb] at hr; cases hr
  | ok bs =>
    simp only [hb, h.engRead hcl hvf hb] at hr ⊢
    split at hr
    next => cases hr
    next => exact hr
    next =>
      split at hr
      next hok => rw [if_pos hok]; exact hr
      next => cases hr

theorem State.Twin.writeFrame {s1 : State} {l : Launch} {fr : Nat × Nat} {x : Frame} (hw : s.writeFrame a l fr x = .ok s1) :
    ∃ u1, u.writeFrame a' l fr x = .ok u1 ∧ s1.Twin u1 ∧ u1.blocks = u.blocks ∧ u1.launches = u.launches ∧ u1.clusters = u.clusters :=
  h.engWrite hcl hvf hw

end

end Sys2Proof.Machine

/-! PROOFS. Takes (O52): what follows a step of an agent that leaves a dispatch waiting, the take of a leaf of an implicit tree, and the
take of node 0. -/

namespace Sys2Proof.Machine

/-! ### A dispatch waits (R59) -/

/-- A node dispatched. -/
def Node.sent (n : Node) : Node := { n with state := .dispatched }

theorem State.queueDispatch_one (s : State) {d : Dispatch} {i : Nat} (hd : d.nodes = [i]) : s.queueDispatch d =
    ({ s.updNode d.launch i Node.sent with nextId := s.nextId + 1 }).updCluster d.taker
      (fun c => { c with waiting := c.waiting ++ [{ d with order := s.nextId }] }) := by
  unfold State.queueDispatch
  rw [hd]
  rfl

section
variable (s : State) {d : Dispatch} {i : Nat} (hd : d.nodes = [i])
include hd

theorem State.twin_queueDispatch : s.Twin (s.queueDispatch d) := by
  rw [s.queueDispatch_one hd]
  exact (State.Twin.of_tree s s.blocks (s.launches.upd d.launch (fun l => { l with nodes := l.nodes.upd i Node.sent })) (s.nextId + 1)).trans
    (State.twin_updCluster _ d.taker (fun _ => rfl))

theorem State.launch_queueDispatch {l : Launch} (hl : s.launch d.launch = some l) :
    (s.queueDispatch d).launch d.launch = some { l with nodes := l.nodes.upd i Node.sent } := by
  rw [s.queueDispatch_one hd]
  refine (s.launch_updLaunch_self d.launch (fun l => { l with nodes := l.nodes.upd i Node.sent })).trans ?_
  rw [hl]
  rfl

theorem State.waiting_queueDispatch :
    ((s.queueDispatch d).cluster d.taker).waiting = (s.cluster d.taker).waiting ++ [{ d with order := s.nextId }] := by
  rw [s.queueDispatch_one hd, State.cluster_updCluster, if_pos rfl]
  rfl

end

/-! ### After an agent's step (R335) -/

/-- What the pops of a step leave of a launch: its stacks, its frames and what is due apart, all of it. -/
theorem State.settlePops_frame {s : State} {lid : Nat} {l : Launch} (hl : s.launch lid = some l) :
    ∃ (hs : SMap (List Nat)) (ps : List (Nat × Nat × Nat)) (f : Node → Node), (∀ n, f n = { n with frame := (f n).frame }) ∧
      (s.settlePops lid).launch lid = some { l with pops := ps, heights := hs, nodes := l.nodes.mapVals (fun _ n => f n) } ∧
      { s.settlePops lid with launches := s.launches } = s := by
  simp only [State.settlePops, hl]
  split
  · refine ⟨l.heights, l.pops, id, fun _ => rfl, ?_, rfl⟩
    rw [hl, show l.nodes.mapVals (fun _ n => id n) = l.nodes from List.map_id' ..]
  · obtain ⟨hs, f, hf, heq⟩ := Launch.foldl_pop_frame (l.pops.filter (s.popDue lid l))
      { l with pops := l.pops.filter (fun p => !(l.pops.filter (s.popDue lid l)).contains p) }
    rw [heq]
    exact ⟨hs, _, f, hf, (State.launch_setLaunch ..).trans (if_pos rfl), rfl⟩

/-- An agent with a dispatch of a launch waiting is busy for it. -/
theorem State.agentsBusy_of_waiting {s : State} {cl : Nat} {d : Dispatch} (h : d ∈ (s.cluster cl).waiting) (l : Launch) :
    s.agentsBusy d.launch l = true := by
  have hin : ∃ c, s.clusters.look cl = some c ∧ d ∈ c.waiting := by
    unfold State.cluster SMap.get at h
    cases hc : s.clusters.look cl with
    | none => rw [hc] at h; cases h
    | some c => rw [hc] at h; exact ⟨c, rfl, h⟩
  obtain ⟨c, hc, hd⟩ := hin
  have hany : s.clusters.any (fun p => p.2.waiting.any (fun e => e.launch == d.launch) || (p.2.downWait.map (·.1)) == some d.launch) = true :=
    List.any_eq_true.mpr ⟨(cl, c), SMap.mem_of_look hc, by
      rw [List.any_eq_true.mpr ⟨d, hd, by simp⟩, Bool.true_or]⟩
  rw [State.agentsBusy, hany, Bool.or_true]

/-- A launch for which an agent has a dispatch waiting goes on. -/
theorem State.settle_waiting {s : State} {cl : Nat} {d : Dispatch} {l : Launch} (hl : s.launch d.launch = some l) (hstop : l.stop = none)
    (hw : d ∈ (s.cluster cl).waiting) :
    ∃ (hs : SMap (List Nat)) (ps : List (Nat × Nat × Nat)) (f : Node → Node), (∀ n, f n = { n with frame := (f n).frame }) ∧
      (s.settle d.launch).launch d.launch = some { l with pops := ps, heights := hs, nodes := l.nodes.mapVals (fun _ n => f n) } ∧
      { s.settle d.launch with launches := s.launches } = s := by
  obtain ⟨hs, ps, f, hf, hlaunch, hframe⟩ := State.settlePops_frame hl
  have hcluster := congrArg (fun t : State => t.cluster cl) hframe
  have hw' : d ∈ ((s.settlePops d.launch).cluster cl).waiting := by
    rw [show (s.settlePops d.launch).cluster cl = s.cluster cl from hcluster]
    exact hw
  have hsettle : s.settle d.launch = s.settlePops d.launch := by
    simp only [State.settle, hlaunch, State.launchOver, hstop, State.agentsBusy_of_waiting hw', Option.isSome_none, Bool.not_true,
      Bool.false_and, Bool.or_self, Bool.and_false, Bool.false_eq_true, if_false]
  rw [hsettle]
  exact ⟨hs, ps, f, hf, hlaunch, hframe⟩

/-- A dispatch that an agent has queued waits, and its node is DISPATCHED. -/
theorem State.settle_queued {v : State} {d : Dispatch} {i : Nat} {l : Launch} {n : Node} (hd : d.nodes = [i])
    (hl : v.launch d.launch = some l) (hn : l.nodes.look i = some n) (hstop : l.stop = none) (hempty : (v.cluster d.taker).waiting = []) :
    ((v.queueDispatch d).settle d.launch).mem = v.mem ∧
    (((v.queueDispatch d).settle d.launch).cluster d.taker).waiting = [{ d with order := v.nextId }] ∧
    ∃ (l' : Launch) (n' : Node),
      ((v.queueDispatch d).settle d.launch).launch d.launch = some l' ∧ l'.nodes.look i = some n' ∧ n'.state = .dispatched ∧
      n'.taker = n.taker ∧ n'.rcd = n.rcd := by
  have hwait : ((v.queueDispatch d).cluster d.taker).waiting = [{ d with order := v.nextId }] := by
    rw [v.waiting_queueDispatch hd, hempty, List.nil_append]
  obtain ⟨hs, ps, f, hf, hlaunch, hframe⟩ := State.settle_waiting (d := { d with order := v.nextId })
    (v.launch_queueDispatch hd hl) hstop (hwait.symm ▸ List.mem_singleton.mpr rfl)
  have hmem := congrArg State.mem hframe
  have hcluster := congrArg (fun t : State => (t.cluster d.taker).waiting) hframe
  refine ⟨hmem.trans (v.twin_queueDispatch hd).mem, hcluster.trans hwait, _, f n.sent, hlaunch, ?_, ?_, ?_, ?_⟩
  · rw [SMap.look_mapVals, SMap.look_upd_self, hn]
    rfl
  all_goals rw [hf]; rfl

/-! ### The take of a leaf (R58, R61, R66, R71) -/

/-- A leaf of an implicit tree as an agent takes it. -/
def Launch.leaf (l : Launch) (cl i : Nat) (par : Nat × Node) : Node :=
  { state := .taken, rcd := l.implicitRec i, taker := cl, childix := i - par.2.rcd.first.toNat, depth := par.2.depth + 1, parent := par.1,
    pframe := par.2.frame }

theorem State.readTake_leaf (s : State) (a : Serve) {l : Launch} (himp : l.implicit = true) (x : Frame) (par : Nat × Node) :
    s.readTake a l x par = .ok [(x.next, l.leaf a.cl x.next par)] := by
  have hread : s.readNode a l x.next (some par) = .ok (l.leaf a.cl x.next par) := by
    simp only [State.readNode, himp, if_true]
    rfl
  simp only [State.readTake, hread, himp, Bool.true_or, if_true]
  rfl

/-- What the record of a leaf says. -/
theorem Launch.implicitRec_leaf (l : Launch) {i : Nat} (hi : i ≠ 0) :
    (l.implicitRec i).kind = kPlain ∧ (l.implicitRec i).nchild = 0 ∧ (l.implicitRec i).lanes = l.llanes := by
  rw [Launch.implicitRec, if_neg hi]
  exact ⟨rfl, rfl, rfl⟩

/-- The frame after the take of one child. -/
def Frame.taken (x : Frame) (p : Phase) (thieves : Nat) : Frame :=
  let next := (x.next + 1) % 2 ^ 32
  match p with
  | .up => { x with next := next, thieves := thieves, state := if next = x.fin then fWaiting else x.state }
  | .down =>
    let join := (x.join + 2 ^ 32 - 1) % 2 ^ 32
    { x with next := next, join := join, thieves := thieves, state := if join = 0 then fComplete else x.state }

/-- The dispatch of a leaf taken in the up phase. -/
def upDispatch (a : Serve) (i : Nat) : Dispatch := { launch := a.lid, nodes := [i], phase := .up, taker := a.cl, inboxes := [(some 0, 0)] }

theorem State.runUp_leaf (s : State) (a : Serve) {i : Nat} {n : Node} (hkind : n.rcd.kind = kPlain) (hchild : n.rcd.nchild = 0) :
    s.runUp a [(i, n)] = .ok (s.queueDispatch (upDispatch a i)) :=
  if_pos (by rw [hkind, hchild]; rfl)

/-- The dispatch of a leaf taken in the down phase. -/
def downDispatch (a : Serve) (i : Nat) (ins : List (Option Nat × Nat)) (pop : Option (Nat × Nat)) : Dispatch :=
  { launch := a.lid, nodes := [i], phase := .down, taker := a.cl, inboxes := ins, pop := pop }

theorem State.runDown_leaf (s : State) (a : Serve) {l : Launch} (hidemp : l.idemp = false) {i : Nat} {n : Node} (hkind : n.rcd.kind = kPlain)
    (hchild : n.rcd.nchild = 0) (ins : List (Option Nat × Nat)) (pop : Option (Nat × Nat)) :
    s.runDown a l [(i, n)] ins pop = .ok (s.queueDispatch (downDispatch a i ins pop)) := by
  have hbig : (List.zip [(i, n)] ins).find? (fun p => p.1.2.rcd.kind != kSkip && l.needsCopy p.1.2.rcd && l.f < p.2.2) = none := by
    refine List.find?_eq_none.mpr (fun p hp => ?_)
    have hmem := (List.of_mem_zip hp).1
    rw [List.mem_singleton] at hmem
    rw [hmem, Launch.needsCopy, hidemp, hkind]
    simp [kPlain, kGuarded]
  have hskip : n.rcd.kind ≠ kSkip := by
    rw [hkind]
    decide
  simp only [State.runDown, hbig, hskip, hchild, decide_false, Bool.false_and, Bool.false_eq_true, if_false, if_true, List.map_cons,
    List.map_nil, downDispatch]

section
variable {s s1 : State} {a : Serve} {l : Launch} {par : Nat × Node} {x : Frame} {fr : Nat × Nat} (hl : s.launch a.lid = some l)
  (himp : l.implicit = true) (hpar : l.frameNode fr = some par) (hx : s.readFrame a l fr = .ok x) (hnext : x.next ≠ 0)
include hl himp hpar hx hnext

/-- The take of a leaf: the frame is written, the leaf's node entered, and its dispatch queued. -/
theorem State.takeFrom_leaf (hidemp : l.phase = .down → l.idemp = false) {thief : Bool}
    (hw : s.writeFrame a l fr (x.taken l.phase (if thief then x.thieves ||| 2 ^ a.cl else x.thieves)) = .ok s1) :
    ∃ (u1 : State) (d : Dispatch), s.takeFrom a fr thief = .ok ((u1.addNodes a.lid [(x.next, l.leaf a.cl x.next par)]).queueDispatch d) ∧
      s1.Twin u1 ∧ u1.launches = s.launches ∧ u1.clusters = s.clusters ∧ d.launch = a.lid ∧ d.nodes = [x.next] ∧ d.phase = l.phase ∧
      d.taker = a.cl ∧ (l.phase = .down → d.inboxes = [(some l.input.toNat, l.lrb)]) ∧
      d.pop = if l.phase = .down ∧ (x.join + 2 ^ 32 - 1) % 2 ^ 32 = 0 then some fr else none := by
  obtain ⟨u1, hu1, htwin, -, hlaunches, hclusters⟩ := (State.Twin.refl s).writeFrame (a := a) (a' := { a with node := par.1 }) rfl rfl hw
  have hread := (State.Twin.refl s).readFrame (a := a) (a' := { a with node := par.1 }) rfl rfl hx
  obtain ⟨hkind, hchild, -⟩ := l.implicitRec_leaf hnext
  cases hp : l.phase with
  | up =>
    rw [hp, Frame.taken] at hu1
    refine ⟨u1, upDispatch a x.next, ?_, htwin, hlaunches, hclusters, rfl, rfl, rfl, rfl, nofun, (if_neg (fun h => nomatch h.1)).symm⟩
    simp only [State.takeFrom, hl, hpar, hread, State.readTake_leaf s _ himp, bind, Except.bind, hp, List.length_singleton,
      show (Phase.up == Phase.down) = false from rfl, Bool.false_eq_true, if_false, hu1]
    exact State.runUp_leaf _ _ hkind hchild
  | down =>
    rw [hp, Frame.taken] at hu1
    refine ⟨u1, downDispatch a x.next [(some l.input.toNat, l.lrb)] (if (x.join + 2 ^ 32 - 1) % 2 ^ 32 = 0 then some fr else none), ?_,
      htwin, hlaunches, hclusters, rfl, rfl, rfl, rfl, fun _ => rfl, ?_⟩
    · simp only [State.takeFrom, hl, hpar, hread, State.readTake_leaf s _ himp, bind, Except.bind, hp, List.length_singleton,
        show (Phase.down == Phase.down) = true from rfl, if_true, hu1, himp, List.map_cons, List.map_nil]
      exact State.runDown_leaf _ _ (hidemp hp) hkind hchild _ _
    · simp only [downDispatch, true_and]

/-- What a take of a leaf leaves: its frame written, and the dispatch of the leaf's block waiting with the taker's agent. -/
def State.Took (s1 t : State) (a : Serve) (l : Launch) (x : Frame) (fr : Nat × Nat) (p : Phase) : Prop :=
  t.mem = s1.mem ∧ ∃ (d : Dispatch) (l' : Launch) (n : Node),
    (t.cluster a.cl).waiting = [d] ∧ d.launch = a.lid ∧ d.nodes = [x.next] ∧ d.phase = p ∧ d.taker = a.cl ∧
    (p = .down → d.inboxes = [(some l.input.toNat, l.lrb)]) ∧
    d.pop = (if p = .down ∧ (x.join + 2 ^ 32 - 1) % 2 ^ 32 = 0 then some fr else none) ∧ t.launch a.lid = some l' ∧
    l'.nodes.look x.next = some n ∧ n.state = .dispatched ∧ n.taker = a.cl ∧ n.rcd.lanes = l.llanes

theorem State.agentStep_took (hstop : l.stop = none) (hempty : (s.cluster a.cl).waiting = []) (hidemp : l.phase = .down → l.idemp = false)
    {thief : Bool} (hw : s.writeFrame a l fr (x.taken l.phase (if thief then x.thieves ||| 2 ^ a.cl else x.thieves)) = .ok s1) :
    s1.Took (agentStep a.lid (s.takeFrom a fr thief)) a l x fr l.phase := by
  obtain ⟨u1, d, hrun, htwin, hlaunches, hclusters, hlaunch, hnodes, hphase, htaker, hins, hpop⟩ :=
    State.takeFrom_leaf hl himp hpar hx hnext hidemp hw
  have hadd := u1.twin_addNodes a.lid [(x.next, l.leaf a.cl x.next par)]
  have hl' : (u1.addNodes a.lid [(x.next, l.leaf a.cl x.next par)]).launch d.launch =
      some { l with nodes := l.nodes.put x.next (l.leaf a.cl x.next par) } := by
    rw [hlaunch]
    refine (u1.launch_updLaunch_self ..).trans ?_
    rw [show u1.launch a.lid = some l from (congrArg (SMap.look · a.lid) hlaunches).trans hl]
    rfl
  have hempty' : ((u1.addNodes a.lid [(x.next, l.leaf a.cl x.next par)]).cluster d.taker).waiting = [] := by
    rw [htaker]
    exact (congrArg (fun m : SMap Cluster => (m.get a.cl {}).waiting) hclusters).trans hempty
  obtain ⟨hmem, hwait, l', n', hlook, hnode, hstate, hntaker, hrcd⟩ :=
    State.settle_queued hnodes hl' (SMap.look_put_self ..) hstop hempty'
  have hstep : agentStep a.lid (s.takeFrom a fr thief) =
      ((u1.addNodes a.lid [(x.next, l.leaf a.cl x.next par)]).queueDispatch d).settle d.launch := by
    rw [hrun, hlaunch]
    rfl
  rw [hstep]
  rw [hlaunch] at hlook
  rw [htaker] at hwait
  refine ⟨hmem.trans (hadd.mem.trans htwin.mem), _, l', n', hwait, hlaunch, hnodes, hphase, rfl, hins, hpop, ?_, hnode, hstate,
    hntaker, ?_⟩
  · rw [hlaunch]
    exact hlook
  · rw [hrcd]
    exact (l.implicitRec_leaf hnext).2.2

end

/-- What an agent that is free waits for, and what its launch is. -/
theorem State.agentFree_iff (s : State) (cl : Nat) (l : Launch) : s.agentFree cl l = true ↔
    s.clocked (clusterDie cl) = true ∧ s.curVf = some l.vf ∧ s.stopping = false ∧ l.started = true ∧ l.stop = none ∧
      (s.cluster cl).waiting = [] ∧ (s.cluster cl).downWait = none := by
  simp only [State.agentFree, Bool.and_eq_true, beq_iff_eq, Bool.not_eq_true', Option.isNone_iff_eq_none, List.isEmpty_iff, and_assoc]

/-- The clauses of O52 on the takes of leaves. -/
theorem takesOfLeaves (s : State) (cl lid victim : Nat) (l : Launch) (par : Nat × Node) (x : Frame) (fr : Nat × Nat) (s1 : State)
    (hl : s.launch lid = some l) (hfree : s.agentFree cl l = true) (htaken : l.rootTaken = true) (himp : l.implicit = true)
    (hpar : l.frameNode fr = some par) (hx : s.readFrame { lid := lid, vf := l.vf, cl := cl, node := 0 } l fr = .ok x) (hnext : x.next ≠ 0) :
    let a : Serve := { lid := lid, vf := l.vf, cl := cl, node := 0 }
    (l.phase = .up → l.top cl = some fr → x.state = fOpen → s.writeFrame a l fr (x.taken .up x.thieves) = .ok s1 →
      ∃ t : State, exec (.take cl lid) s = .next t ∧ s1.Took t a l x fr .up) ∧
    (l.phase = .down → l.idemp = false → l.top cl = some fr → x.state = fOpen → s.writeFrame a l fr (x.taken .down x.thieves) = .ok s1 →
      ∃ t : State, exec (.downTake cl lid) s = .next t ∧ s1.Took t a l x fr .down) ∧
    (l.phase = .up → l.stackOf cl = [] → s.victim a l (stealOrder cl) = .ok (some fr) →
      s.writeFrame a l fr (x.taken .up (x.thieves ||| 2 ^ cl)) = .ok s1 → ∃ t : State, exec (.steal cl lid) s = .next t ∧ s1.Took t a l x fr .up) ∧
    (l.phase = .up → victim < 16 → s.leapTarget a l victim = .ok (some fr) →
      s.writeFrame a l fr (x.taken .up (x.thieves ||| 2 ^ cl)) = .ok s1 →
      ∃ t : State, exec (.leapfrog cl lid victim) s = .next t ∧ s1.Took t a l x fr .up) := by
  intro a
  obtain ⟨-, -, -, -, hstop, hempty, -⟩ := (s.agentFree_iff cl l).mp hfree
  have hown : ∀ p, l.phase = p → l.top cl = some fr → x.state = fOpen → s.ownTake cl lid p = agentStep lid (s.takeFrom a fr false) := by
    intro p hp htop hopen
    have hserve : s.readFrame (l.serving a fr) l fr = .ok x := (State.Twin.refl s).readFrame (a := a) (a' := l.serving a fr) rfl rfl hx
    simp only [State.ownTake, hl, hfree, hp, htaken, htop, bne_self_eq_false, Bool.not_true, Bool.or_self, Bool.false_eq_true, if_false]
    show (match s.readFrame (l.serving a fr) l fr with
      | .error e => agentStep lid (.error e)
      | .ok x => if x.state = fOpen then agentStep lid (s.takeFrom a fr false) else s) = _
    rw [hserve]
    exact if_pos hopen
  refine ⟨fun hp htop hopen hw => ⟨_, congrArg Host.Outcome.next (hown .up hp htop hopen), ?_⟩,
    fun hp hidemp htop hopen hw => ⟨_, congrArg Host.Outcome.next (hown .down hp htop hopen), ?_⟩,
    fun hp hstack hvictim hw => ⟨agentStep lid (s.takeFrom a fr true), congrArg Host.Outcome.next ?_, ?_⟩,
    fun hp hlt htarget hw => ⟨agentStep lid (s.takeFrom a fr true), congrArg Host.Outcome.next ?_, ?_⟩⟩
  · have h := State.agentStep_took (a := a) hl himp hpar hx hnext hstop hempty (fun h => nomatch hp.symm.trans h) (thief := false)
      (by rw [hp]; exact hw)
    rwa [hp] at h
  · have h := State.agentStep_took (a := a) hl himp hpar hx hnext hstop hempty (fun _ => hidemp) (thief := false)
      (by rw [hp]; exact hw)
    rwa [hp] at h
  · simp only [hl, hfree, htaken, hstack, Bool.not_true, List.isEmpty_nil, Bool.or_self, Bool.false_eq_true, if_false]
    show (match s.victim a l (stealOrder cl) with
      | .error e => agentStep lid (.error e)
      | .ok none => s
      | .ok (some fr) => agentStep lid (s.takeFrom a fr true)) = _
    rw [hvictim]
  · have h := State.agentStep_took (a := a) hl himp hpar hx hnext hstop hempty (fun h => nomatch hp.symm.trans h) (thief := true)
      (by rw [hp]; exact hw)
    rwa [hp] at h
  · simp only [hl, hfree, htaken, hp, bne_self_eq_false, Nat.not_le.mpr hlt, decide_false, Bool.not_true, Bool.or_self, Bool.false_eq_true,
      if_false]
    show (match s.leapTarget a l victim with
      | .error e => agentStep lid (.error e)
      | .ok none => s
      | .ok (some fr) => agentStep lid (s.takeFrom a fr true)) = _
    rw [htarget]
  · have h := State.agentStep_took (a := a) hl himp hpar hx hnext hstop hempty (fun h => nomatch hp.symm.trans h) (thief := true)
      (by rw [hp]; exact hw)
    rwa [hp] at h

/-! ### The take of node 0 (R57, R60) -/

/-- The height at which a cluster's next frame is pushed. -/
def Launch.newHeight (l : Launch) (cl : Nat) : Nat :=
  match (l.stackOf cl).getLast? with
  | some t => t + 1
  | none => 0

theorem Launch.newHeight_eq (l : Launch) (cl : Nat) : l.newHeight cl = ((l.stackOf cl).getLast?.map (· + 1)).getD 0 := by
  unfold Launch.newHeight
  cases (l.stackOf cl).getLast? <;> rfl

/-- The header of a frame at its push. -/
def Launch.newFrame (l : Launch) (i : Nat) (r : NodeRec) : Frame :=
  { node := i, parent := r.parent.toNat, next := r.first.toNat, fin := (r.first.toNat + r.nchild) % 2 ^ 32, join := r.nchild, state := fOpen,
    phase := l.phase.bit, cslot := r.cslot, size := r.frameUnits }

/-- A launch after a push at a height. -/
def Launch.pushedAt (l : Launch) (a : Serve) (h : Nat) : Launch :=
  { l with heights := l.heights.put a.cl (l.stackOf a.cl ++ [h]),
           nodes := l.nodes.upd a.node (fun n => { n with frame := some (a.cl, h), state := .gathering }) }

theorem State.push_ok {s s1 : State} {a : Serve} {l : Launch} {n : Node} {slots : List Byte} (hl : s.launch a.lid = some l)
    (hsize : n.rcd.frameUnits * 64 ≤ l.f) (hdepth : l.newHeight a.cl < l.d)
    (hw : s.engWrite a (l.frameAddr (a.cl, l.newHeight a.cl)) ((l.newFrame a.node n.rcd).bytes ++ slots) = .ok s1) :
    s.push a n slots = .ok (s1.updLaunch a.lid (fun m => m.pushedAt a (l.newHeight a.cl))) := by
  simp only [State.push, hl]
  refine (if_neg (Nat.not_lt.mpr hsize)).trans ((if_neg (Nat.not_le.mpr hdepth)).trans ?_)
  generalize s.engWrite = write at hw ⊢
  show (match write a (l.frameAddr (a.cl, l.newHeight a.cl)) ((l.newFrame a.node n.rcd).bytes ++ slots) with
    | Except.error e => Except.error e
    | Except.ok s => Except.ok (s.updLaunch a.lid (fun m => m.pushedAt a (l.newHeight a.cl)))) = _
  rw [hw]

/-- A launch that an engine's step leaves running. -/
theorem State.settle_idle {s : State} {lid : Nat} {l : Launch} (hl : s.launch lid = some l) (hpops : l.pops = [])
    (hover : s.launchOver lid l = false) : s.settle lid = s := by
  have hset : s.settlePops lid = s := by
    simp only [State.settlePops, hl, hpops, List.filter_nil, List.isEmpty_nil, if_true]
  simp only [State.settle, hset, hl, hover, Bool.false_eq_true, if_false]

/-- Node 0 of an implicit tree as cluster 0 takes it. -/
def Launch.rootNode (l : Launch) : Node :=
  { state := .taken, rcd := l.implicitRec 0, taker := 0, childix := 0, depth := 0, parent := 0, pframe := none }

/-- The frame of node 0 of an implicit tree. -/
theorem Launch.newFrame_root (l : Launch) (hphase : l.phase = .up) :
    l.newFrame 0 l.rootNode.rcd = ⟨0, 0xFFFFFFFF, 1, (1 + l.nleaf) % 2 ^ 32, l.nleaf, 0, fOpen, 0, 0, 1⟩ := by
  have hunits : NodeRec.frameUnits l.rootNode.rcd = 1 := by
    simp [NodeRec.frameUnits, Launch.rootNode, Launch.implicitRec, cdiv]
  rw [Launch.newFrame, hunits, hphase]
  rfl

/-- The first take of an implicit tree. -/
theorem takesRoot (s : State) (lid : Nat) (l : Launch) (s1 : State) (hl : s.launch lid = some l) (htaken : l.rootTaken = false)
    (hfree : s.agentFree 0 l = true) (hphase : l.phase = .up) (himp : l.implicit = true) (hleaf : 1 ≤ l.nleaf) (hf : 64 ≤ l.f)
    (hd : 1 ≤ l.d) (hstack : l.stackOf 0 = []) (hdone : l.rootDone = false) (hpops : l.pops = [])
    (hw : s.writeFrame { lid := lid, vf := l.vf, cl := 0, node := 0 } l (0, 0)
      ⟨0, 0xFFFFFFFF, 1, (1 + l.nleaf) % 2 ^ 32, l.nleaf, 0, fOpen, 0, 0, 1⟩ = .ok s1) :
    ∃ (t : State) (l' : Launch) (n : Node), exec (.take 0 lid) s = .next t ∧ t.launch lid = some l' ∧ l'.rootTaken = true ∧ l'.stackOf 0 = [0] ∧
      l'.nodes.look 0 = some n ∧ n.state = .gathering ∧ n.frame = some (0, 0) ∧ t.mem = s1.mem := by
  let a : Serve := { lid := lid, vf := l.vf, cl := 0, node := 0 }
  let u := (s.updLaunch lid (fun l => { l with rootTaken := true })).addNodes lid [(0, l.rootNode)]
  let l0 : Launch := { l with rootTaken := true, nodes := l.nodes.put 0 l.rootNode }
  have hu : u.launch lid = some l0 := by
    refine (State.launch_updLaunch_self _ lid _).trans ?_
    rw [State.launch_updLaunch_self, hl]
    rfl
  have htwin : s.Twin u := (s.twin_updLaunch lid _).trans (State.twin_addNodes ..)
  have hheight : l0.newHeight 0 = 0 := by
    rw [Launch.newHeight_eq, show l0.stackOf 0 = [] from hstack]
    rfl
  obtain ⟨u1, hu1, htwin1, -, hlaunches, -⟩ := htwin.engWrite (a := a) (a' := a) rfl rfl hw
  have hunits : l.rootNode.rcd.frameUnits = 1 := congrArg Frame.size (l.newFrame_root hphase)
  have hpush : u.push a l.rootNode (List.replicate (l.rootNode.rcd.nchild * l.rootNode.rcd.cslot) 0) =
      .ok (u1.updLaunch lid (fun m => m.pushedAt a 0)) := by
    refine hheight ▸ State.push_ok (s := u) (a := a) hu (by rw [hunits]; exact hf) (by rw [hheight]; exact hd) ?_
    rw [hheight]
    show u.engWrite a (l.frameAddr (0, 0)) ((l.newFrame 0 l.rootNode.rcd).bytes ++ List.replicate (l.nleaf * 0) 0) = _
    rw [l.newFrame_root hphase, Nat.mul_zero, List.replicate_zero, List.append_nil]
    exact hu1
  have hrun : s.takeRoot a l = .ok (u1.updLaunch lid (fun m => m.pushedAt a 0)) := by
    have hread : ∀ v : State, v.readNode a l 0 none = .ok l.rootNode := fun v => by
      simp only [State.readNode, himp, if_true]
      rfl
    have hact : u.runUp a [(0, l.rootNode)] = .ok (u1.updLaunch lid (fun m => m.pushedAt a 0)) := by
      have hsome : l.rootNode.rcd.nchild ≠ 0 := Nat.one_le_iff_ne_zero.mp hleaf
      simp only [State.runUp, hsome, decide_false, Bool.false_and, List.isEmpty_nil, Bool.not_true, Bool.or_self, Bool.false_eq_true,
        if_false]
      exact hpush
    have hgang : l.rootNode.rcd.kind ≠ kGang4 := by
      show kSkip ≠ kGang4
      decide
    simp only [State.takeRoot, bind, Except.bind, hphase]
    rw [show (s.updLaunch a.lid (fun l => { l with rootTaken := true })).readNode { a with node := 0 } l 0 none = .ok l.rootNode
      from hread _]
    dsimp only
    rw [if_neg hgang]
    exact hact
  have ht : (u1.updLaunch lid (fun m => m.pushedAt a 0)).launch lid = some (l0.pushedAt a 0) := by
    rw [State.launch_updLaunch_self, show u1.launch lid = some l0 from (congrArg (SMap.look · lid) hlaunches).trans hu]
    rfl
  have hown : s.ownTake 0 lid .up = agentStep lid (s.takeRoot a l) := by
    simp only [State.ownTake, hl, hfree, hphase, htaken, bne_self_eq_false, Bool.not_true, Bool.not_false, Bool.or_self, Bool.false_eq_true,
      if_false, if_true]
    rfl
  obtain ⟨-, -, -, -, hstop, -, -⟩ := (s.agentFree_iff 0 l).mp hfree
  have hsettle : agentStep lid (s.takeRoot a l) = u1.updLaunch lid (fun m => m.pushedAt a 0) := by
    rw [hrun]
    refine State.settle_idle ht hpops ?_
    have hup : (l0.pushedAt a 0).phase = .up := hphase
    have hnot : (l0.pushedAt a 0).rootDone = false := hdone
    have hgo : (l0.pushedAt a 0).stop = none := hstop
    simp only [State.launchOver, hup, hnot, hgo, Option.isSome_none, Bool.and_false, Bool.or_self]
  refine ⟨_, l0.pushedAt a 0, { l.rootNode with frame := some (0, 0), state := .gathering },
    congrArg Host.Outcome.next (hown.trans hsettle), ht, rfl, ?_, ?_, rfl, rfl, ?_⟩
  · show (l.heights.put 0 (l.stackOf 0 ++ [0])).get 0 [] = [0]
    rw [SMap.get_put, if_pos rfl, hstack]
    rfl
  · show (l0.nodes.upd 0 _).look 0 = _
    rw [SMap.look_upd_self, SMap.look_put_self]
    rfl
  · exact ((State.twin_updLaunch u1 lid _).mem).trans htwin1.mem

/-! ### The order of a thief (R62) -/

theorem stealOrder_facts : ∀ cl < 16, (stealOrder cl).length = 15 ∧ (stealOrder cl).Nodup ∧ cl ∉ stealOrder cl ∧
    ∀ i < 7, (stealOrder cl).getD i 16 / 8 = cl / 8 := by
  decide

/-- Only cluster 0 takes node 0. -/
theorem State.ownTake_other {s : State} {cl lid : Nat} {l : Launch} (hl : s.launch lid = some l) (htaken : l.rootTaken = false) (hcl : cl ≠ 0)
    (p : Phase) : s.ownTake cl lid p = s := by
  simp only [State.ownTake, hl, htaken, hcl, Bool.not_false, if_true, if_false, ite_self]

end Sys2Proof.Machine

/-! PROOFS. Hand-offs (O52): a node's result handed up, by the branches of the engine, and the frame that a node in the down phase pushes. -/

namespace Sys2Proof.Machine

/-! ### A node that is DONE (R70) -/

/-- A node done. -/
def Node.finished (n : Node) : Node := { n with state := .done }

/-- What giving up an input-copy slot leaves: its node's slot apart, all of the launch. -/
theorem State.freeCopy_spec {s : State} {lid i : Nat} {l : Launch} (hl : s.launch lid = some l) :
    s.Twin (s.freeCopy lid i) ∧ (s.freeCopy lid i).clusters = s.clusters ∧ ∃ nodes, (s.freeCopy lid i).launch lid = some { l with nodes := nodes } ∧
      (∀ j, j ≠ i → nodes.look j = l.nodes.look j) ∧
      ∀ n, l.nodes.look i = some n → n.state = .done → nodes.look i = some { n with copySlot := if l.idemp then n.copySlot else none } := by
  by_cases hid : l.idemp = true
  · have hsame : s.freeCopy lid i = s := if_pos (by rw [hl]; exact hid)
    rw [hsame]
    exact ⟨.refl s, rfl, l.nodes, hl, fun _ _ => rfl, fun n hn _ => by rw [hn, if_pos hid]⟩
  · have hfree : s.freeCopy lid i = s.updNode lid i (fun n => if n.state == .done then { n with copySlot := none } else n) :=
      if_neg (by rw [hl]; exact hid)
    rw [hfree]
    refine ⟨s.twin_updNode .., rfl, _, (s.launch_updLaunch_self ..).trans (by rw [hl]; rfl), fun j hj => SMap.look_upd_ne _ _ hj,
      fun n hn hdone => ?_⟩
    rw [SMap.look_upd_self, hn, if_neg hid]
    simp [hdone]

/-! ### A result handed up (R61) -/

theorem eng_ok_bind {α β : Type} (x : α) (f : α → Eng β) : ((Except.ok x : Eng α) >>= f) = f x := rfl
theorem eng_pure_bind {α β : Type} (x : α) (f : α → Eng β) : ((pure x : Eng α) >>= f) = f x := rfl

/-- The last steps of a hand-off to a frame: JOIN falls, and at 0 the parent goes on. -/
def State.joinFalls (s : State) (a : Serve) (l : Launch) (n : Node) (fr : Nat × Nat) (x : Frame) (fuel : Nat) : Eng State := do
  let x := { x with join := (x.join + 2 ^ 32 - 1) % 2 ^ 32 }
  if x.join != 0 || l.stop.isSome then s.writeFrame a l fr x
  else
    let s ← s.writeFrame a l fr { x with state := fComplete }
    let some p := l.nodes.look n.parent | return s
    if p.rcd.kind = kSkip then
      let s ← s.handUp { a with node := n.parent } (List.replicate p.rcd.rb 0) fuel
      return s.updLaunch a.lid (fun l => l.pop fr)
    else
      let src := (some (l.slotAddr fr 0 0).toNat, p.rcd.nchild * p.rcd.cslot)
      return s.queueDispatch { launch := a.lid, nodes := [n.parent], phase := .up, taker := a.cl, inboxes := [src], pop := some fr }

section
variable {s : State} {a : Serve} {l : Launch} {n : Node} {data : List Byte} (hl : s.launch a.lid = some l)
  (hn : l.nodes.look a.node = some n)
include hl hn

/-- The root of an implicit tree has nothing to write. -/
theorem State.handUp_rootImplicit (himp : l.implicit = true) (hroot : a.node = 0) (fuel : Nat) : s.handUp a data (fuel + 1) =
    .ok ((s.updNode a.lid a.node Node.finished).updLaunch a.lid (fun l => { l with rootDone := true, upRoot := data })) := by
  rw [State.handUp]
  simp only [hl, hn]
  rw [if_pos hroot, if_pos himp]
  rfl

theorem State.handUp_rootExplicit (himp : l.implicit = false) (hroot : a.node = 0) {s1 : State}
    (hw : (s.updNode a.lid a.node Node.finished).engWrite a l.result data = .ok s1) (fuel : Nat) :
    s.handUp a data (fuel + 1) = .ok (s1.updLaunch a.lid (fun l => { l with rootDone := true, upRoot := data })) := by
  unfold Node.finished at hw
  rw [State.handUp]
  simp only [hl, hn]
  rw [if_pos hroot, if_neg (Bool.eq_false_iff.mp himp), hw]
  rfl

variable (hnode : a.node ≠ 0) {fr : Nat × Nat} (hfr : n.pframe = some fr) {x : Frame} {s1 : State}
include hnode hfr

theorem State.handUp_childImplicit (himp : l.implicit = true)
    (hw : (s.updNode a.lid a.node Node.finished).engWrite a (l.result + BitVec.ofNat 64 ((a.node - 1) * l.lrb)) data = .ok s1)
    (hx : s1.readFrame a l fr = .ok x) (fuel : Nat) : s.handUp a data (fuel + 1) = s1.joinFalls a l n fr x fuel := by
  unfold Node.finished at hw
  rw [State.handUp]
  simp only [hl, hn]
  rw [if_neg hnode]
  simp only [hfr]
  rw [if_pos himp, hw, eng_ok_bind, hx, eng_ok_bind, if_pos himp, eng_pure_bind]
  unfold State.joinFalls
  generalize (x.join + 2 ^ 32 - 1) % 2 ^ 32 = j
  rfl

theorem State.handUp_childExplicit (himp : l.implicit = false) (hx : (s.updNode a.lid a.node Node.finished).readFrame a l fr = .ok x)
    (hw : (s.updNode a.lid a.node Node.finished).engWrite a (l.slotAddr fr x.cslot n.childix) data = .ok s1) (fuel : Nat) :
    s.handUp a data (fuel + 1) = s1.joinFalls a l n fr x fuel := by
  have himp' : ¬ l.implicit = true := Bool.eq_false_iff.mp himp
  unfold Node.finished at hw hx
  rw [State.handUp]
  simp only [hl, hn]
  rw [if_neg hnode]
  simp only [hfr]
  rw [if_neg himp', eng_pure_bind, hx, eng_ok_bind, if_neg himp', hw, eng_ok_bind]
  unfold State.joinFalls
  generalize (x.join + 2 ^ 32 - 1) % 2 ^ 32 = j
  rfl

end

/-- JOIN falls to 0 where it was 1. -/
theorem join_falls (j : Nat) : (j + 2 ^ 32 - 1) % 2 ^ 32 = 0 ↔ j % 2 ^ 32 = 1 := by omega

/-- A frame after a child has finished; `last` says whether the frame is complete. -/
def Frame.fallen (x : Frame) (last : Bool) : Frame :=
  { x with join := (x.join + 2 ^ 32 - 1) % 2 ^ 32, state := if last then fComplete else x.state }

section
variable {s : State} {a : Serve} {l : Launch} {n : Node} {fr : Nat × Nat} {x : Frame} {s1 : State}

theorem State.joinFalls_more (h : x.join % 2 ^ 32 ≠ 1 ∨ l.stop.isSome = true) (hw : s.writeFrame a l fr (x.fallen false) = .ok s1)
    (fuel : Nat) : s.joinFalls a l n fr x fuel = .ok s1 := by
  have hmore : ((x.join + 2 ^ 32 - 1) % 2 ^ 32 != 0 || l.stop.isSome) = true := by
    rw [Bool.or_eq_true, bne_iff_ne]
    exact h.imp_left (fun hne e => hne ((join_falls x.join).mp e))
  unfold Frame.fallen at hw
  unfold State.joinFalls
  generalize (x.join + 2 ^ 32 - 1) % 2 ^ 32 = j at hmore hw ⊢
  exact (if_pos hmore).trans hw

variable (hlast : x.join % 2 ^ 32 = 1) (hstop : l.stop = none) (hw : s.writeFrame a l fr (x.fallen true) = .ok s1) {p : Node}
  (hp : l.nodes.look n.parent = some p)
include hlast hstop hw hp

/-- The frame is complete. -/
theorem State.joinFalls_last (fuel : Nat) : s.joinFalls a l n fr x fuel =
    if p.rcd.kind = kSkip then
      s1.handUp { a with node := n.parent } (List.replicate p.rcd.rb 0) fuel >>= fun s => .ok (s.updLaunch a.lid (fun l => l.pop fr))
    else .ok (s1.queueDispatch { launch := a.lid, nodes := [n.parent], phase := .up, taker := a.cl, pop := some fr,
                                 inboxes := [(some (l.slotAddr fr 0 0).toNat, p.rcd.nchild * p.rcd.cslot)] }) := by
  have hnone : ¬ ((x.join + 2 ^ 32 - 1) % 2 ^ 32 != 0 || l.stop.isSome) = true := by
    rw [hstop, (join_falls x.join).mpr hlast]
    decide
  unfold Frame.fallen at hw
  unfold State.joinFalls
  generalize (x.join + 2 ^ 32 - 1) % 2 ^ 32 = j at hnone hw ⊢
  refine (if_neg hnone).trans ?_
  rw [if_pos rfl] at hw
  rw [hw, eng_ok_bind]
  simp only [hp]
  rfl

end

end Sys2Proof.Machine

/-! PROOFS. Hand-offs (O52): the hand-off of a block by the place of its node, and the statement. -/

namespace Sys2Proof.Machine

/-! ### The hand-off of a block's node (R61, R66) -/

theorem State.Twin.aspRead {s u : State} (h : s.Twin u) (b : Block) (off n : Nat) : u.aspRead b off n = s.aspRead b off n := by
  rw [h.2]
  rfl

theorem Frame.falls_eq (x : Frame) (c : Prop) [Decidable c] :
    { x with join := (x.join + 2 ^ 32 - 1) % 2 ^ 32, state := if c then fComplete else x.state } = x.fallen (decide c) := by
  unfold Frame.fallen
  generalize (x.join + 2 ^ 32 - 1) % 2 ^ 32 = j
  by_cases h : c
  · rw [if_pos h, if_pos (decide_eq_true h)]
  · rw [if_neg h, if_neg (by simpa using h)]

/-- A node that has been handed off: DONE, with its input-copy slot where the launch may run it again. -/
def Node.over (n : Node) (again : Bool) : Node := { n.finished with copySlot := if again then n.copySlot else none }

/-- A block whose node has been handed off. -/
def Block.handedOff (b : Block) : Block := { b with handed := true }

/-- The agent that hands off a block's node. -/
def Block.hander (b : Block) : Serve := { lid := b.launch, vf := b.vf, cl := b.taker, node := b.node }

/-- The launch once the node of the block is DONE. -/
theorem State.launch_finished {s : State} {b : Block} {l : Launch} (hl : s.launch b.launch = some l) (bi : Nat) :
    ((s.setBlock bi b.handedOff).updNode b.launch b.node Node.finished).launch b.launch =
      some { l with nodes := l.nodes.upd b.node Node.finished } := by
  refine (State.launch_updLaunch_self ..).trans ?_
  rw [show (s.setBlock bi b.handedOff).launch b.launch = some l from hl]
  rfl

theorem State.twin_finished (s : State) (bi : Nat) (b : Block) :
    s.Twin ((s.setBlock bi b.handedOff).updNode b.launch b.node Node.finished) :=
  (s.twin_setBlock ..).trans (State.twin_updNode ..)

/-- The dispatch of a parent whose children have all finished. -/
def childDispatch (b : Block) (n : Node) (fr : Nat × Nat) (l : Launch) (p : Node) : Dispatch :=
  { launch := b.launch, nodes := [n.parent], phase := .up, taker := b.taker, pop := some fr,
    inboxes := [(some (l.slotAddr fr 0 0).toNat, p.rcd.nchild * p.rcd.cslot)] }

theorem State.cluster_congr {s t : State} (h : s.clusters = t.clusters) (c : Nat) : s.cluster c = t.cluster c :=
  congrArg (fun m : SMap Cluster => m.get c {}) h

section
variable {s : State} {bi : Nat} {b : Block} {l : Launch} {n : Node} (hb : s.block bi = some b) (hh : b.handed = false)
include hb hh

theorem State.handOff_up (hphase : b.phase = .up) : s.handOff bi =
    (served b.launch ((s.setBlock bi b.handedOff).handUp b.hander (s.aspRead b b.resbuf b.rcd.rb) (b.depth + 1))).freeCopy
      b.launch b.node := by
  unfold State.handOff
  rw [hb]
  refine (if_neg (by rw [hh]; exact Bool.false_ne_true)).trans ?_
  split
  next => rfl
  next h => exact absurd (hphase.symm.trans h) nofun

variable (hl : s.launch b.launch = some l) (hn : l.nodes.look b.node = some n)
include hl hn

/-- The root of an explicit tree (R61). -/
theorem handsUpRoot (hphase : b.phase = .up) (hroot : b.node = 0) (himp : l.implicit = false) {s1 : State}
    (hw : s.engWrite b.hander l.result (s.aspRead b b.resbuf b.rcd.rb) = .ok s1) :
    (∀ key x, (s.handOff bi).physByte key x = s1.physByte key x) ∧
      ∃ l' : Launch, (s.handOff bi).launch b.launch = some l' ∧ l'.rootDone = true ∧ l'.upRoot = s.aspRead b b.resbuf b.rcd.rb := by
  obtain ⟨u1, hu1, htwin, -, hlaunches, -⟩ := (s.twin_finished bi b).engWrite (a := b.hander) (a' := b.hander) rfl rfl hw
  have hup := State.handUp_rootExplicit (s := s.setBlock bi b.handedOff) (a := b.hander) hl hn himp hroot hu1 b.depth
  rw [State.handOff_up hb hh hphase, hup]
  have hlaunch : (u1.updLaunch b.launch (fun l => { l with rootDone := true, upRoot := s.aspRead b b.resbuf b.rcd.rb })).launch b.launch =
      some { l with nodes := l.nodes.upd b.node Node.finished, rootDone := true, upRoot := s.aspRead b b.resbuf b.rcd.rb } := by
    rw [State.launch_updLaunch_self, show u1.launch b.launch = _ from
      (congrArg (SMap.look · b.launch) hlaunches).trans (State.launch_finished hl bi)]
    rfl
  obtain ⟨hfree, -, nodes, hl', -⟩ := State.freeCopy_spec (i := b.node) hlaunch
  exact ⟨fun key x => ((htwin.trans (u1.twin_updLaunch ..)).trans hfree).physByte key x, _, hl', rfl, rfl⟩

/-- A node of an explicit tree below the root (R61): the slot is written, JOIN falls, and at 0 the parent is dispatched. -/
theorem handsUpChild (hphase : b.phase = .up) (hnode : b.node ≠ 0) (himp : l.implicit = false) (hpar : n.parent ≠ b.node) {fr : Nat × Nat}
    {x : Frame} {p : Node} {s1 s2 : State} (hfr : n.pframe = some fr) (hx : s.readFrame b.hander l fr = .ok x)
    (hw : s.engWrite b.hander (l.slotAddr fr x.cslot n.childix) (s.aspRead b b.resbuf b.rcd.rb) = .ok s1)
    (hfall : s1.writeFrame b.hander l fr (x.fallen (decide (x.join % 2 ^ 32 = 1 ∧ l.stop = none))) = .ok s2)
    (hp : l.nodes.look n.parent = some p) (hkind : p.rcd.kind ≠ kSkip) :
    (∀ key a, (s.handOff bi).physByte key a = s2.physByte key a) ∧
    (∃ (l' : Launch) (n' : Node), (s.handOff bi).launch b.launch = some l' ∧ l'.nodes.look b.node = some n' ∧ n'.state = .done ∧
      n'.copySlot = if l.idemp then n.copySlot else none) ∧
    (x.join % 2 ^ 32 ≠ 1 ∨ l.stop.isSome = true → (s.handOff bi).clusters = s.clusters) ∧
    (x.join % 2 ^ 32 = 1 → l.stop = none →
      ∃ (d : Dispatch) (l' : Launch) (p' : Node),
        ((s.handOff bi).cluster b.taker).waiting = (s.cluster b.taker).waiting ++ [d] ∧ d.launch = b.launch ∧
        d.nodes = [n.parent] ∧ d.phase = .up ∧ d.taker = b.taker ∧ d.pop = some fr ∧
        d.inboxes = [(some (l.slotAddr fr 0 0).toNat, p.rcd.nchild * p.rcd.cslot)] ∧
        (s.handOff bi).launch b.launch = some l' ∧ l'.nodes.look n.parent = some p' ∧ p'.state = .dispatched) := by
  have hfin := s.twin_finished bi b
  have hread := hfin.readFrame (a := b.hander) (a' := b.hander) rfl rfl hx
  obtain ⟨u1, hu1, htwin1, -, hlaunches1, hclusters1⟩ := hfin.engWrite (a := b.hander) (a' := b.hander) rfl rfl hw
  obtain ⟨u2, hu2, htwin2, -, hlaunches2, hclusters2⟩ := htwin1.writeFrame (a := b.hander) (a' := b.hander) rfl rfl hfall
  have hclusters : u2.clusters = s.clusters := hclusters2.trans hclusters1
  have hlaunch : u2.launch b.launch = some { l with nodes := l.nodes.upd b.node Node.finished } :=
    (congrArg (SMap.look · b.launch) (hlaunches2.trans hlaunches1)).trans (State.launch_finished hl bi)
  have hup := State.handUp_childExplicit (s := s.setBlock bi b.handedOff) (a := b.hander) hl hn hnode hfr himp hread hu1 b.depth
  have hdone : (l.nodes.upd b.node Node.finished).look b.node = some n.finished := by
    rw [SMap.look_upd_self, hn]
    rfl
  have hoff := State.handOff_up hb hh hphase
  by_cases hlast : x.join % 2 ^ 32 = 1 ∧ l.stop = none
  · obtain ⟨hone, hstop⟩ := hlast
    rw [decide_eq_true ⟨hone, hstop⟩] at hu2
    rw [State.joinFalls_last hone hstop hu2 hp, if_neg hkind] at hup
    rw [hup] at hoff
    have hsent := u2.launch_queueDispatch (d := childDispatch b n fr l p) rfl hlaunch
    have hwait := u2.waiting_queueDispatch (d := childDispatch b n fr l p) rfl
    obtain ⟨hfree, hkeep, nodes, hl', hother, hslot⟩ := State.freeCopy_spec (i := b.node) hsent
    have hnode' : ((l.nodes.upd b.node Node.finished).upd n.parent Node.sent).look b.node = some n.finished := by
      rw [SMap.look_upd_ne _ _ (Ne.symm hpar), hdone]
    have hparent : nodes.look n.parent = some p.sent := by
      refine (hother _ hpar).trans ?_
      show ((l.nodes.upd b.node Node.finished).upd n.parent Node.sent).look n.parent = _
      rw [SMap.look_upd_self, SMap.look_upd_ne _ _ hpar, hp]
      rfl
    rw [show s.handOff bi = (u2.queueDispatch (childDispatch b n fr l p)).freeCopy b.launch b.node from hoff]
    refine ⟨fun key a => (htwin2.trans ((u2.twin_queueDispatch rfl).trans hfree)).physByte key a,
      ⟨_, _, hl', hslot _ hnode' rfl, rfl, rfl⟩, fun h => absurd hone (h.resolve_right (by rw [hstop]; exact Bool.false_ne_true)),
      fun _ _ => ?_⟩
    refine ⟨{ childDispatch b n fr l p with order := u2.nextId }, _, _, ?_, rfl, rfl, rfl, rfl, rfl, rfl, hl', hparent, rfl⟩
    exact (congrArg Cluster.waiting (State.cluster_congr hkeep b.taker)).trans
      (hwait.trans (congrArg (fun c : Cluster => c.waiting ++ _) (State.cluster_congr hclusters b.taker)))
  · rw [decide_eq_false hlast] at hu2
    have hmore : x.join % 2 ^ 32 ≠ 1 ∨ l.stop.isSome = true := by
      rw [not_and_or] at hlast
      exact hlast.imp_right Option.isSome_iff_ne_none.mpr
    rw [State.joinFalls_more hmore hu2] at hup
    rw [hup] at hoff
    obtain ⟨hfree, hkeep, nodes, hl', -, hslot⟩ := State.freeCopy_spec (i := b.node) hlaunch
    rw [hoff]
    refine ⟨fun key a => (htwin2.trans hfree).physByte key a, ⟨_, _, hl', hslot _ hdone rfl, rfl, rfl⟩, fun _ => hkeep.trans hclusters,
      fun hone hstop => absurd ⟨hone, hstop⟩ hlast⟩

/-- A leaf of an implicit tree (R61, R71): its place in RESULT is written, JOIN falls, and at 0 the root is done and its frame popped. -/
theorem handsUpLeaf (hphase : b.phase = .up) (hnode : b.node ≠ 0) (himp : l.implicit = true) {fr : Nat × Nat} {x : Frame} {p : Node}
    {s1 s2 : State} (hfr : n.pframe = some fr)
    (hw : s.engWrite b.hander (l.result + BitVec.ofNat 64 ((b.node - 1) * l.lrb)) (s.aspRead b b.resbuf b.rcd.rb) = .ok s1)
    (hx : s1.readFrame b.hander l fr = .ok x)
    (hfall : s1.writeFrame b.hander l fr (x.fallen (decide (x.join % 2 ^ 32 = 1 ∧ l.stop = none))) = .ok s2)
    (hpar : n.parent = 0) (hp : l.nodes.look 0 = some p) (hkind : p.rcd.kind = kSkip) (hdepth : 1 ≤ b.depth) :
    (∀ key a, (s.handOff bi).physByte key a = s2.physByte key a) ∧
    (x.join % 2 ^ 32 = 1 → l.stop = none → ∃ l' : Launch, (s.handOff bi).launch b.launch = some l' ∧ l'.rootDone = true ∧
      l'.stackOf fr.1 = (l.stackOf fr.1).filter (fun h => h != fr.2)) := by
  have hfin := s.twin_finished bi b
  obtain ⟨u1, hu1, htwin1, -, hlaunches1, -⟩ := hfin.engWrite (a := b.hander) (a' := b.hander) rfl rfl hw
  have hread := htwin1.readFrame (a := b.hander) (a' := b.hander) rfl rfl hx
  obtain ⟨u2, hu2, htwin2, -, hlaunches2, -⟩ := htwin1.writeFrame (a := b.hander) (a' := b.hander) rfl rfl hfall
  have hlaunch : u2.launch b.launch = some { l with nodes := l.nodes.upd b.node Node.finished } :=
    (congrArg (SMap.look · b.launch) (hlaunches2.trans hlaunches1)).trans (State.launch_finished hl bi)
  have hup := State.handUp_childImplicit (s := s.setBlock bi b.handedOff) (a := b.hander) hl hn hnode hfr himp hu1 hread b.depth
  have hoff := State.handOff_up hb hh hphase
  by_cases hlast : x.join % 2 ^ 32 = 1 ∧ l.stop = none
  · obtain ⟨hone, hstop⟩ := hlast
    rw [decide_eq_true ⟨hone, hstop⟩] at hu2
    obtain ⟨k, hk⟩ : ∃ k, b.depth = k + 1 := ⟨b.depth - 1, (Nat.sub_add_cancel hdepth).symm⟩
    have hroot : (l.nodes.upd b.node Node.finished).look n.parent = some p := by
      rw [hpar, SMap.look_upd_ne _ _ (Ne.symm hnode), hp]
    have hdone := State.handUp_rootImplicit (s := u2) (a := { b.hander with node := n.parent }) (data := List.replicate p.rcd.rb 0)
      hlaunch hroot himp hpar k
    rw [State.joinFalls_last hone hstop hu2 (hpar ▸ hp), if_pos hkind, hk, hdone, eng_ok_bind] at hup
    rw [hk, hup] at hoff
    let up : List Byte := List.replicate p.rcd.rb 0
    let ended : Launch := { l with
      nodes := (l.nodes.upd b.node Node.finished).upd n.parent Node.finished, rootDone := true, upRoot := up }
    have hended : (((u2.updNode b.launch n.parent Node.finished).updLaunch b.launch
        (fun l => { l with rootDone := true, upRoot := up })).updLaunch b.launch (fun l => l.pop fr)).launch b.launch = some (ended.pop fr) := by
      rw [State.launch_updLaunch_self, State.launch_updLaunch_self, State.updNode, State.launch_updLaunch_self, hlaunch]
      rfl
    obtain ⟨hfree, -, nodes, hl', -⟩ := State.freeCopy_spec (i := b.node) hended
    have hpopped := ((u2.twin_updNode b.launch n.parent Node.finished).trans
      (State.twin_updLaunch _ b.launch (fun l => { l with rootDone := true, upRoot := up }))).trans
      (State.twin_updLaunch _ b.launch (fun l => l.pop fr))
    rw [hoff]
    refine ⟨fun key a => (htwin2.trans (hpopped.trans hfree)).physByte key a, fun _ _ => ⟨_, hl', rfl, ?_⟩⟩
    show (l.heights.put fr.1 ((l.heights.get fr.1 []).filter (· != fr.2))).get fr.1 [] = _
    rw [SMap.get_put, if_pos rfl]
    rfl
  · rw [decide_eq_false hlast] at hu2
    have hmore : x.join % 2 ^ 32 ≠ 1 ∨ l.stop.isSome = true := by
      rw [not_and_or] at hlast
      exact hlast.imp_right Option.isSome_iff_ne_none.mpr
    rw [State.joinFalls_more hmore hu2] at hup
    rw [hup] at hoff
    obtain ⟨hfree, -⟩ := State.freeCopy_spec (i := b.node) hlaunch
    rw [hoff]
    exact ⟨fun key a => (htwin2.trans hfree).physByte key a, fun hone hstop => absurd ⟨hone, hstop⟩ hlast⟩

omit hl hn in
theorem State.handOff_down (hphase : b.phase = .down) (hchild : b.rcd.nchild ≠ 0) {u : State} {l' : Launch} {n' : Node}
    (hu : (((s.setBlock bi b.handedOff).updNode b.launch b.node Node.finished).freeCopy b.launch b.node) = u)
    (hl' : u.launch b.launch = some l') (hstop : l'.stop = none) (hn' : l'.nodes.look b.node = some n') : s.handOff bi =
      (served b.launch ((u.updCluster b.taker (fun c => { c with downWait := none })).push b.hander n'
        (u.aspRead b b.outbox (b.rcd.nchild * b.rcd.cslot)))).updNode b.launch b.node Node.finished := by
  have hgo : ¬ (decide (b.rcd.nchild = 0) || l'.stop.isSome) = true := by
    rw [hstop, decide_eq_false hchild]
    decide
  unfold State.handOff
  rw [hb]
  refine (if_neg (by rw [hh]; exact Bool.false_ne_true)).trans ?_
  split
  next h => exact absurd (hphase.symm.trans h) nofun
  next =>
    unfold Block.handedOff Node.finished at hu
    dsimp only
    rw [hu]
    simp only [hl']
    refine (if_neg hgo).trans ?_
    simp only [hn']
    rfl

/-- A node in the down phase (R66): its OUTBOX becomes the slots of a new frame. -/
theorem pushesDown (hphase : b.phase = .down) (hchild : b.rcd.nchild ≠ 0) (hstop : l.stop = none)
    (hsize : 64 * n.rcd.frameUnits ≤ l.f) (hdepth : l.newHeight b.taker < l.d) {s1 : State}
    (hw : s.engWrite b.hander (l.frameAddr (b.taker, l.newHeight b.taker))
      ((l.newFrame b.node n.rcd).bytes ++ s.aspRead b b.outbox (b.rcd.nchild * b.rcd.cslot)) = .ok s1) :
    (∀ key a, (s.handOff bi).physByte key a = s1.physByte key a) ∧ ((s.handOff bi).cluster b.taker).downWait = none ∧
    ∃ (l' : Launch) (n' : Node), (s.handOff bi).launch b.launch = some l' ∧
      l'.stackOf b.taker = l.stackOf b.taker ++ [l.newHeight b.taker] ∧ l'.nodes.look b.node = some n' ∧
      n'.frame = some (b.taker, l.newHeight b.taker) ∧ n'.state = .done := by
  have hdone : (l.nodes.upd b.node Node.finished).look b.node = some n.finished := by
    rw [SMap.look_upd_self, hn]
    rfl
  obtain ⟨hfree, hclusters, nodes, hl', -, hslot⟩ := State.freeCopy_spec (i := b.node) (State.launch_finished hl bi)
  have hn' : nodes.look b.node = some (n.over l.idemp) := hslot _ hdone rfl
  have hoff := State.handOff_down hb hh hphase hchild rfl hl' hstop hn'
  generalize ((s.setBlock bi b.handedOff).updNode b.launch b.node Node.finished).freeCopy b.launch b.node = u at hoff hfree hl'
  have htwin : s.Twin u := (s.twin_finished bi b).trans hfree
  have hwait : u.Twin (u.updCluster b.taker (fun c => { c with downWait := none })) := State.twin_updCluster _ _ (fun _ => rfl)
  obtain ⟨u1, hu1, htwin1, -, hlaunches1, hclusters1⟩ := (htwin.trans hwait).engWrite (a := b.hander) (a' := b.hander) rfl rfl hw
  have hpush := State.push_ok (s := u.updCluster b.taker (fun c => { c with downWait := none })) (a := b.hander)
    (l := { l with nodes := nodes }) (n := n.over l.idemp)
    (slots := u.aspRead b b.outbox (b.rcd.nchild * b.rcd.cslot)) hl' (by rw [Nat.mul_comm]; exact hsize) hdepth
    (by rw [htwin.aspRead]; exact hu1)
  rw [hoff, hpush]
  let after : Launch := Launch.pushedAt { l with nodes := nodes } b.hander (l.newHeight b.taker)
  have hlaunch : ((u1.updLaunch b.launch (fun m => m.pushedAt b.hander (l.newHeight b.taker))).updNode b.launch b.node
      Node.finished).launch b.launch = some { after with nodes := after.nodes.upd b.node Node.finished } := by
    rw [State.updNode, State.launch_updLaunch_self, State.launch_updLaunch_self,
      show u1.launch b.launch = some { l with nodes := nodes } from (congrArg (SMap.look · b.launch) hlaunches1).trans hl']
    rfl
  have hnode : (after.nodes.upd b.node Node.finished).look b.node = some { n.over l.idemp with
      frame := some (b.taker, l.newHeight b.taker) } := by
    show ((nodes.upd b.node _).upd b.node Node.finished).look b.node = _
    rw [SMap.look_upd_self, SMap.look_upd_self, hn']
    rfl
  refine ⟨fun key a => (htwin1.trans ((u1.twin_updLaunch ..).trans (State.twin_updNode ..))).physByte key a, ?_, _, _, hlaunch, ?_, hnode,
    rfl, rfl⟩
  · show (u1.cluster b.taker).downWait = none
    rw [State.cluster_congr hclusters1, State.cluster_updCluster, if_pos rfl]
  · show (l.heights.put b.taker (l.stackOf b.taker ++ [l.newHeight b.taker])).get b.taker [] = _
    rw [SMap.get_put, if_pos rfl]

end

/-- Settles O52: the takes of leaves and of node 0, and the hand-offs by the place of their node. -/
theorem treeTakes : Obligations.TreeTakes := by
  unfold Obligations.TreeTakes
  refine ⟨⟨fun s cl lid victim l par x fr s1 hl hfree htaken himp hpar hx hnext =>
      takesOfLeaves s cl lid victim l par x fr s1 hl hfree htaken himp hpar hx hnext,
    fun s cl lid l hl htaken => ⟨fun hcl => ⟨congrArg Host.Outcome.next (State.ownTake_other hl htaken hcl .up),
      congrArg Host.Outcome.next (State.ownTake_other hl htaken hcl .down)⟩, fun s1 hcl hfree hphase himp hleaf hf hd hstack hdone hpops hw => ?_⟩,
    stealOrder_facts⟩, fun s bi b l n hb hh hl hn => ⟨?_, ?_, ?_, ?_, ?_⟩⟩
  · exact takesRoot s lid l s1 hl htaken hfree hphase himp hleaf hf hd hstack hdone hpops hw
  · have hblocks := congrArg (SMap.look · bi) (State.handOff_first hb hh).blocks
    exact hblocks.trans (SMap.look_put_self ..)
  · intro hphase hroot himp s1 hw
    exact handsUpRoot hb hh hl hn hphase hroot himp hw
  · intro hphase hnode himp hpar fr x p s1 s2 hfr hx hw hfall hp hkind
    beta_reduce at hfall
    rw [Frame.falls_eq] at hfall
    exact handsUpChild hb hh hl hn hphase hnode himp hpar hfr hx hw hfall hp hkind
  · intro hphase hnode himp fr x p s1 s2 hfr hw hx hfall hpar hp hkind hdepth
    beta_reduce at hfall
    rw [Frame.falls_eq] at hfall
    exact handsUpLeaf hb hh hl hn hphase hnode himp hfr hw hx hfall hpar hp hkind hdepth
  · intro hphase hdown hchild hstop h r size header hsize hdepth s1 hw
    have hheight : h = l.newHeight b.taker := (l.newHeight_eq b.taker).symm
    have hheader : header = l.newFrame b.node r := by
      rw [Launch.newFrame, hdown]
      rfl
    rw [hheight, hheader] at hw
    rw [hheight] at hdepth ⊢
    exact pushesDown hb hh hl hn hphase hchild hstop hsize hdepth hw

end Sys2Proof.Machine

/-! PROOFS. Misaligned and out-of-bound lanes (O31): the check of a lane-wise access, and where each of them makes it. -/

namespace Sys2Proof.Machine

/-! ### A check over the active lanes (R84, R256) -/

theorem Env.has_lanesThat (e : Env) (p : Nat → Bool) {l : Nat} (hl : l < 32) : (e.lanesThat p).has l = (e.act.has l && p l) := by
  rw [Env.lanesThat, Mask.has_and, has_maskOf _ hl, ← Bool.and_assoc, Bool.and_self]

theorem Env.lanesThat_ne_zero {e : Env} {p : Nat → Bool} (h : ∃ l < 32, e.act.has l = true ∧ p l = true) : e.lanesThat p ≠ 0 := by
  obtain ⟨l, hl, ha, hp⟩ := h
  exact mask_ne_zero_iff.2 ⟨l, hl, by rw [e.has_lanesThat p hl, ha, hp]; rfl⟩

/-- A precise trap with a code, over the active lanes that satisfy a test. -/
def Env.TrapsOver (e : Env) (r : Eff) (code : Nat) (bad : Nat → Bool) : Prop :=
  ∃ info, r = .trap info ∧ info.code = code ∧ ∀ l < 32, info.mask.has l = (e.act.has l && bad l)

/-- A check that some active lane fails raises its trap over those lanes. -/
theorem Env.checkLanes_fail {e : Env} {code : Nat} {addr : Nat → W64} {bad : Nat → Bool} {k : Eff}
    (h : ∃ l < 32, e.act.has l = true ∧ bad l = true) : e.TrapsOver (e.checkLanes code addr bad k) code bad := by
  rw [Env.checkLanes, if_pos (by simpa using Env.lanesThat_ne_zero h)]
  exact ⟨_, rfl, rfl, fun l hl => e.has_lanesThat bad hl⟩

/-! ### Where the accesses make it -/

/-- The operation of an atomic, by major opcode (R254). -/
def atomOp : Nat → AtomOp
  | 0xA0 => .add
  | 0xA1 => .fadd
  | 0xA2 => .min
  | 0xA3 => .max
  | 0xA4 => .and
  | 0xA5 => .or
  | 0xA6 => .xor
  | 0xA7 => .xchg
  | _ => .cas

theorem bodyOf_atom {e : Env} (hc : e.cell ∈ [Cells.atomAdd, Cells.atomFadd, Cells.atomMin, Cells.atomMax, Cells.atomAnd, Cells.atomOr,
    Cells.atomXor, Cells.atomXchg, Cells.atomCas]) : bodyOf e.cell.opc e = e.atom (atomOp e.cell.opc) := by
  simp only [List.mem_cons, List.not_mem_nil, or_false] at hc
  rcases hc with h | h | h | h | h | h | h | h | h <;> rw [h] <;> rfl

theorem bodyOf_red {e : Env} (hc : e.cell ∈ [Cells.redAdd, Cells.redFadd, Cells.redMin, Cells.redMax, Cells.redAnd, Cells.redOr,
    Cells.redXor]) : bodyOf e.cell.opc e = e.red (redOp e.cell.opc) := by
  simp only [List.mem_cons, List.not_mem_nil, or_false] at hc
  rcases hc with h | h | h | h | h | h | h <;> rw [h] <;> rfl

/-- The effect is that of a check of alignment over the lanes' addresses, made before all else. -/
def Env.ChecksAlign (e : Env) (r : Eff) (addr : Nat → W64) : Prop :=
  ∃ k, r = e.checkLanes cAlign addr (fun l => (addr l).toNat % e.ty.bytes != 0) k

theorem ldBody_checksAlign {e : Env} (ho : e.ordBad = false) (ht : e.loadTakes) : e.ChecksAlign (ldBody e) e.devAddr := by
  simp only [ldBody, ho, Env.shapeG_of_loadTakes ht, Bool.false_eq_true, if_false]
  exact ⟨_, rfl⟩

theorem stBody_checksAlign {e : Env} (ho : e.ordBad = false) : e.ChecksAlign (stBody e) e.devAddr := by
  simp only [stBody, ho, Bool.false_eq_true, if_false]
  exact ⟨_, rfl⟩

theorem Env.atom_checksAlign {e : Env} (hb : e.buffered = false) (ht : e.loadTakes) (op : AtomOp) :
    e.ChecksAlign (e.atom op) e.devAddr := by
  simp only [Env.atom, hb, Env.shapeG_of_loadTakes ht, Bool.false_eq_true, if_false]
  exact ⟨_, rfl⟩

theorem Env.red_checksAlign {e : Env} (hb : e.buffered = false) (op : AtomOp) : e.ChecksAlign (e.red op) e.devAddr := by
  simp only [Env.red, hb, Bool.false_eq_true, if_false]
  exact ⟨_, rfl⟩

/-- After the alignment of the buffer offsets, `out` says which lanes raise DESC. -/
def Env.ChecksBounds (e : Env) (r : Eff) (out : Nat → Bool) : Prop :=
  ∃ k, r = e.checkLanes cAlign e.bufAddr (fun l => (e.va.at l).toNat % e.ty.bytes != 0) k ∧
    ((∃ l < 32, e.act.has l = true ∧ out l = true) → e.TrapsOver k cDesc out)

theorem Env.loadBuf_checksBounds {e : Env} (ht : e.loadTakes) (bound : Nat) (read : Nat → Nat → List Byte) :
    e.ChecksBounds (e.loadBuf bound read) (fun l => decide (bound < (e.va.at l).toNat + e.ty.bytes)) := by
  simp only [Env.loadBuf, Env.shapeG_of_loadTakes ht, Bool.false_eq_true, if_false]
  exact ⟨_, rfl, Env.checkLanes_fail⟩

theorem stsBody_checksBounds (e : Env) :
    e.ChecksBounds (stsBody e) (fun l => decide (e.blk.aspBound < (e.va.at l).toNat + e.ty.bytes)) :=
  ⟨_, rfl, Env.checkLanes_fail⟩

theorem Env.peerLanes_checksBounds (e : Env) (k : Eff) :
    e.ChecksBounds (e.peerLanes k) (fun l => e.peerBad (e.va.at l) e.ty.bytes) := by
  refine ⟨_, rfl, fun h => ?_⟩
  rw [if_pos (by simpa using Env.lanesThat_ne_zero h)]
  exact ⟨_, rfl, rfl, fun l hl => e.has_lanesThat _ hl⟩

theorem ldsPeerBody_checksBounds {e : Env} (hm : e.blk.member.isSome = true) (ht : e.loadTakes) :
    e.ChecksBounds (ldsPeerBody e) (fun l => e.peerBad (e.va.at l) e.ty.bytes) := by
  simp only [ldsPeerBody, Option.isNone_eq_false_iff.2 hm, Env.shapeG_of_loadTakes ht, Bool.false_eq_true, if_false]
  exact e.peerLanes_checksBounds _

theorem stsPeerBody_checksBounds {e : Env} (hb : e.buffered = false) (hm : e.blk.member.isSome = true) :
    e.ChecksBounds (stsPeerBody e) (fun l => e.peerBad (e.va.at l) e.ty.bytes) := by
  simp only [stsPeerBody, hb, Option.isNone_eq_false_iff.2 hm, Bool.or_self, Bool.false_eq_true, if_false]
  exact e.peerLanes_checksBounds _

theorem exec_trapsOver {s : State} {i : Instr} {e : Env} (h : s.Passes i e) {code : Nat} {bad : Nat → Bool}
    (hb : e.TrapsOver (bodyOf e.cell.opc e) code bad) :
    ∃ info, exec i s = .next (e.traps info) ∧ info.code = code ∧ ∀ l < 32, info.mask.has l = (e.act.has l && bad l) := by
  obtain ⟨info, hbody, hcode, hmask⟩ := hb
  refine ⟨info, ?_, hcode, hmask⟩
  rw [exec_passes h, hbody, finish_trap]

/-- The cells of the accesses to scratchpads and weight buffers, and of those to device memory. -/
def nearCells : List Cell := [Cells.lds, Cells.sts, Cells.ldw, Cells.ldsPeer, Cells.stsPeer]
def farCells : List Cell := [Cells.ld, Cells.st, Cells.atomAdd, Cells.atomFadd, Cells.atomMin, Cells.atomMax, Cells.atomAnd, Cells.atomOr,
  Cells.atomXor, Cells.atomXchg, Cells.atomCas, Cells.redAdd, Cells.redFadd, Cells.redMin, Cells.redMax, Cells.redAnd, Cells.redOr, Cells.redXor]

theorem farAccess_checksAlign {e : Env} (hc : e.cell ∈ farCells)
    (ho : (e.cell ∈ [Cells.ld, Cells.st] ∧ e.w.ord = 0) ∨ e.buffered = false) (ht : e.cell = Cells.st ∨ e.loadTakes) :
    e.ChecksAlign (bodyOf e.cell.opc e) e.devAddr := by
  have hord : e.ordBad = false := Env.ordBad_false (fun hb => ho.elim And.right (fun h => absurd (h ▸ hb) nofun))
  rcases List.mem_cons.1 hc with h | hc
  · rw [h]
    exact ldBody_checksAlign hord (ht.resolve_left (by rw [h]; decide))
  rcases List.mem_cons.1 hc with h | hc
  · rw [h]
    exact stBody_checksAlign hord
  have hst : e.cell ∉ [Cells.ld, Cells.st] := (show ∀ c ∈ farCells.drop 2, c ∉ [Cells.ld, Cells.st] by decide) _ hc
  have hb : e.buffered = false := ho.resolve_left (fun h => hst h.1)
  have ht : e.loadTakes := ht.resolve_left (fun h => hst (by rw [h]; decide))
  rcases List.mem_append.1 (show e.cell ∈ [Cells.atomAdd, Cells.atomFadd, Cells.atomMin, Cells.atomMax, Cells.atomAnd, Cells.atomOr,
    Cells.atomXor, Cells.atomXchg, Cells.atomCas] ++ [Cells.redAdd, Cells.redFadd, Cells.redMin, Cells.redMax, Cells.redAnd, Cells.redOr,
    Cells.redXor] from hc) with hc | hc
  · rw [bodyOf_atom hc]
    exact Env.atom_checksAlign hb ht _
  · rw [bodyOf_red hc]
    exact Env.red_checksAlign hb _

/-- The lanes of an access to a scratchpad or weight buffer that reach beyond its bound. -/
def Env.outOfBound (e : Env) (l : Nat) : Bool :=
  if e.cell = Cells.lds ∨ e.cell = Cells.sts then decide (e.blk.aspBound < (e.va.at l).toNat + e.ty.bytes)
  else if e.cell = Cells.ldw then decide (e.blk.wbfBound < (e.va.at l).toNat + e.ty.bytes)
  else e.peerBad (e.va.at l) e.ty.bytes

theorem nearAccess_checksBounds {e : Env} (hc : e.cell ∈ nearCells)
    (hb : e.cell = Cells.stsPeer → e.buffered = false) (hm : e.cell ∈ [Cells.ldsPeer, Cells.stsPeer] → e.blk.member.isSome = true)
    (ht : e.cell ∈ [Cells.sts, Cells.stsPeer] ∨ e.loadTakes) : e.ChecksBounds (bodyOf e.cell.opc e) e.outOfBound := by
  unfold Env.outOfBound
  simp only [nearCells, List.mem_cons, List.not_mem_nil, or_false] at hc hm ht
  rcases hc with h | h | h | h | h <;> rw [h] at hb hm ht ⊢
  · exact Env.loadBuf_checksBounds (ht.resolve_left (by decide)) _ _
  · exact stsBody_checksBounds e
  · exact Env.loadBuf_checksBounds (ht.resolve_left (by decide)) _ _
  · exact ldsPeerBody_checksBounds (hm (.inl rfl)) (ht.resolve_left (by decide))
  · exact stsPeerBody_checksBounds (hb rfl) (hm (.inr rfl))

/-- Settles O31: every access makes the check of alignment before all else (`nearAccess_checksBounds`, `farAccess_checksAlign`), and one to
a scratchpad or weight buffer then that of its bound. -/
theorem misalignedAccesses : Obligations.MisalignedAccesses := by
  unfold Obligations.MisalignedAccesses
  intro s i e h hc hb hm ht near addr out
  by_cases hn : e.cell ∈ nearCells
  · have haddr : addr = fun l => (e.va.at l).toNat := funext fun l => if_pos hn
    have hout : out = e.outOfBound := by
      funext l
      simp only [out, haddr]
      rfl
    have hstp : e.cell = Cells.stsPeer → e.buffered = false := fun h => by
      rw [h] at hb
      exact (hb.resolve_left (by decide)).resolve_left (fun h => absurd h.1 (by decide))
    have hst : e.cell ∈ [Cells.sts, Cells.stsPeer] ∨ e.loadTakes :=
      ht.imp_left fun h => (List.mem_cons.1 h).resolve_left (fun h => absurd hn (by rw [h]; decide))
    obtain ⟨k, hbody, hk⟩ := nearAccess_checksBounds hn hstp hm hst
    refine ⟨fun hl => ?_, fun _ hal hl => ?_⟩
    · rw [haddr] at hl ⊢
      refine exec_trapsOver h ?_
      rw [hbody]
      exact Env.checkLanes_fail (by simpa using hl)
    · rw [hout] at hl ⊢
      refine exec_trapsOver h ?_
      rw [hbody, Env.checkLanes_pass (fun l hl ha => by simpa [haddr] using hal l hl ha)]
      exact hk hl
  · have haddr : addr = fun l => (e.devAddr l).toNat := funext fun l => if_neg hn
    have hfar : e.cell ∈ farCells := ((show ∀ c ∈ _, c ∈ nearCells ∨ c ∈ farCells by decide) _ hc).resolve_left hn
    have hst : e.cell = Cells.st ∨ e.loadTakes :=
      ht.imp_left fun h => (List.mem_cons.1 h).resolve_right (fun h => hn ((show ∀ c ∈ [Cells.sts, Cells.stsPeer], c ∈ nearCells by decide) _ h))
    obtain ⟨k, hbody⟩ := farAccess_checksAlign hfar 
      (hb.resolve_left fun h => hn ((show ∀ c ∈ nearCells.take 4, c ∈ nearCells by decide) _ h)) hst
    refine ⟨fun hl => ?_, fun h => absurd h hn⟩
    rw [haddr] at hl ⊢
    refine exec_trapsOver h ?_
    rw [hbody]
    exact Env.checkLanes_fail (by simpa using hl)

end Sys2Proof.Machine

/-! PROOFS. Loads and stores of scratchpads and weight buffers (O29): the rules of their bytes, the end of a load, and accesses to the
block's own allocation and to a gang member's. -/

namespace Sys2Proof.Machine

/-! ### The bytes of scratchpads (R83, R133) -/

theorem State.core_aspWrite (s : State) (b : Block) (off : Nat) (bs : List Byte) (c : Nat) : (s.aspWrite b off bs).core c =
    if c = b.core then { s.core b.core with asp := bufWrite (s.core b.core).asp (b.aspBase + off) bs } else s.core c :=
  State.core_updCore ..

/-- Of a core a write to a scratchpad changes the scratchpad's bytes only. -/
theorem State.core_aspWrite_frame (s : State) (b : Block) (off : Nat) (bs : List Byte) (c : Nat) :
    { (s.aspWrite b off bs).core c with asp := (s.core c).asp } = s.core c := by
  rw [State.core_aspWrite]
  split
  · next h => rw [h]
  · rfl

theorem State.bufAt_aspWrite (s : State) (b : Block) (off : Nat) (bs : List Byte) (c a : Nat) :
    bufAt ((s.aspWrite b off bs).core c).asp a =
      if c = b.core ∧ b.aspBase + off ≤ a ∧ a < b.aspBase + off + bs.length then bs.getD (a - (b.aspBase + off)) 0
      else bufAt (s.core c).asp a := by
  rw [State.core_aspWrite]
  by_cases hc : c = b.core
  · rw [if_pos hc, bufAt_bufWrite, hc]
    exact if_congr (by simp) rfl rfl
  · rw [if_neg hc, if_neg (fun h => hc h.1)]

/-- Bytes written to some blocks' scratchpads, one block after another. -/
def State.aspWrites {α : Type} (s : State) (b : α → Block) (off : α → Nat) (bs : α → List Byte) (ls : List α) : State :=
  ls.foldl (fun s l => s.aspWrite (b l) (off l) (bs l)) s

section
variable {α : Type} (s : State) (b : α → Block) (off : α → Nat) (bs : α → List Byte) {ls : List α}

theorem State.aspWrites_frame : { s.aspWrites b off bs ls with cores := s.cores } = s := by
  induction ls generalizing s with
  | nil => rfl
  | cons l ls ih => exact congrArg (fun t : State => { t with cores := s.cores }) (ih (s.aspWrite (b l) (off l) (bs l)))

theorem State.core_aspWrites_frame (c : Nat) : { (s.aspWrites b off bs ls).core c with asp := (s.core c).asp } = s.core c := by
  induction ls generalizing s with
  | nil => rfl
  | cons l ls ih =>
    have h := congrArg (fun x : Core => { x with asp := (s.core c).asp }) (ih (s.aspWrite (b l) (off l) (bs l)))
    exact h.trans (s.core_aspWrite_frame ..)

theorem State.bufAt_aspWrites_miss {c a : Nat}
    (h : ∀ l ∈ ls, ¬ (c = (b l).core ∧ (b l).aspBase + off l ≤ a ∧ a < (b l).aspBase + off l + (bs l).length)) :
    bufAt ((s.aspWrites b off bs ls).core c).asp a = bufAt (s.core c).asp a :=
  foldl_untouched (read := fun s : State => bufAt (s.core c).asp a) s
    (fun s l hl => (s.bufAt_aspWrite (b l) (off l) (bs l) c a).trans (if_neg (h l hl)))

/-- Of the writes of a byte, in an order `R`, the last leaves it. -/
theorem State.bufAt_aspWrites_last {R : α → α → Prop} (hsort : ls.Pairwise R) {l : α} (hl : l ∈ ls) {j : Nat} (hj : j < (bs l).length)
    (hlast : ∀ k ∈ ls, R l k → ¬ ((b l).core = (b k).core ∧ (b k).aspBase + off k ≤ (b l).aspBase + off l + j ∧
      (b l).aspBase + off l + j < (b k).aspBase + off k + (bs k).length)) :
    bufAt ((s.aspWrites b off bs ls).core (b l).core).asp ((b l).aspBase + off l + j) = (bs l).getD j 0 := by
  refine foldl_last (read := fun s : State => bufAt (s.core (b l).core).asp ((b l).aspBase + off l + j)) hsort hl (fun s => ?_)
    (fun s k hk hlt => (s.bufAt_aspWrite (b k) (off k) (bs k) _ _).trans (if_neg (hlast k hk hlt))) s
  rw [s.bufAt_aspWrite, if_pos (by omega), Nat.add_sub_cancel_left]

end

/-! ### The end of a load (R255) -/

/-- A load whose lanes have read `bs`: its run of registers holds the words that those bytes make. -/
theorem exec_loads {s : State} {i : Instr} {e : Env} (h : s.Passes i e) (ht : e.loadTakes) {bs : Nat → List Byte}
    {byte : Nat → Nat → Byte} (hbody : bodyOf e.cell.opc e = .ok (e.put (e.setRun e.co e.w.d.toNat (regsOf e.ty.bytes)
      (fun i l => loadReg e.ty ((lanes32.map (fun l => if e.act.has l then bs l else [])).getD l []) i))))
    (hbs : ∀ l < 32, e.act.has l = true → bs l = (List.range e.ty.bytes).map (byte l)) :
    ∃ t co, exec i s = .next t ∧ e.RegisterFrame t co e.loadRegs [] ∧ co.fpctl = e.co.fpctl ∧
      ∀ l < 32, e.act.has l = true → e.w.d.toNat ≠ zv → ∀ k < regsOf e.ty.bytes,
        (co.v (e.w.d.toNat + k)).at l = loadWord e.ty (byte l) k := by
  have hn := regsOf_bytes_le e.ty
  have hd : e.w.d.toNat ≠ zv → e.w.d.toNat + regsOf e.ty.bytes ≤ zv := fun h => by
    have := ht.resolve_left h
    unfold zv
    omega
  have hexec := exec_passes h
  rw [hbody, finish_ok] at hexec
  refine ⟨_, _, hexec, e.registerFrame_setRun (group_and_live h.env) (Decidable.or_iff_not_imp_left.2 hd) _, ?_,
    fun l hl ha hz k hk => ?_⟩
  · rw [e.setRun_frame]; rfl
  · rw [e.at_wentOn_setRun _ (hd hz) _ hk hl ha, ← loadReg_eq_loadWord _ _ hk, ← hbs l hl ha]
    simp [lanes32, hl, ha]

/-! ### The checks of a peer access (R95, R97) -/

theorem Env.lanesThat_eq_zero {e : Env} {p : Nat → Bool} (h : ∀ l < 32, e.act.has l = true → p l = false) : e.lanesThat p = 0 := by
  by_contra hne
  obtain ⟨l, hl, hm⟩ := mask_ne_zero_iff.1 hne
  rw [e.has_lanesThat p hl, Bool.and_eq_true] at hm
  exact absurd (h l hl hm.1) (by rw [hm.2]; decide)

/-- Every active lane's peer address is within its member's allocation, which block `b l` holds. -/
def Env.Reaches (e : Env) (b : Nat → Block) : Prop :=
  e.blk.member.isSome = true ∧ ∀ l < 32, e.act.has l = true →
    e.peerBad (e.va.at l) e.ty.bytes = false ∧ ∃ k, e.peerBlock (e.va.at l) = some (k, b l)

theorem Env.peerLanes_pass {e : Env} {b : Nat → Block} (hal : e.Aligned (fun l => (e.va.at l).toNat)) (hp : e.Reaches b) (k : Eff) :
    e.peerLanes k = k := by
  have hfar : e.lanesThat (fun l => e.peerBad (e.va.at l) e.ty.bytes) = 0 := Env.lanesThat_eq_zero fun l hl ha => (hp.2 l hl ha).1
  have hgone : e.lanesThat (fun l => (e.peerBlock (e.va.at l)).isNone) = 0 := Env.lanesThat_eq_zero fun l hl ha => by
    obtain ⟨-, k, hk⟩ := hp.2 l hl ha
    rw [hk]
    rfl
  simp only [Env.peerLanes]
  rw [Env.checkLanes_pass (fun l hl ha => by simpa using hal l hl ha), hfar, hgone]
  rfl

/-! ### Loads (R261, R262) -/

/-- The bytes a lane of a load from a scratchpad or weight buffer reads; `b` is the block of its peer address. -/
def Env.nearByte (e : Env) (b : Nat → Block) (l j : Nat) : Byte :=
  if e.cell = Cells.lds then bufAt (e.s.core e.blk.core).asp (e.blk.aspBase + (e.va.at l).toNat + j)
  else if e.cell = Cells.ldw then bufAt (e.s.core e.blk.core).wbf (e.blk.wbfBase + (e.va.at l).toNat + j)
  else bufAt (e.s.core (b l).core).asp ((b l).aspBase + (e.va.at l).toNat % 2 ^ 22 + j)

/-- The bytes that a lane of LDS.PEER has from its member (R97). -/
def Env.peerRead (e : Env) (l : Nat) : List Byte :=
  match e.peerBlock (e.va.at l) with
  | some (_, b) => e.s.aspRead b (peerOffset (e.va.at l)) e.ty.bytes
  | none => []

theorem Env.loadBuf_ok {e : Env} {bound : Nat} {read : Nat → Nat → List Byte} (ht : e.loadTakes)
    (hal : e.Aligned (fun l => (e.va.at l).toNat)) (hb : ∀ l < 32, e.act.has l = true → (e.va.at l).toNat + e.ty.bytes ≤ bound) :
    e.loadBuf bound read = .ok (e.put (e.setRun e.co e.w.d.toNat (regsOf e.ty.bytes) (fun i l =>
      loadReg e.ty ((lanes32.map (fun l => if e.act.has l then read (e.va.at l).toNat e.ty.bytes else [])).getD l []) i))) := by
  simp only [Env.loadBuf, Env.shapeG_of_loadTakes ht, Bool.false_eq_true, if_false]
  rw [Env.checkLanes_pass (fun l hl ha => by simpa using hal l hl ha),
    Env.checkLanes_pass (fun l hl ha => by simpa using hb l hl ha)]

theorem ldsPeerBody_ok {e : Env} {b : Nat → Block} (ht : e.loadTakes) (hal : e.Aligned (fun l => (e.va.at l).toNat)) (hp : e.Reaches b) :
    ldsPeerBody e = .ok (e.put (e.setRun e.co e.w.d.toNat (regsOf e.ty.bytes) (fun i l =>
      loadReg e.ty ((lanes32.map (fun l => if e.act.has l then e.peerRead l else [])).getD l []) i))) := by
  simp only [ldsPeerBody, Option.isNone_eq_false_iff.2 hp.1, Env.shapeG_of_loadTakes ht, Bool.false_eq_true, if_false]
  exact Env.peerLanes_pass hal hp _

/-- A load from a scratchpad or weight buffer, its checks passed. -/
theorem nearLoad_reads {s : State} {i : Instr} {e : Env} {b : Nat → Block} (h : s.Passes i e)
    (hc : e.cell ∈ [Cells.lds, Cells.ldw, Cells.ldsPeer]) (ht : e.loadTakes) (hal : e.Aligned (fun l => (e.va.at l).toNat))
    (hlds : e.cell = Cells.lds → ∀ l < 32, e.act.has l = true → (e.va.at l).toNat + e.ty.bytes ≤ e.blk.aspBound)
    (hldw : e.cell = Cells.ldw → ∀ l < 32, e.act.has l = true → (e.va.at l).toNat + e.ty.bytes ≤ e.blk.wbfBound)
    (hpeer : e.cell = Cells.ldsPeer → e.Reaches b) :
    ∃ t co, exec i s = .next t ∧ e.RegisterFrame t co e.loadRegs [] ∧ co.fpctl = e.co.fpctl ∧
      ∀ l < 32, e.act.has l = true → e.w.d.toNat ≠ zv → ∀ k < regsOf e.ty.bytes,
        (co.v (e.w.d.toNat + k)).at l = loadWord e.ty (e.nearByte b l) k := by
  simp only [List.mem_cons, List.not_mem_nil, or_false] at hc
  rcases hc with hc | hc | hc
  · refine exec_loads h ht (bs := fun l => e.s.aspRead e.blk (e.va.at l).toNat e.ty.bytes)
      (by rw [hc]; exact Env.loadBuf_ok ht hal (hlds hc)) (fun l hl ha => List.map_congr_left fun j _ => ?_)
    rw [Env.nearByte, if_pos hc]
  · refine exec_loads h ht (bs := fun l => e.s.wbfRead e.blk (e.va.at l).toNat e.ty.bytes)
      (by rw [hc]; exact Env.loadBuf_ok ht hal (hldw hc)) (fun l hl ha => List.map_congr_left fun j _ => ?_)
    rw [Env.nearByte, if_neg (by rw [hc]; decide), if_pos hc]
  · refine exec_loads h ht (bs := e.peerRead) (by rw [hc]; exact ldsPeerBody_ok ht hal (hpeer hc)) (fun l hl ha => ?_)
    obtain ⟨-, k, hk⟩ := (hpeer hc).2 l hl ha
    rw [Env.peerRead, hk]
    refine List.map_congr_left fun j _ => ?_
    rw [Env.nearByte, if_neg (by rw [hc]; decide), if_neg (by rw [hc]; decide)]
    rfl

/-! ### Stores (R261) -/

/-- Writes to scratchpads by an issue that completes: nothing else of the part changes. -/
theorem exec_storesNear {s : State} {i : Instr} {e : Env} (h : s.Passes i e) {b : Nat → Block} {off : Nat → Nat}
    (hbody : bodyOf e.cell.opc e = .ok (e.s.aspWrites b off e.storeData e.lanes)) :
    ∃ t co, exec i s = .next t ∧ t.cohort e.slot = some co ∧ e.MovedOn co ∧
       co = { e.co with lanes := co.lanes, waits := co.waits } ∧ (∀ k, k ≠ e.slot → t.cohort k = s.cohort k) ∧
       { t with cohorts := s.cohorts, cur := s.cur, cores := s.cores } = s ∧
       (∀ c, { t.core c with asp := (s.core c).asp } = s.core c) ∧
       (∀ c a, (∀ l < 32, e.act.has l = true → (b l).core ≠ c ∨ a < (b l).aspBase + off l ∨ (b l).aspBase + off l + e.ty.bytes ≤ a) →
         bufAt (t.core c).asp a = bufAt (s.core c).asp a) ∧
       ∀ l < 32, e.act.has l = true → ∀ j < e.ty.bytes,
         (∀ k < 32, l < k → e.act.has k = true → (b k).core ≠ (b l).core ∨ (b l).aspBase + off l + j < (b k).aspBase + off k ∨
           (b k).aspBase + off k + e.ty.bytes ≤ (b l).aspBase + off l + j) →
         bufAt (t.core (b l).core).asp ((b l).aspBase + off l + j) = dataByte e.co e.w.b.toNat l j := by
  obtain ⟨rfl, -, hco, -⟩ := envFor_facts h.env
  have hexec := exec_passes h
  rw [hbody, finish_ok] at hexec
  have hlen : ∀ k, (e.storeData k).length = e.ty.bytes := storeBytes_length e.co _ _
  have hframe := e.s.aspWrites_frame b off e.storeData (ls := e.lanes)
  have hcohorts : (e.s.aspWrites b off e.storeData e.lanes).cohorts = e.s.cohorts := by
    have h := congrArg State.cohorts hframe
    exact h
  have hown : (e.s.aspWrites b off e.storeData e.lanes).cohort e.slot = some e.co := by rw [State.cohort, hcohorts]; exact hco
  refine ⟨_, e.wentOn e.co, hexec, State.cohort_updCohort_some hown _, e.movedOn_wentOn (group_and_live h.env) rfl rfl, rfl,
    fun k hk => ?_, ?_, e.s.core_aspWrites_frame b off e.storeData, fun c a ha => ?_, fun l hl ha j hj hlast => ?_⟩
  · exact (State.cohort_updCohort_ne _ _ hk).trans (by rw [State.cohort, hcohorts]; rfl)
  · exact congrArg (fun t : State => { t with cur := e.s.cur, cohorts := e.s.cohorts }) hframe
  · refine e.s.bufAt_aspWrites_miss b off e.storeData fun l hl => ?_
    obtain ⟨hl, hact⟩ := Env.mem_lanes.1 hl
    have := ha l hl hact
    rw [hlen]
    omega
  · refine (e.s.bufAt_aspWrites_last b off e.storeData (maskLanes_sorted e.act) (Env.mem_lanes.2 ⟨hl, ha⟩) (by rw [hlen]; exact hj)
      fun k hk hlt => ?_).trans (storeBytes_getD _ _ _ hj)
    obtain ⟨hk, hact⟩ := Env.mem_lanes.1 hk
    have := hlast k hk hlt hact
    rw [hlen]
    omega

/-- Writes to blocks and places that agree in the lanes that write. -/
theorem State.aspWrites_eq_foldl {s : State} {b : Nat → Block} {off : Nat → Nat} {bs : Nat → List Byte} {step : State → Nat → State}
    {ls : List Nat} (h : ∀ s, ∀ l ∈ ls, step s l = s.aspWrite (b l) (off l) (bs l)) : ls.foldl step s = s.aspWrites b off bs ls := by
  induction ls generalizing s with
  | nil => rfl
  | cons l ls ih =>
    rw [List.foldl_cons, h s l List.mem_cons_self, ih (fun s k hk => h s k (List.mem_cons_of_mem _ hk))]
    rfl

theorem stsBody_ok {e : Env} {b : Nat → Block} (hal : e.Aligned (fun l => (e.va.at l).toNat))
    (hb : ∀ l < 32, e.act.has l = true → b l = e.blk ∧ (e.va.at l).toNat + e.ty.bytes ≤ e.blk.aspBound) :
    stsBody e = .ok (e.s.aspWrites b (fun l => (e.va.at l).toNat) e.storeData e.lanes) := by
  simp only [stsBody]
  rw [Env.checkLanes_pass (fun l hl ha => by simpa using hal l hl ha),
    Env.checkLanes_pass (fun l hl ha => by simpa using (hb l hl ha).2)]
  refine congrArg Eff.ok (State.aspWrites_eq_foldl fun s l hl => ?_)
  obtain ⟨hl, ha⟩ := Env.mem_lanes.1 hl
  rw [(hb l hl ha).1]
  rfl

theorem stsPeerBody_ok {e : Env} {b : Nat → Block} (hbuf : e.buffered = false) (hal : e.Aligned (fun l => (e.va.at l).toNat))
    (hp : e.Reaches b) : stsPeerBody e = .ok (e.s.aspWrites b (fun l => (e.va.at l).toNat % 2 ^ 22) e.storeData e.lanes) := by
  simp only [stsPeerBody, hbuf, Option.isNone_eq_false_iff.2 hp.1, Bool.or_self, Bool.false_eq_true, if_false]
  rw [Env.peerLanes_pass hal hp]
  refine congrArg Eff.ok (State.aspWrites_eq_foldl fun s l hl => ?_)
  obtain ⟨hl, ha⟩ := Env.mem_lanes.1 hl
  obtain ⟨-, k, hk⟩ := hp.2 l hl ha
  rw [hk]
  rfl

/-- Settles O29: a load is a run of the words that its lanes' bytes make (`nearLoad_reads`), a store writes scratchpads only
(`exec_storesNear`). -/
theorem localAccesses : Obligations.LocalAccesses := by
  unfold Obligations.LocalAccesses
  refine ⟨fun s i e b h hc ht hal hlds hldw hpeer => ?_, ?_⟩
  · obtain ⟨rfl, -⟩ := envFor_facts h.env
    exact nearLoad_reads h hc ht hal hlds hldw hpeer
  · intro s i e b h hc hal w hsts hpeer off
    simp only [List.mem_cons, List.not_mem_nil, or_false] at hc
    rcases hc with hc | hc
    · have hoff : off = fun l => (b l).aspBase + (e.va.at l).toNat := funext fun l => by simp only [off, if_pos hc]
      rw [hoff]
      exact exec_storesNear h (by rw [hc]; exact stsBody_ok hal (hsts hc))
    · have hoff : off = fun l => (b l).aspBase + (e.va.at l).toNat % 2 ^ 22 :=
        funext fun l => by simp only [off, if_neg (show e.cell ≠ Cells.sts by rw [hc]; decide)]
      rw [hoff]
      exact exec_storesNear h (by rw [hc]; exact stsPeerBody_ok (hpeer hc).1 hal (hpeer hc).2)

end Sys2Proof.Machine

/-! PROOFS. Read-modify-writes of elements (O32, O33): the numbers that bytes hold, what an operation makes of an element, and the element
rewritten. -/

namespace Sys2Proof.Machine

/-! ### The number that bytes hold (R5) -/

theorem leNat_bytesLE (n x : Nat) : leNat (bytesLE n x) = x % 256 ^ n := by
  induction n generalizing x with
  | zero => simp [bytesLE, leNat, Nat.mod_one]
  | succ n ih => rw [bytesLE, leNat, ih, BitVec.toNat_ofNat, Nat.mod_mod, Nat.pow_succ', Nat.mod_mul]

theorem leNat_drop (bs : List Byte) (k : Nat) : leNat (bs.drop k) = leNat bs / 256 ^ k := by
  induction k generalizing bs with
  | zero => simp
  | succ k ih =>
    cases bs with
    | nil => simp [leNat]
    | cons b bs =>
      have hb : b.toNat < 256 := b.isLt
      rw [List.drop_succ_cons, ih, leNat, Nat.pow_succ', ← Nat.div_div_eq_div_mul]
      congr 1
      omega

theorem leNat_take (bs : List Byte) (k : Nat) : leNat (bs.take k) = leNat bs % 256 ^ k := by
  induction k generalizing bs with
  | zero => simp [leNat, Nat.mod_one]
  | succ k ih =>
    cases bs with
    | nil => simp [leNat]
    | cons b bs =>
      have hb : b.toNat < 256 := b.isLt
      rw [List.take_succ_cons, leNat, ih, leNat, Nat.pow_succ', Nat.mod_mul]
      congr 1
      · omega
      · congr 2
        omega

/-- A row of bytes read one by one. -/
theorem map_range_getD (bs : List Byte) {n : Nat} {f : Nat → Byte} (hn : bs.length = n) (h : ∀ j < n, f j = bs.getD j 0) :
    (List.range n).map f = bs := by
  subst hn
  refine List.ext_getElem (by simp) (fun j hj _ => ?_)
  have hj : j < bs.length := by simpa using hj
  simp [h j hj, hj]

theorem State.number_eq (s : State) (key pa n : Nat) : s.number key pa n = leNat (s.physRead key pa n) := rfl

theorem State.number_lt (s : State) (key pa n : Nat) : s.number key pa n < 256 ^ n :=
  (leNat_lt (s.physRead key pa n)).trans_eq (by simp [State.physRead])

theorem State.number_congr {s t : State} {key pa n : Nat} (h : ∀ j < n, t.physByte key (pa + j) = s.physByte key (pa + j)) :
    t.number key pa n = s.number key pa n :=
  congrArg leNat (List.map_congr_left fun j hj => h j (List.mem_range.1 hj))

theorem State.number_physWrite (s : State) (key : Nat) (w : Option Nat) (pa n v : Nat) :
    (s.physWrite key w pa (valBytes n v)).number key pa n = v % 256 ^ n := by
  rw [← leNat_bytesLE]
  refine congrArg leNat (map_range_getD _ (bytesLE_length n v) fun j hj => ?_)
  rw [State.physByte_physWrite, if_pos (by rw [valBytes, bytesLE_length]; omega), Nat.add_sub_cancel_left]
  rfl

theorem Env.dataNumber_eq (e : Env) (n l : Nat) : e.dataNumber n l = leNat (storeBytes e.co n e.ty.bytes l) :=
  congrArg leNat (map_range_getD _ (storeBytes_length ..) fun _ hj => (storeBytes_getD _ _ _ hj).symm)

theorem Env.dataNumber_lt (e : Env) (n l : Nat) : e.dataNumber n l < 256 ^ e.ty.bytes := by
  rw [e.dataNumber_eq]
  exact (leNat_lt _).trans_eq (by rw [storeBytes_length])

/-! ### What an operation makes of an element (R110, R263) -/

/-- The element after an operation. -/
def AtomOp.upd (op : AtomOp) (t : Ty) (old b c : Nat) : Nat := (op.new t old b c).getD old

theorem updated_eq_upd {op : AtomOp} {opc : Nat} (h : (0xA0 ≤ opc ∧ opc ≤ 0xA8 ∧ op = atomOp opc) ∨ (0xB0 ≤ opc ∧ opc ≤ 0xB6 ∧ op = redOp opc))
    (t : Ty) (old b c : Nat) : updated opc t old b c = op.upd t old b c := by
  rcases h with ⟨h1, h2, rfl⟩ | ⟨h1, h2, rfl⟩
  · interval_cases opc
    case _ => rfl
    case _ => rfl
    case _ => rfl
    case _ => rfl
    case _ => rfl
    case _ => rfl
    case _ => rfl
    case _ => rfl
    case _ =>
      show (if old = b then c else old) = (if old = b then some c else none).getD old
      split <;> rfl
  · interval_cases opc <;> rfl

/-- The types whose elements an operation takes: of 32 or 64 bits, and .fadd of 32 (R110). -/
def AtomOp.Takes (op : AtomOp) (t : Ty) : Prop := (t.bits = 32 ∨ t.bits = 64) ∧ (op = .fadd → t.bits = 32)

theorem AtomOp.Takes.pow {op : AtomOp} {t : Ty} (h : op.Takes t) : 256 ^ t.bytes = 2 ^ t.bits := by
  rcases h.1 with h | h <;> rw [Ty.bytes, h] <;> norm_num

theorem AtomOp.upd_lt {op : AtomOp} {t : Ty} (h : op.Takes t) {old b c : Nat} (ho : old < 2 ^ t.bits) (hb : b < 2 ^ t.bits)
    (hc : c < 2 ^ t.bits) : op.upd t old b c < 2 ^ t.bits := by
  cases op with
  | add => exact Nat.mod_lt _ (Nat.two_pow_pos _)
  | fadd =>
    rw [h.2 rfl]
    exact (addF32 (BitVec.ofNat 32 old) (BitVec.ofNat 32 b)).isLt
  | min | max =>
    simp only [AtomOp.upd, AtomOp.new, Option.getD_some]
    split <;> assumption
  | and => exact Nat.and_lt_two_pow _ hb
  | or => exact Nat.or_lt_two_pow ho hb
  | xor => exact Nat.xor_lt_two_pow ho hb
  | xchg => exact hb
  | cas =>
    simp only [AtomOp.upd, AtomOp.new]
    split <;> assumption

theorem readInt_mod (t : Ty) (x : Nat) : readInt t (x % 2 ^ t.bits) = readInt t x := by
  simp only [readInt, sext, Nat.mod_mod]

/-- Of an operand wider than its element only the low bits count. -/
theorem AtomOp.upd_mod {op : AtomOp} {t : Ty} (h : op.Takes t) (hop : op ≠ .cas) {old : Nat} (ho : old < 2 ^ t.bits) (b c : Nat) :
    op.upd t old b c % 2 ^ t.bits = op.upd t old (b % 2 ^ t.bits) c := by
  have hold : old % 2 ^ t.bits = old := Nat.mod_eq_of_lt ho
  cases op with
  | add =>
    show (old + b) % 2 ^ t.bits % 2 ^ t.bits = (old + b % 2 ^ t.bits) % 2 ^ t.bits
    rw [Nat.mod_mod, Nat.add_mod_mod]
  | fadd =>
    have hb := h.2 rfl
    show (addF32 (BitVec.ofNat 32 old) (BitVec.ofNat 32 b)).toNat % 2 ^ t.bits =
      (addF32 (BitVec.ofNat 32 old) (BitVec.ofNat 32 (b % 2 ^ t.bits))).toNat
    have hword : BitVec.ofNat 32 (b % 2 ^ t.bits) = BitVec.ofNat 32 b := by
      rw [hb]
      exact BitVec.eq_of_toNat_eq (by simp)
    rw [hword, hb, Nat.mod_eq_of_lt (addF32 (BitVec.ofNat 32 old) (BitVec.ofNat 32 b)).isLt]
  | min | max =>
    simp only [AtomOp.upd, AtomOp.new, Option.getD_some, readInt_mod]
    split
    · rfl
    · exact hold
  | and =>
    show (old &&& b) % 2 ^ t.bits = old &&& b % 2 ^ t.bits
    rw [Nat.and_mod_two_pow, hold]
  | or =>
    show (old ||| b) % 2 ^ t.bits = old ||| b % 2 ^ t.bits
    rw [Nat.or_mod_two_pow, hold]
  | xor =>
    show (old ^^^ b) % 2 ^ t.bits = old ^^^ b % 2 ^ t.bits
    rw [Nat.xor_mod_two_pow, hold]
  | xchg => rfl
  | cas => exact absurd rfl hop

/-! ### An element rewritten -/

/-- One read-modify-write of the element of a type at a place. -/
def State.rmw (s : State) (op : AtomOp) (t : Ty) (key pa b c : Nat) : State :=
  match op.new t (s.number key pa t.bytes) b c with
  | some v => s.physWrite key none pa (valBytes t.bytes v)
  | none => s

section
variable (s : State) (op : AtomOp) (t : Ty) (key pa b c : Nat)

theorem State.rmw_frame : { s.rmw op t key pa b c with mem := s.mem, lineKeys := s.lineKeys, cohorts := s.cohorts } = s := by
  unfold State.rmw
  split
  · exact s.physWrite_frame ..
  · rfl

/-- A read-modify-write changes of a cohort the marks of its open transaction only. -/
theorem State.cohort_rmw : ∃ f : Nat → Tx → Tx, ∀ k,
    (s.rmw op t key pa b c).cohort k = (s.cohort k).map (fun co => { co with tx := co.tx.map (f k) }) := by
  unfold State.rmw
  split
  · obtain ⟨f, hf⟩ := s.cohort_physWrite key none pa (valBytes t.bytes ‹_›)
    exact ⟨f, fun k => (hf k).trans (by simp)⟩
  · refine ⟨fun _ x => x, fun k => ?_⟩
    have hid : (fun co : Cohort => { co with tx := co.tx.map (fun x => x) }) = id := by
      funext co
      cases co
      simp
    rw [hid, Option.map_id]
    rfl

theorem State.physByte_rmw_other {a : Nat} (ha : a < pa ∨ pa + t.bytes ≤ a) :
    (s.rmw op t key pa b c).physByte key a = s.physByte key a := by
  unfold State.rmw
  split
  · rw [State.physByte_physWrite, if_neg (by rw [valBytes, bytesLE_length]; omega)]
  · rfl

theorem State.number_rmw : (s.rmw op t key pa b c).number key pa t.bytes =
    op.upd t (s.number key pa t.bytes) b c % 256 ^ t.bytes := by
  unfold State.rmw AtomOp.upd
  split
  · next v hv => rw [State.number_physWrite, hv, Option.getD_some]
  · next hv => rw [hv, Option.getD_none, Nat.mod_eq_of_lt (s.number_lt ..)]

end

end Sys2Proof.Machine

/-! PROOFS. Atomics (O32): the lanes' read-modify-writes one after another, where their elements are apart. -/

namespace Sys2Proof.Machine

/-! ### Lanes one after another (R263) -/

/-- The read-modify-write of a lane. -/
def Env.atomStep (e : Env) (op : AtomOp) (x : Nat → Xlat) (s : State) (l : Nat) : State :=
  s.rmw op e.ty e.key (x l).pa (leNat (storeBytes e.co e.w.b.toNat e.ty.bytes l)) (leNat (storeBytes e.co e.w.c.toNat e.ty.bytes l))

theorem Env.atomLanes_cons (e : Env) (op : AtomOp) (x : Nat → Xlat) (l : Nat) (ls : List Nat) (s : State) (old : List (Nat × List Byte)) :
    e.atomLanes op e.ty.bytes x (l :: ls) s old =
      e.atomLanes op e.ty.bytes x ls (e.atomStep op x s l) ((l, s.physRead e.key (x l).pa e.ty.bytes) :: old) := rfl

/-- The state after the lanes of a list. -/
theorem Env.atomLanes_state (e : Env) (op : AtomOp) (x : Nat → Xlat) (ls : List Nat) (s : State) (old : List (Nat × List Byte)) :
    (e.atomLanes op e.ty.bytes x ls s old).1 = ls.foldl (e.atomStep op x) s := by
  induction ls generalizing s old with
  | nil => rfl
  | cons l ls ih => rw [e.atomLanes_cons, ih, List.foldl_cons]

theorem Env.find_atomLanes_other (e : Env) (op : AtomOp) (x : Nat → Xlat) {ls : List Nat} {l : Nat} (h : l ∉ ls) (s : State)
    (old : List (Nat × List Byte)) :
    (e.atomLanes op e.ty.bytes x ls s old).2.find? (fun p => p.1 == l) = old.find? (fun p => p.1 == l) := by
  induction ls generalizing s old with
  | nil => rfl
  | cons k ls ih =>
    rw [e.atomLanes_cons, ih (fun hl => h (List.mem_cons_of_mem _ hl)), List.find?_cons_of_neg]
    exact fun hk => h (List.mem_cons.2 (.inl (beq_iff_eq.1 hk).symm))

/-- The lane's element shares no byte with those of the other lanes of a list. -/
def Env.AloneIn (e : Env) (x : Nat → Xlat) (ls : List Nat) (l : Nat) : Prop :=
  ∀ k ∈ ls, k ≠ l → (x k).pa + e.ty.bytes ≤ (x l).pa ∨ (x l).pa + e.ty.bytes ≤ (x k).pa

theorem Env.number_atomStep_other (e : Env) (op : AtomOp) (x : Nat → Xlat) {k l : Nat}
    (h : (x k).pa + e.ty.bytes ≤ (x l).pa ∨ (x l).pa + e.ty.bytes ≤ (x k).pa) (s : State) :
    (e.atomStep op x s k).physRead e.key (x l).pa e.ty.bytes = s.physRead e.key (x l).pa e.ty.bytes :=
  List.map_congr_left fun j hj => s.physByte_rmw_other _ _ _ _ _ _ (by have := List.mem_range.1 hj; omega)

/-- What a lane has read is what stood in memory before the instruction. -/
theorem Env.find_atomLanes (e : Env) (op : AtomOp) (x : Nat → Xlat) {ls : List Nat} {l : Nat} (hn : ls.Nodup) (hl : l ∈ ls)
    (ha : e.AloneIn x ls l) (s : State) (old : List (Nat × List Byte)) :
    (e.atomLanes op e.ty.bytes x ls s old).2.find? (fun p => p.1 == l) = some (l, s.physRead e.key (x l).pa e.ty.bytes) := by
  induction ls generalizing s old with
  | nil => cases hl
  | cons k ls ih =>
    obtain ⟨hk, hn⟩ := List.nodup_cons.1 hn
    rw [e.atomLanes_cons]
    by_cases hkl : k = l
    · subst hkl
      rw [e.find_atomLanes_other op x hk, List.find?_cons_of_pos (by simp)]
    · rw [ih hn ((List.mem_cons.1 hl).resolve_left (Ne.symm hkl)) (fun j hj => ha j (List.mem_cons_of_mem _ hj)),
        e.number_atomStep_other op x (ha k List.mem_cons_self hkl)]

/-- A lane's element holds the new value at the end. -/
theorem Env.number_foldl_atomStep (e : Env) (op : AtomOp) (x : Nat → Xlat) {ls : List Nat} {l : Nat} (hn : ls.Nodup) (hl : l ∈ ls)
    (ha : e.AloneIn x ls l) (s : State) : (ls.foldl (e.atomStep op x) s).number e.key (x l).pa e.ty.bytes =
      op.upd e.ty (s.number e.key (x l).pa e.ty.bytes) (e.dataNumber e.w.b.toNat l) (e.dataNumber e.w.c.toNat l) % 256 ^ e.ty.bytes := by
  induction ls generalizing s with
  | nil => cases hl
  | cons k ls ih =>
    obtain ⟨hk, hn⟩ := List.nodup_cons.1 hn
    rw [List.foldl_cons]
    by_cases hkl : k = l
    · subst hkl
      rw [foldl_untouched (read := fun s : State => s.number e.key (x k).pa e.ty.bytes) _ (fun s j hj =>
        congrArg leNat (e.number_atomStep_other op x (ha j (List.mem_cons_of_mem _ hj) (fun h => hk (h ▸ hj))) s))]
      rw [Env.atomStep, State.number_rmw, e.dataNumber_eq, e.dataNumber_eq]
    · rw [ih hn ((List.mem_cons.1 hl).resolve_left (Ne.symm hkl)) (fun j hj => ha j (List.mem_cons_of_mem _ hj)), State.number_eq,
        e.number_atomStep_other op x (ha k List.mem_cons_self hkl)]
      rfl

section
variable (e : Env) (op : AtomOp) (x : Nat → Xlat) (ls : List Nat) (s : State)

theorem Env.foldl_atomStep_frame :
    { ls.foldl (e.atomStep op x) s with mem := s.mem, lineKeys := s.lineKeys, cohorts := s.cohorts } = s := by
  induction ls generalizing s with
  | nil => rfl
  | cons l ls ih =>
    have h := congrArg (fun t : State => { t with mem := s.mem, lineKeys := s.lineKeys, cohorts := s.cohorts }) (ih (e.atomStep op x s l))
    exact h.trans (s.rmw_frame ..)

theorem Env.cohort_foldl_atomStep : ∃ f : Nat → Option Tx → Option Tx, ∀ k,
    (ls.foldl (e.atomStep op x) s).cohort k = (s.cohort k).map (fun co => { co with tx := f k co.tx }) := by
  induction ls generalizing s with
  | nil => exact ⟨fun _ t => t, fun k => Option.map_id.symm ▸ rfl⟩
  | cons l ls ih =>
    obtain ⟨f, hf⟩ := s.cohort_rmw op e.ty e.key (x l).pa (leNat (storeBytes e.co e.w.b.toNat e.ty.bytes l))
      (leNat (storeBytes e.co e.w.c.toNat e.ty.bytes l))
    obtain ⟨g, hg⟩ := ih (e.atomStep op x s l)
    refine ⟨fun k t => g k (t.map (f k)), fun k => (hg k).trans ?_⟩
    rw [Env.atomStep, hf k, Option.map_map]
    rfl

theorem Env.physByte_foldl_atomStep_other {a : Nat} (h : ∀ l ∈ ls, a < (x l).pa ∨ (x l).pa + e.ty.bytes ≤ a) :
    (ls.foldl (e.atomStep op x) s).physByte e.key a = s.physByte e.key a :=
  foldl_untouched (read := fun s : State => s.physByte e.key a) s (fun s l hl => s.physByte_rmw_other _ _ _ _ _ _ (h l hl))

end

/-! ### ATOM (R263) -/

/-- The registers that the old values of an atomic make. -/
def Env.atomRun (e : Env) (old : List (Nat × List Byte)) : Cohort :=
  e.setRun e.co e.w.d.toNat (regsOf e.ty.bytes) (fun i l => match old.find? (fun p => p.1 == l) with
    | some (_, bs) => loadReg (if e.ty.bytes = 8 then .b64 else .b32) bs i
    | none => 0)

theorem Env.atomLanes_congr (e : Env) (op : AtomOp) {x y : Nat → Xlat} {ls : List Nat} (h : ∀ l ∈ ls, x l = y l) (s : State)
    (old : List (Nat × List Byte)) : e.atomLanes op e.ty.bytes x ls s old = e.atomLanes op e.ty.bytes y ls s old := by
  induction ls generalizing s old with
  | nil => rfl
  | cons l ls ih =>
    have hl := h l List.mem_cons_self
    rw [e.atomLanes_cons, e.atomLanes_cons, ih (fun k hk => h k (List.mem_cons_of_mem _ hk)), Env.atomStep, Env.atomStep, hl]

/-- An atomic, its checks passed. -/
theorem Env.atom_ok {e : Env} {x : Nat → Xlat} (op : AtomOp) (hb : e.buffered = false) (ht : e.loadTakes)
    (hal : e.Aligned (fun l => (e.devAddr l).toNat)) (hx : e.Translates .rmw x) (hc : e.Clean x) :
    e.atom op = .ok ((e.lanes.foldl (e.atomStep op x) e.s).setCohort e.slot
      (e.atomRun (e.atomLanes op e.ty.bytes x e.lanes e.s []).2)) := by
  obtain ⟨y, hy, hk⟩ := Env.readLanes_ok hx hc
  simp only [Env.atom, hb, Env.shapeG_of_loadTakes ht, Bool.false_eq_true, if_false]
  rw [Env.checkLanes_pass (fun l hl ha => by simpa using hal l hl ha), hk]
  have hyx : ∀ l ∈ e.lanes, y l = x l := fun l hl => hy l (Env.mem_lanes.1 hl).1 (Env.mem_lanes.1 hl).2
  rw [e.atomLanes_congr op hyx, ← e.atomLanes_state op x e.lanes e.s []]
  rfl

/-- A register of an old value: its part of the number. -/
theorem loadReg_number {t : Ty} (ht : 4 ≤ t.bytes) (bs : List Byte) (k : Nat) :
    loadReg t bs k = BitVec.ofNat 32 (leNat bs / 2 ^ (32 * k)) := by
  rw [loadReg, if_neg (by omega), leW, leNat_take, leNat_drop, show (256 : Nat) ^ (4 * k) = 2 ^ (32 * k) by
    rw [show 256 = 2 ^ 8 by rfl, ← Nat.pow_mul]; congr 1; omega]
  exact BitVec.eq_of_toNat_eq (by simp)

/-- The type of an issue of a cell with integer types, or with none, is one that the cell lists, or b32 (R180). -/
theorem cellTy_mem (c : Cell) (w : ExtWord) (hc : c.cls = .i ∨ c.cls = .none) : (c.ty w).getD .b32 ∈ Ty.b32 :: c.tys := by
  have hopt : ∀ o : Option Ty, (∀ t, o = some t → t ∈ c.tys) → o.getD .b32 ∈ Ty.b32 :: c.tys := by
    rintro (_ | t) h
    · exact List.mem_cons_self
    · exact List.mem_cons_of_mem _ (h t rfl)
  rcases hc with hc | hc <;> simp only [Cell.ty, hc]
  · split
    · exact hopt _ fun t ht => List.mem_of_head? ht
    · split
      · exact List.mem_cons_self
      · exact hopt _ fun t ht => by simpa using (Option.filter_eq_some_iff.1 ht).2
  · split <;> exact List.mem_cons_self

theorem Env.ty_mem {s : State} {i : Instr} {e : Env} (h : s.envFor i = some e) (hc : e.cell.cls = .i ∨ e.cell.cls = .none) :
    e.ty ∈ Ty.b32 :: e.cell.tys := by
  obtain ⟨c, w, n, x, -, -, rfl⟩ := State.envFor_some h
  exact cellTy_mem c w hc

/-- The elements that an atomic's cell takes. -/
theorem Env.atom_takes {s : State} {i : Instr} {e : Env} (h : s.envFor i = some e)
    (hc : e.cell ∈ [Cells.atomAdd, Cells.atomFadd, Cells.atomMin, Cells.atomMax, Cells.atomAnd, Cells.atomOr, Cells.atomXor,
      Cells.atomXchg, Cells.atomCas]) : (atomOp e.cell.opc).Takes e.ty := by
  obtain ⟨hcls, htys⟩ := (show ∀ c ∈ [Cells.atomAdd, Cells.atomFadd, Cells.atomMin, Cells.atomMax, Cells.atomAnd, Cells.atomOr,
    Cells.atomXor, Cells.atomXchg, Cells.atomCas], (c.cls = .i ∨ c.cls = .none) ∧
      ∀ t ∈ Ty.b32 :: c.tys, (t.bits = 32 ∨ t.bits = 64) ∧ (atomOp c.opc = .fadd → t.bits = 32) by decide) _ hc
  exact htys _ (Env.ty_mem h hcls)

theorem Env.atom_opc {e : Env} (hc : e.cell ∈ [Cells.atomAdd, Cells.atomFadd, Cells.atomMin, Cells.atomMax, Cells.atomAnd, Cells.atomOr,
    Cells.atomXor, Cells.atomXchg, Cells.atomCas]) : 0xA0 ≤ e.cell.opc ∧ e.cell.opc ≤ 0xA8 :=
  (show ∀ c ∈ [Cells.atomAdd, Cells.atomFadd, Cells.atomMin, Cells.atomMax, Cells.atomAnd, Cells.atomOr, Cells.atomXor, Cells.atomXchg,
    Cells.atomCas], 0xA0 ≤ c.opc ∧ c.opc ≤ 0xA8 by decide) _ hc

/-- What an atomic leaves beside the elements of its lanes. -/
theorem Env.storeFrame_atom {s : State} {i : Instr} {e : Env} (h : s.envFor i = some e) (ht : e.loadTakes) (op : AtomOp) (x : Nat → Xlat)
    (f : Nat → Nat → W32) : e.StoreFrame
      (e.completes ((e.lanes.foldl (e.atomStep op x) e.s).setCohort e.slot (e.setRun e.co e.w.d.toNat (regsOf e.ty.bytes) f)))
      (e.wentOn (e.setRun e.co e.w.d.toNat (regsOf e.ty.bytes) f)) e.loadRegs (e.Takes x e.ty.bytes) := by
  have hd : e.w.d.toNat = zv ∨ e.w.d.toNat + regsOf e.ty.bytes ≤ zv := by
    have := regsOf_bytes_le e.ty
    refine ht.imp_right fun h => ?_
    unfold zv
    omega
  have hregs := e.registerFrame_setRun (group_and_live h) hd f
  obtain ⟨g, hg⟩ := e.cohort_foldl_atomStep op x e.lanes e.s
  refine ⟨?_, hregs.lanes, hregs.regs, hregs.vkeep, ?_, fun k y hk hy => ?_, fun a ha => ?_, ?_⟩
  · exact State.cohort_updCohort_some ((State.cohort_setCohort ..).trans (if_pos rfl)) _
  · rw [e.setRun_frame]
    rfl
  · exact ⟨_, (State.cohort_updCohort_ne _ _ hk).trans ((State.cohort_setCohort ..).trans ((if_neg hk).trans
      ((hg k).trans (congrArg (Option.map _) hy)))), rfl⟩
  · refine e.physByte_foldl_atomStep_other op x e.lanes e.s fun l hl => ?_
    obtain ⟨hl, hact⟩ := Env.mem_lanes.1 hl
    by_contra hin
    exact ha ⟨l, hl, hact, by omega, by omega⟩
  · exact congrArg (fun t : State => { t with cur := e.s.cur }) (e.foldl_atomStep_frame op x e.lanes e.s)

/-- Settles O32: what a lane reads is what stood there before (`Env.find_atomLanes`), and its element holds the new value at the end
(`Env.number_foldl_atomStep`), since the other lanes' elements are apart. -/
theorem atomics : Obligations.Atomics := by
  unfold Obligations.Atomics
  intro s i e x h hc hb ht hal hx hcl w old
  have htakes := Env.atom_takes h.env hc
  obtain ⟨hlo, hhi⟩ := Env.atom_opc hc
  have hexec := exec_passes h
  rw [bodyOf_atom hc, Env.atom_ok _ hb ht hal hx hcl, finish_ok] at hexec
  refine ⟨_, _, hexec, Env.storeFrame_atom h.env ht _ x _, fun hap l hl ha => ?_⟩
  obtain ⟨rfl, -⟩ := envFor_facts h.env
  have hnodup : e.lanes.Nodup := (maskLanes_sorted e.act).imp fun h => h.ne
  have hmem : l ∈ e.lanes := Env.mem_lanes.2 ⟨hl, ha⟩
  have halone : e.AloneIn x e.lanes l := fun k hk hkl => hap k (Env.mem_lanes.1 hk).1 l hl hkl (Env.mem_lanes.1 hk).2 ha
  refine ⟨?_, fun hz k hk => ?_⟩
  · refine (e.number_foldl_atomStep _ x hnodup hmem halone e.s).trans ?_
    have hpow := htakes.pow
    rw [updated_eq_upd (.inl ⟨hlo, hhi, rfl⟩), hpow]
    exact Nat.mod_eq_of_lt (AtomOp.upd_lt htakes (hpow ▸ State.number_lt ..) (hpow ▸ e.dataNumber_lt ..) (hpow ▸ e.dataNumber_lt ..))
  · have hd : e.w.d.toNat + regsOf e.ty.bytes ≤ zv := by
      have := ht.resolve_left hz
      have := regsOf_bytes_le e.ty
      unfold zv
      omega
    refine (e.at_wentOn_setRun _ hd _ hk hl ha).trans ?_
    rw [e.find_atomLanes _ x hnodup hmem halone]
    exact loadReg_number (by split <;> decide) _ k

end Sys2Proof.Machine

/-! PROOFS. Decoding loads (O28): lanes that resolve, each for itself, the decoded element, and the park of the lanes that name no data. -/

namespace Sys2Proof.Machine

/-! ### Lanes that resolve (R256) -/

section
variable {α : Type} {e : Env} {s : State} {acc : Access} {f : Nat → Except (W64 × XlatErr) α}

/-- When every active lane finds what it seeks, the access goes on with it. -/
theorem Env.resolveLanes_ok {r : Nat → α} (h : ∀ l < 32, e.act.has l = true → f l = .ok (r l)) :
    ∃ y, (∀ l < 32, e.act.has l = true → y l = some (r l)) ∧ ∀ k, e.resolveLanes s acc f k = k y := by
  have hrs : e.lanes.map (fun l => (l, f l)) = e.lanes.map (fun l => (l, Except.ok (r l))) :=
    List.map_congr_left (fun l hl => by rw [h l (Env.mem_lanes.1 hl).1 (Env.mem_lanes.1 hl).2])
  simp only [Env.resolveLanes, hrs, List.filterMap_map, Function.comp_def, List.filterMap_none]
  refine ⟨_, fun l hl ha => ?_, fun k => rfl⟩
  rw [find_lane_entry _ (Env.mem_lanes.2 ⟨hl, ha⟩)]

/-- When the lanes that fail do so for one reason, they are the lanes of the park. -/
theorem Env.resolveLanes_park {err : XlatErr} {bad : Nat → Bool} (hbad : ∃ l < 32, e.act.has l = true ∧ bad l = true)
    (herr : ∀ l < 32, e.act.has l = true → bad l = true → ∃ va, f l = .error (va, err))
    (hok : ∀ l < 32, e.act.has l = true → bad l = false → ∃ r, f l = .ok r) (k : (Nat → Option α) → Eff) :
    ∃ va mask, e.resolveLanes s acc f k = .park s (xlatRecord err acc va mask) ∧
      ∀ l < 32, Mask.has mask l = (e.act.has l && bad l) := by
  simp only [Env.resolveLanes]
  generalize hfs : List.filterMap _ _ = fs
  have hmem : ∀ l p, (l, p) ∈ fs ↔ (l < 32 ∧ e.act.has l = true) ∧ f l = .error p := by
    intro l p
    rw [← hfs, List.mem_filterMap]
    constructor
    · rintro ⟨⟨l', x⟩, hx, heq⟩
      obtain ⟨k, hl, hk⟩ := List.mem_map.1 hx
      obtain ⟨rfl, rfl⟩ := Prod.mk.inj hk
      cases hf : f k with
      | ok r => simp [hf] at heq
      | error p' =>
        simp only [hf, Option.some.injEq, Prod.mk.injEq] at heq
        obtain ⟨rfl, rfl⟩ := heq
        exact ⟨Env.mem_lanes.1 hl, hf⟩
    · rintro ⟨hl, hf⟩
      exact ⟨(l, f l), List.mem_map.2 ⟨l, Env.mem_lanes.2 hl, rfl⟩, by simp [hf]⟩
  have hany : ∀ l < 32, fs.any (fun b => b.1 == l) = (e.act.has l && bad l) := by
    intro l hl
    rw [Bool.eq_iff_iff, List.any_eq_true, Bool.and_eq_true]
    constructor
    · rintro ⟨⟨l', p⟩, hp, heq⟩
      obtain rfl : l' = l := beq_iff_eq.1 heq
      obtain ⟨⟨hl, ha⟩, hf⟩ := (hmem l' p).1 hp
      refine ⟨ha, ?_⟩
      by_contra hb
      obtain ⟨r, hr⟩ := hok l' hl ha (Bool.eq_false_iff.2 hb)
      simp [hr] at hf
    · rintro ⟨ha, hb⟩
      obtain ⟨va, hva⟩ := herr l hl ha hb
      exact ⟨(l, va, err), (hmem l _).2 ⟨⟨hl, ha⟩, hva⟩, beq_self_eq_true l⟩
  obtain ⟨l, hl, ha, hb⟩ := hbad
  cases hcons : fs with
  | nil =>
    have := hany l hl
    rw [hcons, ha, hb] at this
    cases this
  | cons p ps =>
    obtain ⟨l', va, err'⟩ := p
    obtain ⟨⟨hl', ha'⟩, hf⟩ := (hmem l' (va, err')).1 (hcons ▸ List.mem_cons_self)
    have hb' : bad l' = true := by
      by_contra hne
      obtain ⟨r, hr⟩ := hok l' hl' ha' (Bool.eq_false_iff.2 hne)
      simp [hr] at hf
    obtain ⟨va', hva'⟩ := herr l' hl' ha' hb'
    obtain ⟨rfl, rfl⟩ : va' = va ∧ err = err' := by
      rw [hva'] at hf
      simpa using hf
    exact ⟨va', _, rfl, fun l hl => (has_maskOf _ hl).trans (hcons ▸ hany l hl)⟩

end

theorem Env.unlessPoisoned_pass {e : Env} {s : State} {pas : List Nat} (h : ∀ pa ∈ pas, s.poisoned pa = false) (k : Eff) :
    e.unlessPoisoned s pas k = k := by
  have hfind : pas.find? s.poisoned = none := List.find?_eq_none.2 fun pa hpa => by rw [h pa hpa]; exact Bool.false_ne_true
  rw [Env.unlessPoisoned, hfind]

/-- What some reads leave in the cohort: an open transaction may have noted them (R277). -/
theorem Env.foldl_noteReads_list (e : Env) (rs : List (W64 × Nat × Nat)) (co : Cohort) :
    ∃ tx, rs.foldl (fun co x => e.noteReads co x.1 x.2.1 x.2.2) co = { co with tx := tx } ∧ (co.tx = none → tx = none) := by
  induction rs generalizing co with
  | nil => exact ⟨co.tx, rfl, id⟩
  | cons r rs ih =>
    obtain ⟨tx, htx, hnone⟩ := ih (e.noteReads co r.1 r.2.1 r.2.2)
    refine ⟨tx, htx, fun h => hnone ?_⟩
    rw [Env.noteReads, h]
    rfl

/-- A run of registers written by an issue whose reads an open transaction may have noted. -/
theorem exec_noting {s : State} {i : Instr} {e : Env} (h : s.Passes i e) {tx : Option Tx} {n : Nat} {f : Nat → Nat → W32}
    (hd : e.w.d.toNat = zv ∨ e.w.d.toNat + n ≤ zv)
    (hbody : bodyOf e.cell.opc e = .ok (e.put (e.setRun (e.withTx tx).co e.w.d.toNat n f))) :
    ∃ t co, exec i s = .next t ∧ (e.withTx co.tx).RegisterFrame t co ((List.range n).map (e.w.d.toNat + ·)) [] ∧
      co.fpctl = e.co.fpctl ∧ co.tx = tx ∧
      ∀ l < 32, e.act.has l = true → e.w.d.toNat ≠ zv → ∀ k < n, (co.v (e.w.d.toNat + k)).at l = f k l := by
  have hexec := exec_passes h
  rw [hbody, finish_ok] at hexec
  have hframe := e.setRun_frame (e.withTx tx).co e.w.d.toNat n f
  have htx : (e.wentOn (e.setRun (e.withTx tx).co e.w.d.toNat n f)).tx = tx := by rw [hframe]; rfl
  refine ⟨_, _, hexec, ?_, ?_, htx, fun l hl ha hz k hk => e.at_wentOn_setRun _ (hd.resolve_left hz) f hk hl ha⟩
  · have hg : e.group &&& e.co.live = e.group := group_and_live h.env
    rw [htx]
    exact (e.withTx tx).registerFrame_setRun hg hd f
  · rw [hframe]; rfl

/-! ### The element a lane decodes (R88 to R90) -/

/-- The formats that a page can have. -/
theorem qfmtOf_efmt {a : Nat} {q : QFmt} (h : qfmtOf a = some q) : q.efmt = 1 ∨ q.efmt = 2 ∨ q.efmt = 3 ∨ q.efmt = 4 := by
  simp only [qfmtOf] at h
  split at h
  · cases h
  · split at h
    · split at h
      · cases h
        simp_all
      · cases h
    · split at h
      · cases h
      · cases h
        simp_all
        omega

section
variable (e : Env) (x y : Nat → Xlat) (q : Nat → QFmt)

/-- The address of the scale entry of a lane's element. -/
def Env.entryAddr (l : Nat) : Nat := (x l).page + (q l).scaleOff ((e.devAddr l).toNat - (x l).page) ((e.vb.at l).toNat % 2)

/-- What a lane that names a data byte finds. -/
def Env.ldqFound (l : Nat) : QLane :=
  { x := x l, q := q l, entry := if (q l).efmt ≤ 2 then some (BitVec.ofNat 64 (e.entryAddr x q l), y l) else none }

/-- The lane names no data byte of its page, or its page no format (R90). -/
def Env.noData (l : Nat) : Bool :=
  match qfmtOf (x l).fattr with
  | some f => !f.isData ((e.devAddr l).toNat - (x l).page) (x l).size
  | none => true

/-- The lane's scale entry, where its format has one, translates. -/
def Env.EntryTranslates (l : Nat) : Prop :=
  (q l).efmt ≤ 2 → e.s.translate (e.s.coreTlbs e.core) e.blk.vf (BitVec.ofNat 64 (e.entryAddr x q l)) .read = .ok (y l)

variable {e x y q}

theorem Env.ldqLane_found {l : Nat} (hx : e.s.translate (e.s.coreTlbs e.core) e.blk.vf (e.devAddr l) .read = .ok (x l))
    (hq : qfmtOf (x l).fattr = some (q l)) (hd : (q l).isData ((e.devAddr l).toNat - (x l).page) (x l).size = true)
    (hy : e.EntryTranslates x y q l) : e.ldqLane l = .ok (e.ldqFound x y q l) := by
  simp only [Env.ldqLane, hx, hq, hd, Bool.not_true, Bool.false_eq_true, if_false, Env.ldqFound]
  by_cases hf : (q l).efmt ≤ 2
  · have hy' := hy hf
    unfold Env.entryAddr at hy'
    rw [if_neg (by omega), if_pos hf, hy']
    rfl
  · rw [if_pos (by omega), if_neg hf]

theorem Env.ldqLane_noData {l : Nat} (hx : e.s.translate (e.s.coreTlbs e.core) e.blk.vf (e.devAddr l) .read = .ok (x l))
    (hb : e.noData x l = true) : e.ldqLane l = .error (e.devAddr l, formatErr) := by
  unfold Env.noData at hb
  simp only [Env.ldqLane, hx]
  cases hq : qfmtOf (x l).fattr with
  | none => rfl
  | some f =>
    rw [hq] at hb
    exact if_pos hb

/-- The scale entry's word, as the lane reads it. -/
def Env.entryWord (e : Env) (x y : Nat → Xlat) (q : Nat → QFmt) (l : Nat) : Nat :=
  leNat ((List.range 4).map (fun j => e.devByte ((BitVec.ofNat 64 (e.entryAddr x q l) : W64).toNat + j) ((y l).pa + j)))

theorem QFmt.decode_nibble (q : QFmt) (byte : Byte) (h entry : Nat) (hh : h < 2) (hq : q.efmt = 2) : q.decode byte.toNat h entry =
    roundF32 (dequant (scaleOf entry) (if h = 0 then byte.toNat % 16 else byte.toNat / 16) (entry / 2 ^ 16 % 16)).1 := by
  have hnib : byte.toNat / 16 ^ h % 16 = if h = 0 then byte.toNat % 16 else byte.toNat / 16 := by
    have := byte.isLt
    obtain rfl | rfl : h = 0 ∨ h = 1 := by omega
    · simp
    · simp
      omega
  simp only [QFmt.decode, hq, hnib]
  rfl

theorem Env.ldqValue_found (l : Nat) : e.ldqValue l (e.ldqFound x y q l) =
    (q l).decode (e.devByte (e.devAddr l).toNat (x l).pa).toNat ((e.vb.at l).toNat % 2)
      (if (q l).efmt ≤ 2 then e.entryWord x y q l else 0) := by
  have hbyte : leNat (e.devRead (e.devAddr l) (x l).pa 1) = (e.devByte (e.devAddr l).toNat (x l).pa).toNat := by
    simp [Env.devRead, leNat]
  simp only [Env.ldqValue, Env.ldqFound, hbyte]
  by_cases hf : (q l).efmt ≤ 2
  · simp only [if_pos hf]
    rfl
  · simp only [if_neg hf]

end

/-! ### Parks (R346, R347) -/

/-- What a record says beside the place of its cohort. -/
theorem State.recordFor_frame (s : State) (slot : Nat) (r : FaultInfo) : s.recordFor slot r = { r with
    slot := (s.recordFor slot r).slot, node := (s.recordFor slot r).node, queue := (s.recordFor slot r).queue,
    tag := (s.recordFor slot r).tag } := by
  unfold State.recordFor
  split
  · rfl
  · split
    · rfl
    · rfl

theorem State.park_free {s : State} {slot : Nat} {co : Cohort} (hco : s.cohort slot = some co) (hp : co.park = none) (r : FaultInfo) :
    s.park slot r = (s.setCohort slot { co with park := some (s.recordFor slot r), waits := [] }).postRecord (s.vfOf slot)
      (s.recordFor slot r) := by
  simp only [State.park, hco, hp, Option.isSome_none, Bool.false_eq_true, if_false]

theorem State.cohort_setCohort_self (s : State) (i : Nat) (x : Cohort) : (s.setCohort i x).cohort i = some x := SMap.look_put_self ..

theorem State.cohort_park {s : State} {slot : Nat} {co : Cohort} (hco : s.cohort slot = some co) (hp : co.park = none) (r : FaultInfo) :
    (s.park slot r).cohort slot = some { co with park := some (s.recordFor slot r), waits := [] } := by
  rw [State.park_free hco hp]
  exact State.cohort_setCohort_self ..

/-- The record of a park at an instruction at `pc`, without a transaction (R347). -/
def State.parkRecord (s : State) (slot : Nat) (co : Cohort) (pc : W32) (r : FaultInfo) : FaultInfo :=
  (s.updCohort slot (fun co => { co with xaddr := r.addr.setWidth 32 })).recordFor slot
    { r with cls := 2, txab := false, nest := r.nest && co.hmode, pc := pc }

/-- A cohort that has no transaction open and is not parked parks at an instruction (R346, R340; log 69). -/
theorem State.cohort_takePark {s : State} {slot : Nat} {co : Cohort} (hco : s.cohort slot = some co) (hp : co.park = none)
    (hx : co.tx = none) (pc : W32) (r : FaultInfo) : (s.takePark slot pc r).cohort slot =
      some { co with xaddr := r.addr.setWidth 32, park := some (s.parkRecord slot co pc r), waits := [] } := by
  have hco' : (s.updCohort slot (fun co => { co with xaddr := r.addr.setWidth 32 })).cohort slot =
      some { co with xaddr := r.addr.setWidth 32 } := State.cohort_updCohort_some hco _
  have habort := State.abortTx_none hco' hx txTrap
  have htxab : ((s.cohort slot).map (fun co => co.tx.isSome)).getD false = false := by rw [hco, Option.map_some, hx]; rfl
  have hnest : ((s.cohort slot).map (fun co => co.hmode)).getD false = co.hmode := by rw [hco]; rfl
  simp only [State.takePark, htxab, hnest, habort]
  exact State.cohort_park hco' hp _

theorem finish_park (e : Env) (t : State) (r : FaultInfo) : finish e (.park t r) = (t.takePark e.slot e.pc r).mark false := rfl

/-! ### LDQ (R260) -/

/-- LDQ whose lanes name data bytes of their pages, its other checks passed. -/
theorem ldqBody_found {e : Env} {x y : Nat → Xlat} {q : Nat → QFmt} (ho : e.buffered = true → e.w.ord = 0) (ht : e.loadTakes)
    (hl : ∀ l < 32, e.act.has l = true → e.ldqLane l = .ok (e.ldqFound x y q l)) (hc : e.Clean x)
    (hy : ∀ l < 32, e.act.has l = true → (q l).efmt ≤ 2 → e.s.poisoned (y l).pa = false) :
    ∃ tx f, ldqBody e = .ok (e.put (e.setRun (e.withTx tx).co e.w.d.toNat 1 f)) ∧ (e.co.tx = none → tx = none) ∧
      ∀ l < 32, e.act.has l = true → f 0 l = e.ldqValue l (e.ldqFound x y q l) := by
  simp only [ldqBody, Env.ordBad_false ho, Env.shapeG_of_loadTakes ht, Bool.false_eq_true, if_false]
  obtain ⟨r, hr, hk⟩ := Env.resolveLanes_ok (s := e.s) (acc := .read) hl
  have hclean : ∀ pa ∈ (e.ldqReads r).map (fun x => x.2.1), e.s.poisoned pa = false := by
    intro pa hpa
    obtain ⟨p, hp, rfl⟩ := List.mem_map.1 hpa
    obtain ⟨l, hlane, hp⟩ := List.mem_flatMap.1 hp
    obtain ⟨hlt, ha⟩ := Env.mem_lanes.1 hlane
    simp only [hr l hlt ha, Env.ldqFound] at hp
    rcases List.mem_cons.1 hp with rfl | hp
    · exact hc l hlt ha
    · by_cases hf : (q l).efmt ≤ 2
      · simp only [if_pos hf, List.mem_singleton] at hp
        rw [hp]
        exact hy l hlt ha hf
      · simp only [if_neg hf, List.not_mem_nil] at hp
  obtain ⟨tx, htx, hnone⟩ := e.foldl_noteReads_list (e.ldqReads r) e.co
  rw [hk, Env.unlessPoisoned_pass hclean, htx]
  refine ⟨tx, _, rfl, hnone, fun l hl ha => ?_⟩
  simp [lanes32, hl, ha, hr l hl ha]

/-- LDQ some of whose lanes name no data. -/
theorem ldqBody_noData {e : Env} {bad : Nat → Bool} (ho : e.buffered = true → e.w.ord = 0) (ht : e.loadTakes)
    (hbad : ∃ l < 32, e.act.has l = true ∧ bad l = true)
    (herr : ∀ l < 32, e.act.has l = true → bad l = true → e.ldqLane l = .error (e.devAddr l, formatErr))
    (hok : ∀ l < 32, e.act.has l = true → bad l = false → ∃ r, e.ldqLane l = .ok r) :
    ∃ va mask, ldqBody e = .park e.s (xlatRecord formatErr .read va mask) ∧ ∀ l < 32, Mask.has mask l = (e.act.has l && bad l) := by
  simp only [ldqBody, Env.ordBad_false ho, Env.shapeG_of_loadTakes ht, Bool.false_eq_true, if_false]
  exact Env.resolveLanes_park hbad (fun l hl ha hb => ⟨_, herr l hl ha hb⟩) hok _

/-- The element that LDQ decodes, in the words of the statement. -/
theorem Env.ldqValue_spec {e : Env} {x y : Nat → Xlat} {q : Nat → QFmt} {l : Nat} {a : Nat} (hq : qfmtOf a = some (q l)) :
    e.ldqValue l (e.ldqFound x y q l) =
      let byte := (e.devByte (e.devAddr l).toNat (x l).pa).toNat
      let word := e.entryWord x y q l
      match (q l).efmt with
      | 1 => roundF32 (dequant (scaleOf word) byte (word / 2 ^ 16 % 256)).1
      | 2 => roundF32 (dequant (scaleOf word) (if (e.vb.at l).toNat % 2 = 0 then byte % 16 else byte / 16) (word / 2 ^ 16 % 16)).1
      | 3 => roundF32 (fmtE4.value byte)
      | _ => roundF32 (fmtE5.value byte) := by
  rw [e.ldqValue_found]
  rcases qfmtOf_efmt hq with h | h | h | h
  · simp only [h, QFmt.decode]
    rfl
  · rw [QFmt.decode_nibble _ _ _ _ (Nat.mod_lt _ (by decide)) h]
    simp only [h]
    rfl
  · simp only [h, QFmt.decode]
  · simp only [h, QFmt.decode]

/-- Settles O28: each lane finds its data byte and scale entry (`Env.ldqLane_found`) and decodes them (`Env.ldqValue_spec`); lanes that name
no data all fail with FORMAT, which is the park (`Env.resolveLanes_park`). -/
theorem decodingLoads : Obligations.DecodingLoads := by
  unfold Obligations.DecodingLoads
  intro s i e x q y h hc ho ht hx off nib entry bad
  obtain ⟨rfl, -, hco, -⟩ := envFor_facts h.env
  refine ⟨fun hclean hq => ?_, fun hbad hq hp htx => ?_⟩
  · obtain ⟨tx, f, hbody, hnone, hf⟩ := ldqBody_found (x := x) (y := y) (q := q) ho ht
      (fun l hl ha => Env.ldqLane_found (hx l hl ha) (hq l hl ha).1 (hq l hl ha).2.1 (fun h => ((hq l hl ha).2.2 h).1)) hclean
      (fun l hl ha h => ((hq l hl ha).2.2 h).2)
    have hd : e.w.d.toNat = zv ∨ e.w.d.toNat + 1 ≤ zv := ht.imp_right fun h => by unfold zv; omega
    obtain ⟨t, co, hexec, hframe, hfp, rfl, hv⟩ := exec_noting h hd (by rw [hc]; exact hbody)
    refine ⟨t, co, hexec, hframe, hfp, hnone, fun l hl ha hz => ?_⟩
    refine (hv l hl ha hz 0 Nat.one_pos).trans ((hf l hl ha).trans ?_)
    rw [Env.ldqValue_spec (hq l hl ha).1]
    rfl
  · have hlane : ∀ l < 32, e.act.has l = true → bad l = false → ∃ r, e.ldqLane l = .ok r := fun l hl ha hb => by
      obtain ⟨hf, hy⟩ := hq l hl ha hb
      refine ⟨_, Env.ldqLane_found (hx l hl ha) hf ?_ hy⟩
      simpa [bad, hf] using hb
    obtain ⟨va, mask, hpark, hmask⟩ := ldqBody_noData ho ht hbad
      (fun l hl ha hb => Env.ldqLane_noData (hx l hl ha) hb) hlane
    have hexec := exec_passes h
    rw [hc, show bodyOf Cells.ldq.opc = ldqBody from rfl, hpark, finish_park] at hexec
    refine ⟨_, _, _, hexec, State.cohort_takePark hco hp htx _ _, rfl, ?_⟩
    rw [State.parkRecord, State.recordFor_frame]
    exact ⟨rfl, rfl, rfl, hmask, fun _ _ => rfl⟩

end Sys2Proof.Machine

/-! PROOFS. Barrier objects (O34): the sixteen bytes of an object, an object updated, and what the instructions leave beside it. -/

namespace Sys2Proof.Machine

/-! ### An object in its bytes (R105) -/

/-- Every field of an object is within its bits. -/
structure Bar.Fits (x : Bar) : Prop where
  gen  : x.gen < 2 ^ 4
  pend : x.pend < 2 ^ 16
  exp  : x.exp < 2 ^ 16
  inn  : x.inn < 2 ^ 16
  out  : x.out < 2 ^ 16
  rsv  : x.rsv < 2 ^ 60

theorem Bar.ofBytes_bytes {x : Bar} (h : x.Fits) : Bar.ofBytes x.bytes = x := by
  obtain ⟨gen, pend, exp, inn, out, rsv⟩ := x
  obtain ⟨h1, h2, h3, h4, h5, h6⟩ := h
  simp only at h1 h2 h3 h4 h5 h6
  simp only [Bar.ofBytes, Bar.bytes, leNat_bytesLE, Bar.mk.injEq]
  refine ⟨?_, ?_, ?_, ?_, ?_, ?_⟩ <;> omega

theorem State.fits_bar (s : State) (b : Block) (off : Nat) : (s.bar b off).Fits := by
  constructor <;> exact Nat.mod_lt _ (by decide)

theorem Bar.bytes_length (x : Bar) : x.bytes.length = 16 := bytesLE_length ..

theorem State.bar_eq_of_bytes {s : State} {b : Block} {off : Nat} {x : Bar} (hx : x.Fits)
    (h : ∀ j < 16, bufAt (s.core b.core).asp (b.aspBase + off + j) = x.bytes.getD j 0) : s.bar b off = x := by
  rw [State.bar, State.aspRead, bufRead, map_range_getD x.bytes x.bytes_length h, Bar.ofBytes_bytes hx]

theorem State.bar_congr {s t : State} {b : Block} {off : Nat}
    (h : ∀ j < 16, bufAt (t.core b.core).asp (b.aspBase + off + j) = bufAt (s.core b.core).asp (b.aspBase + off + j)) :
    t.bar b off = s.bar b off :=
  congrArg Bar.ofBytes (List.map_congr_left fun j hj => h j (List.mem_range.1 hj))

theorem State.bar_setBar (s : State) (b : Block) (off : Nat) {x : Bar} (hx : x.Fits) : (s.setBar b off x).bar b off = x := by
  refine State.bar_eq_of_bytes hx fun j hj => ?_
  rw [State.setBar, State.bufAt_aspWrite, if_pos (by rw [Bar.bytes_length]; omega), Nat.add_sub_cancel_left]

theorem State.bufAt_setBar_other (s : State) (b : Block) (off : Nat) (x : Bar) {c a : Nat}
    (h : c ≠ b.core ∨ a < b.aspBase + off ∨ b.aspBase + off + 16 ≤ a) :
    bufAt ((s.setBar b off x).core c).asp a = bufAt (s.core c).asp a := by
  rw [State.setBar, State.bufAt_aspWrite, if_neg (by rw [Bar.bytes_length]; omega)]

/-! ### An object updated (R106, R108) -/

/-- What stands in an object after an update: it opens when the update completes the opening condition. -/
def Bar.after (old new : Bar) : Bar := if new.due && !old.due then new.opened else new

/-- What an opening may begin in the cluster: waves (R109). -/
theorem State.startWaves_eq (s : State) (b : Block) (name : Nat) : ∃ cs, s.startWaves b name = { s with clusters := cs } := by
  unfold State.startWaves
  dsimp only
  generalize (if (s.cluster (clusterOf b.core)).wsize = 0 then [] else _) = rest
  cases rest.isEmpty with
  | true => exact ⟨s.clusters, rfl⟩
  | false => exact ⟨_, rfl⟩

theorem State.barUpdate_eq (s : State) (b : Block) (off : Nat) (old new : Bar) :
    ∃ cs, s.barUpdate b off old new = State.setBar { s with clusters := cs } b off (old.after new) := by
  obtain ⟨cs, hcs⟩ := s.startWaves_eq b (objName b off)
  unfold State.barUpdate Bar.after
  cases hdue : new.due && !old.due with
  | true => exact ⟨cs, congrArg (fun t => State.setBar t b off new.opened) hcs⟩
  | false => exact ⟨s.clusters, rfl⟩

theorem Bar.Fits.after {old new : Bar} (h : new.Fits) : (old.after new).Fits := by
  unfold Bar.after
  split
  · exact ⟨Nat.mod_lt _ (by decide), h.exp, h.exp, h.inn, h.out, h.rsv⟩
  · exact h

theorem Bar.due_iff (x : Bar) : x.due = true ↔ x.pend = 0 ∧ x.inn = 0 ∧ x.out = 0 := by
  simp [Bar.due, and_assoc]

/-- An object that was not due, updated. -/
theorem Bar.after_eq {old new : Bar} (h : old.due = false) :
    old.after new = if new.pend = 0 ∧ new.inn = 0 ∧ new.out = 0 then { new with gen := (new.gen + 1) % 16, pend := new.exp } else new := by
  rw [Bar.after, h, Bool.not_false, Bool.and_true, if_congr new.due_iff rfl rfl]
  rfl

/-! ### The checks of a BAR instruction (R266) -/

theorem Env.barOp_ready {e : Env} {f : BarForm} {countBad : Bool} {contents : Bar → Bool} {k : Block → Nat → Bar → Eff} {bi : Nat}
    {b : Block} {off : Nat} (hr : e.BarReady bi b off) (hs : f.surrBad = true → e.surr = false)
    (hb : f.usesB = true → e.vb.isU = true) (hd : f.writesD = true → e.destTakes true) (hn : countBad = false)
    (hc : contents (e.s.bar b off) = false) : e.barOp f countBad contents k = k b off (e.s.bar b off) := by
  have hcontext : (e.w.peer && (e.blk.member.isNone || (e.surr && f.surrBad))) = false := by
    cases hp : e.w.peer with
    | false => rfl
    | true =>
      rw [Option.isNone_eq_false_iff.2 (hr.gang hp).1]
      cases hf : f.surrBad with
      | false => simp
      | true => simp [hs hf]
  have hshape : (!e.va.isU || (f.usesB && !e.vb.isU) || (f.writesD && e.shapeTrap e.w.d.toNat (.u 0))) = false := by
    have h1 : (f.usesB && !e.vb.isU) = false := by
      cases hf : f.usesB with
      | false => rfl
      | true => rw [hb hf]; rfl
    have h2 : (f.writesD && e.shapeTrap e.w.d.toNat (.u 0)) = false := by
      cases hf : f.writesD with
      | false => rfl
      | true => rw [Env.shapeTrap_of_destTakes (new := .u 0) (hd hf)]; rfl
    rw [hr.uniform, h1, h2]
    rfl
  have hbound : (if e.w.peer then e.peerBad (e.va.at 0) 16 else decide (e.blk.aspBound < (e.va.at 0).toNat + 16)) = false := by
    cases hp : e.w.peer with
    | false => simpa using hr.bound hp
    | true => simpa using (hr.gang hp).2
  simp only [Env.barOp, hr.target, hcontext, hshape, hr.aligned, hbound, hn, hc, Bool.false_eq_true, if_false, bne_self_eq_false]

/-! ### What they leave beside the object (R267) -/

/-- The lanes of the group go on; of the registers those of `ds` may change; the object is known as one of its block (R48); every other
byte of a scratchpad, and memory, is as before. -/
def Env.BarFrame (e : Env) (bi : Nat) (b : Block) (off : Nat) (t : State) (co : Cohort) (ds : List Nat) : Prop :=
  t.cohort e.slot = some co ∧ e.MovedOn co ∧
    (∃ b', t.block bi = some b' ∧ b' = { b with objs := b'.objs } ∧ off ∈ b'.objs) ∧
    (∀ m, m ∉ ds → co.v m = e.co.v m) ∧ co.preds = e.co.preds ∧
    (∀ c a, (c ≠ b.core ∨ a < b.aspBase + off ∨ b.aspBase + off + 16 ≤ a) → bufAt (t.core c).asp a = bufAt (e.s.core c).asp a) ∧
    ∀ key a, t.physByte key a = e.s.physByte key a

theorem Block.noteObj_spec (b : Block) (off : Nat) : b.noteObj off = { b with objs := (b.noteObj off).objs } ∧ off ∈ (b.noteObj off).objs := by
  unfold Block.noteObj
  split
  · next h => exact ⟨rfl, List.contains_iff_mem.1 h⟩
  · exact ⟨rfl, List.mem_cons_self⟩

theorem Env.barFrame_completes {s : State} {i : Instr} {e : Env} (h : s.envFor i = some e) {bi : Nat} {b : Block} {off : Nat}
    (hr : e.BarReady bi b off) {t : State} {co : Cohort} {ds : List Nat} (hco : t.cohort e.slot = some co)
    (hframe : co = { e.co with vregs := co.vregs }) (hregs : ∀ m, m ∉ ds → co.v m = e.co.v m)
    (hblocks : t.blocks = e.s.blocks.upd bi (·.noteObj off))
    (hasp : ∀ c a, (c ≠ b.core ∨ a < b.aspBase + off ∨ b.aspBase + off + 16 ≤ a) → bufAt (t.core c).asp a = bufAt (e.s.core c).asp a)
    (hbytes : ∀ key a, t.physByte key a = e.s.physByte key a) : e.BarFrame bi b off (e.completes t) (e.wentOn co) ds := by
  obtain ⟨hobjs, hmem⟩ := b.noteObj_spec off
  refine ⟨State.cohort_updCohort_some hco _, e.movedOn_wentOn (group_and_live h) (by rw [hframe]) (by rw [hframe]; rfl),
    ⟨b.noteObj off, ?_, hobjs, hmem⟩, hregs, ?_, hasp, hbytes⟩
  · show t.blocks.look bi = _
    rw [hblocks, SMap.look_upd_self, show e.s.blocks.look bi = some b from hr.there]
    rfl
  · rw [hframe]
    rfl

/-- The block that an instruction's object operand names. -/
theorem Env.BarReady.named {e : Env} {bi : Nat} {b : Block} {off : Nat} (hr : e.BarReady bi b off) :
    (e.barTarget.1.map (·.1)).getD 0 = bi := by rw [hr.target]; rfl

/-- An instruction that writes its object and nothing else. -/
theorem exec_putsObj {s : State} {i : Instr} {e : Env} (h : s.Passes i e) {bi : Nat} {b : Block} {off : Nat} (hr : e.BarReady bi b off)
    {x : Bar} (hx : x.Fits) (hbody : bodyOf e.cell.opc e = .ok (e.putObj b off x)) :
    ∃ t co, exec i s = .next t ∧ e.BarFrame bi b off t co [] ∧ t.bar b off = x := by
  have hexec := exec_passes h
  rw [hbody, finish_ok, Env.putObj, hr.named] at hexec
  obtain ⟨rfl, -, hco, -⟩ := envFor_facts h.env
  exact ⟨_, _, hexec, Env.barFrame_completes h.env hr hco rfl (fun _ _ => rfl) rfl
    (fun c a ha => e.s.bufAt_setBar_other b off x ha) (fun _ _ => rfl), e.s.bar_setBar b off hx⟩

theorem Env.barArrBody_eq {e : Env} {bi : Nat} {b : Block} {off : Nat} (hr : e.BarReady bi b off) (hs : e.surr = false)
    (hd : e.destTakes true) (hok : (e.s.bar b off).malformed = false) (hp : (e.s.bar b off).pend ≠ 0) :
    barArrBody e = .ok (((e.s.barUpdate b off (e.s.bar b off) { e.s.bar b off with pend := (e.s.bar b off).pend - 1 }).updBlock bi
      (·.noteObj off)).updCohort e.slot (fun co => e.setV co e.w.d.toNat (.u (BitVec.ofNat 32 (e.s.bar b off).gen)))) := by
  unfold barArrBody
  rw [hr.named]
  exact Env.barOp_ready hr (fun _ => hs) nofun (fun _ => hd) rfl (Bool.or_eq_false_iff.2 ⟨hok, beq_false_of_ne hp⟩)

/-- A BAR.WAIT whose checks have passed holds, or goes on. -/
theorem Env.barWaitBody_eq {e : Env} {bi : Nat} {b : Block} {off : Nat} (hr : e.BarReady bi b off) (hu : e.vb.isU = true)
    (hok : (e.s.bar b off).malformed = false) :
    barWaitBody e = if (e.s.bar b off).gen = (e.vb.at 0).toNat % 16 ∨ e.s.inWave e.slot = true then
      .wait .barrier (objName b off) 0 else .ok (e.s.updBlock bi (·.noteObj off)) := by
  unfold barWaitBody
  rw [hr.named]
  exact Eq.trans (Env.barOp_ready hr nofun (fun _ => hu) nofun rfl hok) (if_congr (by simp) rfl rfl)

theorem Env.barInitBody_eq {e : Env} {bi : Nat} {b : Block} {off : Nat} (hr : e.BarReady bi b off) (hs : e.surr = false)
    (hu : e.vb.isU = true) (h1 : 1 ≤ e.barCount) (h2 : e.barCount ≤ 65535) :
    barInitBody e = .ok (e.putObj b off { gen := 0, pend := e.barCount, exp := e.barCount, inn := 0, out := 0 }) := by
  unfold barInitBody
  exact Env.barOp_ready hr (fun _ => hs) (fun _ => hu) nofun
    (Bool.or_eq_false_iff.2 ⟨decide_eq_false (by omega), decide_eq_false (by omega)⟩) rfl

theorem Env.barXinBody_eq {e : Env} {bi : Nat} {b : Block} {off : Nat} (hr : e.BarReady bi b off) (hs : e.surr = false)
    (hu : e.vb.isU = true) (hok : (e.s.bar b off).malformed = false) (hn : (e.s.bar b off).inn + e.barCount ≤ 65535) :
    barXinBody e = .ok (e.putObj b off { e.s.bar b off with inn := (e.s.bar b off).inn + e.barCount }) := by
  unfold barXinBody
  exact Env.barOp_ready hr (fun _ => hs) (fun _ => hu) nofun (decide_eq_false (by omega))
    (Bool.or_eq_false_iff.2 ⟨hok, decide_eq_false (by omega)⟩)

theorem Env.barXoutBody_eq {e : Env} {bi : Nat} {b : Block} {off : Nat} (hr : e.BarReady bi b off) (hs : e.surr = false)
    (hu : e.vb.isU = true) (hok : (e.s.bar b off).malformed = false) (hn : (e.s.bar b off).out + e.barCount ≤ 65535) :
    barXoutBody e = .ok (e.putObj b off { e.s.bar b off with out := (e.s.bar b off).out + e.barCount }) := by
  unfold barXoutBody
  exact Env.barOp_ready hr (fun _ => hs) (fun _ => hu) nofun (decide_eq_false (by omega))
    (Bool.or_eq_false_iff.2 ⟨hok, decide_eq_false (by omega)⟩)

/-- The body of an instruction of a known row. -/
theorem bodyOf_cell {e : Env} {c : Cell} (hc : e.cell = c) : bodyOf e.cell.opc e = bodyOf c.opc e := by rw [hc]

theorem exec_barArr {s : State} {i : Instr} {e : Env} (h : s.Passes i e) {bi : Nat} {b : Block} {off : Nat} (hr : e.BarReady bi b off)
    (hc : e.cell = Cells.barArr) (hs : e.surr = false) (hd : e.destTakes true) (hok : (e.s.bar b off).malformed = false)
    (hp : (e.s.bar b off).pend ≠ 0) : ∃ t co, exec i s = .next t ∧ e.BarFrame bi b off t co [e.w.d.toNat] ∧
      t.bar b off = (e.s.bar b off).after { e.s.bar b off with pend := (e.s.bar b off).pend - 1 } ∧
      ∀ l < 32, e.act.has l = true → e.w.d.toNat ≠ zv → (co.v e.w.d.toNat).at l = BitVec.ofNat 32 (e.s.bar b off).gen := by
  have hexec := exec_passes h
  rw [(bodyOf_cell hc).trans (Env.barArrBody_eq hr hs hd hok hp), finish_ok] at hexec
  obtain ⟨rfl, -, hco, -⟩ := envFor_facts h.env
  have hfits : Bar.Fits { e.s.bar b off with pend := (e.s.bar b off).pend - 1 } := by
    obtain ⟨h1, h2, h3, h4, h5, h6⟩ := e.s.fits_bar b off
    exact ⟨h1, by simp only; omega, h3, h4, h5, h6⟩
  obtain ⟨cs, hcs⟩ := e.s.barUpdate_eq b off (e.s.bar b off) { e.s.bar b off with pend := (e.s.bar b off).pend - 1 }
  rw [hcs] at hexec
  refine ⟨_, _, hexec, Env.barFrame_completes h.env hr (State.cohort_updCohort_some hco _) (e.setV_frame _ _ _)
    (fun m hm => e.v_setV_other _ _ (by simpa using hm)) rfl (fun c a ha => State.bufAt_setBar_other _ b off _ ha) (fun _ _ => rfl),
    State.bar_setBar _ b off hfits.after, fun l hl ha hz => ?_⟩
  exact e.v_setV_at e.co _ hz hl ha

theorem exec_barWait_holds {s : State} {i : Instr} {e : Env} (h : s.Passes i e) {bi : Nat} {b : Block} {off : Nat}
    (hr : e.BarReady bi b off) (hc : e.cell = Cells.barWait) (hu : e.vb.isU = true) (hok : (e.s.bar b off).malformed = false)
    (hw : (e.s.bar b off).gen = (e.vb.at 0).toNat % 16 ∨ e.s.inWave e.slot = true) :
    ∃ (t : State) (co : Cohort), exec i s = .next t ∧ t.cur.waited = true ∧ t.cohort e.slot = some co ∧
      co = { e.co with waits := co.waits } := by
  have hbody := (bodyOf_cell hc).trans (Env.barWaitBody_eq hr hu hok)
  rw [if_pos hw] at hbody
  obtain ⟨t, co, hexec, hwaited, hco, hframe, -⟩ := exec_waits h hbody
  exact ⟨t, co, hexec, hwaited, hco, hframe⟩

theorem exec_barWait_goesOn {s : State} {i : Instr} {e : Env} (h : s.Passes i e) {bi : Nat} {b : Block} {off : Nat}
    (hr : e.BarReady bi b off) (hc : e.cell = Cells.barWait) (hu : e.vb.isU = true) (hok : (e.s.bar b off).malformed = false)
    (hw : ¬ ((e.s.bar b off).gen = (e.vb.at 0).toNat % 16 ∨ e.s.inWave e.slot = true)) :
    ∃ (t : State) (co : Cohort), exec i s = .next t ∧ e.BarFrame bi b off t co [] ∧ t.bar b off = e.s.bar b off ∧
      co = { e.co with lanes := co.lanes, waits := co.waits } ∧
      (∀ k, k ≠ e.slot → t.cohort k = e.s.cohort k) ∧ { t with cohorts := e.s.cohorts, blocks := e.s.blocks, cur := e.s.cur } = e.s := by
  have hbody := (bodyOf_cell hc).trans (Env.barWaitBody_eq hr hu hok)
  have hexec := exec_passes h
  rw [hbody, if_neg hw, finish_ok] at hexec
  obtain ⟨rfl, -, hco, -⟩ := envFor_facts h.env
  exact ⟨_, _, hexec, Env.barFrame_completes h.env hr hco rfl (fun _ _ => rfl) rfl (fun _ _ _ => rfl) (fun _ _ => rfl), rfl, rfl,
    fun k hk => State.cohort_updCohort_ne _ _ hk, rfl⟩

/-- Settles O34: the instructions that write their object leave it as `State.bar_setBar` says, an arrival as `Bar.after`; all of them keep
`Env.BarFrame`. -/
theorem barriers : Obligations.Barriers := by
  unfold Obligations.Barriers
  intro s i e bi b off h hc hr hu hd hs n o ok frame
  obtain ⟨rfl, -⟩ := envFor_facts h.env
  have hfits := e.s.fits_bar b off
  have hmal : ok → o.malformed = false := fun hok => by simp [Bar.malformed, hok.1, hok.2]
  refine ⟨fun hc h1 h2 => ?_, fun hc hok hn => ?_, fun hc hok hn => ?_, fun hc hok hp => ?_, fun hc hok => ?_⟩
  · refine exec_putsObj h hr ⟨Nat.two_pow_pos _, Nat.lt_succ_of_le h2, Nat.lt_succ_of_le h2, Nat.two_pow_pos _, Nat.two_pow_pos _,
      Nat.two_pow_pos _⟩ ?_
    exact (bodyOf_cell hc).trans (Env.barInitBody_eq hr (hs (by rw [hc]; decide)) (hu (by rw [hc]; decide)) h1 h2)
  · refine exec_putsObj h hr { hfits with inn := Nat.lt_succ_of_le hn } ?_
    exact (bodyOf_cell hc).trans (Env.barXinBody_eq hr (hs (by rw [hc]; decide)) (hu (by rw [hc]; decide)) (hmal hok) hn)
  · refine exec_putsObj h hr { hfits with out := Nat.lt_succ_of_le hn } ?_
    exact (bodyOf_cell hc).trans (Env.barXoutBody_eq hr (hs (by rw [hc]; decide)) (hu (by rw [hc]; decide)) (hmal hok) hn)
  · obtain ⟨t, co, hexec, hframe, hbar, hgen⟩ := exec_barArr h hr hc (hs (by rw [hc]; decide)) (hd hc) (hmal hok) hp
    refine ⟨t, co, hexec, hframe, ?_, hgen⟩
    rw [hbar, Bar.after_eq (Bool.and_eq_false_iff.2 (.inl (Bool.and_eq_false_iff.2 (.inl (beq_false_of_ne hp)))))]
    have hone : o.pend - 1 = 0 ∧ o.inn = 0 ∧ o.out = 0 ↔ o.pend = 1 ∧ o.inn = 0 ∧ o.out = 0 := by omega
    exact if_congr hone rfl rfl
  · have hu := hu (by rw [hc]; decide)
    rw [ite_prop_iff_and]
    exact ⟨exec_barWait_holds h hr hc hu (hmal hok), exec_barWait_goesOn h hr hc hu (hmal hok)⟩

end Sys2Proof.Machine

/-! PROOFS. Reductions (O33): what a payment leaves, a burst posted, and one request at its partition. -/

namespace Sys2Proof.Machine

/-! ### What translation reads (R351 to R354) -/

/-- Translation reads memory, its keys and poisons, the VFs' roots and the ports. -/
structure State.SameMap (s t : State) : Prop where
  fault  : ∀ pa, t.physFault pa = s.physFault pa
  poison : ∀ pa, t.poisoned pa = s.poisoned pa
  read   : ∀ key pa n, t.physRead key pa n = s.physRead key pa n
  key    : ∀ v, (t.vf v).key = (s.vf v).key
  root1  : ∀ v, (t.vf v).s1root = (s.vf v).s1root
  root2  : ∀ v, (t.vf v).s2root = (s.vf v).s2root

theorem State.SameMap.stage2 {s t : State} (h : s.SameMap t) (vf ipa need : Nat) : t.stage2 vf ipa need = s.stage2 vf ipa need := by
  simp only [State.stage2, h.fault, h.poison, h.read, h.key, h.root2]

theorem State.SameMap.walkBoth {s t : State} (h : s.SameMap t) (vf va need : Nat) : t.walkBoth vf va need = s.walkBoth vf va need := by
  simp only [State.walkBoth, h.fault, h.poison, h.read, h.key, h.root1, h.stage2]

theorem State.SameMap.translate {s t : State} (h : s.SameMap t) (tlbs : List TlbEntry) (vf : Nat) (va : W64) (acc : Access) :
    t.translate tlbs vf va acc = s.translate tlbs vf va acc := by
  simp only [State.translate, h.fault, h.walkBoth]

/-- A property of entries that the default lacks holds of one of a table's entries as before, when the entry put has it as the old one. -/
theorem SMap.any_put {α : Type} (m : SMap α) (i : Nat) {x d : α} {P : α → Bool} (hx : P x = P (m.get i d)) (hd : P d = false) :
    (m.put i x).any (fun p => P p.2) = m.any (fun p => P p.2) := by
  induction m with
  | nil => simpa [SMap.put, SMap.get, SMap.look] using hx.trans hd
  | cons p m ih =>
    obtain ⟨k, v⟩ := p
    by_cases hk : k = i
    · have hx : P x = P v := by simpa [SMap.get, SMap.look, hk] using hx
      simp [SMap.put, hk, hx]
    · have hx : P x = P (SMap.get m i d) := by simpa [SMap.get, SMap.look, hk] using hx
      by_cases hlt : i < k
      · simp only [SMap.put, hk, hlt, if_true, if_false, List.any_cons, hx]
        cases hl : SMap.look m i with
        | none => simp [SMap.get, hl, hd]
        | some y =>
          simp only [SMap.get, hl, Option.getD_some]
          cases hy : P y with
          | false => rfl
          | true =>
            have hany : m.any (fun p => P p.2) = true := List.any_eq_true.2 ⟨_, SMap.mem_of_look hl, hy⟩
            simp [hany]
      · simp only [SMap.put, hk, hlt, if_false, List.any_cons, ih hx]

/-! ### The price paid (R41) -/

/-- What a payment leaves beside the waits: the wallet falls by the price; the requests, the channels and what translation reads are as they
were. -/
structure State.PaidBy (s : State) (slot price : Nat) (t : State) : Prop where
  wallet : (t.core (coreOf slot)).wallet = (s.core (coreOf slot)).wallet - price
  reds   : t.reds = s.reds
  chans  : ∀ c, (t.core c).chans = (s.core c).chans
  map    : s.SameMap t
  tlbs   : ∀ c, t.coreTlbs c = s.coreTlbs c

theorem State.paidBy_zero (s : State) (slot : Nat) : s.PaidBy slot 0 s :=
  ⟨rfl, rfl, fun _ => rfl, ⟨fun _ => rfl, fun _ => rfl, fun _ _ _ => rfl, fun _ => rfl, fun _ => rfl, fun _ => rfl⟩, fun _ => rfl⟩

section
variable (s : State) (slot : Nat) (pc : W32) (price : Nat)

theorem State.core_pay (c : Nat) : ∃ st, (s.pay slot pc price).core c =
    { s.core c with wallet := if c = coreOf slot then (s.core c).wallet - price else (s.core c).wallet, starved := st } := by
  have hcore : ∃ g : Core → Core, (∀ x, ∃ st, g x = { x with wallet := x.wallet - price, starved := st }) ∧
      (s.pay slot pc price).core c = (s.updCore (coreOf slot) g).core c := by
    unfold State.pay
    dsimp only
    split <;> exact ⟨_, fun _ => ⟨_, rfl⟩, rfl⟩
  obtain ⟨g, hg, hpay⟩ := hcore
  rw [hpay, State.core_updCore]
  by_cases hc : c = coreOf slot
  · obtain ⟨st, hst⟩ := hg (s.core (coreOf slot))
    subst hc
    exact ⟨st, by rw [if_pos rfl, if_pos rfl, hst]⟩
  · exact ⟨(s.core c).starved, by rw [if_neg hc, if_neg hc]⟩

theorem State.dies_pay : ∃ d, (s.pay slot pc price).dies = s.dies.put (dieOf (coreOf slot)) d ∧
    d.poisoned = (s.die (dieOf (coreOf slot))).poisoned ∧ d.tlb = (s.die (dieOf (coreOf slot))).tlb := by
  unfold State.pay
  dsimp only
  split <;> exact ⟨_, rfl, rfl, rfl⟩

theorem State.vf_addPaid (c v : Nat) (n : W64) :
    ∃ x, (s.updVf c (fun v => { v with tokPaid := v.tokPaid + n })).vf v = { s.vf v with tokPaid := x } := by
  rw [State.vf_updVf]
  split
  · next hc => exact ⟨_, by rw [hc]⟩
  · exact ⟨_, rfl⟩

theorem State.vf_pay (v : Nat) : ∃ x, (s.pay slot pc price).vf v = { s.vf v with tokPaid := x } := by
  unfold State.pay
  dsimp only
  split
  · exact s.vf_addPaid _ v _
  · exact ⟨_, rfl⟩

theorem State.poisoned_pay (pa : Nat) : (s.pay slot pc price).poisoned pa = s.poisoned pa := by
  obtain ⟨d, hd, hpoison, -⟩ := s.dies_pay slot pc price
  rw [State.poisoned, hd]
  exact congrArg (inHbm pa && ·) (SMap.any_put s.dies (dieOf (coreOf slot)) (d := {}) (P := fun d => d.poisoned.contains (pa / 64))
    (congrArg (·.contains (pa / 64)) hpoison) rfl)

theorem State.sameMap_pay : s.SameMap (s.pay slot pc price) := by
  have hphys : (∀ pa, (s.pay slot pc price).physFault pa = s.physFault pa) ∧
      ∀ key pa n, (s.pay slot pc price).physRead key pa n = s.physRead key pa n := by
    unfold State.pay
    dsimp only
    split <;> exact ⟨fun _ => rfl, fun _ _ _ => rfl⟩
  have hvf := s.vf_pay slot pc price
  refine ⟨hphys.1, s.poisoned_pay slot pc price, hphys.2, fun v => ?_, fun v => ?_, fun v => ?_⟩ <;>
    · obtain ⟨x, hx⟩ := hvf v
      rw [hx]

theorem State.paidBy_pay : s.PaidBy slot price (s.pay slot pc price) := by
  refine ⟨?_, ?_, fun c => ?_, s.sameMap_pay slot pc price, fun c => ?_⟩
  · obtain ⟨st, h⟩ := s.core_pay slot pc price (coreOf slot)
    rw [h, if_pos rfl]
  · unfold State.pay
    dsimp only
    split <;> rfl
  · obtain ⟨st, h⟩ := s.core_pay slot pc price c
    rw [h]
  · obtain ⟨st, h⟩ := s.core_pay slot pc price c
    obtain ⟨d, hd, -, htlb⟩ := s.dies_pay slot pc price
    have hdie : ((s.pay slot pc price).die (dieOf c)).tlb = (s.die (dieOf c)).tlb := by
      rw [State.die, hd, SMap.get_put]
      split
      · next hc => rw [htlb, hc]
      · rfl
    have hcl : (s.pay slot pc price).cluster (clusterOf c) = s.cluster (clusterOf c) := by
      rw [State.cluster, (s.pay_frame slot pc price).1]
      rfl
    rw [State.coreTlbs, h, hcl, hdie]
    rfl

end

/-- An instruction whose other needs are met and that can pay goes on with its price paid. -/
theorem Env.afterPaying_pays {s : State} {i : Instr} {e : Env} (h : s.envFor i = some e) {price : Nat}
    {needs : List (WaitKind × Bool)} (hn : ∀ n ∈ needs, n.2 = true) (hp : e.canPay price) :
    ∃ t, e.Paid t ∧ e.s.PaidBy e.slot price t ∧ ∀ k, e.afterPaying price needs none k = k t := by
  obtain ⟨t, ht, hk⟩ := Env.afterPaying_ready h (place := none) hn hp (by rintro p ⟨⟩)
  refine ⟨t, ht, ?_, hk⟩
  have hok := hk .ok
  have hneeds : needs.find? (fun n => !n.2) = none := List.find?_eq_none.2 (fun n hm => by simp [hn n hm])
  simp only [Env.afterPaying, hneeds] at hok
  split at hok
  · next h0 =>
    cases hok
    rw [h0]
    exact e.s.paidBy_zero e.slot
  · split at hok
    · cases hok
    · cases hok
      exact e.s.paidBy_pay e.slot e.pc price

/-- What a post of a copy or of a reduction leaves when the instruction is complete. -/
theorem Env.posted_completes {s : State} {i : Instr} {e : Env} (h : s.envFor i = some e) {t : State} {co : Cohort} {cls : Nat}
    (hco : t.cohort e.slot = some co)
    (hframe : co = { e.co with waits := co.waits, ocCopy := co.ocCopy, ocRed := co.ocRed, wptrs := co.wptrs })
    (hcount : co.ocCount cls = e.co.ocCount cls + 1) (hbytes : ∀ key a, t.physByte key a = e.s.physByte key a) :
    e.Posted (e.completes t) (e.wentOn co) cls where
  here := State.cohort_updCohort_some hco _
  lanes := e.movedOn_wentOn (group_and_live h) (by rw [hframe]) (by rw [hframe]; rfl)
  regs n := by rw [hframe]; rfl
  preds n := by rw [hframe]; rfl
  count := hcount
  mem := hbytes

end Sys2Proof.Machine

/-! PROOFS. Reductions (O33): operations that finish, parks at an instruction boundary, a burst posted, and one request at its partition. -/

namespace Sys2Proof.Machine

/-! ### An operation that finishes (R125) -/

theorem Cohort.oc_setOc (co : Cohort) (cls : Nat) (l : List OcOp) : (co.setOc cls l).oc cls = l := by
  match cls with
  | 0 | 1 | 2 | _ + 3 => rfl

theorem Cohort.ocCount_ocPost (co : Cohort) (cls id : Nat) : (co.ocPost cls id).ocCount cls = co.ocCount cls + 1 := by
  rw [Cohort.ocCount, Cohort.ocPost, Cohort.oc_setOc, List.length_append]
  rfl

/-- The cohort when an operation of a class has finished. -/
def Cohort.finished (co : Cohort) (cls id : Nat) : Cohort :=
  { co.ocDone cls id with
    pending := (co.ocDone cls id).pending.filter (fun p => p.op != id), stale := co.stale.filter (fun x => x.1 != id) }

theorem State.cohort_opDone {s : State} {slot : Nat} {co : Cohort} (h : s.cohort slot = some co) (cls id : Nat) :
    (s.opDone slot cls id).cohort slot = some (co.finished cls id) := State.cohort_updCohort_some h _

theorem Cohort.oc_finished (co : Cohort) (cls id : Nat) : (co.finished cls id).oc cls =
    ocDrain ((co.oc cls).map (fun o => if o.id = id then { o with done := true } else o)) := by
  have h : (co.finished cls id).oc cls = (co.ocDone cls id).oc cls := by
    match cls with
    | 0 | 1 | 2 | _ + 3 => rfl
  rw [h, Cohort.ocDone, Cohort.oc_setOc]

/-- A class whose one operation finishes has none left. -/
theorem Cohort.ocCount_finished {co : Cohort} {cls id : Nat} {o : OcOp} (h : co.oc cls = [o]) (ho : o.id = id) :
    (co.finished cls id).ocCount cls = 0 := by
  rw [Cohort.ocCount, Cohort.oc_finished, h, List.map_singleton, if_pos ho]
  rfl

theorem Cohort.finished_frame (co : Cohort) (cls id : Nat) : co.finished cls id = { co with
    ocCopy := (co.finished cls id).ocCopy, ocMat := (co.finished cls id).ocMat, ocVga := (co.finished cls id).ocVga,
    ocRed := (co.finished cls id).ocRed, pending := (co.finished cls id).pending, stale := (co.finished cls id).stale } := by
  match cls with
  | 0 | 1 | 2 | _ + 3 => rfl

/-! ### A park at an instruction boundary (R340, R346; log 69) -/

/-- What the record of a park at a boundary says beside the place of its cohort (R347). -/
def Cohort.boundaryRecord (co : Cohort) (r : FaultInfo) (withMask : Bool) : FaultInfo :=
  { r with pc := (co.nextGroup.getD (0xFFFFFFFF#32, 0)).1, mask := if withMask then (co.nextGroup.getD (0xFFFFFFFF#32, 0)).2 else r.mask,
           txab := co.tx.isSome, boundary := true }

/-- The cohort with the address of its fault in XADDR. -/
def Cohort.faultAt (co : Cohort) (a : W64) : Cohort := { co with xaddr := a.setWidth 32 }

/-- The cohort parked with a record. -/
def Cohort.parked (co : Cohort) (rec : FaultInfo) : Cohort := { co with park := some rec, waits := [] }

section
variable {s : State} {slot : Nat} {co : Cohort} {r : FaultInfo} (hco : s.cohort slot = some co) (hp : co.park = none) (hr : r.cls = 2)
  (withMask : Bool)
include hco hp hr

theorem State.parkBoundary_eq : s.parkBoundary slot r withMask =
    ((s.setCohort slot (co.faultAt r.addr)).abortTx slot txTrap).park slot (co.boundaryRecord r withMask) := by
  have hclass : (decide (r.cls = 2) && co.park.isNone) = true := by rw [hr, hp]; rfl
  simp only [State.parkBoundary, hco, hclass, if_true]
  rfl

/-- A park at a boundary of a cohort that has no transaction open. -/
theorem State.parkBoundary_noTx (hx : co.tx = none) : s.parkBoundary slot r withMask =
    ((s.setCohort slot (co.faultAt r.addr)).setCohort slot ((co.faultAt r.addr).parked
      ((s.setCohort slot (co.faultAt r.addr)).recordFor slot (co.boundaryRecord r withMask)))).postRecord (s.vfOf slot)
        ((s.setCohort slot (co.faultAt r.addr)).recordFor slot (co.boundaryRecord r withMask)) := by
  have hself := s.cohort_setCohort_self slot (co.faultAt r.addr)
  have hvf : (s.setCohort slot (co.faultAt r.addr)).vfOf slot = s.vfOf slot := by
    rw [State.vfOf, State.vfOf, hself, hco]
    rfl
  rw [State.parkBoundary_eq hco hp hr, State.abortTx_none hself hx, State.park_free hself hp, hvf]
  rfl

/-- A park at a boundary changes its cohort, an aborted transaction's block and the VF's records, and nothing else. -/
theorem State.parkBoundary_frame :
    { s.parkBoundary slot r withMask with cohorts := s.cohorts, blocks := s.blocks, vfs := s.vfs } = s := by
  rw [State.parkBoundary_eq hco hp hr]
  have hself := s.cohort_setCohort_self slot (co.faultAt r.addr)
  obtain hx | ⟨x, hx⟩ := Option.eq_none_or_eq_some co.tx
  · rw [State.abortTx_none hself hx, State.park_free hself hp]
    rfl
  · have hpark : ((co.faultAt r.addr).aborted x txTrap).park = none := by
      rw [Cohort.aborted_frame]
      exact hp
    rw [State.park_free (State.cohort_abortTx hself hx txTrap) hpark, State.abortTx_some hself hx]
    rfl

/-- The cohort parks with the record; of its other fields those that the abort of a transaction writes may change. -/
theorem State.cohort_parkBoundary : ∃ co' rec, (s.parkBoundary slot r withMask).cohort slot = some (Cohort.parked co' rec) ∧
    co' = { co.faultAt r.addr with lanes := co'.lanes, vregs := co'.vregs, stale := co'.stale, tx := co'.tx, waits := co'.waits } ∧
    rec = { co.boundaryRecord r withMask with slot := rec.slot, node := rec.node, queue := rec.queue, tag := rec.tag } := by
  rw [State.parkBoundary_eq hco hp hr]
  have hself := s.cohort_setCohort_self slot (co.faultAt r.addr)
  obtain hx | ⟨x, hx⟩ := Option.eq_none_or_eq_some co.tx
  · rw [State.abortTx_none hself hx]
    exact ⟨co.faultAt r.addr, _, State.cohort_park hself hp _, rfl, State.recordFor_frame ..⟩
  · have hframe := (co.faultAt r.addr).aborted_frame x txTrap
    have hpark : ((co.faultAt r.addr).aborted x txTrap).park = none := by
      rw [hframe]
      exact hp
    refine ⟨(co.faultAt r.addr).aborted x txTrap, _, State.cohort_park (State.cohort_abortTx hself hx txTrap) hpark _, ?_,
      State.recordFor_frame ..⟩
    rw [hframe]

end

/-! ### A burst posted (R110, R264) -/

/-- The first value at an address opens a request of its own. -/
theorem combine_fresh (op : AtomOp) (ty : Ty) (va : W64) (v l : Nat) {acc : List (W64 × Nat × Nat × Mask)} (h : ∀ r ∈ acc, r.1 ≠ va) :
    combine op ty va v acc l = acc ++ [(va, v, l, maskOf (· == l))] := by
  induction acc with
  | nil => rfl
  | cons r acc ih =>
    rw [combine, if_neg (h r List.mem_cons_self), ih fun r hr => h r (List.mem_cons_of_mem _ hr)]
    rfl

section
variable (e : Env)

/-- What a lane gives the combiner, alone. -/
def Env.redAlone (l : Nat) : W64 × Nat × Nat × Mask :=
  (e.devAddr l, leNat (storeBytes e.co e.w.b.toNat e.ty.bytes l), l, maskOf (· == l))

/-- The combined values of the active lanes. -/
def Env.redValues (op : AtomOp) (ls : List Nat) (acc : List (W64 × Nat × Nat × Mask)) : List (W64 × Nat × Nat × Mask) :=
  ls.foldl (fun acc l => combine op e.ty (e.devAddr l) (leNat (storeBytes e.co e.w.b.toNat e.ty.bytes l)) acc l) acc

/-- Lanes whose addresses differ are not combined. -/
theorem Env.redValues_apart (op : AtomOp) {ls : List Nat} (h : ls.Pairwise (fun k l => e.devAddr k ≠ e.devAddr l))
    {acc : List (W64 × Nat × Nat × Mask)} (ha : ∀ l ∈ ls, ∀ r ∈ acc, r.1 ≠ e.devAddr l) :
    e.redValues op ls acc = acc ++ ls.map e.redAlone := by
  induction ls generalizing acc with
  | nil => simp [Env.redValues]
  | cons l ls ih =>
    obtain ⟨hl, hls⟩ := List.pairwise_cons.1 h
    have hstep : e.redValues op (l :: ls) acc = e.redValues op ls (acc ++ [e.redAlone l]) := by
      rw [Env.redValues, List.foldl_cons, combine_fresh _ _ _ _ _ (ha l List.mem_cons_self)]
      rfl
    rw [hstep, ih hls, List.append_assoc, List.map_cons, List.singleton_append]
    intro k hk r hr
    rcases List.mem_append.1 hr with hr | hr
    · exact ha k (List.mem_cons_of_mem _ hk) r hr
    · rw [List.mem_singleton.1 hr]
      exact hl k hk

/-- The request of a combined value. -/
def Env.redRequest (id : Nat) (x : Nat → Xlat) (r : W64 × Nat × Nat × Mask) : RedReq :=
  { id := id, slot := e.slot, vf := e.blk.vf, opc := e.cell.opc, ty := e.ty, va := r.1, pa := (x r.2.2.1).pa,
    ipa := (x r.2.2.1).ipa, value := BitVec.ofNat 64 r.2.1, lanes := r.2.2.2 }

/-- The state in which a burst has been posted. -/
def Env.redPosted (op : AtomOp) (x : Nat → Xlat) (t : State) : State :=
  State.updCohort { t with nextId := t.nextId + 1, reds := t.reds ++ (e.redValues op e.lanes []).map (e.redRequest t.nextId x) } e.slot
    (fun co => co.ocPost 3 t.nextId)

end

/-- A reduction whose checks pass pays and posts its burst. -/
theorem Env.red_posts {s : State} {i : Instr} {e : Env} (h : s.envFor i = some e) (op : AtomOp) {x : Nat → Xlat} (hb : e.buffered = false)
    (hal : e.Aligned (fun l => (e.devAddr l).toNat)) (hc : e.co.ocCount 3 < 63) (hp : e.canPay (cdiv (popc e.act) 8))
    (hx : e.Translates .rmw x) : ∃ t y, e.Paid t ∧ e.s.PaidBy e.slot (cdiv (popc e.act) 8) t ∧
      (∀ l < 32, e.act.has l = true → y l = x l) ∧ e.red op = .ok (e.redPosted op y t) := by
  obtain ⟨t, ht, hpaid, hk⟩ := Env.afterPaying_pays h (needs := [(.counter, e.co.ocCount 3 < 63)]) (by simpa using hc) hp
  obtain ⟨y, hy, hky⟩ := Env.xlatLanes_ok (e := e) (s := t) (acc := .rmw) (va := e.devAddr) (x := x)
    fun l hl ha => by rw [hpaid.tlbs, hpaid.map.translate]; exact hx l hl ha
  refine ⟨t, y, ht, hpaid, hy, ?_⟩
  simp only [Env.red, hb, Bool.false_eq_true, if_false]
  rw [Env.checkLanes_pass (fun l hl ha => by simp [hal l hl ha]), hk, hky]
  rfl

/-- Reductions, to the post of their burst. -/
theorem exec_red {s : State} {i : Instr} {e : Env} {x : Nat → Xlat} (h : s.Passes i e)
    (hc : e.cell ∈ [Cells.redAdd, Cells.redFadd, Cells.redMin, Cells.redMax, Cells.redAnd, Cells.redOr, Cells.redXor])
    (hb : e.buffered = false) (hal : e.Aligned (fun l => (e.devAddr l).toNat)) (hn : e.co.ocCount 3 < 63)
    (hp : e.canPay (cdiv (popc e.act) 8)) (hx : e.Translates .rmw x) :
    ∃ t co, exec i s = .next t ∧ e.Posted t co 3 ∧
      (t.core e.core).wallet = (s.core e.core).wallet - cdiv (popc e.act) 8 ∧ (∀ r ∈ s.reds, r ∈ t.reds) ∧
      ((∀ k < 32, ∀ l < 32, k ≠ l → e.act.has k = true → e.act.has l = true → e.devAddr k ≠ e.devAddr l) →
        ∀ l < 32, e.act.has l = true → ∃ r ∈ t.reds, r.va = e.devAddr l ∧ r.pa = (x l).pa ∧ r.opc = e.cell.opc ∧ r.ty = e.ty ∧
          r.slot = e.slot ∧ r.vf = e.blk.vf ∧ r.value = BitVec.ofNat 64 (e.dataNumber e.w.b.toNat l)) := by
  obtain ⟨t, y, ⟨⟨ws, hws⟩, -, -, hbytes⟩, hpaid, hy, hbody⟩ := Env.red_posts h.env (redOp e.cell.opc) hb hal hn hp hx
  have hexec := exec_passes h
  rw [bodyOf_red hc, hbody, finish_ok] at hexec
  obtain ⟨rfl, -⟩ := envFor_facts h.env
  refine ⟨_, _, hexec, Env.posted_completes h.env (State.cohort_updCohort_some hws _) rfl (Cohort.ocCount_ocPost ..) hbytes, hpaid.wallet,
    fun r hr => List.mem_append_left _ (hpaid.reds ▸ hr), fun hap l hl ha => ?_⟩
  have hsorted := (maskLanes_sorted e.act).imp_of_mem fun {k l} hk hl hkl =>
    hap k (Env.mem_lanes.1 hk).1 l (Env.mem_lanes.1 hl).1 (Nat.ne_of_lt hkl) (Env.mem_lanes.1 hk).2 (Env.mem_lanes.1 hl).2
  refine ⟨e.redRequest t.nextId y (e.redAlone l), List.mem_append_right _ (List.mem_map_of_mem ?_), rfl, ?_, rfl, rfl, rfl, rfl, ?_⟩
  · rw [e.redValues_apart _ hsorted (fun _ _ _ hr => absurd hr List.not_mem_nil)]
    exact List.mem_map_of_mem (Env.mem_lanes.2 ⟨hl, ha⟩)
  · exact congrArg Xlat.pa (hy l hl ha)
  · rw [e.dataNumber_eq]
    rfl

/-! ### A request at its partition (R111, R339) -/

theorem opc_of_redOp_fadd {opc : Nat} (hlo : 0xB0 ≤ opc) (hhi : opc ≤ 0xB6) (h : redOp opc = .fadd) : opc = 0xB1 := by
  revert h
  interval_cases opc <;> decide

theorem redOp_ne_cas {opc : Nat} (hlo : 0xB0 ≤ opc) (hhi : opc ≤ 0xB6) : redOp opc ≠ .cas := by
  interval_cases opc <;> decide

/-- The operation of a burst finishes with its last request (R125). -/
def State.redSettled (s : State) (r : RedReq) : State := if s.reds.any (fun q => q.id == r.id) then s else s.opDone r.slot 3 r.id

theorem State.redSettled_more {s : State} {r : RedReq} (h : ∃ q ∈ s.reds, q.id = r.id) : s.redSettled r = s :=
  if_pos (List.any_eq_true.2 (h.imp fun _ h => ⟨h.1, beq_iff_eq.2 h.2⟩))

theorem State.redSettled_last {s : State} {r : RedReq} (h : ∀ q ∈ s.reds, q.id ≠ r.id) : s.redSettled r = s.opDone r.slot 3 r.id :=
  if_neg fun hany => by
    obtain ⟨q, hq, hid⟩ := List.any_eq_true.1 hany
    exact h q hq (beq_iff_eq.1 hid)

theorem State.reds_redSettled (s : State) (r : RedReq) : (s.redSettled r).reds = s.reds := by
  unfold State.redSettled
  split <;> rfl

theorem State.physByte_redSettled (s : State) (r : RedReq) (key a : Nat) : (s.redSettled r).physByte key a = s.physByte key a := by
  unfold State.redSettled
  split <;> rfl

theorem State.cohort_redSettled {s : State} {r : RedReq} {c : Cohort} (h : s.cohort r.slot = some c) :
    ∃ c', (s.redSettled r).cohort r.slot = some c' ∧ c'.park = c.park ∧
      ((∀ q ∈ s.reds, q.id ≠ r.id) → ∀ o, c.ocRed = [o] → o.id = r.id → c'.ocCount 3 = 0) := by
  by_cases hmore : ∃ q ∈ s.reds, q.id = r.id
  · rw [State.redSettled_more hmore]
    obtain ⟨q, hq, hid⟩ := hmore
    exact ⟨c, h, rfl, fun hlast => absurd hid (hlast q hq)⟩
  · rw [State.redSettled_last fun q hq hid => hmore ⟨q, hq, hid⟩]
    refine ⟨_, State.cohort_opDone h 3 r.id, rfl, fun _ o ho hid => Cohort.ocCount_finished ho hid⟩

section
variable {s : State} {n : Nat} {r : RedReq} (hr : s.reds[n]? = some r)
include hr

theorem exec_redApply_holds
    (h : s.clocked (dieOf (coreOf r.slot)) = false ∨ (inHbm r.pa = true ∧ s.clocked (homeDie r.pa) = false)) :
    exec (.redApply n) s = .next s := by
  have hheld : (!s.clocked (dieOf (coreOf r.slot)) || (inHbm r.pa && !s.clocked (homeDie r.pa))) = true := by
    rcases h with h | ⟨h1, h2⟩
    · rw [h]; rfl
    · rw [h1, h2, Bool.not_false, Bool.and_self, Bool.or_true]
  show execRedApply n s = _
  simp only [execRedApply, hr, hheld, if_true]

variable (hclk : s.clocked (dieOf (coreOf r.slot)) = true) (hhome : inHbm r.pa = true → s.clocked (homeDie r.pa) = true)
include hclk hhome

theorem exec_redApply_clocked : exec (.redApply n) s =
    match if r.lost then some codePerm else s.physFault r.pa with
    | none => .next (State.redSettled { s.applyRed r with reds := s.reds.eraseIdx n } r)
    | some code => .next ((State.redSettled { s with reds := s.reds.eraseIdx n } r).parkBoundary r.slot
        { xlatRecord { code := code, stage2 := true, ipa := r.ipa } .rmw r.va r.lanes with nest := false } false) := by
  have hfree : (!s.clocked (dieOf (coreOf r.slot)) || (inHbm r.pa && !s.clocked (homeDie r.pa))) = false := by
    rw [hclk]
    cases hh : inHbm r.pa with
    | false => rfl
    | true => rw [hhome hh]; rfl
  show execRedApply n s = _
  simp only [execRedApply, hr, hfree, Bool.false_eq_true, if_false]
  rfl

/-- A request that its partition takes. -/
theorem exec_redApply_takes (hlo : 0xB0 ≤ r.opc) (hhi : r.opc ≤ 0xB6) (hbits : r.ty.bits ∈ [32, 64]) (hfadd : r.opc = 0xB1 → r.ty.bits = 32)
    (hlost : r.lost = false) (hpa : s.physFault r.pa = none) : ∃ t, exec (.redApply n) s = .next t ∧ t.reds = s.reds.eraseIdx n ∧
      t.number (s.vf r.vf).key r.pa r.ty.bytes =
        updated r.opc r.ty (s.number (s.vf r.vf).key r.pa r.ty.bytes) (r.value.toNat % 2 ^ r.ty.bits) 0 ∧
      (∀ a, (a < r.pa ∨ r.pa + r.ty.bytes ≤ a) → t.physByte (s.vf r.vf).key a = s.physByte (s.vf r.vf).key a) ∧
      ((∃ q ∈ t.reds, q.id = r.id) → ∀ k c, s.cohort k = some c → ∃ c', t.cohort k = some c' ∧ c'.ocRed = c.ocRed) ∧
      ((∀ q ∈ t.reds, q.id ≠ r.id) → ∀ c, s.cohort r.slot = some c → (∃ o, c.ocRed = [o] ∧ o.id = r.id) →
        ∃ c', t.cohort r.slot = some c' ∧ c'.ocCount 3 = 0) := by
  have hexec := exec_redApply_clocked hr hclk hhome
  rw [hlost, hpa] at hexec
  have hreds := State.reds_redSettled { s.applyRed r with reds := s.reds.eraseIdx n } r
  have hbyte := State.physByte_redSettled { s.applyRed r with reds := s.reds.eraseIdx n } r (s.vf r.vf).key
  generalize hu : State.redSettled { s.applyRed r with reds := s.reds.eraseIdx n } r = u at hexec hreds hbyte
  obtain ⟨f, hf⟩ := s.cohort_rmw (redOp r.opc) r.ty (s.vf r.vf).key r.pa r.value.toNat 0
  have hcohort : ∀ k c, s.cohort k = some c → State.cohort { s.applyRed r with reds := s.reds.eraseIdx n } k =
      some { c with tx := c.tx.map (f k) } := fun k c hc => (hf k).trans (congrArg (Option.map _) hc)
  have htakes : (redOp r.opc).Takes r.ty := by
    exact ⟨by simpa using hbits, fun hop => hfadd (opc_of_redOp_fadd hlo hhi hop)⟩
  have hcas := redOp_ne_cas hlo hhi
  have hold := htakes.pow ▸ s.number_lt (s.vf r.vf).key r.pa r.ty.bytes
  refine ⟨u, hexec, hreds, ?_, fun a ha => (hbyte a).trans (s.physByte_rmw_other _ _ _ _ _ _ ha), fun hmore k c hc => ?_,
    fun hlast c hc ho => ?_⟩
  · rw [updated_eq_upd (.inr ⟨hlo, hhi, rfl⟩), ← AtomOp.upd_mod htakes hcas hold, ← htakes.pow]
    exact (State.number_congr fun j _ => hbyte _).trans (s.number_rmw ..)
  · rw [hreds] at hmore
    rw [← hu, State.redSettled_more hmore]
    exact ⟨_, hcohort k c hc, rfl⟩
  · rw [hreds] at hlast
    obtain ⟨o, ho, hid⟩ := ho
    obtain ⟨c', hc', -, hdone⟩ := State.cohort_redSettled (r := r) (hcohort r.slot c hc)
    exact ⟨c', hu ▸ hc', hdone hlast o ho hid⟩

/-- A request whose link has dropped, or whose address has no target. -/
theorem exec_redApply_fails {code : Nat} {c : Cohort} (hcode : (if r.lost then some 17 else s.physFault r.pa) = some code)
    (hc : s.cohort r.slot = some c) (hp : c.park = none) :
    ∃ t c' rec, exec (.redApply n) s = .next t ∧ t.reds = s.reds.eraseIdx n ∧
        (∀ key a, t.physByte key a = s.physByte key a) ∧ t.cohort r.slot = some c' ∧ c'.park = some rec ∧ rec.code = code ∧
        rec.cls = 2 ∧ rec.addr = r.va ∧ rec.nest = false ∧ c'.xaddr = r.va.setWidth 32 ∧
        ((∀ q ∈ s.reds.eraseIdx n, q.id ≠ r.id) → c.ocRed = [{ id := r.id }] → c'.ocCount 3 = 0) := by
  have hexec := exec_redApply_clocked hr hclk hhome
  rw [show codePerm = 17 from rfl, hcode] at hexec
  obtain ⟨c₁, hc₁, hp₁, hdone⟩ := State.cohort_redSettled (s := { s with reds := s.reds.eraseIdx n }) (r := r) hc
  have hreds := State.reds_redSettled { s with reds := s.reds.eraseIdx n } r
  have hbyte := State.physByte_redSettled { s with reds := s.reds.eraseIdx n } r
  generalize State.redSettled { s with reds := s.reds.eraseIdx n } r = u at hexec hc₁ hreds hbyte
  have hpark := State.parkBoundary_frame hc₁ (hp₁.trans hp)
    (r := { xlatRecord { code := code, stage2 := true, ipa := r.ipa } .rmw r.va r.lanes with nest := false }) rfl false
  obtain ⟨c₂, rec, hc₂, hco₂, hrec⟩ := State.cohort_parkBoundary hc₁ (hp₁.trans hp)
    (r := { xlatRecord { code := code, stage2 := true, ipa := r.ipa } .rmw r.va r.lanes with nest := false }) rfl false
  refine ⟨_, _, rec, hexec, ?_, fun key a => ?_, hc₂, rfl, ?_, ?_, ?_, ?_, ?_, fun hlast ho => ?_⟩
  · exact (congrArg State.reds hpark).trans hreds
  · have hkept := congrArg (fun t : State => t.physByte key a) hpark
    exact hkept.trans (hbyte key a)
  · rw [hrec]; rfl
  · rw [hrec]; rfl
  · rw [hrec]; rfl
  · rw [hrec]; rfl
  · rw [hco₂]; rfl
  · rw [hco₂]
    exact hdone hlast _ ho rfl

end

/-- Settles O33: a burst is posted by `exec_red`; a request is held, changes its element by `State.rmw`, or parks its cohort. -/
theorem reductions : Obligations.Reductions := by
  unfold Obligations.Reductions
  refine ⟨fun s i e x h hc hb hal hn hp hx => exec_red h hc hb hal hn hp hx, fun s n r hr hlo hhi hbits hfadd =>
    ⟨fun h => exec_redApply_holds hr h, fun hclk hhome => ?_⟩⟩
  intro key w
  exact ⟨exec_redApply_takes hr hclk hhome hlo hhi hbits hfadd, fun code c => exec_redApply_fails hr hclk hhome⟩

end Sys2Proof.Machine

/-! PROOFS. Copies are posted (O35): a copy whose checks pass joins its channel. -/

namespace Sys2Proof.Machine

/-! ### Channels of a core (R99) -/

section
variable (s : State) (core ch : Nat) (l : List Copy)

theorem State.core_setChan (k : Nat) : (s.setChan core ch l).core k =
    if k = core then { s.core core with chans := (s.core core).chans.put ch l } else s.core k := s.core_updCore core k _

theorem State.chan_setChan : ((s.setChan core ch l).core core).chan ch = l := by
  rw [State.core_setChan, if_pos rfl, Core.chan, SMap.get_put, if_pos rfl]

theorem State.chan_setChan_ne {k : Nat} (hk : k ≠ ch) : ((s.setChan core ch l).core core).chan k = (s.core core).chan k := by
  rw [State.core_setChan, if_pos rfl, Core.chan, SMap.get_put, if_neg hk]
  rfl

theorem State.core_setChan_ne {k : Nat} (hk : k ≠ core) : (s.setChan core ch l).core k = s.core k := by
  rw [State.core_setChan, if_neg hk]

/-- Of a core only its channels change. -/
theorem State.core_setChan_frame (k : Nat) : (s.setChan core ch l).core k = { s.core k with chans := ((s.setChan core ch l).core k).chans } := by
  rw [State.core_setChan]
  split
  · next hk => rw [hk]
  · rfl

end

/-! ### A copy posted (R268 to R270) -/

/-- Blocks changed one after another. -/
theorem State.foldl_updBlock (f : Block → Block) (bs : List Nat) (s : State) :
    ∃ m, bs.foldl (fun s b => s.updBlock b f) s = { s with blocks := m } := by
  induction bs generalizing s with
  | nil => exact ⟨s.blocks, rfl⟩
  | cons b bs ih =>
    obtain ⟨m, hm⟩ := ih (s.updBlock b f)
    exact ⟨m, hm⟩

section
variable (e : Env) (k : CopyKind)

/-- The copy that an instruction posts to its channel, with its destination blocks. -/
def Env.copyNew (id : Nat) (blks : List Nat) : Copy where
  id := id
  slot := e.slot
  blk := e.co.blk
  ch := e.w.d.toNat
  kind := k
  toWbf := e.cDst
  dec := e.cDec
  rcv := e.cRcv
  snd := e.cSnd
  dst := if k == .cpyo then e.a64 0 else (e.va.at 0).setWidth 64
  src := if k == .cpy || k == .cpym then e.b64 0 else (e.vb.at 0).setWidth 64
  len := e.cLen
  robj := (e.cObj.toNat % 2 ^ 16) * 16
  sobj := (e.cObj.toNat / 2 ^ 16) * 16
  dstBlks := blks
  data := if k == .cpy || k == .cpym then e.b64 0 else 0

/-- The cohort that has posted a copy. -/
def Cohort.postsCopy (co : Cohort) (c : Copy) : Cohort :=
  { co.ocPost 0 c.id with wptrs := co.wptrs.put c.ch { copy := c.id, s := c.dst.setWidth 32, n := c.len } }

/-- The copy at the end of its channel. -/
def Env.copyQueued (t : State) (c : Copy) : State :=
  State.setChan { t with nextId := t.nextId + 1 } e.core c.ch ((t.core e.core).chan c.ch ++ [c])

/-- The state in which a copy has been posted: at its channel's end, counted, its receivers' objects known (R48). -/
def Env.copyPosted (t : State) (c : Copy) : State :=
  State.updCohort (if c.rcv then c.dstBlks.foldl (fun s b => s.updBlock b (·.noteObj c.robj)) (e.copyQueued t c) else e.copyQueued t c)
    e.slot (·.postsCopy c)

theorem Env.copyPosted_eq (t : State) (c : Copy) :
    ∃ m, e.copyPosted t c = State.updCohort { e.copyQueued t c with blocks := m } e.slot (·.postsCopy c) := by
  obtain ⟨m, hm⟩ := State.foldl_updBlock (·.noteObj c.robj) c.dstBlks (e.copyQueued t c)
  unfold Env.copyPosted
  cases c.rcv with
  | true => exact ⟨m, congrArg (fun s => State.updCohort s e.slot (·.postsCopy c)) hm⟩
  | false => exact ⟨(e.copyQueued t c).blocks, rfl⟩

end

theorem Env.wallet_copyQueued (e : Env) (t : State) (c : Copy) : ((e.copyQueued t c).core e.core).wallet = (t.core e.core).wallet := by
  rw [Env.copyQueued, State.core_setChan_frame]
  rfl

theorem Env.chan_copyQueued (e : Env) (t : State) (c : Copy) :
    ((e.copyQueued t c).core e.core).chan c.ch = (t.core e.core).chan c.ch ++ [c] := State.chan_setChan ..

theorem Cohort.ocCount_postsCopy (co : Cohort) (c : Copy) : (co.postsCopy c).ocCount 0 = co.ocCount 0 + 1 := co.ocCount_ocPost 0 c.id

theorem Cohort.ptr_postsCopy (co : Cohort) (c : Copy) : (co.postsCopy c).ptr c.ch = c.dst.setWidth 32 := by
  have hlook : (co.postsCopy c).wptrs.look c.ch = some { copy := c.id, s := c.dst.setWidth 32, n := c.len } := SMap.look_put_self ..
  simp only [Cohort.ptr, hlook]
  exact BitVec.add_zero _

/-- The copy instructions share one description. -/
theorem bodyOf_copy {e : Env} {k : CopyKind} (hc : e.cell = Cells.cpy ∧ k = .cpy ∨ e.cell = Cells.cpym ∧ k = .cpym ∨
    e.cell = Cells.cpyo ∧ k = .cpyo ∨ e.cell = Cells.cpyp ∧ k = .cpyp) : bodyOf e.cell.opc e = e.copyOp k := by
  rcases hc with ⟨h, rfl⟩ | ⟨h, rfl⟩ | ⟨h, rfl⟩ | ⟨h, rfl⟩ <;> rw [h] <;> rfl

/-- A copy instruction where its kind may not stand: outside a gang, or in a run that is not allowed it (R268, R270). -/
def Env.copyMisplaced (e : Env) (k : CopyKind) : Bool :=
  match k with
  | .cpy => false
  | .cpym => e.blk.member.isNone || e.surr
  | .cpyo => e.buffered
  | .cpyp => e.buffered || e.blk.member.isNone

theorem Env.copyMisplaced_false {e : Env} {k : CopyKind} (hm : k = .cpym → e.blk.member.isSome = true ∧ e.surr = false)
    (ho : k = .cpyo → e.buffered = false) (hp : k = .cpyp → e.blk.member.isSome = true ∧ e.buffered = false) :
    e.copyMisplaced k = false := by
  cases k with
  | cpy => rfl
  | cpym => rw [Env.copyMisplaced, Option.isNone_eq_false_iff.2 (hm rfl).1, (hm rfl).2]; rfl
  | cpyo => exact ho rfl
  | cpyp => rw [Env.copyMisplaced, Option.isNone_eq_false_iff.2 (hp rfl).1, (hp rfl).2]; rfl

/-- A copy whose checks pass pays and is posted. -/
theorem Env.copyOp_posts {s : State} {i : Instr} {e : Env} (h : s.envFor i = some e) {k : CopyKind}
    (hm : k = .cpym → e.blk.member.isSome = true ∧ e.surr = false) (ho : k = .cpyo → e.buffered = false)
    (hp : k = .cpyp → e.blk.member.isSome = true ∧ e.buffered = false) (ha : e.fieldU (k == .cpyo) e.w.a.toNat = true)
    (hb : e.fieldU (k == .cpy || k == .cpym) e.w.b.toNat = true) (hc : e.fieldU (e.cRcv || e.cSnd) e.w.c.toNat = true)
    (hal : e.cDec = true → e.cLen % 2 = 0 ∧ (e.va.at 0).toNat % 2 = 0) (hd : e.copyDesc k = none)
    (hmem : ∀ m ∈ e.copyMembers k, (s.memberBlock e.co.blk e.blk m).isSome = true) (hn : e.co.ocCount 0 < 63)
    (hpay : e.canPay (2 * cdiv e.cLen 4096)) : ∃ t blks, e.Paid t ∧ e.s.PaidBy e.slot (2 * cdiv e.cLen 4096) t ∧
      e.copyOp k = .ok (e.copyPosted t (e.copyNew k t.nextId blks)) := by
  obtain ⟨t, ht, hpaid, hk⟩ := Env.afterPaying_pays h (needs := [(.counter, e.co.ocCount 0 < 63)]) (by simpa using hn) hpay
  obtain ⟨rfl, -⟩ := envFor_facts h
  have htargets : (((e.copyMembers k).map (t.memberBlock e.co.blk e.blk)).any (·.isNone)) = false := by
    have hblocks := ht.blocks
    rw [List.any_eq_false]
    intro x hx
    obtain ⟨m, hm, rfl⟩ := List.mem_map.1 hx
    have hsome := hmem m hm
    rw [State.memberBlock, ← hblocks] at hsome
    exact Bool.not_eq_true _ ▸ Option.isNone_eq_false_iff.2 hsome
  have hlen : (e.cDec && e.cLen % 2 != 0) = false := by
    cases hdec : e.cDec with
    | false => rfl
    | true => simp [(hal hdec).1]
  have hdst : (e.cDec && (e.va.at 0).toNat % 2 != 0) = false := by
    cases hdec : e.cDec with
    | false => rfl
    | true => simp [(hal hdec).2]
  have hshape : (!(e.fieldU (k == .cpyo) e.w.a.toNat && e.fieldU (k == .cpy || k == .cpym) e.w.b.toNat &&
      e.fieldU (e.cRcv || e.cSnd) e.w.c.toNat)) = false := by
    rw [ha, hb, hc]
    rfl
  refine ⟨t, if k == .cpy then [e.co.blk] else ((e.copyMembers k).map (t.memberBlock e.co.blk e.blk)).filterMap (fun t => t.map (·.1)),
    ht, hpaid, ?_⟩
  have hcontext := Env.copyMisplaced_false hm ho hp
  unfold Env.copyOp
  refine (if_neg ?_).trans ?_
  · exact fun hbad => Bool.false_ne_true (hcontext.symm.trans hbad)
  · simp only [hshape, hlen, hdst, hd, hk, htargets, Bool.false_eq_true, if_false]
    rfl

/-- Settles O35: the copy that `Env.copyOp_posts` gives stands at the end of its channel, and its cohort's pointer at its start. -/
theorem copiesArePosted : Obligations.CopiesArePosted := by
  unfold Obligations.CopiesArePosted
  intro s i e k h hk hm ho hp ha hb hc hal hd hmem hn hpay
  obtain ⟨t, blks, ⟨⟨ws, hws⟩, -, -, hbytes⟩, hpaid, hbody⟩ := Env.copyOp_posts h.env hm ho hp ha hb hc hal hd hmem hn hpay
  have hexec := exec_passes h
  obtain ⟨m, hposted⟩ := e.copyPosted_eq t (e.copyNew k t.nextId blks)
  rw [bodyOf_copy hk, hbody, finish_ok, hposted] at hexec
  obtain ⟨rfl, -⟩ := envFor_facts h.env
  refine ⟨_, _, e.copyNew k t.nextId blks, hexec, Env.posted_completes h.env (State.cohort_updCohort_some hws _) rfl
    (Cohort.ocCount_postsCopy ..) hbytes, ?_, ?_, rfl, rfl, rfl, rfl, rfl, rfl, ?_, ?_, Cohort.ptr_postsCopy _ _⟩
  · exact (e.wallet_copyQueued t (e.copyNew k t.nextId blks)).trans hpaid.wallet
  · refine (e.chan_copyQueued t (e.copyNew k t.nextId blks)).trans ?_
    exact congrArg (fun m : SMap (List Copy) => m.get e.w.d.toNat [] ++ _) (hpaid.chans e.core)
  · exact if_congr beq_iff_eq rfl rfl
  · exact if_congr (by simp) rfl rfl

end Sys2Proof.Machine

/-! PROOFS. Copy channels (O50), the source: the next data byte of a decodable page, and what a channel reads for a unit. -/

namespace Sys2Proof.Machine

/-! ### The next data byte (R89, R90, R271) -/

/-- A format without scales, or one whose data blocks are not empty. -/
theorem qfmtOf_block {a : Nat} {q : QFmt} (h : qfmtOf a = some q) : q.efmt = 3 ∨ q.efmt = 4 ∨ 0 < q.b := by
  simp only [qfmtOf] at h
  split at h
  · cases h
  · split at h
    · next h34 =>
      split at h
      · cases h
        rw [Bool.or_eq_true, decide_eq_true_eq, decide_eq_true_eq] at h34
        exact h34.elim .inl (fun h => .inr (.inl h))
      · cases h
    · split at h
      · cases h
      · cases h
        exact .inr (.inr (Nat.mul_pos (by decide) (Nat.two_pow_pos _)))

theorem QFmt.isData_plain {q : QFmt} (h : q.efmt = 3 ∨ q.efmt = 4) (off size : Nat) : q.isData off size = true := by
  rcases h with h | h <;> simp [QFmt.isData, h]

theorem QFmt.isData_iff {q : QFmt} (h3 : q.efmt ≠ 3) (h4 : q.efmt ≠ 4) (off size : Nat) :
    q.isData off size = true ↔ off / q.unit < size / q.unit ∧ off % q.unit < q.b := by
  simp [QFmt.isData, h3, h4]

/-- Where the next data byte of a unit's page stands, of one at offset `off`: `n` is its offset, or the page's size. -/
structure QFmt.NextAfter (q : QFmt) (size off n : Nat) : Prop where
  later : off < n
  within : n ≤ size
  data : n < size → q.isData n size = true
  first : ∀ a, off < a → a < n → q.isData a size = false

theorem QFmt.nextAfter_plain {q : QFmt} (h : q.efmt = 3 ∨ q.efmt = 4) {size off : Nat} (hin : off < size) :
    q.NextAfter size off (off + 1) :=
  ⟨Nat.lt_succ_self _, hin, fun _ => q.isData_plain h _ _, fun a _ _ => by omega⟩

/-- Past the last data byte of a unit no offset of it is a data byte's. -/
theorem QFmt.isData_rest {q : QFmt} (h3 : q.efmt ≠ 3) (h4 : q.efmt ≠ 4) {size off : Nat} (hj : q.b ≤ off % q.unit + 1) {a : Nat} (ha : off < a)
    (hlt : a < (off / q.unit + 1) * q.unit) :
    q.isData a size = false := by
  have hu : q.b ≤ q.unit := Nat.le_add_right _ _
  have hoff := Nat.div_add_mod off q.unit
  have hdiv : a / q.unit = off / q.unit := by
    refine Nat.div_eq_of_lt_le ?_ hlt
    rw [Nat.mul_comm]
    omega
  have hmod := Nat.div_add_mod a q.unit
  rw [hdiv] at hmod
  refine Bool.eq_false_iff.2 fun hd => ?_
  have := ((QFmt.isData_iff h3 h4 _ _).1 hd).2
  omega

theorem QFmt.nextAfter_unit {q : QFmt} (h3 : q.efmt ≠ 3) (h4 : q.efmt ≠ 4) (hb : 0 < q.b) {size off : Nat} (hj : q.b ≤ off % q.unit + 1)
    (hi : off / q.unit + 1 < size / q.unit) :
    q.NextAfter size off ((off / q.unit + 1) * q.unit) := by
  have hu : q.b ≤ q.unit := Nat.le_add_right _ _
  refine ⟨Nat.lt_mul_of_div_lt (Nat.lt_succ_self _) (by omega), ?_, fun _ => ?_, fun a ha hlt => QFmt.isData_rest h3 h4 hj ha hlt⟩
  · exact (Nat.mul_le_mul_right _ hi.le).trans (Nat.div_mul_le_self _ _)
  · rw [QFmt.isData_iff h3 h4, Nat.mul_div_cancel _ (by omega), Nat.mul_mod_left]
    exact ⟨hi, hb⟩

section
variable {q : QFmt} (h3 : q.efmt ≠ 3) (h4 : q.efmt ≠ 4) (hb : 0 < q.b) {size off : Nat} (hin : off < size)
include h3 h4 hb hin

theorem QFmt.nextAfter_same (hd : q.isData off size = true) (hj : off % q.unit + 1 < q.b) : q.NextAfter size off (off + 1) := by
  have hu : q.b ≤ q.unit := Nat.le_add_right _ _
  have hoff := Nat.div_add_mod off q.unit
  refine ⟨Nat.lt_succ_self _, hin, fun _ => ?_, fun a _ _ => by omega⟩
  rw [QFmt.isData_iff h3 h4] at hd ⊢
  have hnext : off + 1 = q.unit * (off / q.unit) + (off % q.unit + 1) := by omega
  have hlt : off % q.unit + 1 < q.unit := hj.trans_le hu
  rw [hnext, Nat.mul_add_div (by omega), Nat.mul_add_mod, Nat.mod_eq_of_lt hlt, Nat.div_eq_of_lt hlt]
  exact ⟨by simpa using hd.1, hj⟩

theorem QFmt.nextAfter_end (hj : q.b ≤ off % q.unit + 1) (hi : size / q.unit ≤ off / q.unit + 1) : q.NextAfter size off size := by
  have hu : q.b ≤ q.unit := Nat.le_add_right _ _
  refine ⟨hin, le_rfl, fun h => absurd h (lt_irrefl _), fun a ha _ => ?_⟩
  by_cases hlt : a < (off / q.unit + 1) * q.unit
  · exact QFmt.isData_rest h3 h4 hj ha hlt
  · refine Bool.eq_false_iff.2 fun hd => ?_
    have hdiv := ((QFmt.isData_iff h3 h4 _ _).1 hd).1
    have hle : off / q.unit + 1 ≤ a / q.unit := (Nat.le_div_iff_mul_le (by omega)).2 (Nat.not_lt.1 hlt)
    omega

end

/-- The channel goes on at the page's next data byte (R271). -/
theorem QFmt.nextData_spec {q : QFmt} {x : Xlat} {va : Nat} (hq : q.efmt = 3 ∨ q.efmt = 4 ∨ 0 < q.b) (hlo : x.page ≤ va)
    (hhi : va < x.page + x.size) (hd : q.isData (va - x.page) x.size = true) :
    ∃ n, q.nextData x va = x.page + n ∧ q.NextAfter x.size (va - x.page) n := by
  have hin : va - x.page < x.size := by omega
  by_cases hplain : q.efmt = 3 ∨ q.efmt = 4
  · refine ⟨va - x.page + 1, ?_, QFmt.nextAfter_plain hplain hin⟩
    have hcond : (q.efmt == 3 || q.efmt == 4 || decide ((va - x.page) % q.unit + 1 < q.b)) = true := by
      rcases hplain with h | h <;> simp [h]
    rw [QFmt.nextData, if_pos hcond]
    omega
  · have h3 : q.efmt ≠ 3 := fun h => hplain (.inl h)
    have h4 : q.efmt ≠ 4 := fun h => hplain (.inr h)
    have hb : 0 < q.b := (hq.resolve_left h3).resolve_left h4
    have hcond : (q.efmt == 3 || q.efmt == 4 || decide ((va - x.page) % q.unit + 1 < q.b)) =
        decide ((va - x.page) % q.unit + 1 < q.b) := by simp [h3, h4]
    rw [QFmt.nextData, hcond]
    by_cases hj : (va - x.page) % q.unit + 1 < q.b
    · refine ⟨va - x.page + 1, ?_, QFmt.nextAfter_same h3 h4 hb hin hd hj⟩
      rw [if_pos (decide_eq_true hj)]
      omega
    · rw [if_neg (by simpa using hj)]
      by_cases hi : (va - x.page) / q.unit + 1 < x.size / q.unit
      · exact ⟨_, if_pos hi, QFmt.nextAfter_unit h3 h4 hb (Nat.not_lt.1 hj) hi⟩
      · exact ⟨_, if_neg hi, QFmt.nextAfter_end h3 h4 hb hin (Nat.not_lt.1 hj) (Nat.not_lt.1 hi)⟩

/-! ### What a channel reads (R100, R103, R271) -/

section
variable {s : State} {core : Nat} {c : Copy} {b : Block} (hb : s.block c.blk = some b)
include hb

theorem State.copyRead_scratchpad (hk : c.kind = .cpyo ∨ c.kind = .cpyp) :
    s.copyRead core c = .ok ([bufAt (s.core b.core).asp (b.aspBase + c.src.toNat + c.prog)], 0, 0) := by
  rw [Nat.add_assoc]
  rcases hk with hk | hk <;> simp only [State.copyRead, hb, hk] <;> rfl

theorem State.copyRead_memory {x : Xlat} (hk : c.kind = .cpy ∨ c.kind = .cpym) (hd : c.dec = false)
    (hx : s.translate (s.coreTlbs core) b.vf (c.src + BitVec.ofNat 64 c.prog) .read = .ok x) :
    s.copyRead core c = .ok ([s.physByte (s.vf b.vf).key x.pa], 0, 0) := by
  rcases hk with hk | hk <;> simp only [State.copyRead, hb, hk, hd, hx, Bool.false_eq_true, if_false]

/-- A unit in decode mode, when its data byte and its scale entry translate. -/
theorem State.copyRead_decode {x y : Xlat} {q : QFmt} (hk : c.kind = .cpy ∨ c.kind = .cpym) (hd : c.dec = true)
    (hx : s.translate (s.coreTlbs core) b.vf c.data .read = .ok x) (hq : qfmtOf x.fattr = some q)
    (hdata : q.isData (c.data.toNat - x.page) x.size = true)
    (hy : q.efmt ≤ 2 → s.translate (s.coreTlbs core) b.vf
      (BitVec.ofNat 64 (x.page + q.scaleOff (c.data.toNat - x.page) c.half)) .read = .ok y) :
    s.copyRead core c = .ok (bytesLE 2 (roundFmt fmtBf .rne false false (v32 (q.decode (s.physByte (s.vf b.vf).key x.pa).toNat c.half
        (if q.efmt ≤ 2 then leNat (s.physRead (s.vf b.vf).key y.pa 4) else 0)))).bits,
      if q.efmt = 2 ∧ c.half = 0 then (c.data, 1) else (BitVec.ofNat 64 (q.nextData x c.data.toNat), 0)) := by
  have hentry : ∃ z, s.translate (s.coreTlbs core) b.vf
      (if q.efmt ≤ 2 then BitVec.ofNat 64 (x.page + q.scaleOff (c.data.toNat - x.page) c.half) else c.data) .read = .ok z ∧
        (if q.efmt ≤ 2 then leNat (s.physRead (s.vf b.vf).key z.pa 4) else 0) =
          if q.efmt ≤ 2 then leNat (s.physRead (s.vf b.vf).key y.pa 4) else 0 := by
    by_cases hs : q.efmt ≤ 2
    · exact ⟨y, by rw [if_pos hs, hy hs], rfl⟩
    · exact ⟨x, by rw [if_neg hs, hx], by rw [if_neg hs, if_neg hs]⟩
  obtain ⟨z, hz, hentry⟩ := hentry
  have hstep : (if (decide (q.efmt = 2) && decide (c.half = 0)) = true then (c.data, 1)
      else (BitVec.ofNat 64 (q.nextData x c.data.toNat), 0)) =
        if q.efmt = 2 ∧ c.half = 0 then (c.data, 1) else (BitVec.ofNat 64 (q.nextData x c.data.toNat), 0) :=
    if_congr (by simp) rfl rfl
  rcases hk with hk | hk <;>
    simp only [State.copyRead, hb, hk, hd, hx, hq, hdata, hz, hentry, if_true, Bool.not_true, Bool.false_eq_true, if_false] <;>
    rw [← hstep]

end

end Sys2Proof.Machine

/-! PROOFS. Copy channels (O50), the destinations: units that land in the scratchpads or weight buffers of the destination blocks, the
objects lowered, and the write pointer. -/

namespace Sys2Proof.Machine

/-! ### The blocks of a list of numbers -/

/-- A step for every block that a list of numbers names, of steps that leave the blocks as they are. -/
theorem foldl_blocks {f : State → Block → State} (hf : ∀ s d, (f s d).blocks = s.blocks) (bis : List Nat) (s : State) :
    bis.foldl (fun s bi => match s.block bi with
      | none => s
      | some d => f s d) s = (bis.filterMap s.block).foldl f s := by
  induction bis generalizing s with
  | nil => rfl
  | cons bi bis ih =>
    rw [List.foldl_cons, ih, List.filterMap_cons]
    cases hb : s.block bi with
    | none => rfl
    | some d =>
      have hblock : (f s d).block = s.block := congrArg SMap.look (hf s d)
      simp only [hblock, List.foldl_cons]

/-- Of steps for the members of a list, only one of which touches what is read, that one counts. -/
theorem foldl_once {σ α β : Type} {step : σ → α → σ} {read : σ → β} {g : β → β} {ls : List α} (hn : ls.Nodup) {a : α} (ha : a ∈ ls)
    (hself : ∀ s, read (step s a) = g (read s)) (hother : ∀ s, ∀ b ∈ ls, b ≠ a → read (step s b) = read s) (s : σ) :
    read (ls.foldl step s) = g (read s) := by
  induction ls generalizing s with
  | nil => cases ha
  | cons b ls ih =>
    obtain ⟨hb, hn⟩ := List.nodup_cons.1 hn
    rw [List.foldl_cons]
    by_cases hba : b = a
    · subst hba
      rw [foldl_untouched _ fun s x hx => hother s x (List.mem_cons_of_mem _ hx) fun h => hb (h ▸ hx), hself]
    · rw [ih hn ((List.mem_cons.1 ha).resolve_left (Ne.symm hba)) (fun s x hx => hother s x (List.mem_cons_of_mem _ hx)),
        hother s b List.mem_cons_self hba]

/-- The blocks stand on cores of their own. -/
def CoresApart (ds : List Block) : Prop := ds.Pairwise (fun x y => x.core ≠ y.core)

theorem CoresApart.nodup {ds : List Block} (h : CoresApart ds) : ds.Nodup := h.imp fun hc heq => hc (congrArg Block.core heq)

theorem CoresApart.ne {ds : List Block} (h : CoresApart ds) {x y : Block} (hx : x ∈ ds) (hy : y ∈ ds) (hne : x ≠ y) : x.core ≠ y.core := by
  have hsymm : Std.Symm (fun x y : Block => x.core ≠ y.core) := ⟨fun _ _ => Ne.symm⟩
  exact List.Pairwise.forall h hx hy hne

theorem CoresApart.eq {ds : List Block} (h : CoresApart ds) {x y : Block} (hx : x ∈ ds) (hy : y ∈ ds) (hc : x.core = y.core) : x = y :=
  by_contra fun hne => h.ne hx hy hne hc

theorem coresApart_filterMap {s : State} {bis : List Nat}
    (h : bis.Pairwise (fun x y => ∀ dx dy, s.block x = some dx → s.block y = some dy → dx.core ≠ dy.core)) :
    CoresApart (bis.filterMap s.block) :=
  List.pairwise_filterMap.2 (h.imp fun hxy dx hdx dy hdy => hxy dx dy hdx hdy)

/-! ### A unit that lands (R100, R102) -/

theorem State.bufAt_wbfWrite (s : State) (b : Block) (off : Nat) (bs : List Byte) (c a : Nat) :
    bufAt ((s.wbfWrite b off bs).core c).wbf a =
      if c = b.core ∧ b.wbfBase + off ≤ a ∧ a < b.wbfBase + off + bs.length then bs.getD (a - (b.wbfBase + off)) 0
      else bufAt (s.core c).wbf a := by
  rw [State.wbfWrite, State.core_updCore]
  by_cases hc : c = b.core
  · rw [if_pos hc, bufAt_bufWrite, hc]
    exact if_congr (by simp) rfl rfl
  · rw [if_neg hc, if_neg (fun h => hc h.1)]

/-- Of a core a write to a weight buffer changes the weight buffer's bytes only. -/
theorem State.core_wbfWrite_frame (s : State) (b : Block) (off : Nat) (bs : List Byte) (c : Nat) :
    { (s.wbfWrite b off bs).core c with wbf := (s.core c).wbf } = s.core c := by
  rw [State.wbfWrite, State.core_updCore]
  split
  · next h => rw [h]
  · rfl

/-- The buffer that a copy writes, of a core. -/
def Copy.buf (c : Copy) (x : Core) : List Host.Cell := if c.toWbf then x.wbf else x.asp

/-- The offset of a copy's next unit in the destination allocation. -/
def Copy.offset (c : Copy) : Nat := (if c.kind = .cpyp then c.dst.toNat % 2 ^ 22 else c.dst.toNat) + c.prog

/-- The place of a copy's next unit in the buffer of a destination block's core. -/
def Copy.place (c : Copy) (d : Block) : Nat := (if c.toWbf then d.wbfBase else d.aspBase) + c.offset

/-- A unit landed at one destination block. -/
def State.land (c : Copy) (bs : List Byte) (s : State) (d : Block) : State :=
  if c.toWbf then s.wbfWrite d c.offset bs else s.aspWrite d c.offset bs

section
variable (c : Copy) (bs : List Byte) (s : State) (d : Block)

theorem State.bufAt_land (k a : Nat) : bufAt (c.buf ((s.land c bs d).core k)) a =
    if k = d.core ∧ c.place d ≤ a ∧ a < c.place d + bs.length then bs.getD (a - c.place d) 0 else bufAt (c.buf (s.core k)) a := by
  unfold State.land Copy.buf Copy.place
  cases c.toWbf with
  | true => exact s.bufAt_wbfWrite d c.offset bs k a
  | false => exact s.bufAt_aspWrite d c.offset bs k a

theorem State.land_frame : { s.land c bs d with cores := s.cores } = s := by
  unfold State.land
  split <;> rfl

theorem State.core_land_frame (k : Nat) :
    { (s.land c bs d).core k with asp := (s.core k).asp, wbf := (s.core k).wbf } = s.core k := by
  unfold State.land
  split
  · have h := congrArg (fun x : Core => { x with asp := (s.core k).asp }) (s.core_wbfWrite_frame d c.offset bs k)
    exact h
  · have h := congrArg (fun x : Core => { x with wbf := (s.core k).wbf }) (s.core_aspWrite_frame d c.offset bs k)
    exact h

theorem State.blocks_land : (s.land c bs d).blocks = s.blocks := by
  have h := congrArg State.blocks (s.land_frame c bs d)
  exact h

theorem State.chan_land (k ch : Nat) : ((s.land c bs d).core k).chan ch = (s.core k).chan ch := by
  have h := congrArg (fun x : Core => x.chan ch) (s.core_land_frame c bs d k)
  exact h

/-- A byte of a scratchpad that the unit does not take stays. -/
theorem State.asp_land {k a : Nat} (h : c.toWbf = false → ¬ (k = d.core ∧ c.place d ≤ a ∧ a < c.place d + bs.length)) :
    bufAt ((s.land c bs d).core k).asp a = bufAt (s.core k).asp a := by
  cases hw : c.toWbf with
  | true =>
    unfold State.land
    rw [if_pos hw]
    have h := congrArg (fun x : Core => bufAt x.asp a) (s.core_wbfWrite_frame d c.offset bs k)
    exact h
  | false =>
    have hland := s.bufAt_land c bs d k a
    unfold Copy.buf at hland
    rw [hw, if_neg (h hw)] at hland
    exact hland

/-- A unit landed at destination blocks, one after another. -/
def State.landAll (ds : List Block) : State := ds.foldl (State.land c bs) s

variable {c bs s} {ds : List Block}

theorem State.bufAt_landAll (hap : CoresApart ds) {d : Block} (hd : d ∈ ds) {i : Nat} (hi : i < bs.length) :
    bufAt (c.buf ((s.landAll c bs ds).core d.core)) (c.place d + i) = bs.getD i 0 := by
  refine foldl_last (read := fun s : State => bufAt (c.buf (s.core d.core)) (c.place d + i)) hap hd (fun s => ?_) (fun s k _ hk => ?_) s
  · rw [State.bufAt_land, if_pos (by omega), Nat.add_sub_cancel_left]
  · rw [State.bufAt_land, if_neg fun h => hk h.1]

theorem State.bufAt_landAll_miss {k a : Nat} (h : ∀ d ∈ ds, ¬ (k = d.core ∧ c.place d ≤ a ∧ a < c.place d + bs.length)) :
    bufAt (c.buf ((s.landAll c bs ds).core k)) a = bufAt (c.buf (s.core k)) a :=
  foldl_untouched (read := fun s : State => bufAt (c.buf (s.core k)) a) s fun s d hd => (s.bufAt_land c bs d k a).trans (if_neg (h d hd))

theorem State.asp_landAll {k a : Nat} (h : c.toWbf = false → ∀ d ∈ ds, ¬ (k = d.core ∧ c.place d ≤ a ∧ a < c.place d + bs.length)) :
    bufAt ((s.landAll c bs ds).core k).asp a = bufAt (s.core k).asp a :=
  foldl_untouched (read := fun s : State => bufAt (s.core k).asp a) s fun s d hd => s.asp_land c bs d fun hw => h hw d hd

theorem State.landAll_frame : { s.landAll c bs ds with cores := s.cores } = s := by
  unfold State.landAll
  induction ds generalizing s with
  | nil => rfl
  | cons d ds ih =>
    have h := congrArg (fun t : State => { t with cores := s.cores }) (ih (s := s.land c bs d))
    exact h.trans (s.land_frame c bs d)

theorem State.chan_landAll (k ch : Nat) : ((s.landAll c bs ds).core k).chan ch = (s.core k).chan ch :=
  foldl_untouched (read := fun s : State => (s.core k).chan ch) s fun s d _ => s.chan_land c bs d k ch

end

theorem State.copyWrite_blocks {s : State} {core : Nat} {c : Copy} (hk : c.kind ≠ .cpyo) (bs : List Byte) :
    s.copyWrite core c bs = .ok (s.landAll c bs (c.dstBlks.filterMap s.block)) := by
  have hoff : (if c.kind = .cpyp then peerOffset (c.dst.setWidth 32) else c.dst.toNat) + c.prog = c.offset := by
    rw [Copy.offset, peerOffset, BitVec.toNat_setWidth, Nat.mod_mod_of_dvd _ (by decide)]
  have hfold := foldl_blocks (f := State.land c bs) (State.blocks_land c bs) c.dstBlks s
  unfold State.copyWrite
  split
  · next hc => exact absurd hc hk
  · rw [State.landAll, ← hfold, hoff]
    rfl

/-! ### An object lowered (R107) -/

/-- The object with one less in IN or OUT. -/
def Bar.lowered (o : Bar) (isIn : Bool) : Bar := if isIn then { o with inn := o.inn - 1 } else { o with out := o.out - 1 }

theorem Bar.Fits.lowered {o : Bar} (h : o.Fits) (isIn : Bool) : (o.lowered isIn).Fits := by
  cases isIn with
  | true => exact { h with inn := (Nat.sub_le _ _).trans_lt h.inn }
  | false => exact { h with out := (Nat.sub_le _ _).trans_lt h.out }

theorem Bar.after_lowered_out {o : Bar} (h : 1 ≤ o.out) : o.after (o.lowered false) =
    if o.pend = 0 ∧ o.inn = 0 ∧ o.out = 1 then { o with gen := (o.gen + 1) % 16, pend := o.exp, out := 0 } else { o with out := o.out - 1 } := by
  have hdue : o.due = false := by
    rw [Bool.eq_false_iff]
    intro hd
    obtain ⟨-, -, hout⟩ := o.due_iff.1 hd
    omega
  rw [Bar.after_eq hdue]
  show (if o.pend = 0 ∧ o.inn = 0 ∧ o.out - 1 = 0 then _ else _) = _
  by_cases hlast : o.pend = 0 ∧ o.inn = 0 ∧ o.out = 1
  · rw [if_pos hlast, if_pos (by omega)]
    simp [Bar.lowered, hlast.2.2]
  · rw [if_neg hlast, if_neg (by omega)]
    rfl

theorem Bar.after_lowered_in {o : Bar} (h : 1 ≤ o.inn) : o.after (o.lowered true) =
    if o.pend = 0 ∧ o.inn = 1 ∧ o.out = 0 then { o with gen := (o.gen + 1) % 16, pend := o.exp, inn := 0 } else { o with inn := o.inn - 1 } := by
  have hdue : o.due = false := by
    rw [Bool.eq_false_iff]
    intro hd
    obtain ⟨-, hin, -⟩ := o.due_iff.1 hd
    omega
  rw [Bar.after_eq hdue]
  show (if o.pend = 0 ∧ o.inn - 1 = 0 ∧ o.out = 0 then _ else _) = _
  by_cases hlast : o.pend = 0 ∧ o.inn = 1 ∧ o.out = 0
  · rw [if_pos hlast, if_pos (by omega)]
    simp [Bar.lowered, hlast.2.1]
  · rw [if_neg hlast, if_neg (by omega)]
    rfl

/-- The object of one block lowered. -/
def State.lower (off : Nat) (isIn : Bool) (s : State) (d : Block) : State :=
  s.barUpdate d off (s.bar d off) ((s.bar d off).lowered isIn)

theorem State.barDecrement_eq (s : State) (bi off : Nat) (isIn : Bool) : s.barDecrement bi off isIn =
    match s.block bi with
    | none => s
    | some d => s.lower off isIn d := rfl

section
variable (off : Nat) (isIn : Bool) (s : State) (d : Block)

theorem State.bar_lower : (s.lower off isIn d).bar d off = (s.bar d off).after ((s.bar d off).lowered isIn) := by
  obtain ⟨cs, hcs⟩ := s.barUpdate_eq d off (s.bar d off) ((s.bar d off).lowered isIn)
  rw [State.lower, hcs]
  exact State.bar_setBar _ d off ((s.fits_bar d off).lowered isIn).after

theorem State.asp_lower {k a : Nat} (h : k ≠ d.core ∨ a < d.aspBase + off ∨ d.aspBase + off + 16 ≤ a) :
    bufAt ((s.lower off isIn d).core k).asp a = bufAt (s.core k).asp a := by
  obtain ⟨cs, hcs⟩ := s.barUpdate_eq d off (s.bar d off) ((s.bar d off).lowered isIn)
  rw [State.lower, hcs]
  exact State.bufAt_setBar_other _ d off _ h

theorem State.lower_frame : { s.lower off isIn d with cores := s.cores, clusters := s.clusters } = s := by
  obtain ⟨cs, hcs⟩ := s.barUpdate_eq d off (s.bar d off) ((s.bar d off).lowered isIn)
  rw [State.lower, hcs]
  rfl

theorem State.core_lower_frame (k : Nat) : { (s.lower off isIn d).core k with asp := (s.core k).asp } = s.core k := by
  obtain ⟨cs, hcs⟩ := s.barUpdate_eq d off (s.bar d off) ((s.bar d off).lowered isIn)
  rw [State.lower, hcs]
  exact State.core_aspWrite_frame ..

theorem State.blocks_lower : (s.lower off isIn d).blocks = s.blocks := by
  have h := congrArg State.blocks (s.lower_frame off isIn d)
  exact h

theorem State.wbf_lower (k : Nat) : ((s.lower off isIn d).core k).wbf = (s.core k).wbf := by
  have h := congrArg Core.wbf (s.core_lower_frame off isIn d k)
  exact h

theorem State.chan_lower (k ch : Nat) : ((s.lower off isIn d).core k).chan ch = (s.core k).chan ch := by
  have h := congrArg (fun x : Core => x.chan ch) (s.core_lower_frame off isIn d k)
  exact h

/-- The objects of blocks lowered, one after another. -/
def State.lowerAll (ds : List Block) : State := ds.foldl (State.lower off isIn) s

variable {off isIn s} {ds : List Block}

theorem State.bar_lowerAll (hap : CoresApart ds) {d : Block} (hd : d ∈ ds) :
    (s.lowerAll off isIn ds).bar d off = (s.bar d off).after ((s.bar d off).lowered isIn) :=
  foldl_once (read := fun s : State => s.bar d off) (g := fun o => o.after (o.lowered isIn)) hap.nodup hd
    (fun s => s.bar_lower off isIn d)
    (fun s x hx hne => State.bar_congr fun _ _ => s.asp_lower off isIn x (.inl (hap.ne hd hx (Ne.symm hne)))) s

theorem State.asp_lowerAll {k a : Nat} (h : ∀ d ∈ ds, k ≠ d.core ∨ a < d.aspBase + off ∨ d.aspBase + off + 16 ≤ a) :
    bufAt ((s.lowerAll off isIn ds).core k).asp a = bufAt (s.core k).asp a :=
  foldl_untouched (read := fun s : State => bufAt (s.core k).asp a) s fun s d hd => s.asp_lower off isIn d (h d hd)

theorem State.wbf_lowerAll (k : Nat) : ((s.lowerAll off isIn ds).core k).wbf = (s.core k).wbf :=
  foldl_untouched (read := fun s : State => (s.core k).wbf) s fun s d _ => s.wbf_lower off isIn d k

theorem State.chan_lowerAll (k ch : Nat) : ((s.lowerAll off isIn ds).core k).chan ch = (s.core k).chan ch :=
  foldl_untouched (read := fun s : State => (s.core k).chan ch) s fun s d _ => s.chan_lower off isIn d k ch

theorem State.lowerAll_frame : { s.lowerAll off isIn ds with cores := s.cores, clusters := s.clusters } = s := by
  unfold State.lowerAll
  induction ds generalizing s with
  | nil => rfl
  | cons d ds ih =>
    have h := congrArg (fun t : State => { t with cores := s.cores, clusters := s.clusters }) (ih (s := s.lower off isIn d))
    exact h.trans (s.lower_frame off isIn d)

end

/-! ### The write pointer (R101) -/

/-- The posting cohort's pointer for the copy's channel: it follows the copy while that is the channel's newest. -/
theorem State.cohort_notePtr {s : State} {c : Copy} {co : Cohort} (hco : s.cohort c.slot = some co) (n : Nat) :
    ∃ co', (s.notePtr c n).cohort c.slot = some co' ∧ co' = { co with wptrs := co'.wptrs } ∧
      ∀ p, co.wptrs.look c.ch = some p → p.copy = c.id → co'.ptr c.ch = p.s + BitVec.ofNat 32 n := by
  refine ⟨_, State.cohort_updCohort_some hco _, ?_, fun p hp hid => ?_⟩
  · split
    · split <;> rfl
    · rfl
  · simp only [hp, hid, if_true, Cohort.ptr, SMap.look_put_self]

theorem State.cohort_notePtr_ne (s : State) (c : Copy) (n : Nat) {k : Nat} (hk : k ≠ c.slot) : (s.notePtr c n).cohort k = s.cohort k :=
  State.cohort_updCohort_ne _ _ hk

end Sys2Proof.Machine

/-! PROOFS. Copy channels (O50): the oldest copy of a channel from its start to its completion, or to the fault that stops it. -/

namespace Sys2Proof.Machine

/-! ### The head of a channel (R99) -/

theorem State.setHead_eq {s : State} {core ch : Nat} {c : Copy} {rest : List Copy} (h : (s.core core).chan ch = c :: rest) (c' : Copy) :
    s.setHead core ch c' = s.setChan core ch (c' :: rest) := by
  rw [State.setHead, h]
  rfl

theorem State.chan_setHead {s : State} {core ch : Nat} {c : Copy} {rest : List Copy} (h : (s.core core).chan ch = c :: rest) (c' : Copy) :
    ((s.setHead core ch c').core core).chan ch = c' :: rest := by
  rw [State.setHead_eq h, State.chan_setChan]

/-- Of a core a copy's progress changes the channels only. -/
theorem State.buffers_setHead (s : State) (core ch : Nat) (c' : Copy) (k : Nat) :
    ((s.setHead core ch c').core k).asp = (s.core k).asp ∧ ((s.setHead core ch c').core k).wbf = (s.core k).wbf := by
  rw [State.setHead, State.core_setChan_frame]
  exact ⟨rfl, rfl⟩

theorem exec_copyStart {s : State} {core ch : Nat} {c : Copy} {rest : List Copy} (h : (s.core core).chan ch = c :: rest)
    (hs : c.started = false) (hclk : s.clocked (dieOf core) = true) :
    exec (.copyStart core ch) s = .next (s.setChan core ch ({ c with started := true } :: rest)) := by
  show execCopyStart core ch s = _
  simp only [execCopyStart, h, hs, hclk, Bool.not_true, Bool.or_self, Bool.false_eq_true, if_false, State.setHead, List.drop_one,
    List.tail_cons]

/-! ### A unit delivered (R100 to R102) -/

theorem State.core_physWrite (s : State) (key : Nat) (w : Option Nat) (pa : Nat) (bs : List Byte) :
    (s.physWrite key w pa bs).core = s.core := by
  have h := congrArg State.core (s.physWrite_frame key w pa bs)
  exact h

theorem State.copyWrite_memory {s : State} {core : Nat} {c : Copy} {b : Block} {x : Xlat} (hb : s.block c.blk = some b)
    (hk : c.kind = .cpyo) (hx : s.translate (s.coreTlbs core) b.vf (c.dst + BitVec.ofNat 64 c.prog) .write = .ok x) (bs : List Byte) :
    s.copyWrite core c bs = .ok (s.physWrite (s.vf b.vf).key none x.pa bs) := by
  simp only [State.copyWrite, hk, hb, hx]

section
variable {s : State} {core ch : Nat} {c : Copy} {rest : List Copy} {b : Block} {bs : List Byte} {va : W64} {h : Nat}

/-- The copy when a further unit has been delivered. -/
def Copy.advanced (c : Copy) (va : W64) (h : Nat) : Copy := { c with prog := c.prog + c.unit, data := va, half := h }

theorem exec_copyDeliver_one (hrun : s.runningCopy core ch = some c) (hsrc : c.srcDone = false) (hp : s.copyPoison core c = none)
    (hr : s.copyRead core c = .ok (bs, va, h)) (hlen : c.prog + c.unit < c.len) {u : State} (hw : s.copyWrite core c bs = .ok u) :
    exec (.copyDeliver core ch 1) s = .next ((u.setHead core ch (c.advanced va h)).notePtr c (c.prog + c.unit)) := by
  have hone : min 1 c.len = 1 := by omega
  have hmore : (c.srcDone || decide (c.len ≤ c.prog + c.unit)) = false := by
    rw [hsrc, Bool.false_or]
    exact decide_eq_false (by omega)
  show execCopyDeliver core ch 1 s = _
  simp only [execCopyDeliver, hrun, hone, State.deliver, hmore, hp, hr, hw, Bool.false_eq_true, if_false]
  rfl

/-- Of a copy to blocks the unit lands in every destination block. -/
theorem exec_copyDeliver_blocks (hrun : s.runningCopy core ch = some c) (hch : (s.core core).chan ch = c :: rest) (hsrc : c.srcDone = false)
    (hp : s.copyPoison core c = none) (hr : s.copyRead core c = .ok (bs, va, h)) (hk : c.kind ≠ .cpyo) (hlen : c.prog + c.unit < c.len) :
    ∃ t, exec (.copyDeliver core ch 1) s = .next t ∧ (t.core core).chan ch = c.advanced va h :: rest ∧
      (∀ k, c.buf (t.core k) = c.buf ((s.landAll c bs (c.dstBlks.filterMap s.block)).core k)) ∧ t.mem = s.mem ∧ t.blocks = s.blocks ∧
      ∃ u, t = State.notePtr u c (c.prog + c.unit) ∧ u.cohorts = s.cohorts := by
  have hframe := State.landAll_frame (s := s) (c := c) (bs := bs) (ds := c.dstBlks.filterMap s.block)
  have hchan : ((s.landAll c bs (c.dstBlks.filterMap s.block)).core core).chan ch = c :: rest := (State.chan_landAll core ch).trans hch
  have hexec := exec_copyDeliver_one hrun hsrc hp hr hlen (State.copyWrite_blocks hk bs)
  generalize hu : s.landAll c bs (c.dstBlks.filterMap s.block) = u at *
  have hmem := congrArg State.mem hframe
  have hblocks := congrArg State.blocks hframe
  have hcohorts := congrArg State.cohorts hframe
  refine ⟨_, hexec, State.chan_setHead hchan _, fun k => ?_, hmem, hblocks, _, rfl, hcohorts⟩
  obtain ⟨hasp, hwbf⟩ := u.buffers_setHead core ch (c.advanced va h) k
  show (if c.toWbf then _ else _) = if c.toWbf then _ else _
  exact congrArg₂ (fun x y => if c.toWbf = true then x else y) hwbf hasp

/-- Of a copy to device memory the unit is a byte at the translated address. -/
theorem exec_copyDeliver_memory (hrun : s.runningCopy core ch = some c) (hch : (s.core core).chan ch = c :: rest) (hsrc : c.srcDone = false)
    (hb : s.block c.blk = some b) (hp : s.copyPoison core c = none) (hr : s.copyRead core c = .ok (bs, va, h)) {x : Xlat}
    (hk : c.kind = .cpyo) (hd : c.dec = false) (hlen : c.prog + 1 < c.len)
    (hx : s.translate (s.coreTlbs core) b.vf (c.dst + BitVec.ofNat 64 c.prog) .write = .ok x) :
    ∃ t v, bs = [v] ∧ exec (.copyDeliver core ch 1) s = .next t ∧ (t.core core).chan ch = c.advanced va h :: rest ∧
      (∀ k, (t.core k).asp = (s.core k).asp ∧ (t.core k).wbf = (s.core k).wbf) ∧
      ∃ u, t = State.notePtr u c (c.prog + 1) ∧ u.cohorts = (s.physWrite (s.vf b.vf).key none x.pa [v]).cohorts ∧
        ∀ key a, t.physByte key a = (s.physWrite (s.vf b.vf).key none x.pa [v]).physByte key a := by
  have hread := State.copyRead_scratchpad (core := core) hb (.inl hk)
  obtain rfl : bs = [bufAt (s.core b.core).asp (b.aspBase + c.src.toNat + c.prog)] := congrArg (·.1) (Except.ok.inj (hr.symm.trans hread))
  generalize bufAt (s.core b.core).asp (b.aspBase + c.src.toNat + c.prog) = v at hr
  have hunit : c.unit = 1 := by rw [Copy.unit, hd]; rfl
  have hexec := exec_copyDeliver_one hrun hsrc hp hr (hunit ▸ hlen) (State.copyWrite_memory hb hk hx [v])
  have hcores := s.core_physWrite (s.vf b.vf).key none x.pa [v]
  rw [hunit] at hexec
  generalize hu : s.physWrite (s.vf b.vf).key none x.pa [v] = u at hexec hcores
  refine ⟨_, v, rfl, hexec, State.chan_setHead (by rw [hcores]; exact hch) _, fun k => ?_, _, rfl, by rw [hu]; rfl, fun _ _ => by rw [hu]; rfl⟩
  rw [← hcores]
  exact u.buffers_setHead core ch (c.advanced va h) k

/-! ### The last source unit (R107) -/

theorem exec_copySourceReadDone (hrun : s.runningCopy core ch = some c) (hsrc : c.srcDone = false) (hp : s.copyPoison core c = none)
    (hr : s.copyRead core c = .ok (bs, va, h)) (hlen : c.len ≤ c.prog + c.unit) :
    exec (.copySourceReadDone core ch) s = .next (s.sourceDone core ch c bs) := by
  have hmore : (c.srcDone || decide (c.prog + c.unit < c.len)) = false := by
    rw [hsrc, Bool.false_or]
    exact decide_eq_false (by omega)
  show execCopySourceReadDone core ch s = _
  simp only [execCopySourceReadDone, hrun, hmore, hp, hr, Bool.false_eq_true, if_false]

/-- The copy when its last source unit has been read. -/
def Copy.sourced (c : Copy) (bs : List Byte) : Copy := { c with srcDone := true, last := bs }

theorem State.sourceDone_silent (hs : c.snd = false) (bs : List Byte) : s.sourceDone core ch c bs = s.setHead core ch (c.sourced bs) := by
  unfold State.sourceDone
  exact if_neg (Bool.eq_false_iff.1 hs)

theorem State.sourceDone_sends (hb : s.block c.blk = some b) (hs : c.snd = true) (bs : List Byte) :
    s.sourceDone core ch c bs = (s.setHead core ch (c.sourced bs)).lower c.sobj false b := by
  have hb' : (s.setHead core ch (c.sourced bs)).block c.blk = some b := hb
  unfold State.sourceDone
  refine (if_pos hs).trans ((State.barDecrement_eq (s.setHead core ch (c.sourced bs)) c.blk c.sobj false).trans ?_)
  rw [hb']

theorem State.bar_setHead (c' : Copy) (off : Nat) : (s.setHead core ch c').bar b off = s.bar b off :=
  State.bar_congr fun _ _ => congrArg (bufAt · _) (s.buffers_setHead core ch c' b.core).1

/-- The last source unit read: the copy keeps it, and the sender's OUT falls. -/
theorem State.sourceDone_spec (hch : (s.core core).chan ch = c :: rest) (hb : s.block c.blk = some b) (bs : List Byte) :
    ((s.sourceDone core ch c bs).core core).chan ch = c.sourced bs :: rest ∧ (s.sourceDone core ch c bs).cohorts = s.cohorts ∧
      (s.sourceDone core ch c bs).mem = s.mem ∧
      (c.snd = false → ∀ k, ((s.sourceDone core ch c bs).core k).asp = (s.core k).asp) ∧
      (c.snd = true → (s.sourceDone core ch c bs).bar b c.sobj = (s.bar b c.sobj).after ((s.bar b c.sobj).lowered false)) := by
  have hhead := State.chan_setHead hch (c.sourced bs)
  cases hs : c.snd with
  | false =>
    rw [State.sourceDone_silent hs]
    exact ⟨hhead, rfl, rfl, fun _ k => (s.buffers_setHead core ch (c.sourced bs) k).1, nofun⟩
  | true =>
    rw [State.sourceDone_sends hb hs]
    have hframe := (s.setHead core ch (c.sourced bs)).lower_frame c.sobj false b
    have hcohorts := congrArg State.cohorts hframe
    have hmem := congrArg State.mem hframe
    refine ⟨(State.chan_lower ..).trans hhead, hcohorts, hmem, nofun, fun _ => ?_⟩
    rw [State.bar_lower, State.bar_setHead]

/-! ### Completion (R99, R107) -/

theorem exec_copyComplete (hrun : s.runningCopy core ch = some c) (hsrc : c.srcDone = true) {u : State}
    (hw : s.copyWrite core c c.last = .ok u) : exec (.copyComplete core ch) s = .next (u.copyEnd core ch c) := by
  show execCopyComplete core ch s = _
  simp only [execCopyComplete, hrun, hsrc, hw, Bool.not_true, Bool.false_eq_true, if_false]

/-- The copy's cohort told of the end: its pointer at the copy's end, its counter lowered, and blocks that have ended gone. -/
def State.copySettled (s : State) (c : Copy) : State := ((s.notePtr c c.len).opDone c.slot 0 c.id).reap

/-- The channel without its head, and the receivers' objects lowered. -/
def State.copyOffChannel (s : State) (core ch : Nat) (c : Copy) (ds : List Block) : State :=
  if c.rcv then (s.setChan core ch (((s.core core).chan ch).drop 1)).lowerAll c.robj true ds
  else s.setChan core ch (((s.core core).chan ch).drop 1)

theorem State.copyEnd_eq (u : State) (core ch : Nat) (c : Copy) :
    u.copyEnd core ch c = (u.copyOffChannel core ch c (c.dstBlks.filterMap u.block)).copySettled c := by
  have hfold := foldl_blocks (f := State.lower c.robj true) (State.blocks_lower c.robj true) c.dstBlks
    (u.setChan core ch (((u.core core).chan ch).drop 1))
  unfold State.copyEnd State.copyOffChannel
  cases c.rcv with
  | false => rfl
  | true => exact congrArg (fun s : State => s.copySettled c) hfold

section
variable (u : State) (ds : List Block)

theorem State.chan_copyOffChannel : ((u.copyOffChannel core ch c ds).core core).chan ch = ((u.core core).chan ch).drop 1 := by
  unfold State.copyOffChannel
  split
  · rw [State.chan_lowerAll, State.chan_setChan]
  · rw [State.chan_setChan]

theorem State.copyOffChannel_frame : { u.copyOffChannel core ch c ds with cores := u.cores, clusters := u.clusters } = u := by
  unfold State.copyOffChannel
  split
  · have h := congrArg (fun t : State => { t with cores := u.cores })
      (State.lowerAll_frame (s := u.setChan core ch (((u.core core).chan ch).drop 1)) (off := c.robj) (isIn := true) (ds := ds))
    exact h
  · rfl

theorem State.buffers_setChan (l : List Copy) (k : Nat) :
    ((u.setChan core ch l).core k).asp = (u.core k).asp ∧ ((u.setChan core ch l).core k).wbf = (u.core k).wbf := by
  rw [State.core_setChan_frame]
  exact ⟨rfl, rfl⟩

theorem State.wbf_copyOffChannel (k : Nat) : ((u.copyOffChannel core ch c ds).core k).wbf = (u.core k).wbf := by
  unfold State.copyOffChannel
  split
  · exact (State.wbf_lowerAll k).trans (u.buffers_setChan _ k).2
  · exact (u.buffers_setChan _ k).2

variable {ds}

theorem State.asp_copyOffChannel {k a : Nat}
    (h : c.rcv = true → ∀ d ∈ ds, k ≠ d.core ∨ a < d.aspBase + c.robj ∨ d.aspBase + c.robj + 16 ≤ a) :
    bufAt ((u.copyOffChannel core ch c ds).core k).asp a = bufAt (u.core k).asp a := by
  have hchan := congrArg (bufAt · a) (u.buffers_setChan (core := core) (ch := ch) (((u.core core).chan ch).drop 1) k).1
  unfold State.copyOffChannel
  split
  · next hr => exact (State.asp_lowerAll (h hr)).trans hchan
  · exact hchan

theorem State.bar_copyOffChannel (hap : CoresApart ds) (hr : c.rcv = true) {d : Block} (hd : d ∈ ds) :
    (u.copyOffChannel core ch c ds).bar d c.robj = (u.bar d c.robj).after ((u.bar d c.robj).lowered true) := by
  have hchan : (u.setChan core ch (((u.core core).chan ch).drop 1)).bar d c.robj = u.bar d c.robj :=
    State.bar_congr fun _ _ => congrArg (bufAt · _) (u.buffers_setChan _ d.core).1
  unfold State.copyOffChannel
  rw [if_pos hr, State.bar_lowerAll hap hd, hchan]

end

/-- What the end of a copy leaves of its cohort. -/
theorem State.cohort_copySettled {co : Cohort} (hco : s.cohort c.slot = some co) : ∃ co', (s.copySettled c).cohort c.slot = some co' ∧
    co'.lanes = co.lanes ∧ co'.vregs = co.vregs ∧ co'.preds = co.preds ∧
    (∀ p, co.wptrs.look c.ch = some p → p.copy = c.id → co'.ptr c.ch = p.s + BitVec.ofNat 32 c.len) ∧
    ((∃ o, co.ocCopy = [o] ∧ o.id = c.id) → co'.ocCount 0 = 0) := by
  obtain ⟨co₁, hco₁, hframe₁, hptr⟩ := State.cohort_notePtr hco c.len
  have hframe := co₁.finished_frame 0 c.id
  refine ⟨co₁.finished 0 c.id, State.cohort_opDone hco₁ 0 c.id, ?_, ?_, ?_, fun p hp hid => ?_, ?_⟩
  · rw [hframe, hframe₁]
  · rw [hframe, hframe₁]
  · rw [hframe, hframe₁]
  · rw [hframe]
    exact hptr p hp hid
  · rintro ⟨o, ho, hid⟩
    refine Cohort.ocCount_finished (o := o) ?_ hid
    rw [hframe₁]
    exact ho

end

end Sys2Proof.Machine

/-! PROOFS. Copy channels (O50), the end: the last unit with its completion, the fault that stops a copy, and the statement. -/

namespace Sys2Proof.Machine

/-! ### The last unit and the completion (R99, R107) -/

section
variable {s : State} {core ch : Nat} {c : Copy} {rest : List Copy} {bs : List Byte} {ds : List Block}

theorem Copy.mem_blocks {d : Block} : d ∈ c.dstBlks.filterMap s.block ↔ ∃ bi ∈ c.dstBlks, s.block bi = some d := List.mem_filterMap

/-- A byte of the buffer that a copy writes, where no receiver's object is lowered. -/
theorem State.buf_copyOffChannel (u : State) {k a : Nat} (h : c.rcv = true → c.toWbf = false →
      ∀ d ∈ ds, k ≠ d.core ∨ a < d.aspBase + c.robj ∨ d.aspBase + c.robj + 16 ≤ a) :
    bufAt (c.buf ((u.copyOffChannel core ch c ds).core k)) a = bufAt (c.buf (u.core k)) a := by
  unfold Copy.buf
  cases hw : c.toWbf with
  | true => exact congrArg (bufAt · a) (u.wbf_copyOffChannel ds k)
  | false => exact u.asp_copyOffChannel fun hr => h hr hw

variable (hap : CoresApart ds)
  (hobj : c.rcv = true → c.toWbf = false → ∀ d ∈ ds,
    c.place d + bs.length ≤ d.aspBase + c.robj ∨ d.aspBase + c.robj + 16 ≤ c.place d)
include hap hobj

/-- The last unit stands where it landed. -/
theorem State.buf_completed {d : Block} (hd : d ∈ ds) {i : Nat} (hi : i < bs.length) :
    bufAt (c.buf (((s.landAll c bs ds).copyOffChannel core ch c ds).core d.core)) (c.place d + i) = bs.getD i 0 := by
  refine (State.buf_copyOffChannel _ fun hr hw x hx => ?_).trans (State.bufAt_landAll hap hd hi)
  by_cases hc : d.core = x.core
  · obtain rfl := hap.eq hd hx hc
    have := hobj hr hw d hd
    omega
  · exact .inl hc

omit hap hobj in
/-- Of the other bytes those of the receivers' objects may change. -/
theorem State.buf_completed_other {k a : Nat} (h : ∀ d ∈ ds, k ≠ d.core ∨ a < c.place d ∨ c.place d + bs.length ≤ a)
    (hbut : ¬ (c.rcv = true ∧ c.toWbf = false ∧ ∃ d ∈ ds, k = d.core ∧ d.aspBase + c.robj ≤ a ∧ a < d.aspBase + c.robj + 16)) :
    bufAt (c.buf (((s.landAll c bs ds).copyOffChannel core ch c ds).core k)) a = bufAt (c.buf (s.core k)) a := by
  refine (State.buf_copyOffChannel _ fun hr hw d hd => ?_).trans (State.bufAt_landAll_miss fun d hd => ?_)
  · by_contra hin
    exact hbut ⟨hr, hw, d, hd, by omega, by omega, by omega⟩
  · have := h d hd
    omega

/-- A receiver's IN falls by one. -/
theorem State.bar_completed (hr : c.rcv = true) {d : Block} (hd : d ∈ ds) :
    ((s.landAll c bs ds).copyOffChannel core ch c ds).bar d c.robj = (s.bar d c.robj).after ((s.bar d c.robj).lowered true) := by
  have hbar : (s.landAll c bs ds).bar d c.robj = s.bar d c.robj := State.bar_congr fun j hj => State.asp_landAll fun hw x hx => by
    by_cases hc : d.core = x.core
    · obtain rfl := hap.eq hd hx hc
      have := hobj hr hw d hd
      omega
    · exact fun h => hc h.1
  rw [State.bar_copyOffChannel _ hap hr hd, hbar]

end

section
variable {s : State} {core ch : Nat} {c : Copy} {rest : List Copy}

/-- The completion of a copy to blocks. -/
theorem exec_copyComplete_blocks (hrun : s.runningCopy core ch = some c) (hsrc : c.srcDone = true) (hk : c.kind ≠ .cpyo) :
    exec (.copyComplete core ch) s = .next (((s.landAll c c.last (c.dstBlks.filterMap s.block)).copyOffChannel core ch c
      (c.dstBlks.filterMap s.block)).copySettled c) := by
  have hblocks : (s.landAll c c.last (c.dstBlks.filterMap s.block)).block = s.block := by
    have h := congrArg State.block (State.landAll_frame (s := s) (c := c) (bs := c.last) (ds := c.dstBlks.filterMap s.block))
    exact h
  rw [exec_copyComplete hrun hsrc (State.copyWrite_blocks hk c.last), State.copyEnd_eq, hblocks]

/-- The completion of a copy to device memory. -/
theorem exec_copyComplete_memory (hrun : s.runningCopy core ch = some c) (hsrc : c.srcDone = true) {b : Block} (hb : s.block c.blk = some b)
    (hk : c.kind = .cpyo) (hd : c.dstBlks = []) {x : Xlat}
    (hx : s.translate (s.coreTlbs core) b.vf (c.dst + BitVec.ofNat 64 c.prog) .write = .ok x) :
    exec (.copyComplete core ch) s = .next (((s.physWrite (s.vf b.vf).key none x.pa c.last).copyOffChannel core ch c []).copySettled c) := by
  rw [exec_copyComplete hrun hsrc (State.copyWrite_memory hb hk hx c.last), State.copyEnd_eq, hd]
  rfl

/-! ### The fault of a copy (R272, R339, R340; log 69) -/

theorem State.slot_recordFor {slot : Nat} {co : Cohort} {b : Block} (hco : s.cohort slot = some co) (hb : s.block co.blk = some b)
    (r : FaultInfo) : (s.recordFor slot r).slot = BitVec.ofNat 32 slot := by
  simp only [State.recordFor, hco, hb]

theorem State.vfOf_eq {slot : Nat} {co : Cohort} {b : Block} (hco : s.cohort slot = some co) (hb : s.block co.blk = some b) :
    s.vfOf slot = b.vf := by
  simp only [State.vfOf, hco, Option.bind_some, hb]

/-- Why a copy stops, by the code of its fault. -/
theorem State.copyStop_code {a : W64} {code : Nat}
    (h : (c.lost = none ∧ ∃ e acc, s.copyFailure core c = some (a, e, acc) ∧ e.code = code) ∨
      (∃ ipa write, c.lost = some (a, ipa, write) ∧ code = 17)) :
    ∃ e acc, s.copyStop core c = some (a, e, acc) ∧ e.code = code := by
  unfold State.copyStop
  rcases h with ⟨hl, e, acc, hf, he⟩ | ⟨ipa, write, hl, rfl⟩
  · rw [hl]
    exact ⟨e, acc, hf, he⟩
  · rw [hl]
    exact ⟨_, _, rfl, rfl⟩

/-- The record of a copy's fault (R347). -/
def copyRecord (e : XlatErr) (acc : Access) (a : W64) (ch : Nat) : FaultInfo :=
  { xlatRecord e acc a 0 with copy := true, ch := ch, nest := false }

theorem exec_copyFault {b : Block} {a : W64} {e : XlatErr} {acc : Access} (hstart : s.startedCopy core ch = some c)
    (hstop : s.copyStop core c = some (a, e, acc)) (hb : s.block c.blk = some b) (hkill : b.killed = false) :
    exec (.copyFault core ch) s =
      .next ((s.setHead core ch { c with stopped := true }).parkBoundary c.slot (copyRecord e acc a ch) false) := by
  have hlive : ((s.block c.blk).map (·.killed)).getD true = false := by
    rw [hb]
    exact hkill
  show execCopyFault core ch s = _
  simp only [execCopyFault, hstart, hstop, hlive, Bool.false_eq_true, if_false]
  rfl

end

theorem copyFault_parks {s : State} {core ch : Nat} {c : Copy} {rest : List Copy} {b : Block} {co : Cohort} {a : W64} {e : XlatErr}
    {acc : Access} (hstart : s.startedCopy core ch = some c) (hch : (s.core core).chan ch = c :: rest)
    (hstop : s.copyStop core c = some (a, e, acc)) (hb : s.block c.blk = some b) (hkill : b.killed = false)
    (hco : s.cohort c.slot = some co) (hblk : co.blk = c.blk) (hp : co.park = none) (hx : co.tx = none) :
    ∃ t co' r, exec (.copyFault core ch) s = .next t ∧ (t.core core).chan ch = { c with stopped := true } :: rest ∧
      t.cohort c.slot = some co' ∧ co' = { co with park := some r, waits := [], xaddr := a.setWidth 32 } ∧ r.code = e.code ∧
      r.cls = 2 ∧ r.addr = a ∧
      r.copy = true ∧ r.ch = ch ∧ r.slot = BitVec.ofNat 32 c.slot ∧ (t.vf b.vf).records = (s.vf b.vf).records ++ [r] ∧
      t.mem = s.mem ∧ ∀ k, k ≠ c.slot → t.cohort k = s.cohort k := by
  have hexec := exec_copyFault hstart hstop hb hkill
  have hchan := State.chan_setHead hch { c with stopped := true }
  have hvf : ∀ v, (s.setHead core ch { c with stopped := true }).vf v = s.vf v := fun _ => rfl
  have hcohort : ∀ k, (s.setHead core ch { c with stopped := true }).cohort k = s.cohort k := fun _ => rfl
  have hmem : (s.setHead core ch { c with stopped := true }).mem = s.mem := rfl
  have hb' : (s.setHead core ch { c with stopped := true }).block co.blk = some b := hblk ▸ hb
  generalize s.setHead core ch { c with stopped := true } = u at hexec hchan hvf hcohort hmem hb'
  have hco' := (hcohort c.slot).trans hco
  have hself := u.cohort_setCohort_self c.slot (co.faultAt (copyRecord e acc a ch).addr)
  rw [State.parkBoundary_noTx hco' hp rfl false hx, State.vfOf_eq hco' hb'] at hexec
  have hslot := State.slot_recordFor hself hb' (co.boundaryRecord (copyRecord e acc a ch) false)
  have hrec := State.recordFor_frame (u.setCohort c.slot (co.faultAt (copyRecord e acc a ch).addr)) c.slot
    (co.boundaryRecord (copyRecord e acc a ch) false)
  generalize State.recordFor _ c.slot (co.boundaryRecord (copyRecord e acc a ch) false) = r at hexec hslot hrec
  refine ⟨_, _, r, hexec, hchan, State.cohort_setCohort_self .., rfl, ?_, ?_, ?_, ?_, ?_, hslot, ?_, hmem, fun k hk => ?_⟩
  · rw [hrec]; rfl
  · rw [hrec]; rfl
  · rw [hrec]; rfl
  · rw [hrec]; rfl
  · rw [hrec]; rfl
  · rw [State.postRecord, State.vf_updVf, if_pos rfl]
    exact congrArg (fun v : Vf => v.records ++ [r]) (hvf b.vf)
  · refine Eq.trans ?_ (hcohort k)
    refine (State.cohort_setCohort ..).trans ((if_neg hk).trans ?_)
    exact (State.cohort_setCohort ..).trans (if_neg hk)

/-! ### The parts of the statement -/

/-- The destination blocks are resident, on cores of their own. -/
def Copy.Apart (s : State) (c : Copy) : Prop :=
  (∀ bi ∈ c.dstBlks, (s.block bi).isSome = true) ∧
    c.dstBlks.Pairwise (fun x y => ∀ dx dy, s.block x = some dx → s.block y = some dy → dx.core ≠ dy.core)

/-- Bytes have landed at every destination block; of the other bytes of the buffers those of `but` may have changed. -/
def Copy.Lands (s t : State) (c : Copy) (bs : List Byte) (but : Nat → Nat → Prop) : Prop :=
  (∀ bi ∈ c.dstBlks, ∀ d, s.block bi = some d → ∀ i < bs.length, bufAt (c.buf (t.core d.core)) (c.place d + i) = bs.getD i 0) ∧
    (∀ k a, (∀ bi ∈ c.dstBlks, ∀ d, s.block bi = some d → k ≠ d.core ∨ a < c.place d ∨ c.place d + bs.length ≤ a) →
      ¬ but k a → bufAt (c.buf (t.core k)) a = bufAt (c.buf (s.core k)) a) ∧ t.mem = s.mem

/-- The posting cohort's pointer has come to `n` bytes, and its lanes and registers are as before. -/
def Copy.Points (s t : State) (c : Copy) (n : Nat) : Prop :=
  ∀ co p, s.cohort c.slot = some co → co.wptrs.look c.ch = some p → p.copy = c.id →
    ∃ co', t.cohort c.slot = some co' ∧ co'.ptr c.ch = p.s + BitVec.ofNat 32 n ∧ co'.lanes = co.lanes ∧ co'.vregs = co.vregs ∧
      co'.preds = co.preds

/-- The copy is off its channel, and its cohort told of it. -/
def Copy.Ended (s t : State) (core ch : Nat) (c : Copy) (rest : List Copy) : Prop :=
  (t.core core).chan ch = rest ∧ c.Points s t c.len ∧
    ∀ co, s.cohort c.slot = some co → ∃ co', t.cohort c.slot = some co' ∧ co'.lanes = co.lanes ∧ co'.vregs = co.vregs ∧
      co'.preds = co.preds ∧ ((∃ o, co.ocCopy = [o] ∧ o.id = c.id) → co'.ocCount 0 = 0)

section
variable {s : State} {core ch : Nat} {c : Copy} {rest : List Copy}

theorem Copy.Apart.cores (h : Copy.Apart s c) : CoresApart (c.dstBlks.filterMap s.block) := coresApart_filterMap h.2

theorem Copy.lands_of_blocks {t : State} {bs : List Byte} {but : Nat → Nat → Prop}
    (hit : ∀ d ∈ c.dstBlks.filterMap s.block, ∀ i < bs.length, bufAt (c.buf (t.core d.core)) (c.place d + i) = bs.getD i 0)
    (miss : ∀ k a, (∀ d ∈ c.dstBlks.filterMap s.block, k ≠ d.core ∨ a < c.place d ∨ c.place d + bs.length ≤ a) → ¬ but k a →
      bufAt (c.buf (t.core k)) a = bufAt (c.buf (s.core k)) a) (hm : t.mem = s.mem) : c.Lands s t bs but :=
  ⟨fun bi hbi d hd => hit d (Copy.mem_blocks.2 ⟨bi, hbi, hd⟩), fun k a hk => miss k a fun d hd => by
    obtain ⟨bi, hbi, hd⟩ := Copy.mem_blocks.1 hd
    exact hk bi hbi d hd, hm⟩

/-- A pointer told of a state whose cohort differs in nothing that counts here. -/
theorem Copy.points_notePtr {u : State} {n : Nat} (h : ∀ co, s.cohort c.slot = some co → ∃ tx, u.cohort c.slot = some { co with tx := tx }) :
    c.Points s (u.notePtr c n) n := by
  intro co p hco hp hid
  obtain ⟨tx, htx⟩ := h co hco
  obtain ⟨co', hco', hframe, hptr⟩ := State.cohort_notePtr htx n
  exact ⟨co', hco', hptr p hp hid, by rw [hframe], by rw [hframe], by rw [hframe]⟩

theorem Copy.ended_copySettled {u : State} (hch : (u.core core).chan ch = rest)
    (h : ∀ co, s.cohort c.slot = some co → ∃ tx, u.cohort c.slot = some { co with tx := tx }) :
    c.Ended s (u.copySettled c) core ch rest := by
  refine ⟨hch, fun co p hco hp hid => ?_, fun co hco => ?_⟩
  · obtain ⟨tx, htx⟩ := h co hco
    obtain ⟨co', hco', hl, hv, hpr, hptr, -⟩ := State.cohort_copySettled htx
    exact ⟨co', hco', hptr p hp hid, hl, hv, hpr⟩
  · obtain ⟨tx, htx⟩ := h co hco
    obtain ⟨co', hco', hl, hv, hpr, -, hoc⟩ := State.cohort_copySettled htx
    exact ⟨co', hco', hl, hv, hpr, hoc⟩

/-- A write of memory marks open transactions, and changes nothing else of a cohort. -/
theorem State.cohort_physWrite_tx (s : State) (key pa : Nat) (bs : List Byte) {k : Nat} {co : Cohort} (h : s.cohort k = some co) :
    ∃ tx, (s.physWrite key none pa bs).cohort k = some { co with tx := tx } := by
  obtain ⟨f, hf⟩ := s.cohort_physWrite key none pa bs
  refine ⟨co.tx.map (f k), ?_⟩
  rw [hf, h]
  exact congrArg some (if_neg nofun)

/-- Of a copy to blocks a unit is delivered. -/
theorem copyDeliver_blocks {bs : List Byte} {va : W64} {h : Nat} (hrun : s.runningCopy core ch = some c)
    (hch : (s.core core).chan ch = c :: rest) (hsrc : c.srcDone = false) (hp : s.copyPoison core c = none)
    (hr : s.copyRead core c = .ok (bs, va, h)) (hk : c.kind ≠ .cpyo) (hap : c.Apart s) (hlen : c.prog + c.unit < c.len) :
    ∃ t, exec (.copyDeliver core ch 1) s = .next t ∧ (t.core core).chan ch = c.advanced va h :: rest ∧
      c.Lands s t bs (fun _ _ => False) ∧ t.blocks = s.blocks ∧ c.Points s t (c.prog + c.unit) ∧
      ∀ k, k ≠ c.slot → t.cohort k = s.cohort k := by
  obtain ⟨t, hexec, hchan, hbuf, hmem, hblocks, u, rfl, hu⟩ := exec_copyDeliver_blocks hrun hch hsrc hp hr hk hlen
  have hcohort : u.cohort = s.cohort := by
    funext k
    rw [State.cohort, hu]
    rfl
  refine ⟨_, hexec, hchan, Copy.lands_of_blocks (fun d hd i hi => ?_) (fun k a hm _ => ?_) hmem, hblocks,
    Copy.points_notePtr fun co hco => ⟨co.tx, by rw [hcohort, hco]⟩, fun k hk => ?_⟩
  · rw [hbuf]
    exact State.bufAt_landAll hap.cores hd hi
  · rw [hbuf]
    exact State.bufAt_landAll_miss fun d hd => by have := hm d hd; omega
  · rw [State.cohort_notePtr_ne _ _ _ hk, hcohort]

/-- Of a copy to device memory a unit is delivered. -/
theorem copyDeliver_memory {b : Block} {bs : List Byte} {va : W64} {h : Nat} (hrun : s.runningCopy core ch = some c)
    (hch : (s.core core).chan ch = c :: rest) (hsrc : c.srcDone = false) (hb : s.block c.blk = some b) (hp : s.copyPoison core c = none)
    (hr : s.copyRead core c = .ok (bs, va, h)) {x : Xlat} (hk : c.kind = .cpyo) (hd : c.dec = false) (hlen : c.prog + 1 < c.len)
    (hx : s.translate (s.coreTlbs core) b.vf (c.dst + BitVec.ofNat 64 c.prog) .write = .ok x) :
    ∃ t, exec (.copyDeliver core ch 1) s = .next t ∧ (t.core core).chan ch = c.advanced va h :: rest ∧
      t.physByte (s.vf b.vf).key x.pa = bs.getD 0 0 ∧
      (∀ a, a ≠ x.pa → t.physByte (s.vf b.vf).key a = s.physByte (s.vf b.vf).key a) ∧
      (∀ k, (t.core k).asp = (s.core k).asp ∧ (t.core k).wbf = (s.core k).wbf) ∧ c.Points s t (c.prog + 1) := by
  obtain ⟨t, v, rfl, hexec, hchan, hbuf, u, rfl, hu, hbyte⟩ := exec_copyDeliver_memory hrun hch hsrc hb hp hr hk hd hlen hx
  refine ⟨_, hexec, hchan, ?_, fun a ha => ?_, hbuf, Copy.points_notePtr fun co hco => ?_⟩
  · rw [hbyte, State.physByte_physWrite, if_pos (by simp), Nat.sub_self]
  · rw [hbyte, State.physByte_physWrite, if_neg (by simp only [List.length_singleton]; omega)]
  · obtain ⟨tx, htx⟩ := s.cohort_physWrite_tx (s.vf b.vf).key x.pa [v] hco
    exact ⟨tx, by rw [State.cohort, hu]; exact htx⟩

/-- A copy to blocks completes. -/
theorem copyComplete_blocks (hrun : s.runningCopy core ch = some c) (hch : (s.core core).chan ch = c :: rest) (hsrc : c.srcDone = true)
    (hk : c.kind ≠ .cpyo) (hap : c.Apart s) (hobj : ∀ bi ∈ c.dstBlks, ∀ d, s.block bi = some d → c.rcv = true → c.toWbf = false →
      c.place d + c.last.length ≤ d.aspBase + c.robj ∨ d.aspBase + c.robj + 16 ≤ c.place d) :
    ∃ t, exec (.copyComplete core ch) s = .next t ∧ c.Ended s t core ch rest ∧
      c.Lands s t c.last (fun k a => c.rcv = true ∧ c.toWbf = false ∧
        ∃ bi ∈ c.dstBlks, ∃ d, s.block bi = some d ∧ k = d.core ∧ d.aspBase + c.robj ≤ a ∧ a < d.aspBase + c.robj + 16) ∧
      (c.rcv = true → ∀ bi ∈ c.dstBlks, ∀ d, s.block bi = some d →
        t.bar d c.robj = (s.bar d c.robj).after ((s.bar d c.robj).lowered true)) := by
  have hobj' : c.rcv = true → c.toWbf = false → ∀ d ∈ c.dstBlks.filterMap s.block,
      c.place d + c.last.length ≤ d.aspBase + c.robj ∨ d.aspBase + c.robj + 16 ≤ c.place d := fun hr hw d hd => by
    obtain ⟨bi, hbi, hd⟩ := Copy.mem_blocks.1 hd
    exact hobj bi hbi d hd hr hw
  have hframe := State.copyOffChannel_frame (core := core) (ch := ch) (c := c)
    (s.landAll c c.last (c.dstBlks.filterMap s.block)) (c.dstBlks.filterMap s.block)
  have hmem := congrArg State.mem hframe
  have hcohorts := congrArg State.cohorts hframe
  have hland := State.landAll_frame (s := s) (c := c) (bs := c.last) (ds := c.dstBlks.filterMap s.block)
  have hmem' := congrArg State.mem hland
  have hcohorts' := congrArg State.cohorts hland
  refine ⟨_, exec_copyComplete_blocks hrun hsrc hk, Copy.ended_copySettled ?_ fun co hco => ⟨co.tx, ?_⟩,
    Copy.lands_of_blocks (fun d hd i hi => State.buf_completed hap.cores hobj' hd hi) (fun k a hm hbut => ?_) (hmem.trans hmem'),
    fun hr bi hbi d hd => State.bar_completed hap.cores hobj' hr (Copy.mem_blocks.2 ⟨bi, hbi, hd⟩)⟩
  · rw [State.chan_copyOffChannel, State.chan_landAll, hch]
    rfl
  · exact (congrArg (fun m : SMap Cohort => m.look c.slot) (hcohorts.trans hcohorts')).trans hco
  · refine State.buf_completed_other hm fun ⟨hr, hw, d, hd, hin⟩ => hbut ⟨hr, hw, ?_⟩
    obtain ⟨bi, hbi, hd⟩ := Copy.mem_blocks.1 hd
    exact ⟨bi, hbi, d, hd, hin⟩

/-- A copy to device memory completes. -/
theorem copyComplete_memory (hrun : s.runningCopy core ch = some c) (hch : (s.core core).chan ch = c :: rest) (hsrc : c.srcDone = true)
    {b : Block} (hb : s.block c.blk = some b) (hk : c.kind = .cpyo) (hd : c.dstBlks = []) {v : Byte} (hl : c.last = [v]) {x : Xlat}
    (hx : s.translate (s.coreTlbs core) b.vf (c.dst + BitVec.ofNat 64 c.prog) .write = .ok x) :
    ∃ t, exec (.copyComplete core ch) s = .next t ∧ c.Ended s t core ch rest ∧ t.physByte (s.vf b.vf).key x.pa = v ∧
      (∀ a, a ≠ x.pa → t.physByte (s.vf b.vf).key a = s.physByte (s.vf b.vf).key a) ∧
      ∀ k, (t.core k).asp = (s.core k).asp ∧ (t.core k).wbf = (s.core k).wbf := by
  have hexec := exec_copyComplete_memory hrun hsrc hb hk hd hx
  rw [hl] at hexec
  have hcores := s.core_physWrite (s.vf b.vf).key none x.pa [v]
  have hbyte := s.physByte_physWrite (s.vf b.vf).key none x.pa [v]
  have hcohort := fun co => s.cohort_physWrite_tx (s.vf b.vf).key x.pa [v] (k := c.slot) (co := co)
  generalize s.physWrite (s.vf b.vf).key none x.pa [v] = u at hexec hcores hbyte hcohort
  have hoff : u.copyOffChannel core ch c [] = u.setChan core ch (((u.core core).chan ch).drop 1) := by
    unfold State.copyOffChannel
    split <;> rfl
  rw [hoff] at hexec
  refine ⟨_, hexec, Copy.ended_copySettled ?_ hcohort, (hbyte x.pa).trans ?_, fun a ha => (hbyte a).trans ?_, fun k => ?_⟩
  · rw [State.chan_setChan, hcores, hch]
    rfl
  · rw [if_pos (by simp), Nat.sub_self]
    rfl
  · exact if_neg (by simp only [List.length_singleton]; omega)
  · rw [← hcores]
    exact u.buffers_setChan (((u.core core).chan ch).drop 1) k

end

/-- What a channel reads in decode mode, and the data byte at which it goes on. -/
theorem copyRead_decoded {s : State} {core : Nat} {c : Copy} {b : Block} {x y : Xlat} {q : QFmt} (hb : s.block c.blk = some b)
    (hk : c.kind = .cpy ∨ c.kind = .cpym) (hd : c.dec = true) (hx : s.translate (s.coreTlbs core) b.vf c.data .read = .ok x)
    (hq : qfmtOf x.fattr = some q) (hlo : x.page ≤ c.data.toNat) (hhi : c.data.toNat < x.page + x.size)
    (hdata : q.isData (c.data.toNat - x.page) x.size = true)
    (hy : q.efmt ≤ 2 → s.translate (s.coreTlbs core) b.vf
      (BitVec.ofNat 64 (x.page + q.scaleOff (c.data.toNat - x.page) c.half)) .read = .ok y) :
    ∃ next h, s.copyRead core c = .ok (bytesLE 2 (roundFmt fmtBf .rne false false (v32 (q.decode (s.physByte (s.vf b.vf).key x.pa).toNat
        c.half (if q.efmt ≤ 2 then leNat (s.physRead (s.vf b.vf).key y.pa 4) else 0)))).bits, BitVec.ofNat 64 next, h) ∧
      (q.efmt = 2 → c.half = 0 → next = c.data.toNat ∧ h = 1) ∧
      (q.efmt ≠ 2 ∨ c.half ≠ 0 → h = 0 ∧ c.data.toNat < next ∧ next ≤ x.page + x.size ∧
        (next < x.page + x.size → q.isData (next - x.page) x.size = true) ∧
        ∀ a, c.data.toNat < a → a < next → q.isData (a - x.page) x.size = false) := by
  have hread := State.copyRead_decode hb hk hd hx hq hdata hy
  by_cases hn : q.efmt = 2 ∧ c.half = 0
  · rw [if_pos hn] at hread
    refine ⟨c.data.toNat, 1, ?_, fun _ _ => ⟨rfl, rfl⟩, fun h => absurd hn (by tauto)⟩
    rw [hread, BitVec.ofNat_toNat, BitVec.setWidth_eq]
  · rw [if_neg hn] at hread
    obtain ⟨n, hnext, hlater, hin, hnew, hfirst⟩ := QFmt.nextData_spec (qfmtOf_block hq) hlo hhi hdata
    refine ⟨x.page + n, 0, hnext ▸ hread, fun h1 h2 => absurd ⟨h1, h2⟩ hn, fun _ => ⟨rfl, by omega, by omega, fun hlt => ?_, fun a h1 h2 => ?_⟩⟩
    · rw [Nat.add_sub_cancel_left]
      exact hnew (by omega)
    · exact hfirst _ (by omega) (by omega)

/-- Settles O50: a copy starts, reads, delivers, completes or stops as the lemmas above say, each for its step. -/
theorem copyChannels : Obligations.CopyChannels := by
  unfold Obligations.CopyChannels
  intro offset place buf apart lands pointer
  refine ⟨fun s core ch c rest hch hs hclk => ?_, fun s core c b x y q hb => ?_,
    fun s core ch c rest b bs va h hrun hch hsrc hb hp hr => ?_, fun s core ch c rest b hrun hch hsrc hb => ?_,
    fun s core ch c rest b co a code hstart hch hwhy hb hkill hco hblk hp hx => ?_⟩
  · exact ⟨_, exec_copyStart hch hs hclk, State.chan_setChan .., fun k hk => State.chan_setChan_ne _ _ _ _ hk,
      (s.buffers_setChan _ core).1, fun k hk => State.core_setChan_ne _ _ _ _ hk, rfl⟩
  · intro tl key
    refine ⟨State.copyRead_scratchpad hb, State.copyRead_memory hb, fun hk hd hx hq hlo hhi _ => ?_⟩
    exact copyRead_decoded hb hk hd hx hq hlo hhi
  · intro c'
    refine ⟨fun hk hap hlen => copyDeliver_blocks hrun hch hsrc hp hr hk hap hlen,
      fun x hk hd hlen hx => copyDeliver_memory hrun hch hsrc hb hp hr hk hd hlen hx, fun hlen => ?_⟩
    obtain ⟨hchan, hcohorts, hmem, hquiet, hbar⟩ := State.sourceDone_spec hch hb bs
    exact ⟨_, exec_copySourceReadDone hrun hsrc hp hr hlen, hchan, hcohorts, hmem, hquiet,
      fun hs hout => (hbar hs).trans (Bar.after_lowered_out hout)⟩
  · intro ended obj
    refine ⟨fun hk hap hobj => ?_, fun x v hk hd hl hx => copyComplete_memory hrun hch hsrc hb hk hd hl hx⟩
    obtain ⟨t, hexec, hend, hland, hbar⟩ := copyComplete_blocks hrun hch hsrc hk hap hobj
    exact ⟨t, hexec, hend, hland, fun hr bi hbi d hd hin => (hbar hr bi hbi d hd).trans (Bar.after_lowered_in hin)⟩
  · obtain ⟨e, acc, hstop, rfl⟩ := State.copyStop_code hwhy
    exact copyFault_parks hstart hch hstop hb hkill hco hblk hp hx

end Sys2Proof.Machine
